-- ==== Sys2Proof/Word.lean ====
section
/-!
DEFINITION. The word types of the Zoith ZT9 and their plainest arithmetic (spec 02 R32, 13 R300).
-/

namespace Sys2Proof

/-- A 64-bit scalar word. -/
abbrev Word := BitVec 64

/-- A byte. -/
abbrev Byte := BitVec 8

/-- One 32-bit instruction word (12 R273). -/
abbrev IWord := BitVec 32

/-- A vector register, 512 bits (08 R182). -/
abbrev VWord := BitVec 512

/-- A number of a scalar or vector register as its five-bit field holds it (12 R274). -/
abbrev Reg := BitVec 5

end Sys2Proof
end

