-- ==== Sys2Proof/Config.lean ====
section
/-!
DEFINITION. What the spec leaves to an implementation or leaves open, as free values: constants with no body, so that no proof can
rest on what they are. Each is named in the assumption log.
-/

namespace Sys2Proof

/-- Whether a home declines the n-th speculative atomic 'for any other reason' (R174). -/
opaque Config.specDeclined : Nat → Bool

/-- Main-clock cycles the n-th step takes beyond the first; the spec gives no figure that binds (R26). -/
opaque Config.stepCycles : Nat → Nat

/-- Nanoseconds by which TIME advances over the n-th step (R320). -/
opaque Config.stepTime : Nat → Nat

/-- Reads that an instruction or engine lost to another in the n-th step, per bank: added to BANKCF (R71, R72). -/
opaque Config.bankLosses : Nat → BitVec 3 → Nat

/-- Matrix-engine cycles stalled on the expander over the n-th step (R118, R72). -/
opaque Config.expanderStall : Nat → Nat

/-- Declared VREGS of the n-th context activated at a WP that no launch placed (R247); read modulo 33. -/
opaque Config.unplacedVregs : Nat → Nat

/-- Declared BREGS of the n-th context activated at a WP that no launch placed (R247); read modulo 17. -/
opaque Config.unplacedBregs : Nat → Nat

/-- The main clock's frequency in hertz under a power limit of so many watts (R465). -/
opaque Config.cappedClock : Nat → Nat

/-- The device identity public key, 32 bytes (R468). -/
opaque Config.identityKey : BitVec 256

/-- The SLH-DSA-SHA2-128s signature of a 168-byte message under the identity key, 7,856 bytes (R467). -/
opaque Config.signature : BitVec 1344 → BitVec 62848

/-- A partition configuration as the bytes whose digest extends MEAS2: its numbers in the order dies, first die, width, height, column origin and
stitch mode, then the row map of each die, behind its length (R467). -/
opaque Config.configBytes : List Nat → List Byte

/-- Bits of a register or memory byte that the spec leaves open, for the n-th use. -/
opaque Config.freeWord : Nat → Word

/-- What a register or tile of a mirror holds after an uncorrectable error, for the n-th use; a register takes its low bits (R253). -/
opaque Config.freeTile : Nat → BitVec 131072

end Sys2Proof
end

