-- ==== Sys2Proof/Syntax.lean ====
section
/-!
DEFINITION. The instructions of the ZT9: one constructor per row of spec/opcode_table.json. The first
205 kinds are encoded words (spec 12); the rows without a word are the machine's own steps (spec 95), whose operands
name what the step happens to.
-/

namespace Sys2Proof

/-- Element types of a vector operation, in code order 0..7 (R277). -/
inductive Ty where
  | sb | sh | sw | ub | uh | hf | bf | sf
  deriving DecidableEq, Repr

/-- Group width of a vector operand: one register, a pair, a quad or an octet (R276). -/
inductive Wd where
  | w1 | w2 | w4 | w8
  deriving DecidableEq, Repr

/-- Scopes of an ordering, codes 0..5 (R164). -/
inductive Scope where
  | core | gang | clu | die | dev | sys
  deriving DecidableEq, Repr

/-- Kinds of FENCE, codes 1..3 (R165, R284). -/
inductive FenceKind where
  | acq | rel | full
  deriving DecidableEq, Repr

/-- AMO operations, codes 0..8 (R285). -/
inductive AmoOp where
  | add | and | or | xor | min | max | minu | maxu | swap
  deriving DecidableEq, Repr

/-- Declared use of a relaxed atomic, codes 0..4 (R172). -/
inductive AtomUse where
  | unp | comm | nord | quant | spec
  deriving DecidableEq, Repr

/-- Ordering of an atomic: relaxed with a use, or acquire, release or both with a scope (R171, R285). -/
inductive AtomOrder where
  | relaxed (use : AtomUse)
  | acq (scope : Scope)
  | rel (scope : Scope)
  | acqrel (scope : Scope)
  deriving DecidableEq, Repr

/-- Modes of TLBINV (R327). -/
inductive TlbMode where
  | all | asid | va
  deriving DecidableEq, Repr

/-- The plane suffix of VLD and VST: none, or .p1 to .p8 held as count - 1 (R288). -/
inductive PlaneSel where
  | stored
  | planes (countLess1 : BitVec 3)
  deriving DecidableEq, Repr

/-- Kinds of a stream, codes 0..3 (R138). -/
inductive StreamKind where
  | denseRead | denseWrite | line | list
  deriving DecidableEq, Repr

/-- What a boot brings in: the digest of the image in the module flash, whether the signature of the image that is read verifies, that image's
entry, and, where the host has set HOSTIMG by then, the image that it has written through BAR2 at offset 0 (R466). -/
structure BootImage where
  digest   : BitVec 256
  verified : Bool
  entry    : BitVec 48
  host     : Option (List (BitVec 8))
  deriving DecidableEq, Repr

/-- A host access through BAR2: a write, a read of some bytes, or one of the 64-bit AtomicOps that the device completes (R461). -/
inductive Bar2Access where
  | write (data : List (BitVec 8))
  | read (n : Nat)
  | fetchAdd (v : BitVec 64)
  | swap (v : BitVec 64)
  | cas (c v : BitVec 64)
  deriving DecidableEq, Repr

/-- A partition's configuration (R21, R24, R146, R469): number, dies, extents in cores, column origin and cluster-row map per
die, stitch mode code, and the FVEC and FDELEG that each of its cores is given. -/
structure PartConfig where
  number : BitVec 6
  dies   : Nat
  die0   : Nat
  width  : Nat
  height : Nat
  col0   : Nat
  rows0  : List Nat
  rows1  : List Nat
  stitch : BitVec 2
  fvec   : Word
  fdeleg : Word
  deriving DecidableEq, Repr

/-- The instructions: those with operands in the order of the opcode table, then those without. -/
inductive Instr where
  /-- ADD (R301). Adds rs1 and rs2 into rd, keeping and range-checking a non-zero tag of rs1. -/
  | add (rd rs1 rs2 : Reg)
  /-- SUB (R301). Subtracts rs2 from rs1 into rd, keeping and range-checking a non-zero tag of rs1. -/
  | sub (rd rs1 rs2 : Reg)
  /-- AND (R301). Bitwise AND of rs1 and rs2 into rd. -/
  | and (rd rs1 rs2 : Reg)
  /-- OR (R301). Bitwise OR of rs1 and rs2 into rd. -/
  | or (rd rs1 rs2 : Reg)
  /-- XOR (R301). Bitwise XOR of rs1 and rs2 into rd. -/
  | xor (rd rs1 rs2 : Reg)
  /-- ANDN (R301). rs1 AND NOT rs2 into rd. -/
  | andn (rd rs1 rs2 : Reg)
  /-- ORN (R301). rs1 OR NOT rs2 into rd. -/
  | orn (rd rs1 rs2 : Reg)
  /-- SLL (R301). Shifts rs1 left by rs2[5:0] into rd. -/
  | sll (rd rs1 rs2 : Reg)
  /-- SRL (R301). Shifts rs1 right logically by rs2[5:0] into rd. -/
  | srl (rd rs1 rs2 : Reg)
  /-- SRA (R301). Shifts rs1 right arithmetically by rs2[5:0] into rd. -/
  | sra (rd rs1 rs2 : Reg)
  /-- SLLI (R302). Shifts rs1 left by an immediate amount into rd. -/
  | slli (rd rs1 : Reg) (sh : BitVec 6)
  /-- SRLI (R302). Shifts rs1 right logically by an immediate amount into rd. -/
  | srli (rd rs1 : Reg) (sh : BitVec 6)
  /-- SRAI (R302). Shifts rs1 right arithmetically by an immediate amount into rd. -/
  | srai (rd rs1 : Reg) (sh : BitVec 6)
  /-- SLT (R301). Sets rd to 1 if rs1 is less than rs2, compared signed. -/
  | slt (rd rs1 rs2 : Reg)
  /-- SLTU (R301). Sets rd to 1 if rs1 is less than rs2, compared unsigned. -/
  | sltu (rd rs1 rs2 : Reg)
  /-- MIN (R301). Signed minimum of rs1 and rs2 into rd. -/
  | min (rd rs1 rs2 : Reg)
  /-- MAX (R301). Signed maximum of rs1 and rs2 into rd. -/
  | max (rd rs1 rs2 : Reg)
  /-- MINU (R301). Unsigned minimum of rs1 and rs2 into rd. -/
  | minu (rd rs1 rs2 : Reg)
  /-- MAXU (R301). Unsigned maximum of rs1 and rs2 into rd. -/
  | maxu (rd rs1 rs2 : Reg)
  /-- MUL (R301). Low 64 bits of rs1 times rs2 into rd. -/
  | mul (rd rs1 rs2 : Reg)
  /-- MULH (R301). High 64 bits of the signed product into rd. -/
  | mulh (rd rs1 rs2 : Reg)
  /-- MULHU (R301). High 64 bits of the unsigned product into rd. -/
  | mulhu (rd rs1 rs2 : Reg)
  /-- DIV (R34). Signed division rounded towards zero, with the fixed results for zero and overflow cases. -/
  | div (rd rs1 rs2 : Reg)
  /-- DIVU (R34). Unsigned division, with all ones for a zero divisor. -/
  | divu (rd rs1 rs2 : Reg)
  /-- REM (R34). Signed remainder with the sign of the dividend. -/
  | rem (rd rs1 rs2 : Reg)
  /-- REMU (R34). Unsigned remainder. -/
  | remu (rd rs1 rs2 : Reg)
  /-- CLZ (R303). Counts leading zero bits of rs1 into rd. -/
  | clz (rd rs1 : Reg)
  /-- CTZ (R303). Counts trailing zero bits of rs1 into rd. -/
  | ctz (rd rs1 : Reg)
  /-- POPC (R303). Counts one bits of rs1 into rd. -/
  | popc (rd rs1 : Reg)
  /-- SEXTB (R303). Sign-extends rs1[7:0] into rd. -/
  | sextb (rd rs1 : Reg)
  /-- SEXTH (R303). Sign-extends rs1[15:0] into rd. -/
  | sexth (rd rs1 : Reg)
  /-- SEXTW (R303). Sign-extends rs1[31:0] into rd. -/
  | sextw (rd rs1 : Reg)
  /-- ZEXTW (R303). Zero-extends rs1[31:0] into rd. -/
  | zextw (rd rs1 : Reg)
  /-- CSEL (R304). Sets rd to rs2 if rs1 is non-zero, else keeps rd. -/
  | csel (rd rs1 rs2 : Reg)
  /-- PTAG (R305). Replaces the tag of rs1 with rs2[7:0]. -/
  | ptag (rd rs1 rs2 : Reg)
  /-- PFMT (R305). Extracts the format code of a pointer. -/
  | pfmt (rd rs1 : Reg)
  /-- PBLK (R305). Extracts the block-length field of a pointer. -/
  | pblk (rd rs1 : Reg)
  /-- PMESH (R305). Builds a mesh address from a coordinate word and rs2's tag and offset. -/
  | pmesh (rd rs1 rs2 : Reg)
  /-- ADDI (R306). Adds a sign-extended immediate to rs1 with tag-keeping arithmetic. -/
  | addi (rd rs1 : Reg) (imm : BitVec 16)
  /-- ANDI (R306). ANDs rs1 with a zero-extended immediate. -/
  | andi (rd rs1 : Reg) (imm : BitVec 16)
  /-- ORI (R306). ORs rs1 with a zero-extended immediate. -/
  | ori (rd rs1 : Reg) (imm : BitVec 16)
  /-- XORI (R306). XORs rs1 with a zero-extended immediate. -/
  | xori (rd rs1 : Reg) (imm : BitVec 16)
  /-- SLTI (R306). Sets rd to 1 if rs1 is below the immediate, signed. -/
  | slti (rd rs1 : Reg) (imm : BitVec 16)
  /-- SLTIU (R306). Sets rd to 1 if rs1 is below the sign-extended immediate, unsigned. -/
  | sltiu (rd rs1 : Reg) (imm : BitVec 16)
  /-- LUI (R307). Loads the sign-extended immediate shifted left by 16 into rd. -/
  | lui (rd : Reg) (imm : BitVec 16)
  /-- AUIPC (R307). Adds the immediate shifted left by 16 to the PC into rd. -/
  | auipc (rd : Reg) (imm : BitVec 16)
  /-- SHORI (R307). Shifts rs1 left by 16 and ORs in the immediate. -/
  | shori (rd rs1 : Reg) (imm : BitVec 16)
  /-- LB (R308). Loads a sign-extended byte. -/
  | lb (rd rs1 : Reg) (imm : BitVec 16)
  /-- LBU (R308). Loads a zero-extended byte. -/
  | lbu (rd rs1 : Reg) (imm : BitVec 16)
  /-- LH (R308). Loads a sign-extended halfword. -/
  | lh (rd rs1 : Reg) (imm : BitVec 16)
  /-- LHU (R308). Loads a zero-extended halfword. -/
  | lhu (rd rs1 : Reg) (imm : BitVec 16)
  /-- LW (R308). Loads a sign-extended word. -/
  | lw (rd rs1 : Reg) (imm : BitVec 16)
  /-- LWU (R308). Loads a zero-extended word. -/
  | lwu (rd rs1 : Reg) (imm : BitVec 16)
  /-- LD (R308). Loads a doubleword. -/
  | ld (rd rs1 : Reg) (imm : BitVec 16)
  /-- SB (R308). Stores a byte. -/
  | sb (rs2 rs1 : Reg) (imm : BitVec 16)
  /-- SH (R308). Stores a halfword. -/
  | sh (rs2 rs1 : Reg) (imm : BitVec 16)
  /-- SW (R308). Stores a word. -/
  | sw (rs2 rs1 : Reg) (imm : BitVec 16)
  /-- SD (R308). Stores a doubleword. -/
  | sd (rs2 rs1 : Reg) (imm : BitVec 16)
  /-- BEQ (R310). Branches if rs1 equals rs2. -/
  | beq (rs1 rs2 : Reg) (off : BitVec 16)
  /-- BNE (R310). Branches if rs1 differs from rs2. -/
  | bne (rs1 rs2 : Reg) (off : BitVec 16)
  /-- BLT (R310). Branches if rs1 is less than rs2, signed. -/
  | blt (rs1 rs2 : Reg) (off : BitVec 16)
  /-- BGE (R310). Branches if rs1 is at least rs2, signed. -/
  | bge (rs1 rs2 : Reg) (off : BitVec 16)
  /-- BLTU (R310). Branches if rs1 is less than rs2, unsigned. -/
  | bltu (rs1 rs2 : Reg) (off : BitVec 16)
  /-- BGEU (R310). Branches if rs1 is at least rs2, unsigned. -/
  | bgeu (rs1 rs2 : Reg) (off : BitVec 16)
  /-- JAL (R311). Jumps PC-relative and writes the link address to rd. -/
  | jal (rd : Reg) (off : BitVec 21)
  /-- JALR (R311). Jumps to rs1 plus immediate and writes the link address to rd. -/
  | jalr (rd rs1 : Reg) (imm : BitVec 16)
  /-- LOOP (R313). Sets up a hardware loop level with a count and body end, skipping the body for a zero count. -/
  | loop (lvl : BitVec 1) (rs1 : Reg) (off : BitVec 20)
  /-- CSRR (R319). Reads a CSR into rd after the privilege and assignment checks. -/
  | csrr (rd : Reg) (csr : BitVec 12)
  /-- CSRW (R319). Writes rs1 into a CSR under each field's access code. -/
  | csrw (csr : BitVec 12) (rs1 : Reg)
  /-- CSRS (R319). Sets the CSR bits named by rs1 under each field's access code. -/
  | csrs (csr : BitVec 12) (rs1 : Reg)
  /-- CSRC (R319). Clears the CSR bits named by rs1 under each field's access code. -/
  | csrc (csr : BitVec 12) (rs1 : Reg)
  /-- KCALL (R322). Traps with cause KCALL_U to K or F, resuming after the instruction. -/
  | kcall (code : BitVec 12)
  /-- FCALL (R322). Traps with cause FCALL_K, always to F. -/
  | fcall (code : BitVec 12)
  /-- BRK (R322). Traps with cause BRK at the instruction. -/
  | brk (code : BitVec 12)
  /-- TLBINV (R327). Invalidates TLB and walk-cache entries device-wide in the chosen mode and waits for accesses through them. -/
  | tlbinv (rs1 : Reg) (mode : TlbMode)
  /-- LAUNCH (R330). Releases, reads a launch parameter block and submits it to the distributor, writing the launch number or rejection to rd. -/
  | launch (rd rs1 : Reg)
  /-- FENCE (R333). An acquire, release or full fence at the chosen scope. -/
  | fence (kind : FenceKind) (scope : Scope)
  /-- MON (R334). Arms the context's monitor on the line of an address, read at the home. -/
  | mon (rs1 : Reg)
  /-- EVSIG (R337). Signals an event line on a named core. -/
  | evsig (rs1 : Reg) (ev : BitVec 3)
  /-- EVWAIT (R338). Waits for an event line's pending bit and consumes it. -/
  | evwait (ev : BitVec 3)
  /-- SEND (R340). Reserves a slot at a target core and sends an 8- or 64-byte message on a channel. -/
  | send (data rs1 : Reg) (ch : BitVec 4) (vec : Bool)
  /-- RECV (R341). Takes the oldest message of a channel, holding while there is none. -/
  | recv (rd : Reg) (ch : BitVec 4) (vec : Bool)
  /-- RECVNB (R341). Takes the oldest message of a channel, or returns zero without holding. -/
  | recvnb (rd : Reg) (ch : BitVec 4) (vec : Bool)
  /-- MCAST (R343). Broadcasts an 8-byte store to the same pool offset of a rectangle of cores. -/
  | mcast (data rs1 rs2 : Reg)
  /-- AMO (R345). Performs an atomic read-modify-write at the line's home with the given operation, ordering and use. -/
  | amo (op : AmoOp) (ord : AtomOrder) (rd rs1 rs2 : Reg)
  /-- CAS (R345). Compares the doubleword with rd and swaps in rs2 if equal, at the home. -/
  | cas (ord : AtomOrder) (rd rs1 rs2 : Reg)
  /-- LDA (R347). Loads a doubleword and then acts as an acquire fence of its scope. -/
  | lda (scope : Scope) (rd rs1 : Reg)
  /-- STR (R347). Acts as a release fence of its scope and then stores a doubleword. -/
  | str (scope : Scope) (rs1 rs2 : Reg)
  /-- CINIT (R177). Initialises a versioned cell with version 0. -/
  | cinit (rs1 rs2 : Reg)
  /-- CST (R177). Appends a new version to a versioned cell, waiting for room. -/
  | cst (rs1 rs2 : Reg)
  /-- CLD (R177). Waits for and returns a given version of a cell, trapping CELL_GONE if retired. -/
  | cld (rd rs1 rs2 : Reg)
  /-- CRCL (R177). Retires versions of a cell up to a given number. -/
  | crcl (rs1 rs2 : Reg)
  /-- CVER (R177). Returns a cell's newest version number. -/
  | cver (rd rs1 : Reg)
  /-- DMA (R350). Builds a copy or transform DMA command and pushes it onto q0. -/
  | dma (dest src len : Reg) (tag : BitVec 6)
  /-- DMAD (R350). Builds a block-cyclic deal command from DEALPAT and pushes it onto q0 at the leader. -/
  | dmad (dest src len : Reg) (tag : BitVec 6)
  /-- DMARES (R351). Reads a DMA engine record and resumes its command from the recorded chunk. -/
  | dmares (rs : Reg)
  /-- WAITANY (R352). Holds until any masked tag is ready, acquiring and trapping TAG_ERROR on a data error. -/
  | waitany (rs : Reg)
  /-- WAITALL (R352). Holds until all masked tags are ready, acquiring and trapping TAG_ERROR on a data error. -/
  | waitall (rs : Reg)
  /-- FFRDY (R352). Returns the lowest ready tag, or all ones, acquiring its writes. -/
  | ffrdy (rd : Reg)
  /-- TAGCLR (R353). Clears the named tags' bits in TAGRDY and TAGERR. -/
  | tagclr (rs : Reg)
  /-- QPUSH (R354). Reads a command record and pushes it onto q0, q2 or q4. -/
  | qpush (q : BitVec 3) (rs : Reg)
  /-- QPOP (R120). Pops the oldest element of a result queue, holding while it is empty. -/
  | qpop (rd : Reg) (q : BitVec 3)
  /-- QTRY (R120). Pops the oldest element of a result queue, or returns all ones. -/
  | qtry (rd : Reg) (q : BitVec 3)
  /-- QCNT (R120). Returns the number of waiting commands or unpopped elements of a queue. -/
  | qcnt (rd : Reg) (q : BitVec 3)
  /-- ICEG (R355). Reads an eddy command block and pushes a gather onto q4. -/
  | iceg (rs : Reg)
  /-- ICES (R355). Reads an eddy command block and pushes a scatter onto q4. -/
  | ices (rs : Reg)
  /-- ICERES (R355). Reads an eddy record and resumes its gather or scatter from the recorded row. -/
  | iceres (rs : Reg)
  /-- VLD (R362). Loads a register group by byte copy or decodes bit-plane blocks at a plane count. -/
  | vld (wd : Wd) (vd xb : Reg) (off : BitVec 5) (pc : PlaneSel)
  /-- VLDS (R361). Loads each register of a group at a strided address. -/
  | vlds (wd : Wd) (vd xb xs : Reg)
  /-- VLDX (R364). Gathers up to 16 elements by an index register. -/
  | vldx (wd : Wd) (vd xb vi : Reg)
  /-- VST (R363). Stores a register group by byte copy or encodes bit-plane blocks. -/
  | vst (wd : Wd) (vd xb : Reg) (off : BitVec 5) (pc : PlaneSel)
  /-- VSTS (R361). Stores each register of a group at a strided address. -/
  | vsts (wd : Wd) (vd xb xs : Reg)
  /-- VSTX (R364). Scatters up to 16 elements by an index register. -/
  | vstx (wd : Wd) (vd xb vi : Reg)
  /-- VADD (R366). Lane-wise wrapping integer add. -/
  | vadd (ty : Ty) (wd : Wd) (vd vs1 vs2 : Reg)
  /-- VSUB (R366). Lane-wise wrapping integer subtract. -/
  | vsub (ty : Ty) (wd : Wd) (vd vs1 vs2 : Reg)
  /-- VMUL (R366). Lane-wise wrapping integer multiply. -/
  | vmul (ty : Ty) (wd : Wd) (vd vs1 vs2 : Reg)
  /-- VMULH (R366). Lane-wise high half of the integer product. -/
  | vmulh (ty : Ty) (wd : Wd) (vd vs1 vs2 : Reg)
  /-- VMIN (R366). Lane-wise integer minimum. -/
  | vmin (ty : Ty) (wd : Wd) (vd vs1 vs2 : Reg)
  /-- VMAX (R366). Lane-wise integer maximum. -/
  | vmax (ty : Ty) (wd : Wd) (vd vs1 vs2 : Reg)
  /-- VAND (R366). Lane-wise bitwise AND. -/
  | vand (ty : Ty) (wd : Wd) (vd vs1 vs2 : Reg)
  /-- VOR (R366). Lane-wise bitwise OR. -/
  | vor (ty : Ty) (wd : Wd) (vd vs1 vs2 : Reg)
  /-- VXOR (R366). Lane-wise bitwise XOR. -/
  | vxor (ty : Ty) (wd : Wd) (vd vs1 vs2 : Reg)
  /-- VSHL (R366). Lane-wise shift left. -/
  | vshl (ty : Ty) (wd : Wd) (vd vs1 vs2 : Reg)
  /-- VSHR (R366). Lane-wise logical shift right. -/
  | vshr (ty : Ty) (wd : Wd) (vd vs1 vs2 : Reg)
  /-- VSRA (R366). Lane-wise arithmetic shift right. -/
  | vsra (ty : Ty) (wd : Wd) (vd vs1 vs2 : Reg)
  /-- VABS (R366). Lane-wise wrapping absolute value. -/
  | vabs (ty : Ty) (wd : Wd) (vd vs1 : Reg)
  /-- VADDS (R366). Lane-wise saturating add. -/
  | vadds (ty : Ty) (wd : Wd) (vd vs1 vs2 : Reg)
  /-- VSUBS (R366). Lane-wise saturating subtract. -/
  | vsubs (ty : Ty) (wd : Wd) (vd vs1 vs2 : Reg)
  /-- VCMPEQ (R366). Lane-wise integer equality mask. -/
  | vcmpeq (ty : Ty) (wd : Wd) (vd vs1 vs2 : Reg)
  /-- VCMPLT (R366). Lane-wise integer less-than mask. -/
  | vcmplt (ty : Ty) (wd : Wd) (vd vs1 vs2 : Reg)
  /-- VCMPLE (R366). Lane-wise integer less-or-equal mask. -/
  | vcmple (ty : Ty) (wd : Wd) (vd vs1 vs2 : Reg)
  /-- VSEL (R366). Lane-wise select by the set lanes of vd. -/
  | vsel (ty : Ty) (wd : Wd) (vd vs1 vs2 : Reg)
  /-- VFADD (R367). Lane-wise floating add under RM. -/
  | vfadd (ty : Ty) (wd : Wd) (vd vs1 vs2 : Reg)
  /-- VFSUB (R367). Lane-wise floating subtract under RM. -/
  | vfsub (ty : Ty) (wd : Wd) (vd vs1 vs2 : Reg)
  /-- VFMUL (R367). Lane-wise floating multiply under RM. -/
  | vfmul (ty : Ty) (wd : Wd) (vd vs1 vs2 : Reg)
  /-- VFMA (R367). Lane-wise fused multiply-add into vd. -/
  | vfma (ty : Ty) (wd : Wd) (vd vs1 vs2 : Reg)
  /-- VFNMA (R367). Lane-wise fused vd minus product. -/
  | vfnma (ty : Ty) (wd : Wd) (vd vs1 vs2 : Reg)
  /-- VFMIN (R367). Lane-wise floating minimum. -/
  | vfmin (ty : Ty) (wd : Wd) (vd vs1 vs2 : Reg)
  /-- VFMAX (R367). Lane-wise floating maximum. -/
  | vfmax (ty : Ty) (wd : Wd) (vd vs1 vs2 : Reg)
  /-- VFDIV (R367). Lane-wise floating divide. -/
  | vfdiv (ty : Ty) (wd : Wd) (vd vs1 vs2 : Reg)
  /-- VFRSQ (R367). Lane-wise reciprocal square root with one rounding. -/
  | vfrsq (ty : Ty) (wd : Wd) (vd vs1 : Reg)
  /-- VFEXP2 (R367). Lane-wise power of two with one rounding. -/
  | vfexp2 (ty : Ty) (wd : Wd) (vd vs1 : Reg)
  /-- VFCMPEQ (R367). Lane-wise floating equality mask. -/
  | vfcmpeq (ty : Ty) (wd : Wd) (vd vs1 vs2 : Reg)
  /-- VFCMPLT (R367). Lane-wise floating less-than mask. -/
  | vfcmplt (ty : Ty) (wd : Wd) (vd vs1 vs2 : Reg)
  /-- VFCMPLE (R367). Lane-wise floating less-or-equal mask. -/
  | vfcmple (ty : Ty) (wd : Wd) (vd vs1 vs2 : Reg)
  /-- VMOVX (R368). Moves one lane of a vector register to a scalar register. -/
  | vmovx (ty : Ty) (xd vs1 xi : Reg)
  /-- VSPLAT (R368). Fills every lane with a scalar value. -/
  | vsplat (ty : Ty) (wd : Wd) (vd xv : Reg)
  /-- VINS (R368). Inserts a scalar value into one lane. -/
  | vins (ty : Ty) (vd xv xi : Reg)
  /-- VPERM (R368). Permutes lanes by an index vector. -/
  | vperm (ty : Ty) (wd : Wd) (vd vs1 vs2 : Reg)
  /-- VSLIDE (R368). Slides lanes by a signed scalar amount, filling with zero. -/
  | vslide (ty : Ty) (wd : Wd) (vd vs1 xa : Reg)
  /-- VRED (R369). Pairwise-tree sum of the lanes into lane 0. -/
  | vred (ty : Ty) (wd : Wd) (vd vs1 : Reg)
  /-- VSCAN (R369). Inclusive prefix sum by Hillis-Steele doubling. -/
  | vscan (ty : Ty) (wd : Wd) (vd vs1 : Reg)
  /-- VCVT (R370). Converts lanes between element types into a derived-width group. -/
  | vcvt (ty : Ty) (wd : Wd) (vd vs1 : Reg) (td : Ty)
  /-- VQNT (R371). Quantises float lanes to INT8 by per-register scales. -/
  | vqnt (ty : Ty) (wd : Wd) (vd vs1 vs2 : Reg)
  /-- VNZ (R372). Stores the indices of non-zero lanes, returns the count and pushes a summary onto q6. -/
  | vnz (ty : Ty) (wd : Wd) (xd vs1 xp : Reg)
  /-- VCOMPR (R368). Packs the lanes selected by a mask into the low lanes. -/
  | vcompr (ty : Ty) (wd : Wd) (vd vs1 vs2 : Reg)
  /-- VPOPC (R368). Counts the set lanes of a group into a scalar register. -/
  | vpopc (ty : Ty) (wd : Wd) (xd vs1 : Reg)
  /-- SOPEN (R373). Binds a stream descriptor to v28..v31 as a dense stream or fibre. -/
  | sopen (s : BitVec 2) (xv xl : Reg) (kind : StreamKind) (xc : Reg)
  /-- SADV (R374). Advances a stream's position by a count or to its end. -/
  | sadv (s : BitVec 2) (xn : Reg)
  /-- STEND (R374). Branches if a stream has reached its end. -/
  | stend (s : BitVec 2) (off : BitVec 13)
  /-- SCLOSE (R374). Drains appended stores, discards prefetches and unbinds a stream. -/
  | sclose (s : BitVec 2)
  /-- SMERGE (R375). Intersects or unites two bound fibres into a value and coordinate pair. -/
  | smerge (vn : Reg) (uni : Bool)
  /-- SPOS (R374). Returns a stream's position. -/
  | spos (xd : Reg) (s : BitVec 2)
  /-- STREAM_PREFETCH (R140). A read stream fetches pieces ahead of its position. -/
  | streamPrefetch (s : BitVec 2)
  /-- REPF (R379). Captures the next instructions and replays them with staggered register fields. -/
  | repf (len : BitVec 4) (ci : Bool) (cnt : BitVec 5) (stride : BitVec 4) (mask : BitVec 3)
  /-- GFORM (R188). Waits for the cores of its range to park in GJOIN and forms a gang led by this core. -/
  | gform (rs : Reg)
  /-- GJOIN (R189). Parks an independent core until a GFORM of its id includes it. -/
  | gjoin (rs : Reg)
  /-- GLEAVE (R191). A member leaves the gang for good, leaving a gap, if its condition is true. -/
  | gleave (rs : Reg)
  /-- GDET (R198). Detaches an attached member if its condition is true. -/
  | gdet (rs : Reg)
  /-- GATT (R199). Parks a detached member to rejoin at a rejoin point of its id. -/
  | gatt (id : BitVec 8)
  /-- RJP (R199). At the leader, holds issue until every member has reached the rejoin point, then re-attaches parked members. -/
  | rjp (id : BitVec 8)
  /-- XSH (R384). Shifts a register group east or west to the neighbouring attached member, zero at the end. -/
  | xsh (wd : Wd) (vd vs : Reg) (west : Bool)
  /-- XWRAP (R384). Shifts a register group east or west with wrap-around. -/
  | xwrap (wd : Wd) (vd vs : Reg) (west : Bool)
  /-- XSH_ARRIVAL (R385). A shifted value arrives at the receiver and writes its vd. -/
  | xshArrival (k : Nat)
  /-- MLDW (R394). Pushes a command loading a weight tile from bit-plane or entropy-coded memory. -/
  | mldw (wt : BitVec 2) (xs : Reg) (pri : BitVec 2) (tag : BitVec 3)
  /-- MZERO (R395). Pushes a command zeroing an accumulator tile. -/
  | mzero (ac : BitVec 3) (pri : BitVec 2) (tag : BitVec 3)
  /-- MMA (R396). Pushes a one-k-step multiply of INT8 register rows by a weight tile into an accumulator. -/
  | mma (ac : BitVec 3) (wt : BitVec 2) (oct : BitVec 2) (rows : BitVec 3) (vs : Reg) (planes : BitVec 3) (pri : BitVec 2) (tag : BitVec 3)
  /-- MMAS (R397). Pushes a multi-k-step multiply of cluster-memory rows by weight tiles into an accumulator. -/
  | mmas (ac : BitVec 3) (ks : BitVec 2) (xb : Reg) (rows : BitVec 3) (planes : BitVec 3) (pri : BitVec 2) (tag : BitVec 3)
  /-- MSTA (R398). Pushes a command storing accumulator rows to memory. -/
  | msta (ac : BitVec 3) (xd : Reg) (rows : BitVec 3) (pri : BitVec 2) (tag : BitVec 3)
  /-- MSTV (R399). Pushes a command copying one accumulator row into a vector quad. -/
  | mstv (ac : BitVec 3) (vq : Reg) (xr : Reg) (pri : BitVec 2) (tag : BitVec 3)
  /-- RGOPEN (R412). Checks and binds a grammar object and a rule-result table. -/
  | rgopen (xg xr : Reg)
  /-- RLIFT (R413). Checks and installs an operator descriptor. -/
  | rlift (xd : Reg)
  /-- REVAL (R414). Evaluates a range of rules into the rule-result table. -/
  | reval (xf xn : Reg)
  /-- RSPINE (R416). Folds a range of spine symbols into a fold record. -/
  | rspine (xo xs xe : Reg)
  /-- RSCAN (R417). Writes running fold results at symbol boundaries or every position. -/
  | rscan (xo xs xe : Reg) (all : Bool)
  /-- RSEEK (R418). Finds an element of the sequence and its inclusive prefix by descending rule lengths. -/
  | rseek (xn xi : Reg)
  /-- RMV (R419). Multiplies rows of a colval matrix object by an x vector. -/
  | rmv (xy xx xw : Reg)
  /-- RGET (R420). Reads a rule's length or one slot from the rule-result table. -/
  | rget (xd xi : Reg) (sel : BitVec 2)
  /-- BSRC (R429). Writes a bit-stream source word. -/
  | bsrc (g : BitVec 3) (xs : Reg)
  /-- BGEN (R430). Generates a stochastic stream from lane 0 of a vector register and a source. -/
  | bgen (bd : BitVec 4) (vp : Reg) (g : BitVec 3) (len : BitVec 2)
  /-- BAND (R431). Bitwise AND of two streams, checked for correlation unless .cor. -/
  | band (bd bs1 bs2 : BitVec 4) (cor : Bool)
  /-- BXNOR (R431). Bitwise XNOR of two streams, checked for correlation unless .cor. -/
  | bxnor (bd bs1 bs2 : BitVec 4) (cor : Bool)
  /-- BMUX (R431). Bitwise multiplex of two streams by a select stream. -/
  | bmux (bd bs1 bs2 bsel : BitVec 4) (cor : Bool)
  /-- BNOT (R432). Inverts a stream, keeping length and mask. -/
  | bnot (bd bs : BitVec 4)
  /-- BCNT (R432). Counts the ones of a stream into a scalar register. -/
  | bcnt (xd : Reg) (bs : BitVec 4)
  /-- BREGEN (R432). Re-emits a stream's count from a new source, replacing its mask. -/
  | bregen (bd bs : BitVec 4) (g : BitVec 3)
  /-- BCLS (R432). Returns a stream register's metadata halfword. -/
  | bcls (xd : Reg) (bs : BitVec 4)
  /-- BMOV (R432). Copies a stream register with its length and mask. -/
  | bmov (bd bs : BitVec 4)
  /-- HOME_PERFORM_ACCESS (R159). A request reaches the line's home, which performs the load, store, atomic or cell operation. -/
  | homePerformAccess (k : Nat)
  /-- STORE_ACK (R28). An acknowledgement from a home reaches the core and lowers UNACK. -/
  | storeAck (k : Nat)
  /-- ATOMIC_RESULT_RETURN (R172). The old value of an unpaired or quantum atomic arrives in rd. -/
  | atomicResultReturn (k : Nat)
  /-- COMMUTATIVE_MERGE (R173). A cluster interface or router merges commutative atomics of one operation and address. -/
  | commutativeMerge (j k : Nat)
  /-- LINK_CRC_ERROR (R145). A flit fails its link CRC and is replayed; eight failures start a link self-test. -/
  | linkCrcError (link : Nat)
  /-- SELF_TEST_COMPLETE (R254). A self-test ends, logging TRANSIENT and resuming, or LASTING and fencing the unit. -/
  | selfTestComplete (pass : Bool)
  /-- RESERVATION_REQUEST (R151). A message reservation reaches the target and is granted or waits for a slot. -/
  | reservationRequest (k : Nat)
  /-- RESERVATION_GRANT (R151). The grant reaches the sender, whose SEND retires and sends the payload. -/
  | reservationGrant (k : Nat)
  /-- MESSAGE_ARRIVAL (R150). A message payload enters the receive buffer or the context buffer. -/
  | messageArrival (k : Nat)
  /-- EVENT_SIGNAL_LAND (R336). An EVSIG reaches its target and sets the pending bit of the active context. -/
  | eventSignalLand (k : Nat)
  /-- BROADCAST_APPLY (R157). A target or home applies a broadcast whose predecessors in window order have been applied. -/
  | broadcastApply (k : Nat)
  /-- DMA_BYTE_COPY (R92). The DMA engine takes a copy command and copies bytes chunk by chunk. -/
  | dmaByteCopy (tag : BitVec 6)
  /-- CODEBOOK_EXPANSION (R102). The DMA engine expands codebook blocks into BF data. -/
  | codebookExpansion (tag : BitVec 6)
  /-- ENTROPY_EXPANSION (R107). The DMA engine decodes RILL chunks and verifies their CRC. -/
  | entropyExpansion (tag : BitVec 6)
  /-- BIT_PLANE_ENCODING (R93). The DMA engine encodes float blocks into bit-plane blocks. -/
  | bitPlaneEncoding (tag : BitVec 6)
  /-- BLOCK_CYCLIC_DEAL (R100). The DMA engine deals output blocks across the pools of the gang. -/
  | blockCyclicDeal (tag : BitVec 6)
  /-- DMA_CHUNK_COMPLETE (R115). A chunk's source has arrived and its output is verified and written. -/
  | dmaChunkComplete (tag : BitVec 6)
  /-- DMA_COMMAND_COMPLETE (R95). After all writes are performed, the arrival is made and the tag's bits are set. -/
  | dmaCommandComplete (tag : BitVec 6)
  /-- EDDY_GATHER (R125). The eddy takes a gather and copies indexed rows into cluster memory. -/
  | eddyGather (k : Nat)
  /-- EDDY_SCATTER (R125). The eddy takes a scatter and copies packed rows out to indexed rows. -/
  | eddyScatter (k : Nat)
  /-- EDDY_COMPLETE (R128). After the last row write is performed, a result element is pushed and the event signalled. -/
  | eddyComplete (k : Nat)
  /-- WAIT_EVENT_READ (R214). The distributor reads a wait counter after a write to its line and decides eligibility. -/
  | waitEventRead (lnum : BitVec 12)
  /-- PLACEMENT_STEP (R216). The distributor places the next group of the first-ranked launch or tries pre-emption. -/
  | placementStep (part : BitVec 6)
  /-- STARVATION_BOUND (R217). After 65,536 cycles without a fitting run, lower-ranked launches are blocked. -/
  | starvationBound (part : BitVec 6)
  /-- QUIESCENCE_SWEEP (R225). Every 1,024 cycles a sweep samples idleness and message counts, declaring quiescence. -/
  | quiescenceSweep (lnum : BitVec 12)
  /-- LAUNCH_COMPLETION (R223). The distributor discards contexts, writes the record, increments CCTR, sends the message and frees the number. -/
  | launchCompletion (lnum : BitVec 12)
  /-- HOST_BAR2_ACCESS (R461). A host access through BAR2 is performed at the line's home. -/
  | hostBar2Access (off : BitVec 39) (acc : Bar2Access)
  /-- MBDOOR (R463). A host doorbell ORs the slot into the pending word and raises HOST on the kernel core. -/
  | mbdoor (slot : BitVec 6)
  /-- PWRCAP (R465). A power-limit write, ignored outside 300..1,500 W, enforced by lowering the main clock. -/
  | pwrcap (watts : BitVec 64)
  /-- MGMT_REGISTER_WRITE (R470). A host write to a BAR0 register with no behaviour of its own. -/
  | mgmtRegisterWrite (off : BitVec 16) (value : Word)
  /-- CLOCK_THROTTLE (R465). A power or thermal limit lowers the device-wide main clock. -/
  | clockThrottle (hz : Nat)
  /-- PORT_FAILURE (R464). A scale-up port goes down. -/
  | portFailure (port : BitVec 4)
  /-- PORT_FAIL_TIMEOUT (R464). One millisecond after a port failure, outstanding loads trap and stores are logged LOST. -/
  | portFailTimeout (port : BitVec 4)
  /-- POWER_ON (R466). Management core 0 boots from ROM, verifies and measures firmware, and starts the other management cores. -/
  | powerOn (boot : BootImage)
  /-- ILLEGAL_ENCODING (R278). A fetched word that is no instruction, such as 0x0000_0000 or a reserved major, traps ILLEGAL_INSTR. -/
  | illegalEncoding (word : IWord)
  /-- PARTITION_BUILD (R469). The partition manager builds or rebuilds a partition: it sets the row map, column origin and stitch mode, clears memories, writes FVEC and FDELEG, and releases the cores at F. -/
  | partitionBuild (cfg : PartConfig)
  /-- SOFTWARE_INTERRUPT (R235). The management complex sets KIP.SOFT on a core. -/
  | softwareInterrupt (target : Nat)
  /-- TRET (R234). Returns from a trap to the saved PC and level, restoring the interrupt enable. -/
  | tret
  /-- WFI (R324). Holds the core until an interrupt is pending. -/
  | wfi
  /-- WSWAP (R247). Switches the active context as KSCR directs, through pool write-back, shadow exchange or drop, then returns into the incoming context. -/
  | wswap
  /-- IFLUSH (R328). Invalidates every instruction cache and prefetched instruction word of the device. -/
  | iflush
  /-- HALT (R326). Ends the work unit at U, makes a fault event at K or F, or waits in launch number 0. -/
  | halt
  /-- RFENCE (R167). Holds until UNACK is zero, then orders earlier write-like accesses before later accesses. -/
  | rfence
  /-- MWAIT (R179). Waits until the armed line is written, an enabled event or interrupt arrives, or spuriously, then disarms. -/
  | mwait
  /-- CELL_ABANDON (R349). The abandon of an interrupted CST or CLD reaches the home, which discards it unless already performed. -/
  | cellAbandon
  /-- GSPLIT (R190). Dissolves the gang, making every member independent. -/
  | gsplit
  /-- GBAR (R200). Wired barrier over every remaining member, acting as a full GANG fence. -/
  | gbar
  /-- MATRIX_COMMAND_START (R392). The slice starts the highest-priority waiting matrix command allowed by tile order. -/
  | matrixCommandStart
  /-- MICRO_TILE_COMPLETE (R243). A micro-tile of a matrix command completes and its done bit is set. -/
  | microTileComplete
  /-- MATRIX_COMMAND_COMPLETE (R387). A matrix command completes, setting its tag bits and pushing a q3 element. -/
  | matrixCommandComplete
  /-- TAKE_INTERRUPT (R235). At an instruction boundary the highest takeable pending interrupt is taken, abandoning any holding instruction. -/
  | takeInterrupt
  /-- TIMER_EXPIRE (R236). TIME reaches KTCMP and KIP.TIMER becomes pending. -/
  | timerExpire
  /-- LOAD_RETURN (R26). Load or holding-atomic data returns to the waiting core, which retires the access. -/
  | loadReturn
  /-- PAGE_WALK (R84). A walker translates a missing address through the page tables, faulting or filling the TLB. -/
  | pageWalk
  /-- CONTEXT_BUFFER_DRAIN (R153). A held context-buffer message moves into the receive buffer as an entry frees. -/
  | contextBufferDrain
  /-- WEIR_WINDOW_CLOSE (R157). At the close of each 32-cycle window, broadcasts are announced and one order is derived. -/
  | weirWindowClose
  /-- LAUNCH_ACCEPTANCE (R211). The distributor checks a submitted block and accepts it with a launch number or rejects it. -/
  | launchAcceptance
  /-- CORE_HANDOFF (R219). Once a halted unit's writes and commands drain, the core is handed to the next choice. -/
  | coreHandoff
  /-- LOGCLR (R471). Writing 1 to BOOTSTAT.LOGCLR empties the error log. -/
  | logclr
  /-- OVF_CLEAR (R471). Writing 1 to BOOTSTAT.OVF clears the overflow flag. -/
  | ovfClear
  /-- GO (R469). Setting BOOTSTAT.GO lets the firmware build partitions. -/
  | go
  /-- FETCH_FAILURE (R279). An instruction fetch that fails translation, permission or ECC traps FETCH_PAGE, ACCESS or ECC_UNCORR with no instruction decoded. -/
  | fetchFailure
  /-- MWAIT_SPURIOUS_RETURN (R179). A waiting MWAIT returns for no reason at all and disarms the monitor. -/
  | mwaitSpuriousReturn
  deriving DecidableEq, Repr

end Sys2Proof
end

