-- ==== Sys2Proof/WellFormed.lean ====
section
/-!
DEFINITION. Which instructions the encoding admits (spec 12 R276, R277, R285 to R297): the checks a word's fields must
pass beyond their widths. An instruction that fails one has no word.
-/

namespace Sys2Proof

/-- Registers in a group (R276). -/
def Wd.count : Wd → Nat
  | .w1 => 1 | .w2 => 2 | .w4 => 4 | .w8 => 8

/-- Bytes of one element (R358). -/
def Ty.size : Ty → Nat
  | .sb => 1 | .sh => 2 | .sw => 4 | .ub => 1 | .uh => 2 | .hf => 2 | .bf => 2 | .sf => 4

/-- The floating-point element types hf, bf and sf. -/
def Ty.isFloat : Ty → Bool
  | .hf => true | .bf => true | .sf => true
  | .sb => false | .sh => false | .sw => false | .ub => false | .uh => false

/-- The signed integer element types. -/
def Ty.isSigned : Ty → Bool
  | .sb => true | .sh => true | .sw => true
  | .ub => false | .uh => false | .hf => false | .bf => false | .sf => false

/-- Whether a stream kind is a fibre (R138). -/
def StreamKind.isFibre : StreamKind → Bool
  | .line => true | .list => true
  | .denseRead => false | .denseWrite => false

/-- A group of n registers starts at a multiple of n (R276). -/
def groupAligned (n : Nat) (r : Reg) : Bool := r.toNat % n == 0

/-- Width of the destination group of VCVT and VQNT: w × d / s, at least 1 (R290). -/
def derivedWidth (w d s : Nat) : Nat := max 1 (w * d / s)

/-- A derived destination group is at most an octet and aligned (R290). -/
def derivedOk (w d s : Nat) (vd : Reg) : Bool :=
  decide (derivedWidth w d s ≤ 8) && groupAligned (derivedWidth w d s) vd

/-- A commutative atomic names add, and, or, xor, min or max, and x0 (R172, R285). -/
def amoOk (op : AmoOp) (ord : AtomOrder) (rd : Reg) : Bool :=
  match ord, op with
  | .relaxed .comm, .minu => false
  | .relaxed .comm, .maxu => false
  | .relaxed .comm, .swap => false
  | .relaxed .comm, _ => rd == 0
  | _, _ => true

/-- A three-operand lane word: every group aligned. -/
def lane3Ok (wd : Wd) (a b c : Reg) : Bool :=
  groupAligned wd.count a && groupAligned wd.count b && groupAligned wd.count c

/-- A two-operand lane word: both groups aligned. -/
def lane2Ok (wd : Wd) (a b : Reg) : Bool := groupAligned wd.count a && groupAligned wd.count b

/-- The instruction is an encoded word, and not one of the machine's own steps. -/
def Instr.encoded : Instr → Bool
  | .add _ _ _ => true
  | .sub _ _ _ => true
  | .and _ _ _ => true
  | .or _ _ _ => true
  | .xor _ _ _ => true
  | .andn _ _ _ => true
  | .orn _ _ _ => true
  | .sll _ _ _ => true
  | .srl _ _ _ => true
  | .sra _ _ _ => true
  | .slli _ _ _ => true
  | .srli _ _ _ => true
  | .srai _ _ _ => true
  | .slt _ _ _ => true
  | .sltu _ _ _ => true
  | .min _ _ _ => true
  | .max _ _ _ => true
  | .minu _ _ _ => true
  | .maxu _ _ _ => true
  | .mul _ _ _ => true
  | .mulh _ _ _ => true
  | .mulhu _ _ _ => true
  | .div _ _ _ => true
  | .divu _ _ _ => true
  | .rem _ _ _ => true
  | .remu _ _ _ => true
  | .clz _ _ => true
  | .ctz _ _ => true
  | .popc _ _ => true
  | .sextb _ _ => true
  | .sexth _ _ => true
  | .sextw _ _ => true
  | .zextw _ _ => true
  | .csel _ _ _ => true
  | .ptag _ _ _ => true
  | .pfmt _ _ => true
  | .pblk _ _ => true
  | .pmesh _ _ _ => true
  | .addi _ _ _ => true
  | .andi _ _ _ => true
  | .ori _ _ _ => true
  | .xori _ _ _ => true
  | .slti _ _ _ => true
  | .sltiu _ _ _ => true
  | .lui _ _ => true
  | .auipc _ _ => true
  | .shori _ _ _ => true
  | .lb _ _ _ => true
  | .lbu _ _ _ => true
  | .lh _ _ _ => true
  | .lhu _ _ _ => true
  | .lw _ _ _ => true
  | .lwu _ _ _ => true
  | .ld _ _ _ => true
  | .sb _ _ _ => true
  | .sh _ _ _ => true
  | .sw _ _ _ => true
  | .sd _ _ _ => true
  | .beq _ _ _ => true
  | .bne _ _ _ => true
  | .blt _ _ _ => true
  | .bge _ _ _ => true
  | .bltu _ _ _ => true
  | .bgeu _ _ _ => true
  | .jal _ _ => true
  | .jalr _ _ _ => true
  | .loop _ _ _ => true
  | .csrr _ _ => true
  | .csrw _ _ => true
  | .csrs _ _ => true
  | .csrc _ _ => true
  | .kcall _ => true
  | .fcall _ => true
  | .brk _ => true
  | .tret => true
  | .wfi => true
  | .wswap => true
  | .tlbinv _ _ => true
  | .iflush => true
  | .halt => true
  | .launch _ _ => true
  | .fence _ _ => true
  | .rfence => true
  | .mon _ => true
  | .mwait => true
  | .evsig _ _ => true
  | .evwait _ => true
  | .send _ _ _ _ => true
  | .recv _ _ _ => true
  | .recvnb _ _ _ => true
  | .mcast _ _ _ => true
  | .amo _ _ _ _ _ => true
  | .cas _ _ _ _ => true
  | .lda _ _ _ => true
  | .str _ _ _ => true
  | .cinit _ _ => true
  | .cst _ _ => true
  | .cld _ _ _ => true
  | .crcl _ _ => true
  | .cver _ _ => true
  | .cellAbandon => false
  | .dma _ _ _ _ => true
  | .dmad _ _ _ _ => true
  | .dmares _ => true
  | .waitany _ => true
  | .waitall _ => true
  | .ffrdy _ => true
  | .tagclr _ => true
  | .qpush _ _ => true
  | .qpop _ _ => true
  | .qtry _ _ => true
  | .qcnt _ _ => true
  | .iceg _ => true
  | .ices _ => true
  | .iceres _ => true
  | .vld _ _ _ _ _ => true
  | .vlds _ _ _ _ => true
  | .vldx _ _ _ _ => true
  | .vst _ _ _ _ _ => true
  | .vsts _ _ _ _ => true
  | .vstx _ _ _ _ => true
  | .vadd _ _ _ _ _ => true
  | .vsub _ _ _ _ _ => true
  | .vmul _ _ _ _ _ => true
  | .vmulh _ _ _ _ _ => true
  | .vmin _ _ _ _ _ => true
  | .vmax _ _ _ _ _ => true
  | .vand _ _ _ _ _ => true
  | .vor _ _ _ _ _ => true
  | .vxor _ _ _ _ _ => true
  | .vshl _ _ _ _ _ => true
  | .vshr _ _ _ _ _ => true
  | .vsra _ _ _ _ _ => true
  | .vabs _ _ _ _ => true
  | .vadds _ _ _ _ _ => true
  | .vsubs _ _ _ _ _ => true
  | .vcmpeq _ _ _ _ _ => true
  | .vcmplt _ _ _ _ _ => true
  | .vcmple _ _ _ _ _ => true
  | .vsel _ _ _ _ _ => true
  | .vfadd _ _ _ _ _ => true
  | .vfsub _ _ _ _ _ => true
  | .vfmul _ _ _ _ _ => true
  | .vfma _ _ _ _ _ => true
  | .vfnma _ _ _ _ _ => true
  | .vfmin _ _ _ _ _ => true
  | .vfmax _ _ _ _ _ => true
  | .vfdiv _ _ _ _ _ => true
  | .vfrsq _ _ _ _ => true
  | .vfexp2 _ _ _ _ => true
  | .vfcmpeq _ _ _ _ _ => true
  | .vfcmplt _ _ _ _ _ => true
  | .vfcmple _ _ _ _ _ => true
  | .vmovx _ _ _ _ => true
  | .vsplat _ _ _ _ => true
  | .vins _ _ _ _ => true
  | .vperm _ _ _ _ _ => true
  | .vslide _ _ _ _ _ => true
  | .vred _ _ _ _ => true
  | .vscan _ _ _ _ => true
  | .vcvt _ _ _ _ _ => true
  | .vqnt _ _ _ _ _ => true
  | .vnz _ _ _ _ _ => true
  | .vcompr _ _ _ _ _ => true
  | .vpopc _ _ _ _ => true
  | .sopen _ _ _ _ _ => true
  | .sadv _ _ => true
  | .stend _ _ => true
  | .sclose _ => true
  | .smerge _ _ => true
  | .spos _ _ => true
  | .streamPrefetch _ => false
  | .repf _ _ _ _ _ => true
  | .gform _ => true
  | .gjoin _ => true
  | .gleave _ => true
  | .gsplit => true
  | .gdet _ => true
  | .gatt _ => true
  | .rjp _ => true
  | .gbar => true
  | .xsh _ _ _ _ => true
  | .xwrap _ _ _ _ => true
  | .xshArrival _ => false
  | .mldw _ _ _ _ => true
  | .mzero _ _ _ => true
  | .mma _ _ _ _ _ _ _ _ => true
  | .mmas _ _ _ _ _ _ _ => true
  | .msta _ _ _ _ _ => true
  | .mstv _ _ _ _ _ => true
  | .matrixCommandStart => false
  | .microTileComplete => false
  | .matrixCommandComplete => false
  | .rgopen _ _ => true
  | .rlift _ => true
  | .reval _ _ => true
  | .rspine _ _ _ => true
  | .rscan _ _ _ _ => true
  | .rseek _ _ => true
  | .rmv _ _ _ => true
  | .rget _ _ _ => true
  | .bsrc _ _ => true
  | .bgen _ _ _ _ => true
  | .band _ _ _ _ => true
  | .bxnor _ _ _ _ => true
  | .bmux _ _ _ _ _ => true
  | .bnot _ _ => true
  | .bcnt _ _ => true
  | .bregen _ _ _ => true
  | .bcls _ _ => true
  | .bmov _ _ => true
  | .takeInterrupt => false
  | .timerExpire => false
  | .homePerformAccess _ => false
  | .loadReturn => false
  | .storeAck _ => false
  | .atomicResultReturn _ => false
  | .commutativeMerge _ _ => false
  | .pageWalk => false
  | .linkCrcError _ => false
  | .selfTestComplete _ => false
  | .reservationRequest _ => false
  | .reservationGrant _ => false
  | .messageArrival _ => false
  | .contextBufferDrain => false
  | .eventSignalLand _ => false
  | .weirWindowClose => false
  | .broadcastApply _ => false
  | .dmaByteCopy _ => false
  | .codebookExpansion _ => false
  | .entropyExpansion _ => false
  | .bitPlaneEncoding _ => false
  | .blockCyclicDeal _ => false
  | .dmaChunkComplete _ => false
  | .dmaCommandComplete _ => false
  | .eddyGather _ => false
  | .eddyScatter _ => false
  | .eddyComplete _ => false
  | .launchAcceptance => false
  | .waitEventRead _ => false
  | .placementStep _ => false
  | .starvationBound _ => false
  | .coreHandoff => false
  | .quiescenceSweep _ => false
  | .launchCompletion _ => false
  | .hostBar2Access _ _ => false
  | .mbdoor _ => false
  | .logclr => false
  | .ovfClear => false
  | .go => false
  | .pwrcap _ => false
  | .mgmtRegisterWrite _ _ => false
  | .clockThrottle _ => false
  | .portFailure _ => false
  | .portFailTimeout _ => false
  | .powerOn _ => false
  | .illegalEncoding _ => false
  | .fetchFailure => false
  | .partitionBuild _ => false
  | .softwareInterrupt _ => false
  | .mwaitSpuriousReturn => false

/-- The fields hold values the encoding admits (R278). -/
def Instr.wf : Instr → Bool
  | .add _ _ _ => true
  | .sub _ _ _ => true
  | .and _ _ _ => true
  | .or _ _ _ => true
  | .xor _ _ _ => true
  | .andn _ _ _ => true
  | .orn _ _ _ => true
  | .sll _ _ _ => true
  | .srl _ _ _ => true
  | .sra _ _ _ => true
  | .slli _ _ _ => true
  | .srli _ _ _ => true
  | .srai _ _ _ => true
  | .slt _ _ _ => true
  | .sltu _ _ _ => true
  | .min _ _ _ => true
  | .max _ _ _ => true
  | .minu _ _ _ => true
  | .maxu _ _ _ => true
  | .mul _ _ _ => true
  | .mulh _ _ _ => true
  | .mulhu _ _ _ => true
  | .div _ _ _ => true
  | .divu _ _ _ => true
  | .rem _ _ _ => true
  | .remu _ _ _ => true
  | .clz _ _ => true
  | .ctz _ _ => true
  | .popc _ _ => true
  | .sextb _ _ => true
  | .sexth _ _ => true
  | .sextw _ _ => true
  | .zextw _ _ => true
  | .csel _ _ _ => true
  | .ptag _ _ _ => true
  | .pfmt _ _ => true
  | .pblk _ _ => true
  | .pmesh _ _ _ => true
  | .addi _ _ _ => true
  | .andi _ _ _ => true
  | .ori _ _ _ => true
  | .xori _ _ _ => true
  | .slti _ _ _ => true
  | .sltiu _ _ _ => true
  | .lui _ _ => true
  | .auipc _ _ => true
  | .shori _ _ _ => true
  | .lb _ _ _ => true
  | .lbu _ _ _ => true
  | .lh _ _ _ => true
  | .lhu _ _ _ => true
  | .lw _ _ _ => true
  | .lwu _ _ _ => true
  | .ld _ _ _ => true
  | .sb _ _ _ => true
  | .sh _ _ _ => true
  | .sw _ _ _ => true
  | .sd _ _ _ => true
  | .beq _ _ _ => true
  | .bne _ _ _ => true
  | .blt _ _ _ => true
  | .bge _ _ _ => true
  | .bltu _ _ _ => true
  | .bgeu _ _ _ => true
  | .jal _ _ => true
  | .jalr _ _ _ => true
  | .loop _ _ off => off != 0
  | .csrr _ _ => true
  | .csrw _ _ => true
  | .csrs _ _ => true
  | .csrc _ _ => true
  | .kcall _ => true
  | .fcall _ => true
  | .brk _ => true
  | .tret => true
  | .wfi => true
  | .wswap => true
  | .tlbinv _ _ => true
  | .iflush => true
  | .halt => true
  | .launch _ _ => true
  | .fence _ _ => true
  | .rfence => true
  | .mon _ => true
  | .mwait => true
  | .evsig _ _ => true
  | .evwait _ => true
  | .send _ _ _ _ => true
  | .recv _ _ _ => true
  | .recvnb _ _ _ => true
  | .mcast _ _ _ => true
  | .amo op ord rd _ _ => amoOk op ord rd
  | .cas ord _ _ _ => decide (ord ≠ .relaxed .comm)
  | .lda _ _ _ => true
  | .str _ _ _ => true
  | .cinit _ _ => true
  | .cst _ _ => true
  | .cld _ _ _ => true
  | .crcl _ _ => true
  | .cver _ _ => true
  | .cellAbandon => true
  | .dma _ _ _ _ => true
  | .dmad _ _ _ _ => true
  | .dmares _ => true
  | .waitany _ => true
  | .waitall _ => true
  | .ffrdy _ => true
  | .tagclr _ => true
  | .qpush _ _ => true
  | .qpop _ _ => true
  | .qtry _ _ => true
  | .qcnt _ _ => true
  | .iceg _ => true
  | .ices _ => true
  | .iceres _ => true
  | .vld wd vd _ _ _ => groupAligned wd.count vd
  | .vlds wd vd _ _ => groupAligned wd.count vd
  | .vldx wd vd _ _ => groupAligned wd.count vd
  | .vst wd vd _ _ _ => groupAligned wd.count vd
  | .vsts wd vd _ _ => groupAligned wd.count vd
  | .vstx wd vd _ _ => groupAligned wd.count vd
  | .vadd ty wd vd vs1 vs2 => !ty.isFloat && lane3Ok wd vd vs1 vs2
  | .vsub ty wd vd vs1 vs2 => !ty.isFloat && lane3Ok wd vd vs1 vs2
  | .vmul ty wd vd vs1 vs2 => !ty.isFloat && lane3Ok wd vd vs1 vs2
  | .vmulh ty wd vd vs1 vs2 => !ty.isFloat && lane3Ok wd vd vs1 vs2
  | .vmin ty wd vd vs1 vs2 => !ty.isFloat && lane3Ok wd vd vs1 vs2
  | .vmax ty wd vd vs1 vs2 => !ty.isFloat && lane3Ok wd vd vs1 vs2
  | .vand ty wd vd vs1 vs2 => !ty.isFloat && lane3Ok wd vd vs1 vs2
  | .vor ty wd vd vs1 vs2 => !ty.isFloat && lane3Ok wd vd vs1 vs2
  | .vxor ty wd vd vs1 vs2 => !ty.isFloat && lane3Ok wd vd vs1 vs2
  | .vshl ty wd vd vs1 vs2 => !ty.isFloat && lane3Ok wd vd vs1 vs2
  | .vshr ty wd vd vs1 vs2 => !ty.isFloat && lane3Ok wd vd vs1 vs2
  | .vsra ty wd vd vs1 vs2 => !ty.isFloat && lane3Ok wd vd vs1 vs2
  | .vabs ty wd vd vs1 => !ty.isFloat && lane2Ok wd vd vs1
  | .vadds ty wd vd vs1 vs2 => !ty.isFloat && lane3Ok wd vd vs1 vs2
  | .vsubs ty wd vd vs1 vs2 => !ty.isFloat && lane3Ok wd vd vs1 vs2
  | .vcmpeq ty wd vd vs1 vs2 => !ty.isFloat && lane3Ok wd vd vs1 vs2
  | .vcmplt ty wd vd vs1 vs2 => !ty.isFloat && lane3Ok wd vd vs1 vs2
  | .vcmple ty wd vd vs1 vs2 => !ty.isFloat && lane3Ok wd vd vs1 vs2
  | .vsel ty wd vd vs1 vs2 => !ty.isFloat && lane3Ok wd vd vs1 vs2
  | .vfadd ty wd vd vs1 vs2 => ty.isFloat && lane3Ok wd vd vs1 vs2
  | .vfsub ty wd vd vs1 vs2 => ty.isFloat && lane3Ok wd vd vs1 vs2
  | .vfmul ty wd vd vs1 vs2 => ty.isFloat && lane3Ok wd vd vs1 vs2
  | .vfma ty wd vd vs1 vs2 => ty.isFloat && lane3Ok wd vd vs1 vs2
  | .vfnma ty wd vd vs1 vs2 => ty.isFloat && lane3Ok wd vd vs1 vs2
  | .vfmin ty wd vd vs1 vs2 => ty.isFloat && lane3Ok wd vd vs1 vs2
  | .vfmax ty wd vd vs1 vs2 => ty.isFloat && lane3Ok wd vd vs1 vs2
  | .vfdiv ty wd vd vs1 vs2 => ty.isFloat && lane3Ok wd vd vs1 vs2
  | .vfrsq ty wd vd vs1 => ty.isFloat && lane2Ok wd vd vs1
  | .vfexp2 ty wd vd vs1 => ty.isFloat && lane2Ok wd vd vs1
  | .vfcmpeq ty wd vd vs1 vs2 => ty.isFloat && lane3Ok wd vd vs1 vs2
  | .vfcmplt ty wd vd vs1 vs2 => ty.isFloat && lane3Ok wd vd vs1 vs2
  | .vfcmple ty wd vd vs1 vs2 => ty.isFloat && lane3Ok wd vd vs1 vs2
  | .vmovx _ _ _ _ => true
  | .vsplat _ wd vd _ => groupAligned wd.count vd
  | .vins _ _ _ _ => true
  | .vperm _ wd vd vs1 vs2 => lane3Ok wd vd vs1 vs2
  | .vslide _ wd vd vs1 _ => lane2Ok wd vd vs1
  | .vred _ wd _ vs1 => groupAligned wd.count vs1
  | .vscan _ wd vd vs1 => lane2Ok wd vd vs1
  | .vcvt ty wd vd vs1 td => groupAligned wd.count vs1 && derivedOk wd.count td.size ty.size vd
  | .vqnt ty wd vd vs1 _ => ty.isFloat && groupAligned wd.count vs1 && derivedOk wd.count 1 ty.size vd
  | .vnz _ wd _ vs1 _ => groupAligned wd.count vs1
  | .vcompr _ wd vd vs1 vs2 => lane3Ok wd vd vs1 vs2
  | .vpopc _ wd _ vs1 => groupAligned wd.count vs1
  | .sopen _ _ _ kind xc => kind == .list || xc == 0
  | .sadv _ _ => true
  | .stend _ _ => true
  | .sclose _ => true
  | .smerge vn _ => groupAligned 2 vn && decide (vn.toNat ≤ 26)
  | .spos _ _ => true
  | .streamPrefetch _ => true
  | .repf _ _ _ _ _ => true
  | .gform _ => true
  | .gjoin _ => true
  | .gleave _ => true
  | .gsplit => true
  | .gdet _ => true
  | .gatt _ => true
  | .rjp _ => true
  | .gbar => true
  | .xsh wd vd vs _ => lane2Ok wd vd vs
  | .xwrap wd vd vs _ => lane2Ok wd vd vs
  | .xshArrival _ => true
  | .mldw _ _ _ _ => true
  | .mzero _ _ _ => true
  | .mma _ _ _ _ _ _ _ _ => true
  | .mmas _ _ xb _ _ _ _ => groupAligned 2 xb && xb != 0
  | .msta _ _ _ _ _ => true
  | .mstv _ vq _ _ _ => groupAligned 4 vq
  | .matrixCommandStart => true
  | .microTileComplete => true
  | .matrixCommandComplete => true
  | .rgopen _ _ => true
  | .rlift _ => true
  | .reval _ _ => true
  | .rspine _ _ _ => true
  | .rscan _ _ _ _ => true
  | .rseek xn _ => groupAligned 2 xn && xn != 0
  | .rmv _ _ _ => true
  | .rget _ _ _ => true
  | .bsrc _ _ => true
  | .bgen _ _ _ _ => true
  | .band _ _ _ _ => true
  | .bxnor _ _ _ _ => true
  | .bmux _ _ _ _ _ => true
  | .bnot _ _ => true
  | .bcnt _ _ => true
  | .bregen _ _ _ => true
  | .bcls _ _ => true
  | .bmov _ _ => true
  | .takeInterrupt => true
  | .timerExpire => true
  | .homePerformAccess _ => true
  | .loadReturn => true
  | .storeAck _ => true
  | .atomicResultReturn _ => true
  | .commutativeMerge _ _ => true
  | .pageWalk => true
  | .linkCrcError _ => true
  | .selfTestComplete _ => true
  | .reservationRequest _ => true
  | .reservationGrant _ => true
  | .messageArrival _ => true
  | .contextBufferDrain => true
  | .eventSignalLand _ => true
  | .weirWindowClose => true
  | .broadcastApply _ => true
  | .dmaByteCopy _ => true
  | .codebookExpansion _ => true
  | .entropyExpansion _ => true
  | .bitPlaneEncoding _ => true
  | .blockCyclicDeal _ => true
  | .dmaChunkComplete _ => true
  | .dmaCommandComplete _ => true
  | .eddyGather _ => true
  | .eddyScatter _ => true
  | .eddyComplete _ => true
  | .launchAcceptance => true
  | .waitEventRead _ => true
  | .placementStep _ => true
  | .starvationBound _ => true
  | .coreHandoff => true
  | .quiescenceSweep _ => true
  | .launchCompletion _ => true
  | .hostBar2Access _ _ => true
  | .mbdoor _ => true
  | .logclr => true
  | .ovfClear => true
  | .go => true
  | .pwrcap _ => true
  | .mgmtRegisterWrite _ _ => true
  | .clockThrottle _ => true
  | .portFailure _ => true
  | .portFailTimeout _ => true
  | .powerOn _ => true
  | .illegalEncoding _ => true
  | .fetchFailure => true
  | .partitionBuild _ => true
  | .softwareInterrupt _ => true
  | .mwaitSpuriousReturn => true

end Sys2Proof
end

