-- ==== Sys2Proof/Decode.lean ====
section
/-!
DEFINITION. The decoder of the 32-bit instruction word (spec 12), total on every word, and the encoder. A word that is no
instruction (R278) decodes to none; the machine then traps ILLEGAL_INSTR.
-/

namespace Sys2Proof

/-- The major opcode, bits [31:26] (R273). -/
def fieldOp (w : IWord) : BitVec 6 := w.extractLsb' 26 6
/-- Bits [25:21] (R274). -/
def fieldA (w : IWord) : Reg := w.extractLsb' 21 5
/-- Bits [20:16] (R274). -/
def fieldB (w : IWord) : Reg := w.extractLsb' 16 5
/-- Bits [15:11] (R274). -/
def fieldC (w : IWord) : Reg := w.extractLsb' 11 5
/-- Bits [10:0]. -/
def fieldLo (w : IWord) : BitVec 11 := w.extractLsb' 0 11
/-- Bits [15:0], the imm16 and B-offset field (R275). -/
def fieldImm (w : IWord) : BitVec 16 := w.extractLsb' 0 16

/-- A word with a 16-bit field in [15:0] (R274, formats I, S and B). -/
def packImm (op : BitVec 6) (a b : Reg) (imm : BitVec 16) : IWord := op ++ a ++ b ++ imm

/-- The wd code of a group width (R276). -/
def Wd.code : Wd → BitVec 2
  | .w1 => 0 | .w2 => 1 | .w4 => 2 | .w8 => 3

/-- The group width of a wd code (R276). -/
def wdOf (c : BitVec 2) : Wd :=
  match c with
  | 0#2 => .w1
  | 1#2 => .w2
  | 2#2 => .w4
  | _ => .w8

/-- The ty code of an element type (R277). -/
def Ty.code : Ty → BitVec 3
  | .sb => 0 | .sh => 1 | .sw => 2 | .ub => 3 | .uh => 4 | .hf => 5 | .bf => 6 | .sf => 7

/-- The element type of a ty code (R277). -/
def tyOf (c : BitVec 3) : Ty :=
  match c with
  | 0#3 => .sb
  | 1#3 => .sh
  | 2#3 => .sw
  | 3#3 => .ub
  | 4#3 => .uh
  | 5#3 => .hf
  | 6#3 => .bf
  | _ => .sf

/-- The scope code (R164). -/
def Scope.code : Scope → BitVec 3
  | .core => 0 | .gang => 1 | .clu => 2 | .die => 3 | .dev => 4 | .sys => 5

/-- The scope of a code; 6 and 7 are illegal (R164). -/
def scopeOf (c : BitVec 3) : Option Scope :=
  match c with
  | 0#3 => some .core
  | 1#3 => some .gang
  | 2#3 => some .clu
  | 3#3 => some .die
  | 4#3 => some .dev
  | 5#3 => some .sys
  | _ => none

/-- The fence kind code (R284). -/
def FenceKind.code : FenceKind → BitVec 2
  | .acq => 1 | .rel => 2 | .full => 3

/-- The fence kind of a code; 0 is illegal (R284). -/
def fenceKindOf (c : BitVec 2) : Option FenceKind :=
  match c with
  | 1#2 => some .acq
  | 2#2 => some .rel
  | 3#2 => some .full
  | _ => none

/-- The AOP code (R285). -/
def AmoOp.code : AmoOp → BitVec 4
  | .add => 0 | .and => 1 | .or => 2 | .xor => 3 | .min => 4 | .max => 5 | .minu => 6 | .maxu => 7 | .swap => 8

/-- The operation of an AOP code; 9..15 are illegal (R285). -/
def amoOpOf (c : BitVec 4) : Option AmoOp :=
  match c with
  | 0#4 => some .add
  | 1#4 => some .and
  | 2#4 => some .or
  | 3#4 => some .xor
  | 4#4 => some .min
  | 5#4 => some .max
  | 6#4 => some .minu
  | 7#4 => some .maxu
  | 8#4 => some .swap
  | _ => none

/-- The use code (R172). -/
def AtomUse.code : AtomUse → BitVec 3
  | .unp => 0 | .comm => 1 | .nord => 2 | .quant => 3 | .spec => 4

/-- The use of a code; 5..7 are illegal (R172). -/
def atomUseOf (c : BitVec 3) : Option AtomUse :=
  match c with
  | 0#3 => some .unp
  | 1#3 => some .comm
  | 2#3 => some .nord
  | 3#3 => some .quant
  | 4#3 => some .spec
  | _ => none

/-- ORD and US of an atomic's ordering (R285). -/
def AtomOrder.code : AtomOrder → BitVec 5
  | .relaxed u => (0#2) ++ u.code
  | .acq s => (1#2) ++ s.code
  | .rel s => (2#2) ++ s.code
  | .acqrel s => (3#2) ++ s.code

/-- The ordering that ORD and US give (R285). -/
def atomOrderOf (ord : BitVec 2) (us : BitVec 3) : Option AtomOrder :=
  match ord with
  | 0#2 => (atomUseOf us).map .relaxed
  | 1#2 => (scopeOf us).map .acq
  | 2#2 => (scopeOf us).map .rel
  | _ => (scopeOf us).map .acqrel

/-- The TLBINV mode code (R327). -/
def TlbMode.code : TlbMode → BitVec 2
  | .all => 0 | .asid => 1 | .va => 2

/-- The mode of a code; 3 is illegal (R283). -/
def tlbModeOf (c : BitVec 2) : Option TlbMode :=
  match c with
  | 0#2 => some .all
  | 1#2 => some .asid
  | 2#2 => some .va
  | _ => none

/-- The PC code of a plane suffix (R288). -/
def PlaneSel.code : PlaneSel → BitVec 4
  | .stored => 0
  | .planes k => (k.setWidth 4) + 1

/-- The plane suffix of a PC code; 9..15 are illegal (R288). -/
def planeSelOf (c : BitVec 4) : Option PlaneSel :=
  if c = 0 then some .stored
  else if c.toNat ≤ 8 then some (.planes ((c - 1).setWidth 3))
  else none

/-- The KIND code of a stream (R138). -/
def StreamKind.code : StreamKind → BitVec 2
  | .denseRead => 0 | .denseWrite => 1 | .line => 2 | .list => 3

/-- The stream kind of a code (R138). -/
def streamKindOf (c : BitVec 2) : StreamKind :=
  match c with
  | 0#2 => .denseRead
  | 1#2 => .denseWrite
  | 2#2 => .line
  | _ => .list

/-- The value if the condition holds; otherwise the word is no instruction. -/
def legal (ok : Bool) (i : Instr) : Option Instr := if ok then some i else none

/-- A bit-stream register field: 16..31 are illegal (R297). -/
def breg (r : Reg) : BitVec 4 := r.setWidth 4

/-- The field names b0..b15. -/
def bregOk (r : Reg) : Bool := decide (r.toNat < 16)

/-- A stream-register field of 28..31 (R291). -/
def streamOk (r : Reg) : Bool := decide (28 ≤ r.toNat)

/-- The descriptor number of a stream-register field (R291). -/
def streamOf (r : Reg) : BitVec 2 := r.setWidth 2

/-- OPR: R format, fn in [8:0] (R281). -/
def decodeOpr (w : IWord) : Option Instr :=
  let d := fieldA w
  let a := fieldB w
  let b := fieldC w
  let lo := fieldLo w
  let sh : BitVec 6 := w.extractLsb' 10 6
  let w00 := lo.extractLsb' 9 2 == 0
  match (lo.extractLsb' 0 9).toNat with
  | 0 => legal w00 (.add d a b)
  | 1 => legal w00 (.sub d a b)
  | 2 => legal w00 (.and d a b)
  | 3 => legal w00 (.or d a b)
  | 4 => legal w00 (.xor d a b)
  | 5 => legal w00 (.andn d a b)
  | 6 => legal w00 (.orn d a b)
  | 7 => legal w00 (.sll d a b)
  | 8 => legal w00 (.srl d a b)
  | 9 => legal w00 (.sra d a b)
  | 10 => legal (lo.extractLsb' 9 1 == 0) (.slli d a sh)
  | 11 => legal (lo.extractLsb' 9 1 == 0) (.srli d a sh)
  | 12 => legal (lo.extractLsb' 9 1 == 0) (.srai d a sh)
  | 13 => legal w00 (.slt d a b)
  | 14 => legal w00 (.sltu d a b)
  | 15 => legal w00 (.min d a b)
  | 16 => legal w00 (.max d a b)
  | 17 => legal w00 (.minu d a b)
  | 18 => legal w00 (.maxu d a b)
  | 19 => legal w00 (.mul d a b)
  | 20 => legal w00 (.mulh d a b)
  | 21 => legal w00 (.mulhu d a b)
  | 22 => legal w00 (.div d a b)
  | 23 => legal w00 (.divu d a b)
  | 24 => legal w00 (.rem d a b)
  | 25 => legal w00 (.remu d a b)
  | 26 => legal (w00 && b == 0) (.clz d a)
  | 27 => legal (w00 && b == 0) (.ctz d a)
  | 28 => legal (w00 && b == 0) (.popc d a)
  | 29 => legal (w00 && b == 0) (.sextb d a)
  | 30 => legal (w00 && b == 0) (.sexth d a)
  | 31 => legal (w00 && b == 0) (.sextw d a)
  | 32 => legal (w00 && b == 0) (.zextw d a)
  | 33 => legal w00 (.csel d a b)
  | 34 => legal w00 (.ptag d a b)
  | 35 => legal (w00 && b == 0) (.pfmt d a)
  | 36 => legal (w00 && b == 0) (.pblk d a)
  | 37 => legal w00 (.pmesh d a b)
  | _ => none

/-- SYS: K format, fn in [3:0], csr in [15:4] (R283). -/
def decodeSys (w : IWord) : Option Instr :=
  let d := fieldA w
  let a := fieldB w
  let csr : BitVec 12 := w.extractLsb' 4 12
  let z := d == 0 && a == 0 && csr == 0
  match (w.extractLsb' 0 4).toNat with
  | 0 => legal (a == 0) (.csrr d csr)
  | 1 => legal (d == 0) (.csrw csr a)
  | 2 => legal (d == 0) (.csrs csr a)
  | 3 => legal (d == 0) (.csrc csr a)
  | 4 => legal (d == 0 && a == 0) (.kcall csr)
  | 5 => legal (d == 0 && a == 0) (.fcall csr)
  | 6 => legal (d == 0 && a == 0) (.brk csr)
  | 7 => legal z .tret
  | 8 => legal z .wfi
  | 9 => legal z .wswap
  | 10 =>
    match tlbModeOf (csr.extractLsb' 0 2) with
    | some m => legal (d == 0 && csr.extractLsb' 2 10 == 0) (.tlbinv a m)
    | none => none
  | 11 => legal z .iflush
  | 12 => legal z .halt
  | 13 => legal (csr == 0) (.launch d a)
  | _ => none

/-- SYNC: K format with sub-fields in [15:4] (R284). -/
def decodeSync (w : IWord) : Option Instr :=
  let d := fieldA w
  let a := fieldB w
  let c := fieldC w
  let sub : BitVec 12 := w.extractLsb' 4 12
  let ch : BitVec 4 := w.extractLsb' 7 4
  let vec := w.extractLsb' 11 1 == 1
  let msgOk := w.extractLsb' 12 4 == 0 && w.extractLsb' 4 3 == 0
  let evOk := w.extractLsb' 10 6 == 0 && w.extractLsb' 4 3 == 0
  let ev : BitVec 3 := w.extractLsb' 7 3
  match (w.extractLsb' 0 4).toNat with
  | 0 =>
    match fenceKindOf (w.extractLsb' 7 2), scopeOf (w.extractLsb' 4 3) with
    | some k, some s => legal (d == 0 && a == 0 && w.extractLsb' 9 7 == 0) (.fence k s)
    | _, _ => none
  | 1 => legal (d == 0 && a == 0 && sub == 0) .rfence
  | 2 => legal (d == 0 && sub == 0) (.mon a)
  | 3 => legal (d == 0 && a == 0 && sub == 0) .mwait
  | 4 => legal (d == 0 && evOk) (.evsig a ev)
  | 5 => legal (d == 0 && a == 0 && evOk) (.evwait ev)
  | 6 => legal msgOk (.send d a ch vec)
  | 7 => legal (a == 0 && msgOk) (.recv d ch vec)
  | 8 => legal (a == 0 && msgOk) (.recvnb d ch vec)
  | 9 => legal (w.extractLsb' 4 7 == 0) (.mcast d a c)
  | _ => none

/-- ATOM (R285). -/
def decodeAtom (w : IWord) : Option Instr :=
  let d := fieldA w
  let a := fieldB w
  let b := fieldC w
  let aop : BitVec 4 := w.extractLsb' 5 4
  let ord : BitVec 2 := w.extractLsb' 3 2
  let us : BitVec 3 := w.extractLsb' 0 3
  match (w.extractLsb' 9 2).toNat with
  | 0 =>
    match amoOpOf aop, atomOrderOf ord us with
    | some op, some o => legal (amoOk op o d) (.amo op o d a b)
    | _, _ => none
  | 1 =>
    match atomOrderOf ord us with
    | some o => legal (aop == 0 && decide (o ≠ .relaxed .comm)) (.cas o d a b)
    | none => none
  | 2 =>
    match scopeOf us with
    | some s => legal (b == 0 && aop == 0 && ord == 0) (.lda s d a)
    | none => none
  | _ =>
    match scopeOf us with
    | some s => legal (d == 0 && aop == 0 && ord == 0) (.str s a b)
    | none => none

/-- CELL (R286). -/
def decodeCell (w : IWord) : Option Instr :=
  let d := fieldA w
  let a := fieldB w
  let b := fieldC w
  let z := w.extractLsb' 3 8 == 0
  match (w.extractLsb' 0 3).toNat with
  | 0 => legal (z && d == 0) (.cinit a b)
  | 1 => legal (z && d == 0) (.cst a b)
  | 2 => legal z (.cld d a b)
  | 3 => legal (z && d == 0) (.crcl a b)
  | 4 => legal (z && b == 0) (.cver d a)
  | _ => none

/-- XFER: E format (R287). -/
def decodeXfer (w : IWord) : Option Instr :=
  let a := fieldA w
  let b := fieldB w
  let c := fieldC w
  let tag : BitVec 6 := w.extractLsb' 5 6
  let q : BitVec 3 := c.setWidth 3
  let qOk := decide (c.toNat < 8) && tag == 0
  let bOnly := a == 0 && c == 0 && tag == 0
  match (w.extractLsb' 0 5).toNat with
  | 0 => some (.dma a b c tag)
  | 1 => some (.dmad a b c tag)
  | 2 => legal bOnly (.dmares b)
  | 3 => legal bOnly (.waitany b)
  | 4 => legal bOnly (.waitall b)
  | 5 => legal (b == 0 && c == 0 && tag == 0) (.ffrdy a)
  | 6 => legal bOnly (.tagclr b)
  | 7 => legal (a == 0 && qOk) (.qpush q b)
  | 8 => legal (b == 0 && qOk) (.qpop a q)
  | 9 => legal (b == 0 && qOk) (.qtry a q)
  | 10 => legal (b == 0 && qOk) (.qcnt a q)
  | 11 => legal bOnly (.iceg b)
  | 12 => legal bOnly (.ices b)
  | 13 => legal bOnly (.iceres b)
  | _ => none

/-- VMEM (R288). -/
def decodeVmem (w : IWord) : Option Instr :=
  let vd := fieldA w
  let xb := fieldB w
  let c := fieldC w
  let wd := wdOf (w.extractLsb' 9 2)
  let pc : BitVec 4 := w.extractLsb' 5 4
  let ok := w.extractLsb' 3 2 == 0 && groupAligned wd.count vd
  match (w.extractLsb' 0 3).toNat with
  | 0 =>
    match planeSelOf pc with
    | some p => legal ok (.vld wd vd xb c p)
    | none => none
  | 1 => legal (ok && pc == 0) (.vlds wd vd xb c)
  | 2 => legal (ok && pc == 0) (.vldx wd vd xb c)
  | 3 =>
    match planeSelOf pc with
    | some p => legal ok (.vst wd vd xb c p)
    | none => none
  | 4 => legal (ok && pc == 0) (.vsts wd vd xb c)
  | 5 => legal (ok && pc == 0) (.vstx wd vd xb c)
  | _ => none

/-- VINT: V format, integer types (R289). -/
def decodeVint (w : IWord) : Option Instr :=
  let vd := fieldA w
  let v1 := fieldB w
  let v2 := fieldC w
  let wd := wdOf (w.extractLsb' 9 2)
  let ty := tyOf (w.extractLsb' 6 3)
  let ok := !ty.isFloat && lane3Ok wd vd v1 v2
  match (w.extractLsb' 0 6).toNat with
  | 0 => legal ok (.vadd ty wd vd v1 v2)
  | 1 => legal ok (.vsub ty wd vd v1 v2)
  | 2 => legal ok (.vmul ty wd vd v1 v2)
  | 3 => legal ok (.vmulh ty wd vd v1 v2)
  | 4 => legal ok (.vmin ty wd vd v1 v2)
  | 5 => legal ok (.vmax ty wd vd v1 v2)
  | 6 => legal ok (.vand ty wd vd v1 v2)
  | 7 => legal ok (.vor ty wd vd v1 v2)
  | 8 => legal ok (.vxor ty wd vd v1 v2)
  | 9 => legal ok (.vshl ty wd vd v1 v2)
  | 10 => legal ok (.vshr ty wd vd v1 v2)
  | 11 => legal ok (.vsra ty wd vd v1 v2)
  | 12 => legal (!ty.isFloat && lane2Ok wd vd v1 && v2 == 0) (.vabs ty wd vd v1)
  | 13 => legal ok (.vadds ty wd vd v1 v2)
  | 14 => legal ok (.vsubs ty wd vd v1 v2)
  | 15 => legal ok (.vcmpeq ty wd vd v1 v2)
  | 16 => legal ok (.vcmplt ty wd vd v1 v2)
  | 17 => legal ok (.vcmple ty wd vd v1 v2)
  | 18 => legal ok (.vsel ty wd vd v1 v2)
  | _ => none

/-- VFP: V format, floating-point types (R289). -/
def decodeVfp (w : IWord) : Option Instr :=
  let vd := fieldA w
  let v1 := fieldB w
  let v2 := fieldC w
  let wd := wdOf (w.extractLsb' 9 2)
  let ty := tyOf (w.extractLsb' 6 3)
  let ok := ty.isFloat && lane3Ok wd vd v1 v2
  match (w.extractLsb' 0 6).toNat with
  | 0 => legal ok (.vfadd ty wd vd v1 v2)
  | 1 => legal ok (.vfsub ty wd vd v1 v2)
  | 2 => legal ok (.vfmul ty wd vd v1 v2)
  | 3 => legal ok (.vfma ty wd vd v1 v2)
  | 4 => legal ok (.vfnma ty wd vd v1 v2)
  | 5 => legal ok (.vfmin ty wd vd v1 v2)
  | 6 => legal ok (.vfmax ty wd vd v1 v2)
  | 7 => legal ok (.vfdiv ty wd vd v1 v2)
  | 8 => legal (ty.isFloat && lane2Ok wd vd v1 && v2 == 0) (.vfrsq ty wd vd v1)
  | 9 => legal (ty.isFloat && lane2Ok wd vd v1 && v2 == 0) (.vfexp2 ty wd vd v1)
  | 10 => legal ok (.vfcmpeq ty wd vd v1 v2)
  | 11 => legal ok (.vfcmplt ty wd vd v1 v2)
  | 12 => legal ok (.vfcmple ty wd vd v1 v2)
  | _ => none

/-- VMISC: V format with its own field roles (R290). -/
def decodeVmisc (w : IWord) : Option Instr :=
  let vd := fieldA w
  let v1 := fieldB w
  let v2 := fieldC w
  let wd := wdOf (w.extractLsb' 9 2)
  let ty := tyOf (w.extractLsb' 6 3)
  let single := w.extractLsb' 9 2 == 0
  let td := tyOf (v2.setWidth 3)
  match (w.extractLsb' 0 6).toNat with
  | 0 => legal single (.vmovx ty vd v1 v2)
  | 1 => legal (groupAligned wd.count vd && v2 == 0) (.vsplat ty wd vd v1)
  | 2 => legal single (.vins ty vd v1 v2)
  | 3 => legal (lane3Ok wd vd v1 v2) (.vperm ty wd vd v1 v2)
  | 4 => legal (lane2Ok wd vd v1) (.vslide ty wd vd v1 v2)
  | 5 => legal (groupAligned wd.count v1 && v2 == 0) (.vred ty wd vd v1)
  | 6 => legal (lane2Ok wd vd v1 && v2 == 0) (.vscan ty wd vd v1)
  | 7 => legal (groupAligned wd.count v1 && derivedOk wd.count td.size ty.size vd && v2.extractLsb' 3 2 == 0)
      (.vcvt ty wd vd v1 td)
  | 8 => legal (ty.isFloat && groupAligned wd.count v1 && derivedOk wd.count 1 ty.size vd) (.vqnt ty wd vd v1 v2)
  | 9 => legal (groupAligned wd.count v1) (.vnz ty wd vd v1 v2)
  | 10 => legal (lane3Ok wd vd v1 v2) (.vcompr ty wd vd v1 v2)
  | 11 => legal (groupAligned wd.count v1 && v2 == 0) (.vpopc ty wd vd v1)
  | _ => none

/-- STRM (R291). -/
def decodeStrm (w : IWord) : Option Instr :=
  let a := fieldA w
  let b := fieldB w
  let c13 : BitVec 13 := w.extractLsb' 3 13
  let kind := streamKindOf (w.extractLsb' 9 2)
  let xc : Reg := w.extractLsb' 4 5
  match (w.extractLsb' 0 3).toNat with
  | 0 => legal (streamOk a && w.extractLsb' 3 1 == 0 && (kind == .list || xc == 0))
      (.sopen (streamOf a) b (fieldC w) kind xc)
  | 1 => legal (streamOk a && c13 == 0) (.sadv (streamOf a) b)
  | 2 => legal (streamOk a && b == 0) (.stend (streamOf a) c13)
  | 3 => legal (streamOk a && b == 0 && c13 == 0) (.sclose (streamOf a))
  | 4 => legal (b == 0 && c13.extractLsb' 1 12 == 0 && groupAligned 2 a && decide (a.toNat ≤ 26))
      (.smerge a (c13.extractLsb' 0 1 == 1))
  | 5 => legal (streamOk b && c13 == 0) (.spos a (streamOf b))
  | _ => none

/-- GANG (R294). -/
def decodeGang (w : IWord) : Option Instr :=
  let a := fieldA w
  let b := fieldB w
  let id : BitVec 8 := w.extractLsb' 8 8
  let wd := wdOf (w.extractLsb' 6 2)
  let west := w.extractLsb' 5 1 == 1
  let mid := w.extractLsb' 4 4 == 0
  let bOnly := a == 0 && id == 0 && mid
  let idOnly := a == 0 && b == 0 && mid
  let shOk := id == 0 && w.extractLsb' 4 1 == 0 && lane2Ok wd a b
  match (w.extractLsb' 0 4).toNat with
  | 0 => legal bOnly (.gform b)
  | 1 => legal bOnly (.gjoin b)
  | 2 => legal bOnly (.gleave b)
  | 3 => legal (bOnly && b == 0) .gsplit
  | 4 => legal bOnly (.gdet b)
  | 5 => legal idOnly (.gatt id)
  | 6 => legal idOnly (.rjp id)
  | 7 => legal (idOnly && id == 0) .gbar
  | 8 => legal shOk (.xsh wd a b west)
  | 9 => legal shOk (.xwrap wd a b west)
  | _ => none

/-- MTX (R295). -/
def decodeMtx (w : IWord) : Option Instr :=
  let ac : BitVec 3 := w.extractLsb' 23 3
  let wt : BitVec 2 := w.extractLsb' 21 2
  let b := fieldB w
  let c := fieldC w
  let p : BitVec 3 := w.extractLsb' 8 3
  let pri : BitVec 2 := w.extractLsb' 6 2
  let tag : BitVec 3 := w.extractLsb' 3 3
  let rows : BitVec 3 := w.extractLsb' 13 3
  let rowsOk := w.extractLsb' 11 2 == 0
  match (w.extractLsb' 0 3).toNat with
  | 0 => legal (ac == 0 && c == 0 && p == 0) (.mldw wt b pri tag)
  | 1 => legal (wt == 0 && b == 0 && c == 0 && p == 0) (.mzero ac pri tag)
  | 2 => some (.mma ac wt (w.extractLsb' 19 2) (w.extractLsb' 16 3) c p pri tag)
  | 3 => legal (rowsOk && groupAligned 2 b && b != 0) (.mmas ac wt b rows p pri tag)
  | 4 => legal (rowsOk && wt == 0 && p == 0) (.msta ac b rows pri tag)
  | 5 => legal (wt == 0 && p == 0 && groupAligned 4 b) (.mstv ac b c pri tag)
  | _ => none

/-- RULE (R296). -/
def decodeRule (w : IWord) : Option Instr :=
  let a := fieldA w
  let b := fieldB w
  let c := fieldC w
  let sel : BitVec 2 := w.extractLsb' 3 2
  let z := w.extractLsb' 5 6 == 0
  let z0 := z && sel == 0
  match (w.extractLsb' 0 3).toNat with
  | 0 => legal (z0 && a == 0) (.rgopen b c)
  | 1 => legal (z0 && a == 0 && c == 0) (.rlift b)
  | 2 => legal (z0 && a == 0) (.reval b c)
  | 3 => legal z0 (.rspine a b c)
  | 4 => legal (z && sel.extractLsb' 1 1 == 0) (.rscan a b c (sel.extractLsb' 0 1 == 1))
  | 5 => legal (z0 && c == 0 && groupAligned 2 a && a != 0) (.rseek a b)
  | 6 => legal z0 (.rmv a b c)
  | _ => legal (z && c == 0) (.rget a b sel)

/-- RIFF (R297). -/
def decodeRiff (w : IWord) : Option Instr :=
  let a := fieldA w
  let b := fieldB w
  let c := fieldC w
  let dd : BitVec 4 := w.extractLsb' 7 4
  let g : BitVec 3 := w.extractLsb' 7 3
  let gOk := w.extractLsb' 10 1 == 0
  let len : BitVec 2 := w.extractLsb' 5 2
  let lenOk := len == 0
  let cor := w.extractLsb' 4 1 == 1
  let corOk := w.extractLsb' 4 1 == 0
  let ab := bregOk a && bregOk b
  let abc := ab && bregOk c
  let unary := c == 0 && dd == 0 && lenOk && corOk
  match (w.extractLsb' 0 4).toNat with
  | 0 => legal (a == 0 && c == 0 && gOk && lenOk && corOk) (.bsrc g b)
  | 1 => legal (bregOk a && c == 0 && gOk && corOk) (.bgen (breg a) b g len)
  | 2 => legal (abc && dd == 0 && lenOk) (.band (breg a) (breg b) (breg c) cor)
  | 3 => legal (abc && dd == 0 && lenOk) (.bxnor (breg a) (breg b) (breg c) cor)
  | 4 => legal (abc && lenOk) (.bmux (breg a) (breg b) (breg c) dd cor)
  | 5 => legal (ab && unary) (.bnot (breg a) (breg b))
  | 6 => legal (bregOk b && unary) (.bcnt a (breg b))
  | 7 => legal (ab && c == 0 && gOk && lenOk && corOk) (.bregen (breg a) (breg b) g)
  | 8 => legal (bregOk b && unary) (.bcls a (breg b))
  | 9 => legal (ab && unary) (.bmov (breg a) (breg b))
  | _ => none

/-- The instruction a word is, or none where it is an illegal encoding (R278, R280). -/
def decode (w : IWord) : Option Instr :=
  let a := fieldA w
  let b := fieldB w
  let imm := fieldImm w
  match (fieldOp w).toNat with
  | 0x01 => decodeOpr w
  | 0x02 => some (.addi a b imm)
  | 0x03 => some (.andi a b imm)
  | 0x04 => some (.ori a b imm)
  | 0x05 => some (.xori a b imm)
  | 0x06 => some (.slti a b imm)
  | 0x07 => some (.sltiu a b imm)
  | 0x08 => legal (b == 0) (.lui a imm)
  | 0x09 => legal (b == 0) (.auipc a imm)
  | 0x0A => some (.shori a b imm)
  | 0x0B => some (.lb a b imm)
  | 0x0C => some (.lbu a b imm)
  | 0x0D => some (.lh a b imm)
  | 0x0E => some (.lhu a b imm)
  | 0x0F => some (.lw a b imm)
  | 0x10 => some (.lwu a b imm)
  | 0x11 => some (.ld a b imm)
  | 0x12 => some (.sb a b imm)
  | 0x13 => some (.sh a b imm)
  | 0x14 => some (.sw a b imm)
  | 0x15 => some (.sd a b imm)
  | 0x16 => some (.beq a b imm)
  | 0x17 => some (.bne a b imm)
  | 0x18 => some (.blt a b imm)
  | 0x19 => some (.bge a b imm)
  | 0x1A => some (.bltu a b imm)
  | 0x1B => some (.bgeu a b imm)
  | 0x1C => some (.jal a (w.extractLsb' 0 21))
  | 0x1D => some (.jalr a b imm)
  | 0x1E => legal (w.extractLsb' 0 20 != 0) (.loop (w.extractLsb' 25 1) (w.extractLsb' 20 5) (w.extractLsb' 0 20))
  | 0x1F => decodeSys w
  | 0x20 => decodeSync w
  | 0x21 => decodeAtom w
  | 0x22 => decodeCell w
  | 0x23 => decodeXfer w
  | 0x24 => decodeVmem w
  | 0x25 => decodeVint w
  | 0x26 => decodeVfp w
  | 0x27 => decodeVmisc w
  | 0x28 => decodeStrm w
  | 0x29 => legal (w.extractLsb' 0 9 == 0) (.repf (w.extractLsb' 22 4) (w.extractLsb' 21 1 == 1) b (w.extractLsb' 12 4)
      (w.extractLsb' 9 3))
  | 0x2A => decodeGang w
  | 0x2B => decodeMtx w
  | 0x2C => decodeRule w
  | 0x2D => decodeRiff w
  | _ => none

/-- The word of four bytes in memory order (R273: little-endian). -/
def wordOfBytes (b0 b1 b2 b3 : Byte) : IWord := b3 ++ b2 ++ b1 ++ b0

/-- Byte k of a word, in memory order (R273). -/
def byteOfWord (w : IWord) (k : Nat) : Byte := w.extractLsb' (8 * k) 8

/-- The instruction the decoder reads from the word whose bits are w, laid out in memory and read back. Bits at and above
nbits are zero. Every instruction is one word (R273), so a row of more than 32 bits has none. -/
def decodeTableWord (nbits w : Nat) : Option Instr :=
  if nbits ≤ 32 then
    let x := BitVec.ofNat 32 (w % 2 ^ nbits)
    decode (wordOfBytes (byteOfWord x 0) (byteOfWord x 1) (byteOfWord x 2) (byteOfWord x 3))
  else none

/-- Bit of a flag. -/
def bit (b : Bool) : BitVec 1 := if b then 1 else 0

/-- OPR word (R301 to R305). -/
def wOpr (fn : BitVec 9) (d a b : Reg) : IWord := (0x01#6) ++ d ++ a ++ b ++ (0#2) ++ fn
/-- OPR shift-immediate word (R302). -/
def wShift (fn : BitVec 9) (d a : Reg) (sh : BitVec 6) : IWord := (0x01#6) ++ d ++ a ++ sh ++ (0#1) ++ fn
/-- K-format word (R274). -/
def wK (op : BitVec 6) (d a : Reg) (sub : BitVec 12) (fn : BitVec 4) : IWord := op ++ d ++ a ++ sub ++ fn
/-- Message word: VEC at 11, CH at [10:7] (R339). -/
def wMsg (fn : BitVec 4) (d a : Reg) (ch : BitVec 4) (vec : Bool) : IWord :=
  (0x20#6) ++ d ++ a ++ (0#4) ++ bit vec ++ ch ++ (0#3) ++ fn
/-- FENCE word: KIND at [8:7], SCOPE at [6:4] (R284). -/
def wFence (k : FenceKind) (s : Scope) : IWord := (0x20#6) ++ (0#5) ++ (0#5) ++ (0#7) ++ k.code ++ s.code ++ (0#4)
/-- Event word: EV at [9:7] (R284). -/
def wEvent (fn : BitVec 4) (a : Reg) (ev : BitVec 3) : IWord := (0x20#6) ++ (0#5) ++ a ++ (0#6) ++ ev ++ (0#3) ++ fn
/-- ATOM word (R344). -/
def wAtom (fn : BitVec 2) (d a b : Reg) (aop : BitVec 4) (ordUs : BitVec 5) : IWord :=
  (0x21#6) ++ d ++ a ++ b ++ fn ++ aop ++ ordUs
/-- CELL word (R348). -/
def wCell (fn : BitVec 3) (d a b : Reg) : IWord := (0x22#6) ++ d ++ a ++ b ++ (0#8) ++ fn
/-- XFER word (R350, R352, R354, R355). -/
def wXfer (fn : BitVec 5) (a b c : Reg) (tag : BitVec 6) : IWord := (0x23#6) ++ a ++ b ++ c ++ tag ++ fn
/-- VMEM word (R360). -/
def wVmem (fn : BitVec 3) (wd : Wd) (vd xb c : Reg) (pc : BitVec 4) : IWord :=
  (0x24#6) ++ vd ++ xb ++ c ++ wd.code ++ pc ++ (0#2) ++ fn
/-- V-format word (R366 to R368). -/
def wV (op : BitVec 6) (fn : BitVec 6) (ty : Ty) (wd : Wd) (a b c : Reg) : IWord :=
  op ++ a ++ b ++ c ++ wd.code ++ ty.code ++ fn
/-- Stream-register field 28 + s (R291). -/
def streamReg (s : BitVec 2) : Reg := (7#3) ++ s
/-- GANG word (R382). -/
def wGang (fn : BitVec 4) (a b : Reg) (id : BitVec 8) (wd : BitVec 2) (dir : Bool) : IWord :=
  (0x2A#6) ++ a ++ b ++ id ++ wd ++ bit dir ++ (0#1) ++ fn
/-- MTX word (R386). -/
def wMtx (fn : BitVec 3) (ac : BitVec 3) (wt : BitVec 2) (b c : Reg) (p : BitVec 3) (pri : BitVec 2) (tag : BitVec 3) :
    IWord := (0x2B#6) ++ ac ++ wt ++ b ++ c ++ p ++ pri ++ tag ++ fn
/-- RULE word (R409). -/
def wRule (fn : BitVec 3) (a b c : Reg) (sel : BitVec 2) : IWord := (0x2C#6) ++ a ++ b ++ c ++ (0#6) ++ sel ++ fn
/-- RIFF word (R427). -/
def wRiff (fn : BitVec 4) (a b c : Reg) (dd : BitVec 4) (len : BitVec 2) (cor : Bool) : IWord :=
  (0x2D#6) ++ a ++ b ++ c ++ dd ++ len ++ bit cor ++ fn
/-- A bit-stream register's five-bit field. -/
def bfield (b : BitVec 4) : Reg := (0#1) ++ b

/-- The word of an instruction (R281 to R297); none for a step that has no word. -/
def encode : Instr → Option IWord
  | .add d a b => some (wOpr 0 d a b)
  | .sub d a b => some (wOpr 1 d a b)
  | .and d a b => some (wOpr 2 d a b)
  | .or d a b => some (wOpr 3 d a b)
  | .xor d a b => some (wOpr 4 d a b)
  | .andn d a b => some (wOpr 5 d a b)
  | .orn d a b => some (wOpr 6 d a b)
  | .sll d a b => some (wOpr 7 d a b)
  | .srl d a b => some (wOpr 8 d a b)
  | .sra d a b => some (wOpr 9 d a b)
  | .slli d a sh => some (wShift 10 d a sh)
  | .srli d a sh => some (wShift 11 d a sh)
  | .srai d a sh => some (wShift 12 d a sh)
  | .slt d a b => some (wOpr 13 d a b)
  | .sltu d a b => some (wOpr 14 d a b)
  | .min d a b => some (wOpr 15 d a b)
  | .max d a b => some (wOpr 16 d a b)
  | .minu d a b => some (wOpr 17 d a b)
  | .maxu d a b => some (wOpr 18 d a b)
  | .mul d a b => some (wOpr 19 d a b)
  | .mulh d a b => some (wOpr 20 d a b)
  | .mulhu d a b => some (wOpr 21 d a b)
  | .div d a b => some (wOpr 22 d a b)
  | .divu d a b => some (wOpr 23 d a b)
  | .rem d a b => some (wOpr 24 d a b)
  | .remu d a b => some (wOpr 25 d a b)
  | .clz d a => some (wOpr 26 d a 0)
  | .ctz d a => some (wOpr 27 d a 0)
  | .popc d a => some (wOpr 28 d a 0)
  | .sextb d a => some (wOpr 29 d a 0)
  | .sexth d a => some (wOpr 30 d a 0)
  | .sextw d a => some (wOpr 31 d a 0)
  | .zextw d a => some (wOpr 32 d a 0)
  | .csel d a b => some (wOpr 33 d a b)
  | .ptag d a b => some (wOpr 34 d a b)
  | .pfmt d a => some (wOpr 35 d a 0)
  | .pblk d a => some (wOpr 36 d a 0)
  | .pmesh d a b => some (wOpr 37 d a b)
  | .addi a b imm => some (packImm 0x02 a b imm)
  | .andi a b imm => some (packImm 0x03 a b imm)
  | .ori a b imm => some (packImm 0x04 a b imm)
  | .xori a b imm => some (packImm 0x05 a b imm)
  | .slti a b imm => some (packImm 0x06 a b imm)
  | .sltiu a b imm => some (packImm 0x07 a b imm)
  | .lui a imm => some (packImm 0x08 a 0 imm)
  | .auipc a imm => some (packImm 0x09 a 0 imm)
  | .shori a b imm => some (packImm 0x0A a b imm)
  | .lb a b imm => some (packImm 0x0B a b imm)
  | .lbu a b imm => some (packImm 0x0C a b imm)
  | .lh a b imm => some (packImm 0x0D a b imm)
  | .lhu a b imm => some (packImm 0x0E a b imm)
  | .lw a b imm => some (packImm 0x0F a b imm)
  | .lwu a b imm => some (packImm 0x10 a b imm)
  | .ld a b imm => some (packImm 0x11 a b imm)
  | .sb a b imm => some (packImm 0x12 a b imm)
  | .sh a b imm => some (packImm 0x13 a b imm)
  | .sw a b imm => some (packImm 0x14 a b imm)
  | .sd a b imm => some (packImm 0x15 a b imm)
  | .beq a b imm => some (packImm 0x16 a b imm)
  | .bne a b imm => some (packImm 0x17 a b imm)
  | .blt a b imm => some (packImm 0x18 a b imm)
  | .bge a b imm => some (packImm 0x19 a b imm)
  | .bltu a b imm => some (packImm 0x1A a b imm)
  | .bgeu a b imm => some (packImm 0x1B a b imm)
  | .jal a off => some ((0x1C#6) ++ a ++ off)
  | .jalr a b imm => some (packImm 0x1D a b imm)
  | .loop lvl a off => some ((0x1E#6) ++ lvl ++ a ++ off)
  | .csrr d c => some (wK 0x1F d 0 c 0)
  | .csrw c a => some (wK 0x1F 0 a c 1)
  | .csrs c a => some (wK 0x1F 0 a c 2)
  | .csrc c a => some (wK 0x1F 0 a c 3)
  | .kcall c => some (wK 0x1F 0 0 c 4)
  | .fcall c => some (wK 0x1F 0 0 c 5)
  | .brk c => some (wK 0x1F 0 0 c 6)
  | .tret => some (wK 0x1F 0 0 0 7)
  | .wfi => some (wK 0x1F 0 0 0 8)
  | .wswap => some (wK 0x1F 0 0 0 9)
  | .tlbinv a m => some (wK 0x1F 0 a ((0#10) ++ m.code) 10)
  | .iflush => some (wK 0x1F 0 0 0 11)
  | .halt => some (wK 0x1F 0 0 0 12)
  | .launch d a => some (wK 0x1F d a 0 13)
  | .fence k s => some (wFence k s)
  | .rfence => some (wK 0x20 0 0 0 1)
  | .mon a => some (wK 0x20 0 a 0 2)
  | .mwait => some (wK 0x20 0 0 0 3)
  | .evsig a ev => some (wEvent 4 a ev)
  | .evwait ev => some (wEvent 5 0 ev)
  | .send d a ch v => some (wMsg 6 d a ch v)
  | .recv d ch v => some (wMsg 7 d 0 ch v)
  | .recvnb d ch v => some (wMsg 8 d 0 ch v)
  | .mcast d a c => some ((0x20#6) ++ d ++ a ++ c ++ (0#7) ++ (9#4))
  | .amo op o d a b => some (wAtom 0 d a b op.code o.code)
  | .cas o d a b => some (wAtom 1 d a b 0 o.code)
  | .lda s d a => some (wAtom 2 d a 0 0 ((0#2) ++ s.code))
  | .str s a b => some (wAtom 3 0 a b 0 ((0#2) ++ s.code))
  | .cinit a b => some (wCell 0 0 a b)
  | .cst a b => some (wCell 1 0 a b)
  | .cld d a b => some (wCell 2 d a b)
  | .crcl a b => some (wCell 3 0 a b)
  | .cver d a => some (wCell 4 d a 0)
  | .cellAbandon => none
  | .dma a b c t => some (wXfer 0 a b c t)
  | .dmad a b c t => some (wXfer 1 a b c t)
  | .dmares b => some (wXfer 2 0 b 0 0)
  | .waitany b => some (wXfer 3 0 b 0 0)
  | .waitall b => some (wXfer 4 0 b 0 0)
  | .ffrdy a => some (wXfer 5 a 0 0 0)
  | .tagclr b => some (wXfer 6 0 b 0 0)
  | .qpush q b => some (wXfer 7 0 b ((0#2) ++ q) 0)
  | .qpop a q => some (wXfer 8 a 0 ((0#2) ++ q) 0)
  | .qtry a q => some (wXfer 9 a 0 ((0#2) ++ q) 0)
  | .qcnt a q => some (wXfer 10 a 0 ((0#2) ++ q) 0)
  | .iceg b => some (wXfer 11 0 b 0 0)
  | .ices b => some (wXfer 12 0 b 0 0)
  | .iceres b => some (wXfer 13 0 b 0 0)
  | .vld wd vd xb off pc => some (wVmem 0 wd vd xb off pc.code)
  | .vlds wd vd xb c => some (wVmem 1 wd vd xb c 0)
  | .vldx wd vd xb c => some (wVmem 2 wd vd xb c 0)
  | .vst wd vd xb off pc => some (wVmem 3 wd vd xb off pc.code)
  | .vsts wd vd xb c => some (wVmem 4 wd vd xb c 0)
  | .vstx wd vd xb c => some (wVmem 5 wd vd xb c 0)
  | .vadd ty wd a b c => some (wV 0x25 0 ty wd a b c)
  | .vsub ty wd a b c => some (wV 0x25 1 ty wd a b c)
  | .vmul ty wd a b c => some (wV 0x25 2 ty wd a b c)
  | .vmulh ty wd a b c => some (wV 0x25 3 ty wd a b c)
  | .vmin ty wd a b c => some (wV 0x25 4 ty wd a b c)
  | .vmax ty wd a b c => some (wV 0x25 5 ty wd a b c)
  | .vand ty wd a b c => some (wV 0x25 6 ty wd a b c)
  | .vor ty wd a b c => some (wV 0x25 7 ty wd a b c)
  | .vxor ty wd a b c => some (wV 0x25 8 ty wd a b c)
  | .vshl ty wd a b c => some (wV 0x25 9 ty wd a b c)
  | .vshr ty wd a b c => some (wV 0x25 10 ty wd a b c)
  | .vsra ty wd a b c => some (wV 0x25 11 ty wd a b c)
  | .vabs ty wd a b => some (wV 0x25 12 ty wd a b 0)
  | .vadds ty wd a b c => some (wV 0x25 13 ty wd a b c)
  | .vsubs ty wd a b c => some (wV 0x25 14 ty wd a b c)
  | .vcmpeq ty wd a b c => some (wV 0x25 15 ty wd a b c)
  | .vcmplt ty wd a b c => some (wV 0x25 16 ty wd a b c)
  | .vcmple ty wd a b c => some (wV 0x25 17 ty wd a b c)
  | .vsel ty wd a b c => some (wV 0x25 18 ty wd a b c)
  | .vfadd ty wd a b c => some (wV 0x26 0 ty wd a b c)
  | .vfsub ty wd a b c => some (wV 0x26 1 ty wd a b c)
  | .vfmul ty wd a b c => some (wV 0x26 2 ty wd a b c)
  | .vfma ty wd a b c => some (wV 0x26 3 ty wd a b c)
  | .vfnma ty wd a b c => some (wV 0x26 4 ty wd a b c)
  | .vfmin ty wd a b c => some (wV 0x26 5 ty wd a b c)
  | .vfmax ty wd a b c => some (wV 0x26 6 ty wd a b c)
  | .vfdiv ty wd a b c => some (wV 0x26 7 ty wd a b c)
  | .vfrsq ty wd a b => some (wV 0x26 8 ty wd a b 0)
  | .vfexp2 ty wd a b => some (wV 0x26 9 ty wd a b 0)
  | .vfcmpeq ty wd a b c => some (wV 0x26 10 ty wd a b c)
  | .vfcmplt ty wd a b c => some (wV 0x26 11 ty wd a b c)
  | .vfcmple ty wd a b c => some (wV 0x26 12 ty wd a b c)
  | .vmovx ty a b c => some (wV 0x27 0 ty .w1 a b c)
  | .vsplat ty wd a b => some (wV 0x27 1 ty wd a b 0)
  | .vins ty a b c => some (wV 0x27 2 ty .w1 a b c)
  | .vperm ty wd a b c => some (wV 0x27 3 ty wd a b c)
  | .vslide ty wd a b c => some (wV 0x27 4 ty wd a b c)
  | .vred ty wd a b => some (wV 0x27 5 ty wd a b 0)
  | .vscan ty wd a b => some (wV 0x27 6 ty wd a b 0)
  | .vcvt ty wd a b td => some (wV 0x27 7 ty wd a b ((0#2) ++ td.code))
  | .vqnt ty wd a b c => some (wV 0x27 8 ty wd a b c)
  | .vnz ty wd a b c => some (wV 0x27 9 ty wd a b c)
  | .vcompr ty wd a b c => some (wV 0x27 10 ty wd a b c)
  | .vpopc ty wd a b => some (wV 0x27 11 ty wd a b 0)
  | .sopen s xv xl k xc => some ((0x28#6) ++ streamReg s ++ xv ++ xl ++ k.code ++ xc ++ (0#1) ++ (0#3))
  | .sadv s x => some ((0x28#6) ++ streamReg s ++ x ++ (0#13) ++ (1#3))
  | .stend s off => some ((0x28#6) ++ streamReg s ++ (0#5) ++ off ++ (2#3))
  | .sclose s => some ((0x28#6) ++ streamReg s ++ (0#5) ++ (0#13) ++ (3#3))
  | .smerge vn u => some ((0x28#6) ++ vn ++ (0#5) ++ (0#12) ++ bit u ++ (4#3))
  | .spos x s => some ((0x28#6) ++ x ++ streamReg s ++ (0#13) ++ (5#3))
  | .streamPrefetch _ => none
  | .repf l ci cnt st m => some ((0x29#6) ++ l ++ bit ci ++ cnt ++ st ++ m ++ (0#9))
  | .gform b => some (wGang 0 0 b 0 0 false)
  | .gjoin b => some (wGang 1 0 b 0 0 false)
  | .gleave b => some (wGang 2 0 b 0 0 false)
  | .gsplit => some (wGang 3 0 0 0 0 false)
  | .gdet b => some (wGang 4 0 b 0 0 false)
  | .gatt id => some (wGang 5 0 0 id 0 false)
  | .rjp id => some (wGang 6 0 0 id 0 false)
  | .gbar => some (wGang 7 0 0 0 0 false)
  | .xsh wd a b w => some (wGang 8 a b 0 wd.code w)
  | .xwrap wd a b w => some (wGang 9 a b 0 wd.code w)
  | .xshArrival _ => none
  | .mldw wt x pr t => some (wMtx 0 0 wt x 0 0 pr t)
  | .mzero ac pr t => some (wMtx 1 ac 0 0 0 0 pr t)
  | .mma ac wt oc r vs p pr t => some (wMtx 2 ac wt (oc ++ r) vs p pr t)
  | .mmas ac k x r p pr t => some (wMtx 3 ac k x (r ++ (0#2)) p pr t)
  | .msta ac x r pr t => some (wMtx 4 ac 0 x (r ++ (0#2)) 0 pr t)
  | .mstv ac q x pr t => some (wMtx 5 ac 0 q x 0 pr t)
  | .matrixCommandStart => none
  | .microTileComplete => none
  | .matrixCommandComplete => none
  | .rgopen g r => some (wRule 0 0 g r 0)
  | .rlift d => some (wRule 1 0 d 0 0)
  | .reval f n => some (wRule 2 0 f n 0)
  | .rspine o s e => some (wRule 3 o s e 0)
  | .rscan o s e al => some (wRule 4 o s e ((0#1) ++ bit al))
  | .rseek n i => some (wRule 5 n i 0 0)
  | .rmv y x w => some (wRule 6 y x w 0)
  | .rget d i s => some (wRule 7 d i 0 s)
  | .bsrc g x => some (wRiff 0 0 x 0 ((0#1) ++ g) 0 false)
  | .bgen d v g l => some (wRiff 1 (bfield d) v 0 ((0#1) ++ g) l false)
  | .band d a b c => some (wRiff 2 (bfield d) (bfield a) (bfield b) 0 0 c)
  | .bxnor d a b c => some (wRiff 3 (bfield d) (bfield a) (bfield b) 0 0 c)
  | .bmux d a b s c => some (wRiff 4 (bfield d) (bfield a) (bfield b) s 0 c)
  | .bnot d a => some (wRiff 5 (bfield d) (bfield a) 0 0 0 false)
  | .bcnt x a => some (wRiff 6 x (bfield a) 0 0 0 false)
  | .bregen d a g => some (wRiff 7 (bfield d) (bfield a) 0 ((0#1) ++ g) 0 false)
  | .bcls x a => some (wRiff 8 x (bfield a) 0 0 0 false)
  | .bmov d a => some (wRiff 9 (bfield d) (bfield a) 0 0 0 false)
  | .takeInterrupt => none
  | .timerExpire => none
  | .homePerformAccess _ => none
  | .loadReturn => none
  | .storeAck _ => none
  | .atomicResultReturn _ => none
  | .commutativeMerge _ _ => none
  | .pageWalk => none
  | .linkCrcError _ => none
  | .selfTestComplete _ => none
  | .reservationRequest _ => none
  | .reservationGrant _ => none
  | .messageArrival _ => none
  | .contextBufferDrain => none
  | .eventSignalLand _ => none
  | .weirWindowClose => none
  | .broadcastApply _ => none
  | .dmaByteCopy _ => none
  | .codebookExpansion _ => none
  | .entropyExpansion _ => none
  | .bitPlaneEncoding _ => none
  | .blockCyclicDeal _ => none
  | .dmaChunkComplete _ => none
  | .dmaCommandComplete _ => none
  | .eddyGather _ => none
  | .eddyScatter _ => none
  | .eddyComplete _ => none
  | .launchAcceptance => none
  | .waitEventRead _ => none
  | .placementStep _ => none
  | .starvationBound _ => none
  | .coreHandoff => none
  | .quiescenceSweep _ => none
  | .launchCompletion _ => none
  | .hostBar2Access _ _ => none
  | .mbdoor _ => none
  | .logclr => none
  | .ovfClear => none
  | .go => none
  | .pwrcap _ => none
  | .mgmtRegisterWrite _ _ => none
  | .clockThrottle _ => none
  | .portFailure _ => none
  | .portFailTimeout _ => none
  | .powerOn _ => none
  | .illegalEncoding _ => none
  | .fetchFailure => none
  | .partitionBuild _ => none
  | .softwareInterrupt _ => none
  | .mwaitSpuriousReturn => none

end Sys2Proof
end

