-- ==== Sys2Proof/Machine/State.lean ====
section
/-!
DEFINITION. The state of a ZT9: the core in focus, the other cores out of reset, the device they share, and the model's own list of
turns to come. All of it is plain data. INVENTORY.md lists each piece with the rule that names it and its reset value.
-/

namespace Sys2Proof.Machine

/-- Privilege levels (R183). -/
inductive Level where
  | u | k | f
  deriving DecidableEq, Repr

/-- Why the machine cannot take a step at all. -/
inductive Fault where
  /-- Raised by a turn that names a core which is in reset or does not exist; safe: nothing in the spec runs there. -/
  | noSuchCore (id : Nat)
  deriving DecidableEq, Repr

/-- Why an instruction has no meaning. -/
inductive Refusal where
  /-- Raised by an arm of exec whose instruction is not modelled yet; safe: nothing follows from it. -/
  | notModelled (mnemonic : String)
  deriving DecidableEq, Repr

/-- A bit-stream register: bits, length code and class mask (R424). -/
structure BReg where
  bits : BitVec 4096
  len  : BitVec 2
  mask : Byte
  deriving DecidableEq, Repr

/-- A stream descriptor (R138). lineAt: of a line fibre, the line that its next entry is looked for in and how many of that line's entries have been
popped, where the stream unit knows them; it finds them from POS after an activation (R140, log 135). -/
structure StreamDesc where
  val   : Word
  coord : Word
  pos   : Word
  limit : Word
  kind  : StreamKind
  bound : Bool
  lineAt : Option (Nat × Nat) := none
  deriving DecidableEq, Repr

/-- Bytes a read stream fetched ahead of its position (R140): of the piece, the list entry or the line of a number. -/
structure Piece where
  stream : BitVec 2
  index  : Nat
  ptr    : Word
  bytes  : List Byte
  deriving DecidableEq, Repr

/-- A message: its header (R149) and 64 payload bytes. -/
structure Msg where
  hdr     : Word
  payload : VWord
  deriving DecidableEq, Repr

/-- A record of a matrix command, as R389 lays it out, without its zero bytes. -/
structure MtxRecord where
  word  : IWord
  bval  : Word
  cval  : Word
  state : Word
  faddr : Word
  deriving DecidableEq, Repr

/-- A context: its registers, its control area, its queues and its receive buffer (R182, R64). -/
structure Ctx where
  x       : Vector Word 32
  v       : Vector VWord 32
  b       : Vector BReg 16
  ac      : Vector (BitVec 131072) 8
  wt      : Vector (BitVec 36864) 4
  wtPlanes : Vector Byte 4
  pc      : Word
  lcount0 : Word
  lstart0 : Word
  lend0   : Word
  lcount1 : Word
  lstart1 : Word
  lend1   : Word
  mtmask  : BitVec 32
  rprog   : Word
  gang    : BitVec 24
  evEn    : Byte
  evPend  : Byte
  fstat   : BitVec 9
  ppw     : Word
  dealpat : Word
  tagrdy  : Word
  tagerr  : Word
  wuid    : Word
  mon     : Word
  monLine : Option Nat
  monHit  : Bool
  gptr    : Word
  rrt     : Word
  opd     : Word
  ghdr    : BitVec 512
  src     : Vector Word 8
  sd      : Vector StreamDesc 4
  pieces  : List Piece
  q1      : List Word
  q3      : List Word
  q5      : List Word
  q6      : List Word
  rbuf    : List Msg
  mtxSaved : List MtxRecord
  vregs   : Nat
  bregs   : Nat
  actiles : Nat
  wtiles  : Nat
  lnum    : BitVec 12
  deriving DecidableEq, Repr

/-- A TLB entry (R86). -/
structure TlbEntry where
  asid   : BitVec 16
  global : Bool
  base   : Nat
  size   : Nat
  pa     : Nat
  perm   : BitVec 7
  deriving DecidableEq, Repr

/-- A DMA command as pushed (R89). -/
structure DmaCmd where
  dest   : Word
  src    : Word
  len    : Word
  ctl    : Word
  arrive : Word
  deal   : Word
  deriving DecidableEq, Repr

/-- Where a DMA command stands between the reading of a chunk and its writing. -/
inductive Stage where
  | idle
  | read (out : List Byte) (status sub : Nat)
  | placed (cells : List (Nat × List Byte)) (status sub : Nat)
  deriving DecidableEq, Repr

/-- A DMA command in q0 or being worked on (R90 to R117). -/
structure DmaJob where
  cmd     : DmaCmd
  started : Bool
  next    : Nat
  stage   : Stage
  failed  : Option (Nat × Nat)
  seq     : Nat
  narm    : Bool
  kptb    : Word
  level   : Level
  members : List Nat
  deriving DecidableEq, Repr

/-- An eddy command (R124, R125): posting core, block, direction, next row. -/
structure EddyJob where
  core    : Nat
  idx     : Word
  base    : Word
  w10     : Word
  w18     : Word
  scatter : Bool
  started : Bool
  next    : Nat
  failed  : Option Nat
  seq     : Nat
  kptb    : Word
  level   : Level
  deriving DecidableEq, Repr

/-- State of a matrix command in its slot (R388, R391, R392, R245). -/
inductive MtxState where
  | waiting | running | faulted | finished (status sub : Nat)
  deriving DecidableEq, Repr

/-- What makes a gang-issued command one on several slices (R205, R448): a number, the leader's core, the gang's number, the cores it entered and,
once the gang has dissolved, its former members: their cores, launch numbers and work-unit ids. -/
structure Joint where
  id    : Nat
  lead  : Nat
  gang  : Nat
  cores : List Nat
  former : List (Nat × BitVec 12 × Word)
  deriving DecidableEq, Repr

/-- A matrix command in q2 (R388 to R401): its slice of one core. fresh: it is taken fresh from a push (R400); restart: the address space of the
return to U after which a command that a fault stopped waits for a slot (R245, R388); act: the registers that an MMA read when it started
(R393), the octet and the row scales. -/
structure MtxJob where
  slot   : BitVec 4
  word   : IWord
  bval   : Word
  cval   : Word
  mask   : BitVec 32
  state  : MtxState
  fresh  : Bool
  started : Bool
  restart : Option Word
  prio   : Nat
  since  : Nat
  seq    : Nat
  narm   : Bool
  kptb   : Word
  level  : Level
  act    : BitVec 4608
  joint  : Option Joint
  deriving DecidableEq, Repr

/-- A matrix command that a member has executed in its slot k and that has not entered q2 (R205, R390). -/
structure Staged where
  k    : Nat
  core : Nat
  lnum : BitVec 12
  wuid : Word
  job  : MtxJob
  deriving DecidableEq, Repr

/-- What a core retains of one saved matrix command of a parked context beside its record: whether it is a slice of a joint one, part of the
gang link state (R203, R244), the NARM that the command took at its push (R37), the push's place in the device's order (R391), and whether an
engine fault has stopped it, so that it restarts at the next return to U (R245). -/
structure SavedKey where
  joint   : Option Joint
  narm    : Bool
  seq     : Nat
  stopped : Bool
  deriving DecidableEq, Repr

/-- What a core retains of a parked context's saved matrix commands, in their order, and their records, which tell it where the context's image is
activated at another core or WP (R37, log 60). -/
structure JointSaved where
  wp   : BitVec 19
  lnum : BitVec 12
  wuid : Word
  keys : List SavedKey
  recs : List MtxRecord
  deriving DecidableEq, Repr

/-- A rule result: a length and three slots (R54, R406). -/
structure RuleRes where
  len : Nat
  s0  : Nat
  s1  : Nat
  s2  : Nat
  deriving DecidableEq, Repr

/-- What the rule unit holds between two units of an RSPINE or RSCAN that goes on (R411, R416): the running result, the key of the fold
record that an interrupt writes it to (RSPINE), and the position that the next symbol starts at (RSCAN). -/
structure RuleRun where
  acc    : RuleRes
  record : Option Nat
  pos    : Nat
  deriving DecidableEq, Repr

/-- How far a frame that goes on has come (R379, R380): its count, the replay and the slot to execute next. -/
structure FrameAt where
  count  : Nat
  replay : Nat
  slot   : Nat
  deriving DecidableEq, Repr

/-- An access that holds its core and has not retired: it has left for the host or a peer (R26, R29), or it has its value and its
acquire still waits for earlier results (R165). word: that of a scalar load or an atomic; none where the access is one line of those that an
instruction loads. -/
structure Outstanding where
  word    : Option IWord
  home    : Nat
  width   : Nat
  value   : Option Word
  failed  : Bool
  deriving DecidableEq, Repr

/-- A line's part that an instruction loads from the host or a peer and that has come: what it read, or the information of the uncorrectable error in
which its access ended (R26, R464). -/
structure Arrived where
  key   : Nat
  bytes : List Byte
  error : Option Word
  deriving DecidableEq, Repr

/-- A trap that waits until every access that the core issued before it has completed (R29, R237): its cause, its information, its return
address, and the word of its instruction, where one was fetched. -/
structure TrapDue where
  cause : Nat
  info  : Word
  ret   : Word
  word  : Option IWord
  deriving DecidableEq, Repr

/-- An access that was lost after it retired: an uncorrectable error met at its home, or a port that failed (R80, R464). Its physical address is
reported by a trap at an instruction that is not started, at the level that the core then had (log 31). -/
structure LostAccess where
  level : Level
  info  : Word
  deriving DecidableEq, Repr

/-- The page fault in which a walk that a speculative atomic started ended (R346): the address space and the page, and the trap. -/
structure SpecFault where
  kptb  : Word
  page  : Nat
  cause : Nat
  info  : Word
  deriving DecidableEq, Repr

/-- What a core that does not advance is waiting for. -/
inductive Hold where
  | none
  | retry
  | completes
  | recv (ch : BitVec 4)
  | cell
  | send
  | gjoin (id : Byte)
  | gform
  | gatt (id : BitVec 8)
  | gbar
  | launch
  | mwait
  | load
  | wswap
  deriving DecidableEq, Repr

/-- Whether a core executes: its unit has ended by HALT (ended) or in another way (dropped) and the core awaits hand-off, it has no
active context (free), it is fenced, or it is held for a rebuild (R216, R219, R254, R469). -/
inductive Run where
  | running | free | ended | dropped | fenced | heldForRebuild
  deriving DecidableEq, Repr

/-- A context resident on a core and not active: parked in the pool or in the shadow slot, or placed and not started (R184). -/
structure Resident where
  wp     : BitVec 19
  ppw    : Word
  vregs  : Nat
  bregs  : Nat
  lnum   : BitVec 12
  wuid   : Word
  kptb   : Word
  parked : Bool
  shadow : Bool
  idle   : Bool
  deriving DecidableEq, Repr

/-- A context image in the shadow slot (R76). -/
structure ShadowImage where
  ctx    : Ctx
  status : Word
  wp     : BitVec 19
  deriving DecidableEq, Repr

/-- The gang link state a core retains (R203), with the held mark and the stream instruction in hand (R202). -/
structure GangLink where
  gang : Nat
  pos  : Nat
  gid  : Byte
  lnum : BitVec 12
  deriving DecidableEq, Repr

/-- Where a member became held: the number of the stream instruction, its address and, where it was fetched, its word; whether the stream
is what it returns to, which a detached member that was pre-empted with its gang has left (R204); and how many traps its handler has taken
and not returned from (R202). -/
structure Held where
  k      : Nat
  pc     : Word
  word   : Option IWord
  stream : Bool
  depth  : Nat
  deriving DecidableEq, Repr

/-- Count of messages of one launch number (R225). -/
structure MsgCount where
  lnum     : BitVec 12
  sent     : Nat
  received : Nat
  deriving DecidableEq, Repr

/-- One core with its engines and its message interface. specWalk: the address space and the address of a walk that a speculative atomic has
started; issued: the word of the instruction that holds the core; record: the bytes that it
has read for its push (R91, R332); arrived: what it has loaded from off the device (R26); passed: the pieces off
the device that its checks have let it load (R464); listing: the stores of its list that it has still to make
(R28, R372). -/
structure Core where
  id       : Nat
  mgmt     : Bool
  part     : BitVec 6
  die      : BitVec 1
  row      : BitVec 6
  col      : BitVec 6
  run      : Run
  hold     : Hold
  ctx      : Ctx
  level    : Level
  kvec     : Word
  kcause   : Word
  kinfo    : Word
  kretpc   : Word
  kstat    : Word
  kscr     : Word
  wp       : BitVec 19
  kptb     : Word
  kie      : BitVec 5
  kip      : BitVec 5
  kctxb    : Word
  ktcmp    : Word
  kefr     : Word
  fvec     : Word
  fcause   : Word
  finfo    : Word
  fretpc   : Word
  fstatus  : Word
  fscr     : Word
  fdeleg   : Word
  unack    : Nat
  banksel  : BitVec 3
  bankcf   : Vector (BitVec 48) 8
  expstall : BitVec 48
  cycle    : Word
  tlb      : List TlbEntry
  shadow   : Option ShadowImage
  residents : List Resident
  dma      : List DmaJob
  dmaTags  : Word
  eddyTags : BitVec 16
  mtx      : List MtxJob
  faults   : List (BitVec 2 × BitVec 6)
  lostRec  : Option (BitVec 2 × BitVec 6)
  hostInfo : Word
  preemptInfo : Word
  pendReg  : List (Nat × Reg)
  specWalk : Option (Word × Word)
  specFault : List SpecFault
  out      : Option Outstanding
  issued   : Option IWord
  record   : List Byte
  arrived  : List Arrived
  passed   : List (Nat × Nat)
  listing  : Option (List (Nat × List Byte))
  trapDue  : Option TrapDue
  lost     : List LostAccess
  bq       : List Nat
  counts   : List MsgCount
  ruleRun  : Option RuleRun
  captured : List IWord
  frame    : Option FrameAt
  link     : Option GangLink
  heldAt   : Option Held
  jointSaved : List JointSaved
  deriving DecidableEq, Repr

/-- What an access in flight does at its home (R159). -/
inductive FlightOp where
  | store (bytes : List Byte)
  | amo (op : AmoOp) (v : Word)
  | cas (c v : Word)
  | cinit (val : Word)
  | crcl (n : Word)
  deriving DecidableEq, Repr

/-- An access that has retired at its core and is on its way to its home or back (R26 to R28, R172). acked: a store that the host interface
has acknowledged and not performed yet (R26); lnum: the launch number of the context that made it (R224); merged: the cores and order numbers of the commutative atomics merged into it (R173). -/
structure Flight where
  id     : Nat
  core   : Nat
  lnum   : BitVec 12
  home   : Nat
  op     : FlightOp
  comm   : Bool
  append : Bool
  rd     : Option Reg
  done   : Bool
  acked  : Bool
  old    : Word
  merged : List (Nat × Nat)
  deriving DecidableEq, Repr

/-- An event signal in flight (R337). -/
structure EvSignal where
  core   : Nat
  target : Nat
  ev     : BitVec 3
  deriving DecidableEq, Repr

/-- A message reservation (R151): at the sender's side, waiting or granted. -/
structure Reservation where
  core    : Nat
  target  : Nat
  hdr     : Word
  reached : Bool
  granted : Bool
  toBuffer : Bool
  word    : IWord
  deriving DecidableEq, Repr

/-- A message payload in flight to a reserved entry (R151). -/
structure Payload where
  core     : Nat
  target   : Nat
  msg      : Msg
  toBuffer : Bool
  deriving DecidableEq, Repr

/-- What a broadcast does (R156): a multicast store to a set of cores, or a quantum atomic at one home. -/
inductive BcastOp where
  | mcast (off : Nat) (datum : Word) (targets : List Nat)
  | quantum (home : Nat) (op : FlightOp) (rd : Reg)
  deriving DecidableEq, Repr

/-- A broadcast handed to its interface (R156, R157): retired is the window it retired in, and window the one it is announced in. -/
structure Bcast where
  id     : Nat
  core   : Nat
  part   : BitVec 6
  lnum   : BitVec 12
  index  : Nat
  op     : BcastOp
  retired : Nat
  window : Option Nat
  ordered : Option Nat
  todo   : List Nat
  deriving DecidableEq, Repr

/-- What a CST or CLD returns from its cell: a value, that the version is gone (R177), or that the cell cannot be read, with the report of the
uncorrectable error (R80). -/
inductive CellResult where
  | value (v : Word)
  | gone
  | spoilt (info : Word)
  deriving DecidableEq, Repr

/-- A CST or CLD at a home whose condition does not hold yet (R177, R178), and its result once performed. -/
structure CellWait where
  core   : Nat
  home   : Nat
  store  : Bool
  arg    : Word
  rd     : Reg
  result : Option CellResult
  deriving DecidableEq, Repr

/-- Membership of a gang (R186, R201). -/
inductive MemberState where
  | attached | detached | gone
  deriving DecidableEq, Repr

/-- A member of a gang: its position, core and place in the stream (R193); poison: the position of a failed member that its next wait traps
for (R251). -/
structure Member where
  pos     : Nat
  core    : Nat
  state   : MemberState
  parked  : Option Byte
  next    : Nat
  slotDone : Bool
  atBar   : Bool
  poison  : Option Byte
  deriving DecidableEq, Repr

/-- A stream instruction: its number, the stream cycle of the leader's slot, its address and word, the words that a REPF captures, the
leader's next pc, and whether its handler moved it there (R193, R202, R381). -/
structure Entry where
  k    : Nat
  t    : Nat
  pc   : Word
  word : IWord
  frame : List IWord
  next : Word
  moved : Bool
  deriving DecidableEq, Repr

/-- A value a member sent in its slot of a shift (R384, R385). -/
structure ShiftSent where
  k     : Nat
  pos   : Nat
  value : BitVec 4096
  deriving DecidableEq, Repr

/-- A destination of a shift whose value arrives after the receiver's slot (R385). -/
structure ShiftDue where
  k      : Nat
  dst    : Nat
  src    : Nat
  dist   : Nat
  wd     : Wd
  vd     : Reg
  value  : Option (BitVec 4096)
  arrive : Nat
  deriving DecidableEq, Repr

/-- Why a leader issues no further stream instruction (R195). -/
inductive IssueHold where
  | none
  | gbar
  | rjp (id : Byte) (k : Nat) (next : Word)
  deriving DecidableEq, Repr

/-- A gang (R188, R193, R203). parking: it is being pre-empted, so that its stream waits for its detached members too (R204). -/
structure Gang where
  num     : Nat
  gid     : Byte
  lnum    : BitVec 12
  part    : BitVec 6
  width   : Nat
  skew    : Nat
  members : List Member
  stream  : List Entry
  nextK   : Nat
  now     : Nat
  hold    : IssueHold
  parking : Bool
  sent    : List ShiftSent
  due     : List ShiftDue
  staged  : List Staged
  deriving DecidableEq, Repr

/-- How far a launch has come (R211, R214, R223). -/
inductive LaunchState where
  | waiting | eligible | ending
  deriving DecidableEq, Repr

/-- A work unit that a launch has placed (R185). -/
structure UnitRec where
  wuid   : Nat
  core   : Nat
  group  : Nat
  order  : Nat
  active : Bool
  deriving DecidableEq, Repr

/-- One sweep of the quiescence detector in progress (R225). -/
structure Sweep where
  todo     : List Nat
  idle     : Bool
  sent     : Nat
  received : Nat
  deriving DecidableEq, Repr

/-- A launch that holds a number or is to be signalled as rejected (R208 to R226). -/
structure Launch where
  lnum     : BitVec 12
  lpb      : BitVec 1024
  hdr      : BitVec 512
  kptb     : Word
  submitter : BitVec 12
  state    : LaunchState
  ev0      : Bool
  ev1      : Bool
  tElig    : Nat
  nextUnit : Nat
  units    : List UnitRec
  restarts : List (List (Nat × Nat))
  clusters : List Nat
  retried  : Nat
  noFit    : Option Nat
  starved  : Bool
  status   : Byte
  reason   : Byte
  faultCount : Nat
  doneCount  : Nat
  failedCount : Nat
  started  : Option Word
  fcause   : Word
  finfo    : Word
  sweeps   : Nat
  lastSweep : Option Nat
  nextSweep : Nat
  sweep    : Option Sweep
  deriving DecidableEq, Repr

/-- A submission the distributor has not answered (R208, R330). -/
structure Submission where
  core : Nat
  word : IWord
  rd   : Reg
  lpb  : BitVec 1024
  kptb : Word
  lnum : BitVec 12
  deriving DecidableEq, Repr

/-- A group whose victims are parking (R220). -/
structure Preempting where
  lnum  : BitVec 12
  cores : List Nat
  deriving DecidableEq, Repr

/-- A self-test under way (R253): reporting unit code of R472, place, and, of a cache row, whether the cache is the memory-side one. -/
structure SelfTest where
  unit    : BitVec 6
  place   : BitVec 52
  memSide : Bool
  deriving DecidableEq, Repr

/-- What the firmware does that no instruction does (R463, R467): it serves the FCALL of the core in focus, names the kernel core in MBTGT,
extends MEAS1 with an image's digest, or signals an MSI-X vector for the kernel. -/
inductive FirmwareAct where
  | serve (core : Nat)
  | target (place : Word)
  | measure (digest : BitVec 256)
  | signal (slot : BitVec 6)
  deriving DecidableEq, Repr

/-- A register or tile that a mirror holds (R67, R71). -/
inductive MirrorPart where
  | vreg (r : Reg)
  | breg (r : BitVec 4)
  | ac (j : BitVec 3)
  | wt (j : BitVec 2)
  deriving DecidableEq, Repr

/-- A turn to come: which party moves next. -/
inductive Turn where
  | core (id : Nat)
  | event (core : Nat) (i : Instr)
  | tick (cycles ns : Nat)
  | dropTlb (core : Nat) (k : Nat)
  | dropClusterTlb (cluster : Nat) (k : Nat)
  | dropFetched (cluster : Nat)
  | dropPiece (core : Nat) (k : Nat)
  | dropWalk (k : Nat)
  | outside (cells : List Host.Cell)
  | corrupt (word : Nat)
  | registerError (core : Nat) (r : Reg)
  | mirrorError (core : Nat) (part : MirrorPart)
  | corrected (core : Nat) (unit : BitVec 6) (place : BitVec 52) (memSide : Bool)
  | fatal (unit : BitVec 6) (place : BitVec 52)
  | replayed (link : Nat)
  | firmware (act : FirmwareAct)
  deriving DecidableEq, Repr

/-- A cluster's shared state: its TLB (R86) and the instruction words it has cached (R328). -/
structure Cluster where
  id    : Nat
  tlb   : List TlbEntry
  words : List (Nat × IWord)
  deriving DecidableEq, Repr

/-- What all cores share. -/
structure Dev where
  mem       : List Host.Cell
  bad       : List Nat
  clusters  : List Cluster
  walkCache : List (Nat × Word)
  flights   : List Flight
  signals   : List EvSignal
  resvs     : List Reservation
  payloads  : List Payload
  bcasts    : List Bcast
  window    : Nat
  cells     : List CellWait
  eddy      : List EddyJob
  gangs     : List Gang
  gangCount : Nat
  parts     : List PartConfig
  rebuilds  : List (BitVec 6)
  fencedCores : List Nat
  fencedRows : List (Nat × Nat)
  launches  : List Launch
  submits   : List Submission
  preempts  : List Preempting
  placed    : Nat
  tests     : List SelfTest
  linkErrs  : List (Nat × Nat)
  errlog    : List Word
  ovf       : Bool
  goBit     : Bool
  hostImg   : Bool
  bootState : BitVec 2
  podidx    : BitVec 9
  mbbase    : Word
  pwrcap    : BitVec 11
  mbtgt     : Word
  pod       : BitVec 288
  meas0     : BitVec 256
  meas1     : BitVec 256
  meas2     : BitVec 256
  meas3     : BitVec 256
  msix      : BitVec 64
  hostRead  : List Byte
  portDown  : BitVec 16
  clock     : Nat
  cycles    : Nat
  time      : Word
  seq       : Nat
  deriving DecidableEq, Repr

/-- The machine. -/
structure State where
  core   : Core
  rest   : List Core
  dev    : Dev
  agenda : List Turn
  fresh  : Nat
  deriving DecidableEq, Repr

/-- An independent core's GANG: WID 1 and all else 0 (R186). -/
def gangIndependent : BitVec 24 := 0x40

/-- A bit-stream register at entry: length 64, zero bits, mask 0 (R424). -/
def BReg.zero : BReg := { bits := 0, len := 0, mask := 0 }

/-- An unbound descriptor. -/
def StreamDesc.zero : StreamDesc := { val := 0, coord := 0, pos := 0, limit := 0, kind := .denseRead, bound := false }

/-- A context with every register zero and nothing bound, armed or queued (R218), and the given declared counts. -/
def Ctx.blank (vregs bregs actiles wtiles : Nat) : Ctx :=
  { x := Vector.replicate 32 0, v := Vector.replicate 32 0, b := Vector.replicate 16 BReg.zero
    ac := Vector.replicate 8 0, wt := Vector.replicate 4 0, wtPlanes := Vector.replicate 4 0
    pc := 0, lcount0 := 0, lstart0 := 0, lend0 := 0, lcount1 := 0, lstart1 := 0, lend1 := 0
    mtmask := 0, rprog := 0, gang := gangIndependent, evEn := 0, evPend := 0, fstat := 0, ppw := 0, dealpat := 0
    tagrdy := 0, tagerr := 0, wuid := 0, mon := 0, monLine := none, monHit := false
    gptr := 0, rrt := 0, opd := 0, ghdr := 0
    src := Vector.replicate 8 0, sd := Vector.replicate 4 StreamDesc.zero, pieces := []
    q1 := [], q3 := [], q5 := [], q6 := [], rbuf := [], mtxSaved := []
    vregs := vregs, bregs := bregs, actiles := actiles, wtiles := wtiles, lnum := 0 }

/-- FVEC's reset value on a management core: the boot ROM (R231, R466). -/
def bootRom : Word := 0x0000_FFFF_0000_0000

/-- A core out of reset at F with its registers at their reset values (R227 to R241, R320), and its FVEC. -/
def Core.released (id : Nat) (mgmt : Bool) (fvec : Word) (ctx : Ctx) : Core :=
  { id := id, mgmt := mgmt, part := 0, die := 0, row := 0, col := 0, run := .running, hold := .none
    ctx := { ctx with pc := fvec }, level := .f
    kvec := 0, kcause := 0, kinfo := 0, kretpc := 0, kstat := 0, kscr := 0, wp := 0, kptb := 0, kie := 2, kip := 0
    kctxb := 0, ktcmp := 0xFFFF_FFFF_FFFF_FFFF, kefr := 0
    fvec := fvec, fcause := 0, finfo := 0, fretpc := 0, fstatus := 8, fscr := 0, fdeleg := 0
    unack := 0, banksel := 0, bankcf := Vector.replicate 8 0, expstall := 0, cycle := 0, tlb := []
    shadow := none, residents := [], dma := [], dmaTags := 0, eddyTags := 0, mtx := []
    faults := [], lostRec := none, hostInfo := 0, preemptInfo := 0, pendReg := [], specWalk := none, specFault := []
    out := none, issued := none, record := [], arrived := [], passed := [], listing := none, trapDue := none, lost := [], bq := [], counts := [], ruleRun := none, captured := [], frame := none, link := none, heldAt := none, jointSaved := [] }

/-- The number management core i is known by; compute cores are numbered (pdie × 52 + prow) × 48 + pcol. -/
def mgmtId (i : Nat) : Nat := 4992 + i

/-- Declared counts of a context that no kernel header describes and that reset starts (log 2). -/
def Ctx.boot : Ctx := Ctx.blank 32 16 8 4

/-- The main clock's nominal frequency (R2). -/
def nominalClock : Nat := 1_700_000_000

/-- The shared device at power-on (R466, R470, R471). -/
def Dev.powerOn : Dev :=
  { mem := [], bad := [], clusters := [], walkCache := [], flights := [], signals := [], resvs := [], payloads := []
    bcasts := [], window := 0, cells := [], eddy := [], gangs := [], gangCount := 0, parts := [], rebuilds := [], fencedCores := [], fencedRows := [], launches := []
    submits := [], preempts := [], placed := 0, tests := [], linkErrs := [], errlog := [], ovf := false, goBit := false
    hostImg := false, bootState := 0, podidx := 0, mbbase := 0, pwrcap := 1500, mbtgt := 0, pod := 0
    meas0 := 0, meas1 := 0, meas2 := 0, meas3 := 0, msix := 0, hostRead := [], portDown := 0
    clock := nominalClock, cycles := 0, time := 0, seq := 0 }

/-- The machine after power-on: management core 0 alone, at F, at the boot ROM (R466). -/
def State.reset : State :=
  { core := Core.released (mgmtId 0) true bootRom Ctx.boot, rest := [], dev := Dev.powerOn, agenda := [], fresh := 0 }

end Sys2Proof.Machine
end

