-- ==== Sys2Proof/Machine/Memory.lean ====
section
/-!
DEFINITION. Bytes of memory by home address: one sorted list, in which an address that is not listed reads as zero (log 5). The keys:
a device physical address p is p (R15); byte o of the pool of core n is 2^52 + n * 2^19 + o; byte o of cluster c's memory is
2^53 + c * 2^21 + o; byte o of the boot ROM is 2^54 + o.
-/

namespace Sys2Proof.Machine

/-- What an unlisted address reads as (log 5). -/
def unlistedByte : Byte := 0

/-- The byte at an address. -/
def Memory.read : List Host.Cell → Nat → Byte
  | [], _ => unlistedByte
  | (k, b) :: m, a => if k = a then b else if a < k then unlistedByte else Memory.read m a

/-- Puts a cell in front unless it holds what an unlisted address reads as. -/
def Memory.put (a : Nat) (b : Byte) (m : List Host.Cell) : List Host.Cell :=
  if b = unlistedByte then m else (a, b) :: m

/-- The list with the byte at an address replaced. -/
def Memory.write : List Host.Cell → Nat → Byte → List Host.Cell
  | [], a, b => Memory.put a b []
  | (k, c) :: m, a, b =>
    if a < k then Memory.put a b ((k, c) :: m)
    else if a = k then Memory.put a b m
    else (k, c) :: Memory.write m a b

/-- Every address of the list is above a, rising, and no entry reads as an unlisted address. -/
def Memory.wfAbove : Nat → List Host.Cell → Bool
  | _, [] => true
  | a, (k, b) :: m => decide (a ≤ k) && decide (b ≠ unlistedByte) && Memory.wfAbove (k + 1) m

/-- The canonical form: addresses strictly rising and no entry equal to what an unlisted address reads as. -/
def Memory.wf (m : List Host.Cell) : Bool := Memory.wfAbove 0 m

/-- n bytes from an address. -/
def Memory.readBytes (m : List Host.Cell) (a : Nat) : Nat → List Byte
  | 0 => []
  | n + 1 => Memory.read m a :: Memory.readBytes m (a + 1) n

/-- Writes bytes at rising addresses. -/
def Memory.writeBytes (m : List Host.Cell) (a : Nat) : List Byte → List Host.Cell
  | [] => m
  | b :: bs => Memory.writeBytes (Memory.write m a b) (a + 1) bs

/-- Little-endian value of bytes (R32). -/
def leNat : List Byte → Nat
  | [] => 0
  | b :: bs => b.toNat + 256 * leNat bs

/-- n little-endian bytes of a value. -/
def leBytes : Nat → Nat → List Byte
  | 0, _ => []
  | n + 1, v => BitVec.ofNat 8 v :: leBytes n (v / 256)

/-- The size of a memory line (R3). -/
def lineBytes : Nat := 128

/-- The line of an address. -/
def lineOf (a : Nat) : Nat := a / lineBytes

/-- First key of pools, of cluster memories and of the boot ROM. -/
def poolKeys : Nat := 2 ^ 52
def clusterKeys : Nat := 2 ^ 53
def romKeys : Nat := 2 ^ 54

/-- The key of a pool byte (R59). -/
def poolKey (core off : Nat) : Nat := poolKeys + core * 2 ^ 19 + off

/-- The key of a cluster-memory byte (R73). -/
def clusterKey (cluster off : Nat) : Nat := clusterKeys + cluster * 2 ^ 21 + off

/-- The key of a boot-ROM byte (R466). -/
def romKey (off : Nat) : Nat := romKeys + off

/-- Bytes of local device memory (R2, R15). -/
def localBytes : Nat := 2 ^ 39

/-- Physical cluster of a compute core (R22, R142). -/
def clusterOfId (core : Nat) : Nat :=
  let die := core / (52 * 48)
  let row := core / 48 % 52
  let col := core % 48
  (die * 13 + row / 4) * 12 + col / 4

/-- Where a byte lives, by its key (R15, R16, R159). -/
inductive Region where
  | localMem
  | hostMem
  | peerMem
  | pool (core : Nat)
  | cluster (c : Nat)
  | rom
  deriving DecidableEq, Repr

/-- The region of a key. -/
def regionOf (key : Nat) : Region :=
  if key < 2 ^ 50 then .localMem
  else if key < 2 ^ 51 then .hostMem
  else if key < poolKeys then .peerMem
  else if key < clusterKeys then .pool ((key - poolKeys) / 2 ^ 19)
  else if key < romKeys then .cluster ((key - clusterKeys) / 2 ^ 21)
  else .rom

/-- Whether a key's home lies off the device (R17). -/
def Region.offDevice : Region → Bool
  | .hostMem => true
  | .peerMem => true
  | _ => false

end Sys2Proof.Machine
end

