-- ==== Sys2Proof/Machine/Ops.lean ====
section
/-!
DEFINITION. The named operations over registers, cores and gangs; containment of fault events (R250 to R252); taking a trap (R233) and
returning from one (R234); and how the body of an instruction becomes a step of the machine: it retires, traps or holds.
-/

namespace Sys2Proof.Machine

/-! ## Words -/

/-- Bits lo .. lo + n - 1 of a word. -/
def bits (w : Word) (lo n : Nat) : Nat := w.toNat / 2 ^ lo % 2 ^ n

/-- One bit of a word. -/
def bit (w : Word) (i : Nat) : Bool := w.getLsbD i

/-- A word with bit i set or cleared. -/
def setBit (w : Word) (i : Nat) (b : Bool) : Word := if b then w ||| (1#64 <<< i) else w &&& ~~~(1#64 <<< i)

/-- A word with the n bits from lo replaced. -/
def putBits (w : Word) (lo n v : Nat) : Word :=
  (w &&& ~~~(BitVec.ofNat 64 (2 ^ n - 1) <<< lo)) ||| (BitVec.ofNat 64 (v % 2 ^ n) <<< lo)

/-- The low n bits of a word alone. -/
def keepLow (w : Word) (n : Nat) : Word := w &&& BitVec.ofNat 64 (2 ^ n - 1)

/-! ## Registers -/

/-- A scalar register; x0 reads as zero (R182). -/
def Ctx.getX (c : Ctx) (r : Reg) : Word := if r = 0 then 0 else c.x[r.toNat]'(r.isLt)

/-- Writes a scalar register; a write of x0 has no effect (R182). -/
def Ctx.setX (c : Ctx) (r : Reg) (v : Word) : Ctx := if r = 0 then c else { c with x := c.x.set r.toNat v r.isLt }

/-- A vector register by number. -/
def Ctx.getV (c : Ctx) (n : Nat) : VWord := if h : n < 32 then c.v[n]'h else 0

/-- Writes a vector register. -/
def Ctx.setV (c : Ctx) (n : Nat) (v : VWord) : Ctx := if h : n < 32 then { c with v := c.v.set n v h } else c

/-- A bit-stream register. -/
def Ctx.getB (c : Ctx) (r : BitVec 4) : BReg := c.b[r.toNat]'(r.isLt)

/-- Writes a bit-stream register. -/
def Ctx.setB (c : Ctx) (r : BitVec 4) (v : BReg) : Ctx := { c with b := c.b.set r.toNat v r.isLt }

/-- A stream descriptor. -/
def Ctx.getSd (c : Ctx) (s : BitVec 2) : StreamDesc := c.sd[s.toNat]'(s.isLt)

/-- Writes a stream descriptor. -/
def Ctx.setSd (c : Ctx) (s : BitVec 2) (d : StreamDesc) : Ctx := { c with sd := c.sd.set s.toNat d s.isLt }

/-- GANG's mode field (R186): 0 independent, 1 leader, 2 attached, 3 detached. -/
def Ctx.gangMode (c : Ctx) : Nat := c.gang.toNat / 2 ^ 12 % 4

/-- GANG with its mode field replaced. -/
def Ctx.setGangMode (c : Ctx) (m : Nat) : Ctx :=
  { c with gang := (c.gang &&& 0xFFCFFF#24) ||| BitVec.ofNat 24 (m % 4 * 2 ^ 12) }

/-- FSTAT's narrow-mode bit (R37). -/
def Ctx.narm (c : Ctx) : Bool := c.fstat.getLsbD 8

/-! ## The core in focus and the others -/

/-- The active context of the core in focus. -/
abbrev State.ctx (s : State) : Ctx := s.core.ctx

def State.modCore (s : State) (f : Core → Core) : State := { s with core := f s.core }
def State.modCtx (s : State) (f : Ctx → Ctx) : State := { s with core := { s.core with ctx := f s.core.ctx } }
def State.modDev (s : State) (f : Dev → Dev) : State := { s with dev := f s.dev }
def State.setPc (s : State) (t : Word) : State := s.modCtx fun c => { c with pc := t }
def State.setX (s : State) (r : Reg) (v : Word) : State := s.modCtx fun c => c.setX r v
def State.setMem (s : State) (m : List Host.Cell) : State := s.modDev fun d => { d with mem := m }

/-- The core of a given number, if it is out of reset. -/
def State.coreById (s : State) (n : Nat) : Option Core :=
  if s.core.id = n then some s.core else s.rest.find? fun c => c.id == n

/-- Changes the core of a given number. -/
def State.modCoreId (s : State) (n : Nat) (f : Core → Core) : State :=
  if s.core.id = n then s.modCore f
  else { s with rest := s.rest.map fun c => if c.id = n then f c else c }

/-- Changes the active context of a core. -/
def State.modCtxId (s : State) (n : Nat) (f : Ctx → Ctx) : State := s.modCoreId n fun c => { c with ctx := f c.ctx }

/-- Every core out of reset. -/
def State.cores (s : State) : List Core := s.core :: s.rest

/-- Brings a core into focus. -/
def State.focus (s : State) (n : Nat) : Option State :=
  if s.core.id = n then some s
  else
    match s.rest.find? fun c => c.id == n with
    | none => none
    | some c => some { s with core := c, rest := s.core :: s.rest.filter fun d => d.id != n }

/-- The next of the numbers that stand for what the spec leaves open (log 7). -/
def State.takeFresh (s : State) : Nat × State := (s.fresh, { s with fresh := s.fresh + 1 })

/-- The next of the device's order numbers (log 6). -/
def State.takeSeq (s : State) : Nat × State := (s.dev.seq, s.modDev fun d => { d with seq := d.seq + 1 })

/-- A core's physical coordinate word: die in [16], row in [13:8], column in [5:0] (R305, R472). -/
def physCoord (id : Nat) : BitVec 52 := BitVec.ofNat 52 (id / 2496 * 2 ^ 16 + id / 48 % 52 * 2 ^ 8 + id % 48)

/-- Sets an interrupt's pending bit on a core (R235). -/
def State.raise (s : State) (core i : Nat) : State :=
  s.modCoreId core fun c => { c with kip := c.kip ||| (1#5 <<< i) }

/-! ## Bodies of instructions -/

/-- The address a trap returns to (R238). -/
inductive RetAt where
  | here
  | next
  | to (a : Word)
  deriving DecidableEq, Repr

/-- Why an instruction does not retire: it traps with a cause number and information, or it holds its core. -/
inductive Stop where
  | trap (cause : Nat) (info : Word) (ret : RetAt)
  | hold (h : Hold)
  deriving DecidableEq, Repr

/-- Where the next instruction of a retired one lies: in sequence, at a target, or as the body has left the pc. -/
inductive Flow where
  | seq
  | jump (t : Word)
  | stay
  deriving DecidableEq, Repr

/-- The body of an instruction. -/
abbrev Act := EStateM Stop State

def trap {α : Type} (cause : Nat) (info : Word) : Act α := throw (Stop.trap cause info .here)
def holdFor {α : Type} (h : Hold) : Act α := throw (Stop.hold h)
def modCtx (f : Ctx → Ctx) : Act Unit := modify fun s => s.modCtx f
def modCore (f : Core → Core) : Act Unit := modify fun s => s.modCore f
def modDev (f : Dev → Dev) : Act Unit := modify fun s => s.modDev f
def getCtx : Act Ctx := do return (← get).ctx
def getX (r : Reg) : Act Word := do return (← get).ctx.getX r
def setX (r : Reg) (v : Word) : Act Unit := modify fun s => s.setX r v

/-- Trap causes (R238). -/
def cIllegalInstr : Nat := 1
def cIllegalReg : Nat := 2
def cPriv : Nat := 3
def cMisaligned : Nat := 4
def cLoadPage : Nat := 5
def cStorePage : Nat := 6
def cFetchPage : Nat := 7
def cAccess : Nat := 8
def cPtrRange : Nat := 9
def cNoncanon : Nat := 10
def cKcall : Nat := 11
def cFcall : Nat := 12
def cBrk : Nat := 13
def cNarmMismatch : Nat := 14
def cNotLiftable : Nat := 15
def cGrammarOrder : Nat := 16
def cCorrMix : Nat := 17
def cFibreOrder : Nat := 18
def cCellGone : Nat := 19
def cFrameIllegal : Nat := 20
def cGangState : Nat := 21
def cTagError : Nat := 22
def cFormat : Nat := 23
def cEccUncorr : Nat := 24
def cBarrierPoison : Nat := 25

/-- The word of an instruction: what KINFO holds where a cause names the instruction word. -/
def wordOf (i : Instr) : IWord := (encode i).getD 0

/-- The instruction word as KINFO holds it. -/
def infoWord (i : Instr) : Word := (wordOf i).setWidth 64

/-- Traps PRIV below K (R183, R279 check 3). -/
def needK (i : Instr) : Act Unit := do
  if (← get).core.level = .u then trap cPriv (infoWord i)

/-- Traps ILLEGAL_REG unless the condition holds (R65, R279 check 4). -/
def needReg (i : Instr) (ok : Bool) : Act Unit := do
  if !ok then trap cIllegalReg (infoWord i)

/-! ## Hardware loops (R313 to R315) -/

/-- The end in force for a loop: LEND + 4 × Signed(DELTA). -/
def loopEnd (lcount lend : Word) : Word := lend + 4 * ((lcount >>> 32).setWidth 32).signExtend 64

/-- One loop's end-of-body test: none where it does not apply, else its count register and whether it loops back. -/
def loopTest (lcount lend a : Word) : Option (Word × Bool) :=
  if keepLow lcount 32 ≠ 0 ∧ a = loopEnd lcount lend then
    if keepLow lcount 32 = 1 then some (0, false) else some (keepLow lcount 32 - 1, true)
  else none

/-- The end-of-body tests for an instruction at a that retires in sequence: level 1, then level 0 (R315). -/
def Ctx.loopTests (c : Ctx) (a : Word) : Ctx :=
  let inner (c : Ctx) : Ctx :=
    match loopTest c.lcount0 c.lend0 a with
    | none => c
    | some (n, false) => { c with lcount0 := n }
    | some (n, true) => { c with lcount0 := n, pc := c.lstart0 }
  match loopTest c.lcount1 c.lend1 a with
  | none => inner c
  | some (n, false) => inner { c with lcount1 := n }
  | some (n, true) => { c with lcount1 := n, pc := c.lstart1 }

/-- The context after an instruction retires (R300, R315). -/
def Ctx.retire (c : Ctx) : Flow → Ctx
  | .seq => ({ c with pc := c.pc + 4 } : Ctx).loopTests c.pc
  | .jump t => { c with pc := t }
  | .stay => c

/-! ## Gangs: the stream (R193 to R197) -/

/-- The gang of a number. -/
def State.gang? (s : State) (num : Nat) : Option Gang := s.dev.gangs.find? fun g => g.num == num

def State.modGang (s : State) (num : Nat) (f : Gang → Gang) : State :=
  s.modDev fun d => { d with gangs := d.gangs.map fun g => if g.num = num then f g else g }

def Gang.modMember (g : Gang) (pos : Nat) (f : Member → Member) : Gang :=
  { g with members := g.members.map fun m => if m.pos = pos then f m else m }

def Gang.member? (g : Gang) (pos : Nat) : Option Member := g.members.find? fun m => m.pos == pos

/-- The core executes the stream: leader or attached, and not held (R201, R202). -/
def Core.inStream (c : Core) : Bool :=
  c.link.isSome && c.heldAt.isNone && (c.ctx.gangMode == 1 || c.ctx.gangMode == 2)

/-- The stream entry a member executes next. -/
def State.entryFor (s : State) (l : GangLink) : Option Entry :=
  match s.gang? l.gang with
  | none => none
  | some g =>
    match g.member? l.pos with
    | none => none
    | some m => g.stream.find? fun e => e.k == m.next

/-- The number of the stream instruction a member executes next. -/
def State.slotOf (s : State) (l : GangLink) : Nat :=
  match s.gang? l.gang with
  | none => 0
  | some g =>
    match g.member? l.pos with
    | none => 0
    | some m => m.next

/-- The members of a gang that have not left or halted (R191, R200). -/
def Gang.present (g : Gang) : List Member := g.members.filter fun m => m.state != .gone

/-- Whether a gang has dissolved: its leader has left it (R190). -/
def Gang.dissolved (g : Gang) : Bool := g.members.any fun m => m.pos == 0 && m.state == .gone

/-- Whether a barrier is complete: every member that is there has arrived (R200). -/
def Gang.barComplete (g : Gang) : Bool := g.present.any (fun m => m.atBar) && g.present.all fun m => m.atBar

/-- Whether a rejoin hold ends: every member but the leader has executed the RJP, number k, in its slot, or is parked, or is gone (R199). -/
def Gang.rjpMet (g : Gang) (k : Nat) : Bool :=
  g.present.all fun m => m.pos == 0 || decide (k < m.next) || (m.state == .detached && m.parked.isSome)

/-- A member that rejoins at the instruction after a rejoin point (R199). -/
def Gang.rejoins (id : Byte) (k : Nat) (m : Member) : Bool := m.state == .detached && m.parked == some id && decide (m.next ≤ k)

/-- The core holds for nothing: what it holds of an instruction that waits is over. -/
def Core.unhold (c : Core) : Core := { c with hold := .none, issued := none, record := [], arrived := [], passed := [], listing := none }

/-- What a completed barrier does at a member's core, where its context is active: it acquires, and the GBAR that a detached member waits at
retires; one that has arrived in its slot and detached since has retired its own (R168, R200). -/
def Core.passBar (c : Core) : Core :=
  if c.ctx.gangMode = 0 then c
  else
    let c := { c with ctx := { c.ctx with pieces := [] } }
    if c.hold = .gbar then { c.unhold with ctx := c.ctx.retire .seq } else c

/-- What a barrier or a rejoin hold that is met brings about (R199, R200). -/
def State.settleGang (s : State) (num : Nat) : State :=
  match s.gang? num with
  | none => s
  | some g =>
    if g.barComplete then
      (g.present.foldl (fun s m => s.modCoreId m.core Core.passBar) s).modGang num fun g => { g with
        hold := if g.hold = .gbar then .none else g.hold
        members := g.members.map fun m => { m with atBar := false } }
    else match g.hold with
      | .rjp id k next =>
        if g.rjpMet k then
          let back := g.members.filter (Gang.rejoins id k)
          let s := back.foldl (fun s m => s.modCoreId m.core fun c =>
            { c.unhold with ctx := { c.ctx.setGangMode 2 with pc := next } }) s
          s.modGang num fun g => { g with
            hold := .none
            members := g.members.map fun m => if Gang.rejoins id k m then { m with state := .attached, parked := none, next := k + 1 } else m }
        else s
      | _ => s

/-- A command in its place among a core's: they stand in the order of their pushes (R391). -/
def insertJob (j : MtxJob) : List MtxJob → List MtxJob
  | [] => [j]
  | k :: ks => if j.seq < k.seq then j :: k :: ks else k :: insertJob j ks

/-- Matrix commands of a gang enter the q2 of every member that executed them, once every attached member has (R205, R390): each becomes one
joint command of them all, also of a member that has executed it in its slot and has detached or left since; where the gang has dissolved, which its
leader's GSPLIT does, each has one of its own (R448; log 121). A core whose context of then is not active is waited for. -/
def State.enterStaged (s : State) (num : Nat) : State :=
  match s.gang? num with
  | none => s
  | some g =>
    let least := (g.members.filter fun m => m.state == .attached).foldl (fun k m => min k m.next) g.nextK
    let active (x : Staged) : Bool := match s.coreById x.core with
      | none => true
      | some c => c.ctx.lnum == x.lnum && c.ctx.wuid == x.wuid
    let go (k : Nat) : Bool := decide (k < least) && g.staged.all fun x => x.k != k || active x
    let lead := (g.members.find? fun m => m.pos == 0).map fun m => m.core
    let (s, _) := g.staged.foldl (fun (acc : State × List (Nat × Joint)) x =>
      if go x.k then
        let (s, js) := acc
        let (s, j) : State × Joint := match js.find? fun p => p.1 == x.k with
          | some p => (s, p.2)
          | none =>
            let cores := (g.staged.filter fun y => y.k == x.k).map fun y => y.core
            let (n, s) := s.takeSeq
            (s, { id := n, lead := lead.getD x.core, gang := num, cores := cores, former := [] })
        (s.modCoreId x.core fun c => { c with mtx := insertJob { x.job with since := s.dev.cycles, joint := if g.dissolved then none else some j } c.mtx },
          if js.any fun p => p.1 == x.k then js else (x.k, j) :: js)
      else acc) (s, [])
    s.modGang num fun g => { g with staged := g.staged.filter fun x => !(go x.k) }

/-- Whether the stream waits for a member: it is held, or the gang is being pre-empted and it has still to take its PREEMPT, or its context is
switched out (R202, R204). -/
def State.freezes (s : State) (g : Gang) (m : Member) : Bool :=
  match s.coreById m.core with
  | none => m.state == .attached
  | some c => c.heldAt.isSome || (g.parking && (c.kip.getLsbD 1 || c.ctx.gangMode == 0))

/-- Whether a gang is frozen by a member that is held or that its pre-emption waits for (R194, R202, R204). -/
def State.frozen (s : State) (g : Gang) : Bool := g.present.any (s.freezes g)

/-- The stream advances one cycle once every attached member has done its slot and nothing freezes it (R194). Entries that every attached
member has executed are forgotten, and so is a gang that every member has left. -/
def State.gangTick (s : State) (num : Nat) : State :=
  let s := s.settleGang num
  match s.gang? num with
  | none => s
  | some g =>
    let att := g.members.filter fun m => m.state == .attached
    if g.present.isEmpty then
      (s.enterStaged num).modDev fun d => { d with gangs := d.gangs.filter fun h => h.num != num }
    else if att.all (fun m => m.slotDone) && !(s.frozen g) && !att.isEmpty then
      let least := att.foldl (fun k m => min k m.next) g.nextK
      (s.modGang num fun g => { g with
        now := g.now + 1
        parking := false
        members := g.members.map fun m => { m with slotDone := false }
        stream := g.stream.filter fun e => decide (least ≤ e.k)
        sent := g.sent.filter fun x => decide (least ≤ x.k) }).enterStaged num
    else s

/-- Those that await a value of a member that leaves the stream get zero bytes (R385). -/
def Gang.unsent (g : Gang) (pos : Nat) : Gang :=
  { g with due := g.due.map fun d => if d.src = pos ∧ d.value.isNone then { d with value := some 0, arrive := g.now } else d }

/-- A member that leaves the stream without executing the instruction of its slot sends zero bytes in it, should it be a shift (R385, log 83). -/
def Gang.missing (g : Gang) (pos : Nat) : Gang :=
  match g.member? pos with
  | none => g
  | some m => if m.state = .attached then { g with sent := g.sent ++ [{ k := m.next, pos := pos, value := 0 }] } else g

/-- Detaches the core in focus from the stream (R197, R198). -/
def State.detach (s : State) (l : GangLink) : State :=
  (s.modCtx fun c => c.setGangMode 3).modGang l.gang fun g => (g.modMember l.pos fun m => { m with state := .detached }).unsent l.pos

/-- The leader's instruction is issued to the stream, unless it is a frame of several cycles, which was when it began: such a one learns where the
leader goes on (R193, R381). -/
def Gang.issue (g : Gang) (pos : Nat) (pc : Word) (word : IWord) (frame : List IWord) (next : Word) (moved : Bool) : Gang :=
  match (g.member? pos).bind fun m => g.stream.find? fun e => e.k == m.next with
  | some b => { g with stream := g.stream.map fun e => if e.k = b.k then { e with next := next, moved := moved || next != b.next } else e }
  | none => { g with
      stream := g.stream ++ [{ k := g.nextK, t := g.now, pc := pc, word := word, frame := frame, next := next, moved := moved }]
      nextK := g.nextK + 1 }

/-- Books a stream instruction that the core in focus has executed in its slot: at the leader it is issued to the stream, and at a
member a next pc that differs from the leader's detaches it, unless a handler moved the leader (R193, R197, log 10). -/
def State.streamStep (s : State) (l : GangLink) (lead moved : Bool) (pc : Word) (word : IWord) : State :=
  match s.gang? l.gang with
  | none => s
  | some g =>
    if lead then
      (s.modGang l.gang fun g => (g.issue l.pos pc word s.core.captured s.ctx.pc moved).modMember l.pos fun m =>
        { m with next := m.next + 1, slotDone := true }).gangTick l.gang
    else
      let entry := s.entryFor l
      let s := s.modGang l.gang fun g => g.modMember l.pos fun m => { m with next := m.next + 1, slotDone := true }
      let s := match entry with
        | none => s
        | some e => if s.ctx.gangMode = 2 ∧ s.ctx.pc ≠ e.next ∧ e.moved = false then s.detach l else s
      s.gangTick g.num

/-- The stream with the instruction that a held leader trapped at, which is issued: as the leader goes, the members execute it (log 10). -/
def Gang.issueTrapped (g : Gang) (l : GangLink) (c : Core) : Gang :=
  match c.heldAt with
  | none => g
  | some h => match h.word with
    | none => g
    | some w => if l.pos = 0 then g.issue l.pos h.pc w c.captured (h.pc + 4) true else g

/-- A core's position in the gang that it retains becomes a gap, and the core retains nothing of the gang (R191, R203). -/
def State.dropLink (s : State) (core : Nat) : State :=
  match s.coreById core with
  | none => s
  | some c =>
    match c.link with
    | none => s
    | some l =>
      let s := s.modCoreId core fun c => { c with
        link := none, heldAt := none
        ctx := if c.ctx.gangMode = 0 then c.ctx else { c.ctx with gang := gangIndependent } }
      (s.modGang l.gang fun g =>
        (((g.issueTrapped l c).missing l.pos).modMember l.pos fun m => { m with state := .gone, parked := none }).unsent l.pos).gangTick l.gang

/-- What leaving for good does to the gang of a core's active context, where it has one (R191). -/
def State.leaveGang (s : State) (core : Nat) : State :=
  match s.coreById core with
  | none => s
  | some c => if c.ctx.gangMode = 0 then s else s.dropLink core

/-! ## Launches -/

/-- A little-endian field of a launch parameter block (R209). -/
def Launch.field (l : Launch) (off n : Nat) : Nat := l.lpb.toNat / 2 ^ (8 * off) % 2 ^ (8 * n)

/-- A little-endian field of the kernel header (R210). -/
def Launch.hdrField (l : Launch) (off n : Nat) : Nat := l.hdr.toNat / 2 ^ (8 * off) % 2 ^ (8 * n)

def State.launch? (s : State) (lnum : BitVec 12) : Option Launch := s.dev.launches.find? fun l => l.lnum == lnum

def State.modLaunch (s : State) (lnum : BitVec 12) (f : Launch → Launch) : State :=
  s.modDev fun d => { d with launches := d.launches.map fun l => if l.lnum = lnum then f l else l }

/-- Whether the active context of a core is a unit's. -/
def Core.runs (c : Core) (lnum : BitVec 12) (wuid : Nat) : Bool :=
  c.ctx.lnum == lnum && c.ctx.wuid.toNat == wuid && (c.run == .running || c.run == .ended || c.run == .heldForRebuild)

/-- A context parked on a core is a unit's. -/
def Resident.isUnit (r : Resident) (lnum : BitVec 12) (wuid : Nat) : Bool := r.lnum == lnum && r.wuid.toNat == wuid

/-- Matrix commands of a discarded context that have not entered q2 never do. -/
def State.forgetStaged (s : State) (core : Nat) (lnum : BitVec 12) (wuid : Nat) : State :=
  s.modDev fun d => { d with gangs := d.gangs.map fun g => { g with
    staged := g.staged.filter fun x => !(x.core == core && x.lnum == lnum && x.wuid.toNat == wuid) } }

/-- What a core has posted and waits for is withdrawn: a reservation (R151), and a versioned access at its cell (R178, R349). -/
def State.withdraw (s : State) (core : Nat) : State :=
  s.modDev fun d => { d with
    resvs := d.resvs.filter fun r => r.core != core
    cells := d.cells.filter fun w => w.core != core }

/-- A unit's context is discarded other than by HALT: an active one leaves its core to a hand-off without it (R219), a parked one its
granules and the shadow slot. A load or an atomic that has left the core is still performed (R29). -/
def State.dropUnit (s : State) (lnum : BitVec 12) (wuid core : Nat) : State :=
  match s.coreById core with
  | none => s
  | some c =>
    if c.runs lnum wuid then
      (((s.forgetStaged core lnum wuid).leaveGang core).withdraw core).modCoreId core fun c => { c.unhold with run := .dropped, trapDue := none, lost := [] }
    else if c.residents.any fun r => r.isUnit lnum wuid then
      let s := match c.link with
        | none => s
        | some l => if l.lnum = lnum ∧ c.ctx.gangMode = 0 then s.dropLink core else s
      (s.forgetStaged core lnum wuid).modCoreId core fun c => { c with
        shadow := if c.residents.any fun r => r.isUnit lnum wuid && r.shadow then none else c.shadow
        jointSaved := c.jointSaved.filter fun k => !(k.lnum == lnum && k.wuid.toNat == wuid)
        residents := c.residents.filter fun r => !(r.isUnit lnum wuid) }
    else s

/-- A unit of a launch that has not ended. -/
def Launch.unit? (l : Launch) (wuid core : Nat) : Option UnitRec := l.units.find? fun u => u.wuid == wuid && u.core == core && u.active

/-- The unit that ended by HALT on a core counts as done (R219, R226). -/
def State.countDone (s : State) (c : Core) : State :=
  match (s.launch? c.ctx.lnum).bind fun l => l.unit? c.ctx.wuid.toNat c.id with
  | none => s
  | some u => s.modLaunch c.ctx.lnum fun l => { l with
      doneCount := l.doneCount + 1
      units := l.units.map fun v => if v = u then { v with active := false } else v }

/-- The core on which a unit of a launch has ended by HALT, where it waits there for its hand-off (R219). -/
def State.endedCore (s : State) (lnum : BitVec 12) (u : UnitRec) : Option Core :=
  (s.coreById u.core).filter fun c => c.run == .ended && c.runs lnum u.wuid

/-- A unit ends failed (R251, R252); one that has ended by HALT is done (R226). -/
def State.failUnit (s : State) (lnum : BitVec 12) (u : UnitRec) : State :=
  match s.endedCore lnum u with
  | some c => s.countDone c
  | none => (s.dropUnit lnum u.wuid u.core).modLaunch lnum fun l => { l with
      failedCount := l.failedCount + 1
      units := l.units.map fun v => if v = u then { v with active := false } else v }

def State.failUnits (s : State) (lnum : BitVec 12) (us : List UnitRec) : State := us.foldl (fun s u => s.failUnit lnum u) s

/-- Units restart together on their cores (R251): the distributor places them afresh. Where a core of theirs has been fenced nothing fits any more (R254),
and they end failed, so that their launch completes (R255; the model's choice, log 141). -/
def State.restartUnits (s : State) (lnum : BitVec 12) (us : List UnitRec) : State :=
  if us.any fun u => s.dev.fencedCores.contains u.core then s.failUnits lnum us
  else (us.foldl (fun s u => s.dropUnit lnum u.wuid u.core) s).modLaunch lnum fun l => { l with
    retried := l.retried + 1
    restarts := l.restarts ++ [us.map fun u => (u.wuid, u.core)]
    units := l.units.filter fun u => !(us.contains u)
    lastSweep := none, sweep := none }

/-- The units of a launch that have not ended. -/
def Launch.activeUnits (l : Launch) : List UnitRec := l.units.filter fun u => u.active

/-- A launch ends early with a status: its placed units end failed, those that wait to restart too, and nothing more of it is placed (R251,
R252). One that has ended already keeps its status (R223). -/
def State.endLaunch (s : State) (lnum : BitVec 12) (status : Byte) : State :=
  match s.launch? lnum with
  | none => s
  | some l =>
    if l.state = .ending then s
    else (s.failUnits lnum l.activeUnits).modLaunch lnum fun l => { l with
      state := .ending, status := status, failedCount := l.failedCount + (l.restarts.map List.length).sum, restarts := [] }

/-- A launch restarts from FIRST (R251). -/
def State.restartLaunch (s : State) (lnum : BitVec 12) : State :=
  match s.launch? lnum with
  | none => s
  | some l =>
    if l.state = .ending then s
    else (l.activeUnits.foldl (fun s u => s.dropUnit lnum u.wuid u.core) s).modLaunch lnum fun l => { l with
      retried := l.retried + 1, nextUnit := 0, units := [], restarts := [], clusters := [], doneCount := 0, failedCount := 0
      lastSweep := none, sweep := none }

/-! ## Containment (R250 to R252) -/

/-- A launch's policy for a level, 0 work unit to 3 partition: 0 IGNORE, 1 RETRY, 2 KILLSELF, 3 KILLPARENT. RETRY with the budget spent
acts as KILLPARENT (R251). -/
def Launch.policy (l : Launch) (level : Nat) : Nat :=
  let p := l.field 0x1C 2 / 16 ^ level % 16
  if p = 1 ∧ l.field 0x1E 1 ≤ l.retried then 3 else p

/-- A fault event at the partition level (R251): the partition that KILLPARENT names places nothing more until it is rebuilt. -/
def State.containPartition (s : State) (lnum : BitVec 12) : State :=
  match s.launch? lnum with
  | none => s
  | some l =>
    match l.policy 3 with
    | 1 => s.restartLaunch lnum
    | 3 =>
      let part := l.field 0x18 1
      let same := s.dev.launches.filter fun k => k.field 0x18 1 == part
      (same.foldl (fun s k => s.endLaunch k.lnum 1) s).modDev fun d => { d with
        rebuilds := if d.rebuilds.contains (BitVec.ofNat 6 part) then d.rebuilds else d.rebuilds ++ [BitVec.ofNat 6 part] }
    | _ => s.endLaunch lnum 1

/-- A fault event at the launch level, from some units (R251). -/
def State.containLaunch (s : State) (lnum : BitVec 12) (us : List UnitRec) : State :=
  match s.launch? lnum with
  | none => s
  | some l =>
    match l.policy 2 with
    | 0 => s.failUnits lnum us
    | 1 => s.restartUnits lnum us
    | 2 => s.endLaunch lnum 2
    | _ => s.containPartition lnum

/-- The link of a unit's gang, where its core retains it. -/
def State.gangOf (s : State) (lnum : BitVec 12) (u : UnitRec) : Option GangLink :=
  match s.coreById u.core with
  | none => none
  | some c =>
    match c.link with
    | none => none
    | some l => if l.lnum = lnum ∧ (c.runs lnum u.wuid = false ∨ c.ctx.gangMode ≠ 0) then some l else none

/-- A fault event at the gang level, whose gang is the unit's group: a unit of a launch with GW = 1 is a gang of one. Where IGNORE leaves a
gap in a gang of the current, its other members are poisoned (R251, log 11). -/
def State.containGang (s : State) (lnum : BitVec 12) (u : UnitRec) : State :=
  match s.launch? lnum with
  | none => s
  | some l =>
    let us := l.activeUnits.filter fun v => v.group == u.group
    match l.policy 1 with
    | 0 =>
      let gang := if l.field 0x1A 1 = 1 then none else s.gangOf lnum u
      let s := s.failUnit lnum u
      match gang with
      | none => s
      | some k => s.modGang k.gang fun g => { g with
          members := g.members.map fun m => if m.state = .gone then m else { m with poison := some (BitVec.ofNat 8 k.pos) } }
    | 1 => s.restartUnits lnum us
    | 2 => s.failUnits lnum us
    | _ => s.containLaunch lnum us

/-- A fault event of a unit, with the cause and information that the record keeps of the first (R250 to R252). -/
def State.unitFault (s : State) (lnum : BitVec 12) (wuid core : Nat) (corrected : Bool) (cause info : Word) : State :=
  match s.launch? lnum with
  | none => if corrected then s else s.dropUnit lnum wuid core
  | some l =>
    let s := s.modLaunch lnum fun l => { l with
      faultCount := l.faultCount + 1
      fcause := if l.faultCount = 0 then cause else l.fcause
      finfo := if l.faultCount = 0 then info else l.finfo }
    match l.unit? wuid core with
    | none => if corrected then s else s.dropUnit lnum wuid core
    | some u =>
      match l.policy 0 with
      | 0 => if corrected then s else s.failUnit lnum u
      | 1 => s.restartUnits lnum [u]
      | 2 => s.failUnit lnum u
      | _ => s.containGang lnum u

/-- A fault event of the unit that a core runs (R250). A context that is no unit of a launch has no policy: after an event that is not a
corrected error it has ended. -/
def State.faultEvent (s : State) (core : Nat) (corrected : Bool) (cause info : Word) : State :=
  match s.coreById core with
  | none => s
  | some c => s.unitFault c.ctx.lnum c.ctx.wuid.toNat core corrected cause info

/-- A self-test of a reporting unit begins (R253). -/
def State.startTest (s : State) (unit : BitVec 6) (place : BitVec 52) : State :=
  s.modDev fun d => { d with tests := d.tests ++ [{ unit := unit, place := place, memSide := false }] }

/-- A double trap at F: a fault event and a logic scan of the core (R233, R250, R253). -/
def State.coreFatal (s : State) (cause info : Word) : State :=
  (s.faultEvent s.core.id false cause info).startTest 6 (physCoord s.core.id)

/-! ## Taking a trap and returning (R233, R234) -/

/-- Level codes of PPL (R229, R230). -/
def Level.code : Level → Nat
  | .u => 0 | .k => 1 | .f => 2

/-- The level of a PPL code. -/
def Level.ofCode (n : Nat) : Level := if n = 0 then .u else if n = 1 then .k else .f

/-- The level a trap goes to before the double-trap rule (R232). -/
def Core.trapLevel (c : Core) (n : Nat) : Level := if c.level = .f ∨ bit c.fdeleg n = false then .f else .k

/-- Entry to K (R233). -/
def Core.enterK (c : Core) (cause info ret : Word) : Core :=
  { c with
    kcause := cause, kinfo := info, kretpc := keepLow ret 48
    kstat := (if c.level = .k then 4 else 0) ||| (if bit c.kstat 0 then 2 else 0) ||| 8
    level := .k, ctx := { c.ctx with pc := c.kvec } }

/-- Entry to F (R233). -/
def Core.enterF (c : Core) (dbl : Bool) (cause info ret : Word) : Core :=
  { c with
    fcause := cause, finfo := info, fretpc := keepLow ret 48
    fstatus := BitVec.ofNat 64 (c.level.code * 4) ||| (if bit c.fstatus 0 then 2 else 0) ||| 16 ||| (if dbl then 32 else 0)
    level := .f, ctx := { c.ctx with pc := c.fvec } }

/-- A trap or interrupt of a leader or attached member takes it out of the stream: it is held (R202); so is a detached member that takes the
PREEMPT of its gang, for which the stream waits (R204). A trap of a held member's handler returns into that handler. -/
def State.markHeld (s : State) (preempt : Bool) (word : Option IWord) : State :=
  match s.core.link with
  | none => s
  | some l =>
    match s.core.heldAt with
    | some h => if s.ctx.gangMode = 0 then s else s.modCore fun c => { c with heldAt := some { h with depth := h.depth + 1 } }
    | none =>
      let held (stream : Bool) : Held := { k := s.slotOf l, pc := s.ctx.pc, word := word, stream := stream, depth := 0 }
      if s.core.inStream then s.modCore fun c => { c with heldAt := some (held true) }
      else if preempt ∧ s.ctx.gangMode = 3 then s.modCore fun c => { c with heldAt := some (held false) }
      else s

/-- Takes a trap or an interrupt on the core in focus: n is the cause number and int marks an interrupt (R233). A double trap at F is a fault
event before the F registers take it (log 13). -/
def State.takeTrap (s : State) (int : Bool) (n : Nat) (info ret : Word) (word : Option IWord) : State :=
  let cause := setBit (BitVec.ofNat 64 n) 63 int
  let first := s.core.trapLevel n
  let dbl := first = .k ∧ bit s.core.kstat 3 ∧ int = false
  let target := if dbl then .f else first
  let s := if target = .f ∧ bit s.core.fstatus 4 ∧ int = false then s.coreFatal cause info
    else s.markHeld (int && n == 33) word
  s.modCore fun c =>
    let c := { c.unhold with trapDue := none }
    if target = .k then c.enterK cause info ret else c.enterF dbl cause info ret

/-- A TRET of a held member's context: from a trap that its handler took, or from that handler (log 85). In the latter case it is no longer
held, which does to its gang what R202 gives: it returns to the trapped instruction, to the next of the stream, or elsewhere. A leader's
instruction that trapped is issued to the stream unless it is executed again (log 10). -/
def State.returnToStream (s : State) : State :=
  match s.core.link, s.core.heldAt with
  | some l, some h =>
    if s.ctx.gangMode = 0 then s
    else if h.depth ≠ 0 ∧ s.core.level ≠ .u then s.modCore fun c => { c with heldAt := some { h with depth := h.depth - 1 } }
    else if h.stream = false then (s.modCore fun c => { c with heldAt := none }).gangTick l.gang
    else
      let lead := s.ctx.gangMode = 1
      let target := s.ctx.pc
      let s := s.modCore fun c => { c with heldAt := none }
      if target = h.pc then s.gangTick l.gang
      else if lead then
        match h.word with
        | none => s.gangTick l.gang
        | some w => s.streamStep l true (target != h.pc + 4) h.pc w
      else
        match s.entryFor l with
        | none => (s.detach l).gangTick l.gang
        | some e =>
          if target = e.next then
            (s.modGang l.gang fun g => g.modMember l.pos fun m => { m with next := m.next + 1, slotDone := true }).gangTick l.gang
          else ((s.modGang l.gang fun g => g.missing l.pos).detach l).gangTick l.gang
  | _, _ => s

/-- The lowest slot of q2 that is not held (R388). -/
def lowestSlot (held : List (BitVec 4)) : Option (BitVec 4) := ((List.range 16).map (BitVec.ofNat 4)).find? fun k => !(held.contains k)

/-- Stopped commands that are to restart wait again, in the address space of their return to U. Each takes back its slot, or the lowest free one
where another command holds that; while all 16 are held it gets none (R388, log 33). -/
def restartJobs : List (BitVec 4) → List MtxJob → List MtxJob
  | _, [] => []
  | held, j :: js =>
    match j.state, j.restart, if held.contains j.slot then lowestSlot held else some j.slot with
    | .faulted, some kptb, some slot =>
      { j with state := .waiting, restart := none, kptb := kptb, slot := slot } :: restartJobs (slot :: held) js
    | _, _, _ => j :: restartJobs held js

/-- Whether a command that a member has executed in a gang is one of a core's active context. -/
def Staged.isOf (x : Staged) (c : Core) : Bool := x.core == c.id && x.lnum == c.ctx.lnum && x.wuid == c.ctx.wuid

/-- Matrix commands that the active context of a core has executed in a gang and that have not entered q2 (R205, R390). -/
def State.stagedOf (s : State) (c : Core) : List Staged := (s.dev.gangs.map fun g => g.staged.filter fun x => x.isOf c).flatten

/-- The commands of a core: in its q2, and executed in a gang by its active context and not yet there. -/
def State.mtxHeld (s : State) (core : Nat) : List MtxJob :=
  match s.coreById core with
  | none => []
  | some c => c.mtx ++ (s.stagedOf c).map fun x => x.job

/-- The slots of a core's q2 that are held: a command that stopped with a record holds none (R388). -/
def State.heldSlots (s : State) (core : Nat) : List (BitVec 4) :=
  ((s.mtxHeld core).filter fun j => j.state != .faulted).map fun j => j.slot

/-- The stopped commands of a core that are to restart take the slots that are free (R245, R388). -/
def State.giveSlots (s : State) (core : Nat) : State :=
  let held := s.heldSlots core
  s.modCoreId core fun c => { c with mtx := restartJobs held c.mtx }

/-- A command that an engine fault stopped restarts when its context returns to U, in the address space of then, and its tag is in flight again (R95,
R245, log 12). -/
def State.restartMatrix (s : State) : State :=
  if s.core.level = .u then
    (s.modCore fun c => { c with
      mtx := c.mtx.map fun j => if j.state = .faulted then { j with restart := some c.kptb } else j
      dmaTags := (c.mtx.filter fun j => j.state == .faulted).foldl (fun m j => setBit m (56 + j.word.toNat / 8 % 8) true) c.dmaTags }).giveSlots
      s.core.id
  else s

/-- TRET at K, from the K registers (R234). -/
def Core.leaveK (c : Core) : Core :=
  { c with
    level := Level.ofCode (bits c.kstat 2 1)
    kstat := (setBit (setBit c.kstat 0 (bit c.kstat 1)) 3 false)
    ctx := { c.ctx with pc := c.kretpc } }

/-- TRET at F, from the F registers (R234). -/
def Core.leaveF (c : Core) : Core :=
  { c with
    level := Level.ofCode (bits c.fstatus 2 2)
    fstatus := (setBit (setBit c.fstatus 0 (bit c.fstatus 1)) 4 false)
    ctx := { c.ctx with pc := c.fretpc } }

/-- The return from a trap at the current level, K or F (R234, R202, R245). -/
def State.tret (s : State) : State :=
  ((s.modCore fun c => if c.level = .f then c.leaveF else c.leaveK).returnToStream).restartMatrix

/-! ## From the body of an instruction to a step -/

/-- The address a trap of the instruction at pc returns to. -/
def RetAt.resolve (pc : Word) : RetAt → Word
  | .here => pc
  | .next => pc + 4
  | .to a => a

/-- What retiring does beside the pc: a core of a stream books its slot. -/
def State.bookSlot (s : State) (before : Core) (word : IWord) : State :=
  match before.link with
  | none => s
  | some l => if before.inStream then s.streamStep l (before.ctx.gangMode == 1) false before.ctx.pc word else s

/-- Whether the core in focus awaits the result of an atomic that does not hold it (R172): such a result completes before a trap or an
interrupt is taken. -/
def State.resultsPending (s : State) : Bool :=
  (s.dev.flights.any fun f => f.core == s.core.id && f.rd.isSome)
  || s.dev.bcasts.any fun b => b.core == s.core.id && (match b.op with
    | .quantum _ _ _ => true
    | .mcast _ _ _ => false)

/-- Traps on the core in focus: at once, or, where it awaits the result of an atomic that it issued before, when that is in (R29, R237). -/
def State.raiseTrap (s : State) (n : Nat) (info ret : Word) (word : Option IWord) : State :=
  if s.resultsPending then s.modCore fun c => { c.unhold with trapDue := some { cause := n, info := info, ret := ret, word := word } }
  else s.takeTrap false n info ret word

/-- The core in focus holds for an instruction, which it keeps and goes on with unless it abandons it. -/
def State.holdAt (s : State) (h : Hold) (word : IWord) : State := s.modCore fun c => { c with hold := h, issued := some word }

/-- Runs the body of an instruction on the core in focus: it retires, traps, or holds the core. -/
def State.finish (s : State) (i : Instr) : EStateM.Result Stop State Flow → State
  | .ok f t => ((t.modCore fun c => { c.unhold with ctx := c.ctx.retire f }).bookSlot s.core (wordOf i))
  | .error (.trap n info r) t => t.raiseTrap n info (r.resolve s.ctx.pc) (some (wordOf i))
  | .error (.hold h) t => t.holdAt h (wordOf i)

/-- An instruction with a given body. -/
def runFlow (i : Instr) (body : Act Flow) (s : State) : Host.Outcome State Fault Refusal :=
  .next (s.finish i (body s))

/-- An instruction with a given body that retires in sequence. -/
def runSeq (i : Instr) (body : Act Unit) (s : State) : Host.Outcome State Fault Refusal :=
  runFlow i (do body; return .seq) s

end Sys2Proof.Machine
end

