-- ==== Sys2Proof/Machine/Home.lean ====
section
/-!
DEFINITION. What a home does (R27, R159 to R162): reading and writing bytes, with words that hold an uncorrectable error (R80, R116),
monitors (R179), versioned cells (R177), atomics (R345), and the accesses in flight from a core to a home.
-/

namespace Sys2Proof.Machine

/-- The first 64-bit word of a range that holds an uncorrectable error (R80). -/
def Dev.badWord (d : Dev) (key n : Nat) : Option Nat :=
  match d.bad.filter fun w => decide (key / 8 ≤ w ∧ w * 8 < key + n) with
  | [] => none
  | w :: ws => some (ws.foldl min w * 8)

/-- The words that can hold an uncorrectable error: those of device memory, of the pools and of the cluster memories (R80, R253). -/
def canFail (key : Nat) : Bool := decide (key < localBytes) || (decide (poolKeys ≤ key) && decide (key < romKeys))

/-- The self-test that an error in a word starts: the unit and the place it reports (R253, R472, log 107). -/
def testOf (key : Nat) : SelfTest :=
  match regionOf key with
  | .pool n => { unit := 0, place := physCoord n, memSide := false }
  | .cluster c => { unit := 2, place := physCoord (c / 156 * 2496 + c / 12 % 13 * 192 + c % 12 * 4), memSide := false }
  | _ => { unit := 4, place := BitVec.ofNat 52 key, memSide := true }

/-- An access meets the uncorrectable error of a word: its self-test starts (R253). The word is reported by its physical address (R80); the
spec gives none for a word of a pool or of a cluster's memory, whose report is a free value (log 107). -/
def State.meetError (s : State) (key : Nat) : Word × State :=
  let s := s.modDev fun d => { d with tests := d.tests ++ [testOf key] }
  if key < localBytes then (BitVec.ofNat 64 key, s)
  else
    let (n, s) := s.takeFresh
    (Config.freeWord n &&& 0x000FFFFFFFFFFFF8#64, s)

/-- A unit of the device that is no core's instruction meets the words of a range that hold an uncorrectable error: their self-tests start (R253). It
reads what they hold, which is left open (log 116). -/
def State.meetRange (s : State) (key n : Nat) : State :=
  s.modDev fun d => { d with
    tests := d.tests ++ ((d.bad.filter fun w => decide (key / 8 ≤ w ∧ w * 8 < key + n)).map fun w => testOf (w * 8)) }

/-- The bytes of a range. -/
def State.peek (s : State) (key n : Nat) : List Byte := Memory.readBytes s.dev.mem key n

/-- A little-endian value of a range. -/
def State.peekNat (s : State) (key n : Nat) : Nat := leNat (s.peek key n)

/-- Writes the bytes of a range that lie in words without an uncorrectable error, and whole words that replace one; every such word
met starts a self-test (R116, R253). -/
def Dev.writeSound (d : Dev) (key : Nat) (bs : List Byte) : Dev :=
  if d.bad.any fun w => decide (key / 8 ≤ w ∧ w * 8 < key + bs.length) then
    let met := d.bad.filter fun w => decide (key / 8 ≤ w ∧ w * 8 < key + bs.length)
    let whole (w : Nat) : Bool := decide (key ≤ w * 8 ∧ w * 8 + 8 ≤ key + bs.length)
    let lost := met.filter fun w => !whole w
    let mem := (bs.zipIdx).foldl (fun m (b, i) => if lost.contains ((key + i) / 8) then m else Memory.write m (key + i) b) d.mem
    { d with
      mem := mem
      bad := d.bad.filter fun w => !(met.contains w && whole w)
      tests := d.tests ++ met.map fun w => testOf (w * 8) }
  else { d with mem := Memory.writeBytes d.mem key bs }

/-- A write performed to a line wakes the monitors armed on it (R179). -/
def State.wakeMonitors (s : State) (key n : Nat) : State :=
  let wake (c : Core) : Core :=
    match c.ctx.monLine with
    | none => c
    | some l => if lineOf key ≤ l ∧ l ≤ lineOf (key + n - 1) then { c with ctx := { c.ctx with monHit := true } } else c
  { s with core := wake s.core, rest := s.rest.map wake }

/-- A write at a home without the cells' part. -/
def State.pokeRaw (s : State) (key : Nat) (bs : List Byte) : State := (s.modDev fun d => d.writeSound key bs).wakeMonitors key bs.length

/-- The state of a versioned cell: HEAD and TAIL (R176). -/
def State.cellHead (s : State) (cell : Nat) : Nat := s.peekNat (cell + 0x20) 8
def State.cellTail (s : State) (cell : Nat) : Nat := s.peekNat (cell + 0x28) 8

/-- A CST or CLD whose condition holds is performed: what it returns (R177). One that meets an uncorrectable error in a word of its cell that it
reads ends there: HEAD, TAIL, and a CLD's slot (R80, R116). -/
def State.cellPerform (s : State) (w : CellWait) : Option (CellResult × State) :=
  let head := s.cellHead w.home
  let tail := s.cellTail w.home
  let spoilt (key : Nat) : CellResult × State :=
    let (info, s) := s.meetError key
    (.spoilt info, s)
  match s.dev.badWord (w.home + 0x20) 16 with
  | some key => some (spoilt key)
  | none =>
    if w.store then
      if head < tail + 3 then
        let h := (head + 1) % 2 ^ 64
        let s := s.pokeRaw (w.home + 8 * (h % 4)) (leBytes 8 w.arg.toNat)
        some (.value 0, s.pokeRaw (w.home + 0x20) (leBytes 8 h))
      else none
    else
      let n := w.arg.toNat
      if head < n then none
      else if n < tail then some (.gone, s)
      else match s.dev.badWord (w.home + 8 * (n % 4)) 8 with
        | some key => some (spoilt key)
        | none => some (.value (BitVec.ofNat 64 (s.peekNat (w.home + 8 * (n % 4)) 8)), s)

/-- One pass over the cells' waiting instructions: the first that can be performed is, in the order in which they were posted (R177; the model's choice,
log 143). -/
def State.cellPass (s : State) : Option State :=
  let ready := s.dev.cells.find? fun w => w.result.isNone && (s.cellPerform w).isSome
  match ready with
  | none => none
  | some w =>
    match s.cellPerform w with
    | none => none
    | some (r, t) => some (t.modDev fun d => { d with cells := d.cells.map fun v => if v.core = w.core then { v with result := some r } else v })

/-- The home performs every waiting CLD and CST that a write satisfies, and those that these satisfy in turn (R177). -/
def State.settleCells : Nat → State → State
  | 0, s => s
  | n + 1, s => match s.cellPass with
    | none => s
    | some t => State.settleCells n t

/-- A write performed at its home: visible to every agent from here on (R162). -/
def State.poke (s : State) (key : Nat) (bs : List Byte) : State :=
  let s := s.pokeRaw key bs
  s.settleCells s.dev.cells.length

/-- The result of an AMO (R345). -/
def amoApply (op : AmoOp) (old v : Word) : Word :=
  match op with
  | .add => old + v
  | .and => old &&& v
  | .or => old ||| v
  | .xor => old ^^^ v
  | .min => if old.slt v then old else v
  | .max => if old.slt v then v else old
  | .minu => if old.ult v then old else v
  | .maxu => if old.ult v then v else old
  | .swap => v

/-- Sixty-four zero bytes but for the first value: a cell as CINIT leaves it (R177). -/
def cellInitBytes (v : Word) : List Byte := leBytes 8 v.toNat ++ List.replicate 40 0

/-- The word with an uncorrectable error that an operation meets when it reads at its home: an atomic its word, and a CRCL HEAD and TAIL (R80,
R116). -/
def Dev.opBad (d : Dev) (key : Nat) (op : FlightOp) : Option Nat :=
  match op with
  | .amo _ _ => d.badWord key 8
  | .cas _ _ => d.badWord key 8
  | .crcl _ => d.badWord (key + 0x20) 16
  | .store _ => none
  | .cinit _ => none

/-- An operation performed at its home (R159): the old value, and the state. One that meets an uncorrectable error in what it reads writes nothing,
and its old value is a free value (log 31). -/
def State.performOp (s : State) (key : Nat) (op : FlightOp) : Word × State :=
  match s.dev.opBad key op with
  | some w =>
    let (n, s) := s.takeFresh
    (Config.freeWord n, (s.meetError w).2)
  | none =>
    match op with
    | .store bs => (0, s.poke key bs)
    | .amo o v =>
      let old := BitVec.ofNat 64 (s.peekNat key 8)
      (old, s.poke key (leBytes 8 (amoApply o old v).toNat))
    | .cas c v =>
      let old := BitVec.ofNat 64 (s.peekNat key 8)
      (old, if old = c then s.poke key (leBytes 8 v.toNat) else s)
    | .cinit v => (0, s.poke key (cellInitBytes v))
    | .crcl n =>
      let tail := Nat.max (s.cellTail key) (Nat.min n.toNat (s.cellHead key) + 1)
      (0, s.poke (key + 0x28) (leBytes 8 tail))

/-- Whether an operation in flight is an atomic, which counts in UNACK only until it is performed (R26, R172). -/
def FlightOp.isAtomic : FlightOp → Bool
  | .amo _ _ => true
  | .cas _ _ => true
  | .store _ => false
  | .cinit _ => false
  | .crcl _ => false

/-- One acknowledgement reaches a core (R28). -/
def State.acknowledge (s : State) (core : Nat) : State := s.modCoreId core fun c => { c with unack := c.unack - 1 }

/-- The accesses that an access in flight stands for, each by its core and order number: its own, and those merged into it (R173). -/
def Flight.parts (f : Flight) : List (Nat × Nat) := (f.core, f.id) :: f.merged

/-- Whether an access in flight is a core's own, or has one of its merged into it (R173). -/
def Flight.by (f : Flight) (core : Nat) : Bool := f.parts.any fun p => p.1 == core

/-- The level that a core is at outside the handlers of the traps that it has taken (R232 to R234). -/
def Core.outerLevel (c : Core) : Level :=
  let l := if c.level = .f ∧ bit c.fstatus 4 then Level.ofCode (bits c.fstatus 2 2) else c.level
  if l = .k ∧ bit c.kstat 3 then Level.ofCode (bits c.kstat 2 1) else l

/-- An access of a core that retired is lost: no result comes, the register that awaits one keeps its value, and the core is to trap (R80, R464,
log 31). -/
def Core.lose (c : Core) (id : Nat) (info : Word) : Core :=
  { c with
    pendReg := c.pendReg.filter fun p => p.1 != id
    lost := if c.run = .running then c.lost ++ [{ level := c.outerLevel, info := info }] else c.lost }

/-- The accesses of some cores, by their order numbers, are lost. -/
def State.lose (s : State) (parts : List (Nat × Nat)) (info : Word) : State :=
  parts.foldl (fun s p => s.modCoreId p.1 fun c => c.lose p.2 info) s

/-- An access in flight that cannot be performed is lost with all that it stands for, and no longer counts in UNACK (R80, R464). -/
def State.loseFlight (s : State) (f : Flight) (info : Word) : State :=
  let s := s.modDev fun d => { d with flights := d.flights.filter fun g => g.id != f.id }
  ((f.parts.map fun p => p.1).foldl State.acknowledge s).lose f.parts info

/-- The access in flight is performed at its home. An atomic no longer counts in UNACK, nor does any that was merged into it; one that
returns nothing is then over (R172, R173), and so is a store that has been acknowledged (R26). One that meets an uncorrectable error in what it
reads is lost (R80, R116). -/
def State.performFlight (s : State) (f : Flight) : State :=
  match s.dev.opBad f.home f.op with
  | some w =>
    let (info, s) := s.meetError w
    s.loseFlight f info
  | none =>
    let (old, s) := s.performOp f.home f.op
    let s := s.modDev fun d => { d with
      flights := (d.flights.map fun g => if g.id = f.id then { g with done := true, old := old } else g).filter fun g =>
        !(g.id == f.id && ((f.op.isAtomic && f.rd.isNone) || f.acked)) }
    if f.op.isAtomic then (f.parts.map fun p => p.1).foldl State.acknowledge s else s

/-- Whether an access in flight is performed before another that is on its way: they carry accesses of one core, the first the earlier, to one
line (R161), or are both stores to the host, which receives them in the order they left (R17). -/
def Flight.ahead (g f : Flight) : Bool :=
  let posted (h : Flight) : Bool := regionOf h.home == .hostMem && !h.op.isAtomic
  g.id != f.id && !g.done && (lineOf g.home == lineOf f.home || (posted g && posted f)) && g.parts.any fun p => f.parts.any fun q => p.1 == q.1 && decide (p.2 < q.2)

/-- Whether an access in flight is performed before a core's access to a range: it is the core's, came before an order number, and goes to a line
of the range; or the range lies with the host, and it stands in the host interface's posted queue, which no read overtakes (R26, R27). -/
def Flight.due (f : Flight) (core key n before : Nat) : Bool :=
  !f.done && ((f.acked && regionOf key == .hostMem)
    || ((f.parts.any fun p => p.1 == core && decide (p.2 < before)) && decide (lineOf key ≤ lineOf f.home ∧ lineOf f.home ≤ lineOf (key + n - 1))))

/-- Whether an access in flight waits for a quantum atomic: it carries an access of the atomic's core to its line that came after it (R161, R163). -/
def Dev.behindQuantum (d : Dev) (f : Flight) : Bool :=
  d.bcasts.any fun b => match b.op with
    | .quantum home _ _ => lineOf home == lineOf f.home && f.parts.any fun p => p.1 == b.core && decide (b.id < p.2)
    | .mcast _ _ _ => false

/-- The port of a peer line (R464). -/
def portOf (key : Nat) : Nat := key / 2 ^ 7 % 16

/-- Whether an access to a home goes through a port that has failed: it is not performed, and ends a millisecond after the failure (R464). -/
def Dev.cutOff (d : Dev) (key : Nat) : Bool := regionOf key == .peerMem && d.portDown.getLsbD (portOf key)

/-- Whether nothing keeps an access in flight from being performed but those ahead of it. -/
def Dev.passable (d : Dev) (f : Flight) : Bool := !(d.behindQuantum f) && !(d.cutOff f.home)

/-- Of the accesses in flight, in the order of the list, those that are due and those that are ahead of one of them. -/
def dueFlights (due : Flight → Bool) (fs : List Flight) : List Flight :=
  fs.foldr (fun f later => if due f || later.any f.ahead then f :: later else later) []

/-- Performs the accesses of one core that are in flight to the lines of a range and came before an order number, and what is ahead of them,
in their order (R17, R161: an access of the same line travels behind them). One that waits for a quantum atomic or goes through a failed port stays
(R163, R464). -/
def State.drainLines (s : State) (core key n before : Nat) : State :=
  ((dueFlights (fun f => f.due core key n before) s.dev.flights).filter s.dev.passable).foldl State.performFlight s

/-- A write of the core in focus to its own pool: performed at once, behind its own earlier accesses to the lines (R26, R161). -/
def State.pokeOwn (s : State) (key : Nat) (bs : List Byte) : State := (s.drainLines s.core.id key bs.length s.dev.seq).poke key bs

/-- Puts an access of the core in focus in flight; it counts in UNACK (R26, R28). -/
def State.launchFlight (s : State) (key : Nat) (op : FlightOp) (comm append : Bool) (rd : Option Reg) : State :=
  let (n, s) := s.takeSeq
  let f : Flight :=
    { id := n, core := s.core.id, lnum := s.ctx.lnum, home := key, op := op, comm := comm, append := append, rd := rd, done := false, acked := false, old := 0
      merged := [] }
  (s.modDev fun d => { d with flights := d.flights ++ [f] }).modCore fun c => { c with
    unack := c.unack + 1
    pendReg := match rd with
      | none => c.pendReg
      | some r => if r = 0 then c.pendReg else c.pendReg ++ [(n, r)] }

/-- Whether a broadcast is a quantum atomic whose home lies off the device. -/
def Bcast.offDevice (b : Bcast) : Bool :=
  match b.op with
  | .quantum home _ _ => (regionOf home).offDevice
  | .mcast _ _ _ => false

/-- Whether a core has an access in flight that is not acknowledged and whose home lies on the device (R164). -/
def State.deviceWrites (s : State) (core : Nat) : Bool :=
  (s.dev.flights.any fun f => f.by core && !(regionOf f.home).offDevice && !(f.op.isAtomic && f.done))
  || (s.dev.bcasts.any fun b => b.core == core && !b.offDevice) || (s.dev.signals.any fun e => e.core == core)
  || (s.dev.payloads.any fun p => p.core == core)

/-- Whether a core has an atomic without a return that is not performed (R165). -/
def State.commPending (s : State) (core : Nat) : Bool :=
  s.dev.flights.any fun f => f.by core && f.comm && !f.done

end Sys2Proof.Machine
end

