-- ==== Sys2Proof/Machine/Operands.lean ====
section
/-!
DEFINITION. Operand forms: fat pointers and their checks in order (R7 to R25), mesh addresses (R18 to R24), translation (R81 to R88),
coordinate words (R331), and the register groups that vector operands name (R65, R276).
-/

namespace Sys2Proof.Machine

/-! ## Fat pointers -/

/-- A pointer's format code (R7). -/
def fmtOf (p : Word) : Nat := p.toNat / 2 ^ 59

/-- A pointer's block length in elements (R7). -/
def blockLen (p : Word) : Nat := 2 ^ (p.toNat / 2 ^ 56 % 8 + 4)

/-- A pointer's tag. -/
def tagOf (p : Word) : Nat := p.toNat / 2 ^ 56

/-- Whether a pointer names mesh space (R12). -/
def isMesh (p : Word) : Bool := bit p 55

/-- Pointer addition or subtraction (R10): the result, and whether it leaves the pointer's space. -/
def ptrArith (sub : Bool) (a b : Word) : Word × Bool :=
  let sum := if sub then a - b else a + b
  if tagOf a = 0 then (sum, false)
  else
    let r := (a &&& 0xFF00000000000000#64) ||| (sum &&& 0x00FFFFFFFFFFFFFF#64)
    (r, bit r 55 != bit a 55)

/-- AddPtr and SubPtr with their trap (R10, R300). -/
def ptrResult (sub : Bool) (a b : Word) : Act Word :=
  let (r, out) := ptrArith sub a b
  if out then trap cPtrRange r else pure r

/-- A pointer advanced by n bytes, keeping its tag: how a rule's address arithmetic moves a pointer. -/
def ptrAt (p : Word) (n : Nat) : Word := (ptrArith false p (BitVec.ofNat 64 n)).1

/-! ## Who makes an access, and of what kind -/

/-- Kinds of access (R84): an atomic is both a load and a store. -/
inductive Acc where
  | load | store | rmw | fetch
  deriving DecidableEq, Repr

/-- The party an access is made for: a core (none for the distributor), its partition, the address space, the privilege. -/
structure Who where
  core  : Option Nat
  mgmt  : Bool
  part  : BitVec 6
  kptb  : Word
  level : Level
  deriving DecidableEq, Repr

/-- The core in focus as the party. -/
def State.who (s : State) : Who :=
  { core := some s.core.id, mgmt := s.core.mgmt, part := s.core.part, kptb := s.core.kptb, level := s.core.level }

/-- A check or an access that may fail with a cause and its information. -/
abbrev Chk := EStateM (Nat × Word) State

def failWith {α : Type} (cause : Nat) (info : Word) : Chk α := throw (cause, info)

/-- A check as part of an instruction: a failure is its trap. -/
def liftChk {α : Type} (c : Chk α) : Act α := fun s =>
  match c s with
  | .ok a t => .ok a t
  | .error (n, info) t => .error (.trap n info .here) t

/-- What a check answers, and the state it leaves. -/
def runChk {α : Type} (c : Chk α) (s : State) : Except (Nat × Word) α × State :=
  match c s with
  | .ok a t => (.ok a, t)
  | .error e t => (.error e, t)

/-! ## Mesh space (R18 to R24) -/

/-- The partition of a number. -/
def State.part? (s : State) (n : BitVec 6) : Option PartConfig := s.dev.parts.find? fun p => p.number == n

/-- The physical core at logical coordinates of a partition (R21, R24). -/
def partCoreAt (p : PartConfig) (die row col : Nat) : Option Nat :=
  if die < p.dies ∧ row < p.height ∧ col < p.width then
    let rows := if die = 0 then p.rows0 else p.rows1
    match rows[row / 4]? with
    | none => none
    | some r => some ((p.die0 + die) * 2496 + (r * 4 + row % 4) * 48 + p.col0 + col)
  else none

/-- The core that die, row and column name for a party; row and column are not both 63 (R20, R21, R469). -/
def State.coreNamed (s : State) (w : Who) (die row col : Nat) : Option Nat :=
  if w.mgmt then
    if row ≤ 51 ∧ col ≤ 47 then some (die * 2496 + row * 48 + col) else none
  else
    match s.part? w.part with
    | none => none
    | some p => partCoreAt p die row col

/-- Whether a granule is scratchpad of a core's active context, or of one switched out or parked there, whose scratchpad stays reachable (R23,
R69, R77, log 108). -/
def State.isScratch (s : State) (core g : Nat) : Bool :=
  let inPpw (p : Word) : Bool := decide (bits p 32 8 ≤ g ∧ g < bits p 32 8 + bits p 40 8)
  match s.coreById core with
  | none => false
  | some c => inPpw c.ctx.ppw || c.residents.any fun r => r.parked && inPpw r.ppw

/-- The key of n bytes at a mesh address, or none where the access traps ACCESS (R18 to R23). -/
def State.meshKey (s : State) (w : Who) (p : Word) (n : Nat) : Option Nat :=
  let kind := bits p 53 2
  let die := bits p 52 1
  let row := bits p 46 6
  let col := bits p 40 6
  let off := bits p 0 40
  let target := if row = 63 ∧ col = 63 then (if w.mgmt then none else w.core)
    else if row = 63 ∨ col = 63 then none else s.coreNamed w die row col
  match target with
  | none => none
  | some t =>
    if kind = 0 then
      if off + n ≤ 0x60000 then
        let granules := List.range ((off + n - 1) / 4096 + 1 - off / 4096)
        if w.level = .u ∧ !(granules.all fun i => s.isScratch t (off / 4096 + i)) then none else some (poolKey t off)
      else none
    else if kind = 1 then
      if off + n ≤ 0x200000 ∧ t < 4992 then some (clusterKey (clusterOfId t) off) else none
    else none

/-! ## Translation (R81 to R88) -/

/-- The cause of a page fault of an access (R84). -/
def Acc.pageCause : Acc → Nat
  | .load => cLoadPage | .store => cStorePage | .rmw => cStorePage | .fetch => cFetchPage

/-- Whether an access stores. -/
def Acc.stores : Acc → Bool
  | .store => true | .rmw => true | .load => false | .fetch => false

/-- Whether an entry's permissions (bits [7:1] of the entry: R, W, X, U, G, A, D) admit an access at a level (R84). -/
def permits (perm : BitVec 7) (level : Level) (acc : Acc) : Bool :=
  let kind := match acc with
    | .load => perm.getLsbD 0
    | .store => perm.getLsbD 1
    | .rmw => perm.getLsbD 0 && perm.getLsbD 1
    | .fetch => perm.getLsbD 2
  kind && (level != .u || perm.getLsbD 3)

/-- Whether an entry translates an address in an address space (R86). -/
def TlbEntry.holds (e : TlbEntry) (asid : BitVec 16) (va : Nat) : Bool :=
  (e.global || e.asid == asid) && decide (e.base ≤ va ∧ va < e.base + e.size)

/-- The cluster whose TLB serves a core. -/
def clusterTlb (s : State) (core : Nat) : List TlbEntry :=
  match s.dev.clusters.find? fun c => c.id == clusterOfId core with
  | none => []
  | some c => c.tlb

/-- Changes the shared state of a core's cluster, adding a record of it where there is none yet. -/
def State.modCluster (s : State) (id : Nat) (f : Cluster → Cluster) : State :=
  if s.dev.clusters.any fun c => c.id == id then
    s.modDev fun d => { d with clusters := d.clusters.map fun c => if c.id = id then f c else c }
  else s.modDev fun d => { d with clusters := d.clusters ++ [f { id := id, tlb := [], words := [] }] }

/-- The entry of the TLBs that serves an access of a core (R85, R86). -/
def State.tlbFind (s : State) (w : Who) (va : Nat) (stores : Bool) : Option TlbEntry :=
  let asid := BitVec.ofNat 16 (bits w.kptb 48 16)
  let serves (e : TlbEntry) : Bool := e.holds asid va && (!stores || e.perm.getLsbD 6)
  match w.core with
  | none => none
  | some n =>
    match s.coreById n with
    | none => none
    | some c =>
      match c.tlb.find? serves with
      | some e => some e
      | none => if w.mgmt then none else (clusterTlb s n).find? serves

/-- A translation enters the TLBs, which drop their oldest entries beyond their sizes (R86, log 4). -/
def State.tlbFill (s : State) (w : Who) (e : TlbEntry) : State :=
  match w.core with
  | none => s
  | some n =>
    let keep (old : List TlbEntry) : List TlbEntry :=
      old.filter fun d => !(d.base == e.base && d.size == e.size && d.asid == e.asid && d.global == e.global)
    let s := s.modCoreId n fun c => { c with tlb := (e :: keep c.tlb).take 32 }
    if w.mgmt then s else s.modCluster (clusterOfId n) fun c => { c with tlb := (e :: keep c.tlb).take 4096 }

/-- KINFO of a page fault (R239). -/
def pageInfo (tag level : Nat) (mal : Bool) (va : Nat) : Word :=
  BitVec.ofNat 64 (tag * 2 ^ 56 + level * 2 ^ 54 + (if mal then 2 ^ 53 else 0) + va)

/-- The walker's OR of A, and of D on a store, into an entry at its home (R85). -/
def walkerUpdate (ea : Nat) (e : Word) (stores : Bool) : Chk Word := do
  let new := e ||| 0x40 ||| (if stores then 0x80 else 0)
  if new ≠ e then modify fun s => s.poke ea (leBytes 8 new.toNat)
  return new

/-- A page-table entry read by the walker, which meets an uncorrectable error as a load does (R80). -/
def walkerRead (fetch : Bool) (ea : Nat) : Chk Word := do
  match (← get).dev.badWord ea 8 with
  | some w => failWith cEccUncorr (setBit (← modifyGet fun s => s.meetError w) 63 fetch)
  | none => return BitVec.ofNat 64 ((← get).peekNat ea 8)

/-- Bytes that a leaf at a level maps (R82). -/
def leafSize (level : Nat) (span : Bool) : Nat := if span then 2 ^ 34 else 2 ^ (12 + 9 * level)

/-- A leaf met by a walk: its checks, the walker's update and the translation it yields (R83 to R85). -/
def walkLeaf (acc : Acc) (asid : BitVec 16) (tag va level table : Nat) (ea : Nat) (e : Word) : Chk TlbEntry := do
  let bad {α : Type} : Chk α := failWith acc.pageCause (pageInfo tag level true va)
  let span := bit e 9
  if level = 3 ∨ (span ∧ level ≠ 2) then bad
  let size := leafSize level span
  let pa := bits e 12 40 * 4096
  if pa % size ≠ 0 then bad
  if span then
    let first := table + 8 * (va / 2 ^ 30 % 512 / 16 * 16)
    let group ← (List.range 16).mapM fun i => walkerRead (acc == .fetch) (first + 8 * i)
    if !(group.all fun w => (w ^^^ e) &&& ~~~0xC0#64 == 0#64) then bad
  let new ← walkerUpdate ea e acc.stores
  return { asid := asid, global := bit e 5, base := va / size * size, size := size, pa := pa, perm := (new >>> 1).setWidth 7 }

/-- The walk from a table at a level down (R82 to R84). -/
def walkFrom (acc : Acc) (asid : BitVec 16) (tag va : Nat) : Nat → Nat → Chk TlbEntry
  | level, table => do
    let ea := table + 8 * (va / 2 ^ (12 + 9 * level) % 512)
    let cached := (← get).dev.walkCache.find? fun c => c.1 == ea
    let e ← match cached with
      | some c => pure c.2
      | none => walkerRead (acc == .fetch) ea
    if bit e 0 = false then failWith acc.pageCause (pageInfo tag level false va)
    if bits e 52 12 ≠ 0 ∨ bits e 10 2 ≠ 0 then failWith acc.pageCause (pageInfo tag level true va)
    if bit e 8 then walkLeaf acc asid tag va level table ea e
    else
      let next := bits e 12 40 * 4096
      if bits e 1 9 ≠ 0 ∨ localBytes ≤ next then failWith acc.pageCause (pageInfo tag level true va)
      match level with
      | 0 => failWith acc.pageCause (pageInfo tag 0 true va)
      | below + 1 =>
        modify fun s => s.modDev fun d => { d with walkCache := if cached.isSome then d.walkCache else (ea, e) :: d.walkCache }
        walkFrom acc asid tag va below next

/-- A page walk (R84): it fills the TLBs or faults. -/
def pageWalk (w : Who) (acc : Acc) (tag va : Nat) : Chk TlbEntry := do
  let root := bits w.kptb 0 40 * 4096
  if localBytes ≤ root then failWith acc.pageCause (pageInfo tag 3 true va)
  let e ← walkFrom acc (BitVec.ofNat 16 (bits w.kptb 48 16)) tag va 3 root
  modify fun s => s.tlbFill w e
  return e

/-- The fixed map of a management core with KPTB = 0 (R466): the key, or none where the access traps ACCESS. -/
def fixedMap (level : Level) (acc : Acc) (va : Nat) : Option Nat :=
  if va < localBytes then some va
  else if 0xFFFF_0000_0000 ≤ va ∧ va < 0xFFFF_0010_0000 ∧ level = .f ∧ acc.stores = false then some (romKey (va - 0xFFFF_0000_0000))
  else none

/-- Check 5 of R25: the key of a physical address, or none where it names no byte (R15, R16, R464). -/
def Dev.paKey (d : Dev) (pa : Nat) : Option Nat :=
  if pa < 2 ^ 50 then (if pa < localBytes then some pa else none)
  else if pa < 2 ^ 51 then (if pa / 2 ^ 48 % 4 = 0 then some pa else none)
  else
    let index := pa / 2 ^ 40 % 2 ^ 11
    let off := pa % 2 ^ 40
    if 288 ≤ index ∨ localBytes ≤ off then none
    else if index = d.podidx.toNat then some off
    else if d.pod.getLsbD index = false ∨ d.portDown.getLsbD (pa / 2 ^ 7 % 16) then none
    else some pa

/-- Whether the port of a line of a range in the peer window is down (R16, R464). -/
def Dev.linesDown (d : Dev) (pa n : Nat) : Bool :=
  decide (2 ^ 51 ≤ pa) && decide (pa / 2 ^ 40 % 2 ^ 11 ≠ d.podidx.toNat) &&
    (List.range (min 16 (lineOf (pa + n - 1) + 1 - lineOf pa))).any fun i => d.portDown.getLsbD ((lineOf pa + i) % 16)

/-- Translation of one address with its permission check, to a physical address or the key of the fixed map (R25 check 4). -/
def translate (w : Who) (acc : Acc) (p : Word) : Chk (Nat ⊕ Nat) := do
  let va := bits p 0 48
  if w.mgmt ∧ w.kptb = 0 then
    match fixedMap w.level acc va with
    | none => failWith cAccess p
    | some k => return .inr k
  else
    let s ← get
    let e ← match s.tlbFind w va acc.stores with
      | some e => pure e
      | none => pageWalk w acc (if acc = .fetch then 0 else tagOf p) va
    if !(permits e.perm w.level acc) then failWith cAccess p
    return .inl (e.pa + (va - e.base))

/-- Whether an address is a multiple of a width: the offset in mesh space, the virtual address elsewhere. -/
def alignedTo (p : Word) (a : Nat) : Bool := bits p 0 40 % a == 0

/-- Checks 2 to 5 of R25 for n bytes on one page, aligned to a: the key of the first byte. -/
def resolve (w : Who) (acc : Acc) (p : Word) (n a : Nat) : Chk Nat := do
  if isMesh p = false ∧ bits p 48 7 ≠ 0 then failWith cNoncanon p
  if !(alignedTo p a) then failWith cMisaligned p
  if isMesh p then
    match (← get).meshKey w p n with
    | none => failWith cAccess p
    | some k => return k
  else
    match (← translate w acc p) with
    | .inr k => return k
    | .inl pa => match (← get).dev.paKey pa with
      | none => failWith cAccess p
      | some k => return k

/-- The pieces of a range of n bytes that lie on one 4 KiB page each: offset from the start and length. -/
def pagePieces (start n : Nat) : List (Nat × Nat) :=
  let first := min n (4096 - start % 4096)
  let rest := n - first
  (if n = 0 then [] else [(0, first)]) ++
    (List.range ((rest + 4095) / 4096)).map fun i => (first + 4096 * i, min 4096 (rest - 4096 * i))

/-- Check 4 of R25 for each page of a range in device virtual memory: the lowest-addressed byte on a page that fails is reported. -/
def translatePieces (w : Who) (acc : Acc) (p : Word) (ps : List (Nat × Nat)) : Chk (List ((Nat ⊕ Nat) × Nat)) :=
  ps.mapM fun (o, len) => do
    let s ← get
    match runChk (translate w acc (p + BitVec.ofNat 64 o)) s with
    | (.ok t, s') => set s'; return (t, len)
    | (.error (c, info), s') =>
      set s'
      failWith c (if c = cAccess then p else info)

/-- Checks 2 to 5 of R25 for n bytes aligned to a, on any number of pages: keys and lengths of the pieces. A span that starts below 2^48 and runs
past it fails check 2 with the pointer of its start, before any translation (the model's choice, log 122). -/
def resolveSpan (w : Who) (acc : Acc) (p : Word) (n a : Nat) : Chk (List (Nat × Nat)) := do
  if isMesh p = false ∧ bits p 48 7 ≠ 0 then failWith cNoncanon p
  if !(alignedTo p a) then failWith cMisaligned p
  if isMesh p then
    match (← get).meshKey w p n with
    | none => failWith cAccess p
    | some k => return [(k, n)]
  else
    let last := bits p 0 48 + n
    if 2 ^ 48 < last then failWith cNoncanon p
    let ts ← translatePieces w acc p (pagePieces (bits p 0 48) n)
    ts.mapM fun (t, len) => do
      match t with
      | .inr k => return (k, len)
      | .inl pa => match (← get).dev.paKey pa with
        | none => failWith cAccess p
        | some k => if (← get).dev.linesDown pa len then failWith cAccess p else return (k, len)

/-- Check 1 of R25 for an access that is not scalar: a reserved format code traps FORMAT. -/
def checkFormat (p : Word) : Chk Unit := if 23 ≤ fmtOf p then failWith cFormat p else pure ()

/-- Check 1 of R25 for a scalar access: format codes 0 to 9 only (R9). -/
def checkScalar (p : Word) : Chk Unit := if 10 ≤ fmtOf p then failWith cFormat p else pure ()

/-! ## Coordinate words (R331) -/

/-- The core that a coordinate word names, checked against the party's partition. -/
def coordCore (w : Who) (v : Word) : Chk Nat := do
  let row := bits v 8 6
  let col := bits v 0 6
  if row = 63 ∧ col = 63 then
    match w.core with
    | some n => return n
    | none => failWith cAccess v
  else if row = 63 ∨ col = 63 then failWith cAccess v
  else match (← get).coreNamed w (bits v 16 1) row col with
    | none => failWith cAccess v
    | some n => return n

/-! ## Register groups (R65, R276, R358) -/

/-- Every register of a group lies below VREGS. -/
def Ctx.hasV (c : Ctx) (r : Reg) (n : Nat) : Bool := decide (r.toNat + n ≤ c.vregs)

/-- A bit-stream register lies below BREGS. -/
def Ctx.hasB (c : Ctx) (r : BitVec 4) : Bool := decide (r.toNat < c.bregs)

/-- The value of a group: register r lowest (R358). -/
def Ctx.getGroup (c : Ctx) (r : Reg) : Nat → Nat
  | 0 => 0
  | n + 1 => c.getGroup r n + (c.getV (r.toNat + n)).toNat * 2 ^ (512 * n)

/-- Writes a group. -/
def Ctx.setGroup (c : Ctx) (r : Reg) (v : Nat) : Nat → Ctx
  | 0 => c
  | n + 1 => (c.setGroup r v n).setV (r.toNat + n) (BitVec.ofNat 512 (v / 2 ^ (512 * n)))

/-- Lane i of a value with lanes of b bits. -/
def lane (v b i : Nat) : Nat := v / 2 ^ (b * i) % 2 ^ b

/-- The value whose lanes are a list, lowest first. -/
def ofLanes (b : Nat) : List Nat → Nat
  | [] => 0
  | x :: xs => x % 2 ^ b + 2 ^ b * ofLanes b xs

/-- The lanes of a value. -/
def lanes (v b n : Nat) : List Nat := (List.range n).map (lane v b)

/-! ## The pool partition word (R60 to R62) -/

def ppwWsBase (p : Word) : Nat := bits p 0 8
def ppwWsCount (p : Word) : Nat := bits p 8 8
def ppwAcBase (p : Word) : Nat := bits p 16 8
def ppwAcCount (p : Word) : Nat := bits p 24 8
def ppwSpBase (p : Word) : Nat := bits p 32 8
def ppwSpCount (p : Word) : Nat := bits p 40 8
def ppwAcn (p : Word) : Nat := bits p 49 4
def ppwWtn (p : Word) : Nat := bits p 53 3

/-- Granules of accumulator storage for a accumulator tiles and w weight tiles (R61). -/
def accGranules (a w : Nat) : Nat := 4 * a + (4608 * w + 4095) / 4096

/-- Two runs of granules, given by base and count, have none in common. -/
def runsApart (b1 n1 b2 n2 : Nat) : Bool := n1 == 0 || n2 == 0 || decide (b1 + n1 ≤ b2 ∨ b2 + n2 ≤ b1)

/-- A well-formed PPW (R61). -/
def ppwWellFormed (p : Word) : Bool :=
  bit p 48 && decide (ppwWsBase p + ppwWsCount p ≤ 96 ∧ ppwAcBase p + ppwAcCount p ≤ 96 ∧ ppwSpBase p + ppwSpCount p ≤ 96)
  && runsApart (ppwWsBase p) (ppwWsCount p) (ppwAcBase p) (ppwAcCount p)
  && runsApart (ppwWsBase p) (ppwWsCount p) (ppwSpBase p) (ppwSpCount p)
  && runsApart (ppwAcBase p) (ppwAcCount p) (ppwSpBase p) (ppwSpCount p)
  && decide (1 ≤ ppwWsCount p) && decide (ppwAcn p ≤ 8 ∧ ppwWtn p ≤ 4)
  && ppwAcCount p == accGranules (ppwAcn p) (ppwWtn p) && bits p 56 8 == 0

/-- A PPW of three runs (R60, R62). -/
def makePpw (ws wsn ac acn sp spn acTiles wtTiles : Nat) : Word :=
  BitVec.ofNat 64 (ws + wsn * 2 ^ 8 + ac * 2 ^ 16 + acn * 2 ^ 24 + sp * 2 ^ 32 + spn * 2 ^ 40 + 2 ^ 48 + acTiles * 2 ^ 49 + wtTiles * 2 ^ 53)

/-- Vector registers allocated for so many declared ones (R62). -/
def vregsAllocated (vregs : Nat) : Nat := (vregs + 3) / 4 * 4

/-- The size of a workspace (R64). -/
def workspaceBytes (vregs bregs : Nat) : Nat := 1024 + 64 * vregsAllocated vregs + 512 * bregs

/-- A workspace lies inside its workspace granules (R64, R68). -/
def workspaceFits (p : Word) (wp : BitVec 19) (vregs bregs : Nat) : Bool :=
  decide (ppwWsBase p * 4096 ≤ wp.toNat ∧ wp.toNat + workspaceBytes vregs bregs ≤ (ppwWsBase p + ppwWsCount p) * 4096)

/-- Whether a PPW is such as activation accepts for a context at a WP: well formed, and with the workspace inside its granules (R61, R68). -/
def ppwActivates (p : Word) (wp : BitVec 19) (vregs bregs : Nat) : Bool := ppwWellFormed p && workspaceFits p wp vregs bregs

end Sys2Proof.Machine
end

