-- ==== Sys2Proof/Machine/Access.lean ====
section
/-!
DEFINITION. A core's own accesses (R26 to R30, R159): loads, stores, the waits of fences (R164, R165) and the discarding of prefetched
stream pieces.
-/

namespace Sys2Proof.Machine

/-- Whether the core in focus has a quantum atomic to a line of a range that is not performed: its later access to the line is performed
after it (R163). A multicast store of the core to the line is left unordered with its other writes and loads there: R158 orders it by fences alone (R161; the
model's choice, log 144). -/
def State.quantumOn (s : State) (key n : Nat) : Bool :=
  s.dev.bcasts.any fun b => b.core == s.core.id && (match b.op with
    | .quantum home _ _ => decide (lineOf key ≤ lineOf home ∧ lineOf home ≤ lineOf (key + n - 1))
    | .mcast _ _ _ => false)

/-- A load by the core in focus at its home: its own earlier accesses to the lines are performed first (R161, R162), and an uncorrectable error
traps (R80). -/
def homeRead (key n : Nat) : Act (List Byte) := do
  if (← get).quantumOn key n then holdFor .retry
  modify fun s => s.drainLines s.core.id key n s.dev.seq
  match (← get).dev.badWord key n with
  | some w => trap cEccUncorr (← modifyGet fun s => s.meetError w)
  | none => return (← get).peek key n

/-- The parts of a range that lie in one line each. -/
def lineParts : Nat → Nat → Nat → List (Nat × Nat)
  | 0, _, _ => []
  | fuel + 1, key, n =>
    if n = 0 then []
    else
      let first := min n (lineBytes - key % lineBytes)
      (key, first) :: lineParts fuel (key + first) (n - first)

/-- A load of a part of a line whose home is off the device leaves the core, which holds until it has come and then goes on with its instruction
(R26, R29, R464). -/
def farRead (key n : Nat) : Act (List Byte) := do
  match (← get).core.arrived.find? fun a => a.key == key && a.bytes.length == n with
  | some a => match a.error with
    | some info => trap cEccUncorr info
    | none => return a.bytes
  | none =>
    modCore fun c => { c with out := some { word := none, home := key, width := n, value := none, failed := false } }
    holdFor .completes

/-- A load by the core in focus (R26, R80, R161, R162). -/
def coreRead (key n : Nat) : Act (List Byte) := do
  if (regionOf key).offDevice then
    let bs ← (lineParts (n / lineBytes + 2) key n).mapM fun p => farRead p.1 p.2
    return bs.flatten
  else homeRead key n

/-- A load of several pieces. -/
def coreReadSpan (ps : List (Nat × Nat)) : Act (List Byte) := do
  let bs ← ps.mapM fun (k, n) => coreRead k n
  return bs.flatten

/-- A load of a little-endian value. -/
def coreReadNat (key n : Nat) : Act Nat := do return leNat (← coreRead key n)

/-- A store counts in UNACK unless it is to the core's own pool (R26). -/
def State.isRemote (s : State) (key : Nat) : Bool := regionOf key != .pool s.core.id

/-- Holds the core while UNACK leaves no room for n more stores (R28). -/
def roomFor (n : Nat) : Act Unit := do
  if 256 < (← get).core.unack + n then holdFor .retry

/-- The pieces of a store that lie in one line each. -/
def linePieces : Nat → List Byte → Nat → List (Nat × List Byte)
  | _, [], _ => []
  | key, bs, fuel + 1 =>
    let n := lineBytes - key % lineBytes
    (key, bs.take n) :: linePieces (key + n) (bs.drop n) fuel
  | _, _, 0 => []

/-- Stores bytes that the checks have passed: at once in the core's own pool, behind the core's own earlier accesses to the line, else on
their way to their home (R26, R161). -/
def storePiece (append : Bool) (p : Nat × List Byte) : Act Unit :=
  modify fun s => if s.isRemote p.1 then s.launchFlight p.1 (.store p.2) false append none
    else s.pokeOwn p.1 p.2

/-- Whether a store of the core in focus waits at issue for a quantum atomic of the core to the line: one to its own pool, which retires once it is
performed (R26, R163). -/
def State.storeHeld (s : State) (key n : Nat) : Bool := !(s.isRemote key) && s.quantumOn key n

/-- The stores of one instruction, each in one line: none leaves the core before all may (R26, R28, R365). -/
def coreWriteLines (append : Bool) (lines : List (Nat × List Byte)) : Act Unit := do
  let s ← get
  if lines.any fun p => s.storeHeld p.1 p.2.length then holdFor .retry
  roomFor (lines.filter fun p => s.isRemote p.1).length
  lines.forM (storePiece append)

/-- Stores of one instruction that may be more than UNACK has room for: one after the other in program order, each once there is room. The core
holds meanwhile, and completes them before it takes an interrupt (R28, R160, log 119). -/
def storesInTurn : List (Nat × List Byte) → Act Unit
  | [] => return ()
  | p :: ps => do
    let s ← get
    if s.storeHeld p.1 p.2.length || (s.isRemote p.1 && 256 ≤ s.core.unack) then
      modCore fun c => { c with listing := some (p :: ps) }
      holdFor .completes
    storePiece false p
    storesInTurn ps

/-- Stores bytes at a key. -/
def coreWrite (key : Nat) (bs : List Byte) : Act Unit := coreWriteLines false (linePieces key bs (bs.length / lineBytes + 2))

/-- The stores of bytes to pieces that may lie on several pages. -/
def spanLines : List (Nat × Nat) → List Byte → List (Nat × List Byte)
  | [], _ => []
  | (k, n) :: ps, bs => linePieces k (bs.take n) (n / lineBytes + 2) ++ spanLines ps (bs.drop n)

/-- Stores pieces that may lie on several pages. -/
def coreWriteSpan (append : Bool) (ps : List (Nat × Nat)) (bs : List Byte) : Act Unit := coreWriteLines append (spanLines ps bs)

/-- Pieces that a core's instruction loads from off the device have passed their checks. -/
def State.notePassed (s : State) (ps : List (Nat × Nat)) : State :=
  let far := ps.filter fun p => (regionOf p.1).offDevice && !(s.core.passed.contains p)
  if far.isEmpty then s else s.modCore fun c => { c with passed := c.passed ++ far }

/-- Whether pieces have passed their checks for an instruction of which a line has come: they are accesses that have left the core. -/
def State.haveLeft (s : State) (ps : List (Nat × Nat)) : Bool :=
  !s.core.arrived.isEmpty && ps.all fun p => !(regionOf p.1).offDevice || s.core.passed.contains p

/-- The checks of a load's pieces, made again where the instruction holds for a line off the device: a load that has passed them once has left the
core, and a port that failed since ends it by ECC_UNCORR; one that it has still to make fails here (R464, log 136). -/
def asLeft (c : Chk (List (Nat × Nat))) : Chk (List (Nat × Nat)) := fun s =>
  match c s with
  | .ok ps t => .ok ps (t.notePassed ps)
  | .error e t =>
    match c (s.modDev fun d => { d with portDown := 0 }) with
    | .ok ps u => if s.haveLeft ps then .ok ps (u.modDev fun d => { d with portDown := s.dev.portDown }) else .error e t
    | .error _ _ => .error e t

/-- A scalar access's pointer checked for the core in focus (R9, R25). -/
def scalarKey (acc : Acc) (p : Word) (n : Nat) : Act Nat := do
  let w := (← get).who
  liftChk (do checkScalar p; resolve w acc p n n)

/-- A pointer to plain or block data checked for the core in focus, for n bytes aligned to a. -/
def spanKeys (acc : Acc) (p : Word) (n a : Nat) : Act (List (Nat × Nat)) := do
  let w := (← get).who
  let c : Chk (List (Nat × Nat)) := do checkFormat p; resolveSpan w acc p n a
  liftChk (if acc.stores then c else asLeft c)

/-- A load of n bytes through a pointer, with its checks: alignment to a. -/
def loadBytes (p : Word) (n a : Nat) : Act (List Byte) := do coreReadSpan (← spanKeys .load p n a)

/-- A load of n bytes that no instruction makes: a piece that a stream fetches ahead, or the header that an activation reads (R140, R403). -/
def fetchBytes (p : Word) (n a : Nat) : Act (List Byte) := do
  let w := (← get).who
  let ps ← liftChk (do checkFormat p; resolveSpan w .load p n a)
  let bs ← ps.mapM fun (k, n) => homeRead k n
  return bs.flatten

/-- A store of bytes through a pointer, with its checks. -/
def storeBytes (p : Word) (bs : List Byte) (a : Nat) : Act Unit := do
  coreWriteSpan false (← spanKeys .store p bs.length a) bs

/-- Whether the core has stream appends that are not performed (R140, R164). -/
def State.appendsPending (s : State) : Bool := s.dev.flights.any fun f => f.core == s.core.id && f.append && !f.done

/-- What a release waits for, at a scope (R164). -/
def State.releaseMet (s : State) (scope : Scope) : Bool :=
  match scope with
  | .core => !s.appendsPending
  | .gang => if s.core.ctx.gangMode = 0 then !s.appendsPending else !s.deviceWrites s.core.id && !s.appendsPending
  | .sys => s.core.unack == 0
  | _ => !s.deviceWrites s.core.id && !s.appendsPending

/-- A release fence: holds the core until its waits are met (R165). -/
def releaseFence (scope : Scope) : Act Unit := do
  let s ← get
  if !(s.releaseMet scope) || s.commPending s.core.id then holdFor .retry

/-- An acquire fence: holds until every read-like access has returned, and discards prefetched stream pieces (R165). -/
def acquireFence : Act Unit := do
  if (← get).resultsPending then holdFor .retry
  modCtx fun c => { c with pieces := [] }

/-- Sign- or zero-extends a loaded value (R308). -/
def extendTo64 (signed : Bool) (n v : Nat) : Word :=
  if signed then (BitVec.ofNat (8 * n) v).signExtend 64 else BitVec.ofNat 64 v

/-- An access that holds its core and whose home is off the device leaves the core: it returns later (R26, R29). -/
def leaveFor (i : Instr) (key n : Nat) : Act Flow := do
  modCore fun c => { c with out := some { word := some (wordOf i), home := key, width := n, value := none, failed := false } }
  holdFor .load

end Sys2Proof.Machine
end

