-- ==== Sys2Proof/Machine/Flags.lean ====
section
/-!
DEFINITION. Floating point (R35 to R39): formats, rounding with its flags, and the operations that the vector unit, the matrix engine, the
rule unit and the port expander share; and FSTAT (R36).
-/

namespace Sys2Proof.Machine

/-! ## FSTAT (R36) -/

/-- Rounding modes (R36). -/
inductive Rm where
  | rne | rtz | rup | rdn
  deriving DecidableEq, Repr

/-- FSTAT.RM; a reserved code never stands there (R36). -/
def Ctx.rm (c : Ctx) : Rm :=
  match c.fstat.toNat / 32 % 8 with
  | 1 => .rtz
  | 2 => .rup
  | 3 => .rdn
  | _ => .rne

/-- Exception flags: NV 16, DZ 8, OF 4, UF 2, NX 1 (R36). -/
abbrev Flg := BitVec 5

def flagNV : Flg := 16
def flagDZ : Flg := 8
def flagOF : Flg := 4
def flagUF : Flg := 2
def flagNX : Flg := 1

/-- ORs exception flags into FSTAT (R37). -/
def Ctx.orFlags (c : Ctx) (f : Flg) : Ctx := { c with fstat := c.fstat ||| f.setWidth 9 }

/-- FSTAT after a CSR write of v: a result with a reserved rounding mode leaves RM as it was (R36). -/
def fstatWrite (old v : BitVec 9) : BitVec 9 :=
  if 4 ≤ v.toNat / 32 % 8 then (v &&& 0x11F) ||| (old &&& 0x0E0) else v

/-! ## Formats -/

/-- A binary format: exponent bits and fraction bits. -/
structure Fmt where
  eb : Nat
  fb : Nat
  deriving DecidableEq, Repr

def fmtHF : Fmt := { eb := 5, fb := 10 }
def fmtBF : Fmt := { eb := 8, fb := 7 }
def fmtSF : Fmt := { eb := 8, fb := 23 }

/-- Exponent bias. -/
def Fmt.bias (f : Fmt) : Nat := 2 ^ (f.eb - 1) - 1

/-- Width in bits. -/
def Fmt.width (f : Fmt) : Nat := 1 + f.eb + f.fb

/-- A datum: NaN, infinity, or (-1)^neg × m × 2^e. -/
inductive FVal where
  | nan (signalling : Bool)
  | inf (neg : Bool)
  | fin (neg : Bool) (m : Nat) (e : Int)
  deriving DecidableEq, Repr

/-- The datum of a bit pattern. -/
def Fmt.decode (f : Fmt) (v : Nat) : FVal :=
  let neg := v / 2 ^ (f.eb + f.fb) % 2 == 1
  let ex := v / 2 ^ f.fb % 2 ^ f.eb
  let fr := v % 2 ^ f.fb
  if ex = 2 ^ f.eb - 1 then
    if fr = 0 then .inf neg else .nan (decide (fr < 2 ^ (f.fb - 1)))
  else if ex = 0 then .fin neg fr (1 - f.bias - f.fb)
  else .fin neg (2 ^ f.fb + fr) (ex - f.bias - f.fb)

/-- The canonical NaN (R38). -/
def Fmt.qnan (f : Fmt) : Nat := (2 ^ f.eb - 1) * 2 ^ f.fb + 2 ^ (f.fb - 1)

/-- The sign bit's value. -/
def Fmt.sign (f : Fmt) (neg : Bool) : Nat := if neg then 2 ^ (f.eb + f.fb) else 0

/-- Infinity. -/
def Fmt.infinity (f : Fmt) (neg : Bool) : Nat := f.sign neg + (2 ^ f.eb - 1) * 2 ^ f.fb

/-- The largest finite magnitude. -/
def Fmt.largest (f : Fmt) (neg : Bool) : Nat := f.sign neg + (2 ^ f.eb - 1) * 2 ^ f.fb - 1

/-- Bits in a number: 0 for 0. -/
def bitLen (n : Nat) : Nat := if n = 0 then 0 else n.log2 + 1

/-- Whether a magnitude q with a dropped remainder rounds up: the remainder's place against half of 2^sh, and whether more was dropped
below it. -/
def roundsUp (rm : Rm) (neg : Bool) (q rem half : Nat) (sticky : Bool) : Bool :=
  match rm with
  | .rne => decide (half < rem) || (decide (rem = half) && (sticky || q % 2 == 1))
  | .rtz => false
  | .rup => !neg && (decide (rem ≠ 0) || sticky)
  | .rdn => neg && (decide (rem ≠ 0) || sticky)

/-- Rounds m × 2^e (with more below it where sticky) to a multiple of 2^q: the multiple and whether it is inexact. Where q is not above e,
nothing of m is dropped and half stands above any remainder. -/
def roundTo (rm : Rm) (neg : Bool) (m : Nat) (e : Int) (sticky : Bool) (q : Int) : Nat × Bool :=
  if q ≤ e then
    let n := m * 2 ^ (e - q).toNat
    (if roundsUp rm neg n 0 1 sticky then n + 1 else n, sticky)
  else
    let sh := (q - e).toNat
    let n := m / 2 ^ sh
    let rem := m % 2 ^ sh
    (if roundsUp rm neg n rem (2 ^ (sh - 1)) sticky then n + 1 else n, decide (rem ≠ 0) || sticky)

/-- What overflow gives (R39, IEEE 754-2019). -/
def Fmt.overflow (f : Fmt) (rm : Rm) (neg : Bool) : Nat :=
  match rm with
  | .rne => f.infinity neg
  | .rtz => f.largest neg
  | .rup => if neg then f.largest neg else f.infinity neg
  | .rdn => if neg then f.infinity neg else f.largest neg

/-- Rounds (-1)^neg × m × 2^e, with a non-zero part below it where sticky, to a format: bits and flags. Tininess is detected after
rounding, and UF is set only when the result is also inexact (R35). A sticky m has at least two bits more than the format keeps. -/
def Fmt.round (f : Fmt) (rm : Rm) (neg : Bool) (m : Nat) (e : Int) (sticky : Bool) : Nat × Flg :=
  if m = 0 then (f.sign neg, 0)
  else
    let top : Int := e + bitLen m - 1
    let emin : Int := 1 - f.bias
    let free := top - f.fb
    let q := max free (emin - f.fb)
    let (n, inexact) := roundTo rm neg m e sticky q
    let (n, q) := if n = 2 ^ (f.fb + 1) then (2 ^ f.fb, q + 1) else (n, q)
    if 2 ^ f.fb ≤ n ∧ (f.bias : Int) < q + f.fb then (f.overflow rm neg, flagOF ||| flagNX)
    else
      let unbounded := (roundTo rm neg m e sticky free).1
      let tiny := decide (top < emin) && !(decide (unbounded = 2 ^ (f.fb + 1)) && decide (top + 1 = emin))
      let bits := if n < 2 ^ f.fb then n else (q + f.fb + f.bias).toNat * 2 ^ f.fb + (n - 2 ^ f.fb)
      (f.sign neg + bits, (if inexact then flagNX else 0) ||| (if tiny && inexact then flagUF else 0))

/-! ## Arithmetic -/

/-- A signed magnitude as an integer. -/
def signed (neg : Bool) (m : Nat) : Int := if neg then -(m : Int) else m

/-- Rounds an exact sum of two dyadic terms; an exact zero of terms that differ in sign is -0 only towards -∞ (IEEE 754-2019). -/
def Fmt.sum (f : Fmt) (rm : Rm) (n1 : Bool) (m1 : Nat) (e1 : Int) (n2 : Bool) (m2 : Nat) (e2 : Int) : Nat × Flg :=
  let e := min e1 e2
  let v := signed n1 m1 * 2 ^ (e1 - e).toNat + signed n2 m2 * 2 ^ (e2 - e).toNat
  if v = 0 then
    let neg := if n1 = n2 then n1 else rm == .rdn
    (f.sign neg, 0)
  else f.round rm (decide (v < 0)) v.natAbs e false

/-- NV for a signalling NaN among the operands (R38). -/
def nanFlags (vs : List FVal) : Flg := if vs.any fun v => v == .nan true then flagNV else 0

/-- Whether a datum is a NaN. -/
def FVal.isNan : FVal → Bool
  | .nan _ => true
  | .inf _ => false
  | .fin _ _ _ => false

/-- Round(a + b). -/
def Fmt.addV (f : Fmt) (rm : Rm) (a b : FVal) : Nat × Flg :=
  match a, b with
  | .fin n1 m1 e1, .fin n2 m2 e2 => f.sum rm n1 m1 e1 n2 m2 e2
  | .inf n1, .inf n2 => if n1 = n2 then (f.infinity n1, 0) else (f.qnan, flagNV)
  | .inf n1, .fin _ _ _ => (f.infinity n1, 0)
  | .fin _ _ _, .inf n2 => (f.infinity n2, 0)
  | a, b => (f.qnan, nanFlags [a, b])

/-- The datum with its sign changed. -/
def FVal.neg : FVal → FVal
  | .nan s => .nan s
  | .inf n => .inf !n
  | .fin n m e => .fin (!n) m e

/-- Round(a × b). -/
def Fmt.mulV (f : Fmt) (rm : Rm) (a b : FVal) : Nat × Flg :=
  match a, b with
  | .fin n1 m1 e1, .fin n2 m2 e2 => f.round rm (n1 != n2) (m1 * m2) (e1 + e2) false
  | .inf n1, .inf n2 => (f.infinity (n1 != n2), 0)
  | .inf n1, .fin n2 m2 _ => if m2 = 0 then (f.qnan, flagNV) else (f.infinity (n1 != n2), 0)
  | .fin n1 m1 _, .inf n2 => if m1 = 0 then (f.qnan, flagNV) else (f.infinity (n1 != n2), 0)
  | a, b => (f.qnan, nanFlags [a, b])

/-- Round(a × b + c), fused; ∞ × 0 sets NV whatever c is (R367). -/
def Fmt.fmaV (f : Fmt) (rm : Rm) (a b c : FVal) : Nat × Flg :=
  let bad : Bool := match a, b with
    | .inf _, .fin _ m _ => m == 0
    | .fin _ m _, .inf _ => m == 0
    | _, _ => false
  if bad then (f.qnan, flagNV)
  else if a.isNan || b.isNan || c.isNan then (f.qnan, nanFlags [a, b, c])
  else
    match a, b, c with
    | .fin n1 m1 e1, .fin n2 m2 e2, .fin n3 m3 e3 => f.sum rm (n1 != n2) (m1 * m2) (e1 + e2) n3 m3 e3
    | .fin _ _ _, .fin _ _ _, .inf n3 => (f.infinity n3, 0)
    | a, b, c =>
      let neg := match a, b with
        | .inf n1, .inf n2 => n1 != n2
        | .inf n1, .fin n2 _ _ => n1 != n2
        | .fin n1 _ _, .inf n2 => n1 != n2
        | _, _ => false
      match c with
      | .inf n3 => if n3 = neg then (f.infinity neg, 0) else (f.qnan, flagNV)
      | _ => (f.infinity neg, 0)

/-- Bits of quotient or root kept beyond a format's precision before the sticky part. -/
def guardBits : Nat := 40

/-- Round(a / b). -/
def Fmt.divV (f : Fmt) (rm : Rm) (a b : FVal) : Nat × Flg :=
  match a, b with
  | .fin n1 m1 e1, .fin n2 m2 e2 =>
    if m2 = 0 then (if m1 = 0 then (f.qnan, flagNV) else (f.infinity (n1 != n2), flagDZ))
    else if m1 = 0 then (f.sign (n1 != n2), 0)
    else
      let sh := guardBits + bitLen m2
      let num := m1 * 2 ^ sh
      f.round rm (n1 != n2) (num / m2) (e1 - e2 - sh) (decide (num % m2 ≠ 0))
  | .inf _, .inf _ => (f.qnan, flagNV)
  | .inf n1, .fin n2 _ _ => (f.infinity (n1 != n2), 0)
  | .fin n1 _ _, .inf n2 => (f.sign (n1 != n2), 0)
  | a, b => (f.qnan, nanFlags [a, b])

/-- Integer square root, by trying bits from a high one down. -/
def isqrtFrom : Nat → Nat → Nat → Nat
  | 0, _, r => r
  | k + 1, n, r => isqrtFrom k n (if (r + 2 ^ k) * (r + 2 ^ k) ≤ n then r + 2 ^ k else r)

/-- Integer square root. -/
def isqrt (n : Nat) : Nat := isqrtFrom (bitLen n / 2 + 1) n 0

/-- Round(1 / √a), with one rounding (R367). -/
def Fmt.rsqrtV (f : Fmt) (rm : Rm) (a : FVal) : Nat × Flg :=
  match a with
  | .nan s => (f.qnan, if s then flagNV else 0)
  | .inf neg => if neg then (f.qnan, flagNV) else (0, 0)
  | .fin neg m e =>
    if m = 0 then (f.infinity neg, flagDZ)
    else if neg then (f.qnan, flagNV)
    else
      let (m, e) := if e % 2 = 0 then (m, e) else (2 * m, e - 1)
      -- 1 / √(m × 2^e) = 2^(-e/2) / √m; the quotient below is 2^(2g) / m rounded down, and its root has g - bitLen m / 2 bits
      let g := guardBits + 2 * bitLen m
      let q := 2 ^ (2 * g) / m
      let r := isqrt q
      let exact := decide (r * r * m = 2 ^ (2 * g))
      f.round rm false r (-(e / 2) - g) !exact

/-- Fixed-point places of the exponential. -/
def expPlaces : Nat := 200

/-- ln 2 in fixed point of expPlaces, by the series Σ 1 / (k 2^k). -/
def ln2Fixed : Nat := ((List.range 210).map fun k => 2 ^ expPlaces / ((k + 1) * 2 ^ (k + 1))).foldl (· + ·) 0

/-- The sum of n terms of e^x in fixed point from term t = x^k / k! on. -/
def expTerms : Nat → Nat → Nat → Nat → Nat
  | 0, _, _, _ => 0
  | n + 1, x, k, t => t + expTerms n x (k + 1) (t * x / 2 ^ expPlaces / (k + 1))

/-- 2^(r / 2^p) in fixed point of expPlaces, for r below 2^p: between 1 and 2, in error by far less than its last 64 places. -/
def exp2Fixed (r p : Nat) : Nat := expTerms 48 (r * ln2Fixed / 2 ^ p) 0 (2 ^ expPlaces)

/-- Round(2^a), with one rounding (R367). No non-integer a of these formats lies near enough to a rounding boundary for the fixed-point
value to stand on its wrong side (log 21). -/
def Fmt.exp2V (f : Fmt) (rm : Rm) (a : FVal) : Nat × Flg :=
  match a with
  | .nan s => (f.qnan, if s then flagNV else 0)
  | .inf neg => if neg then (0, 0) else (f.infinity false, 0)
  | .fin neg m e =>
    if m = 0 then f.round rm false 1 0 false
    else
      let big := decide ((12 : Int) < e + bitLen m)
      if big then
        if neg then f.round rm false (2 ^ guardBits) (-5000) true else f.round rm false (2 ^ guardBits) 5000 true
      else
        let p := (-e).toNat
        let v : Int := signed neg m * 2 ^ e.toNat
        let whole := v / 2 ^ p
        let frac := (v % 2 ^ p).toNat
        if frac = 0 then f.round rm false 1 whole false
        else f.round rm false (exp2Fixed frac p) (whole - expPlaces) true

/-- The smaller or the larger of two data, -0 below +0 (R367). -/
def FVal.lt : FVal → FVal → Bool
  | .fin n1 m1 e1, .fin n2 m2 e2 =>
    let e := min e1 e2
    decide (signed n1 m1 * 2 ^ (e1 - e).toNat < signed n2 m2 * 2 ^ (e2 - e).toNat)
  | .inf n1, .inf n2 => n1 && !n2
  | .inf n1, .fin _ _ _ => n1
  | .fin _ _ _, .inf n2 => !n2
  | _, _ => false

/-- Equal as numbers: +0 equals -0. -/
def FVal.eqv (a b : FVal) : Bool := !a.isNan && !b.isNan && !(a.lt b) && !(b.lt a)

/-- Whether a datum's sign is negative. -/
def FVal.isNeg : FVal → Bool
  | .nan _ => false
  | .inf n => n
  | .fin n _ _ => n

/-- Minimum or maximum of two bit patterns (R367). -/
def Fmt.minMax (f : Fmt) (wantMax : Bool) (x y : Nat) : Nat × Flg :=
  let a := f.decode x
  let b := f.decode y
  let fl := nanFlags [a, b]
  if a.isNan then (if b.isNan then (f.qnan, fl) else (y, fl))
  else if b.isNan then (x, fl)
  else
    let less := a.lt b || (a.eqv b && a.isNeg && !b.isNeg)
    (if less != wantMax then x else y, fl)

/-- Rounds a datum of one format to another (R370): every NaN becomes the canonical NaN. -/
def Fmt.convert (f : Fmt) (rm : Rm) (a : FVal) : Nat × Flg :=
  match a with
  | .nan s => (f.qnan, if s then flagNV else 0)
  | .inf n => (f.infinity n, 0)
  | .fin n m e => f.round rm n m e false

/-- Rounds an integer to a format. -/
def Fmt.ofInt (f : Fmt) (rm : Rm) (v : Int) : Nat × Flg := f.round rm (decide (v < 0)) v.natAbs 0 false

/-- The integer nearest to (-1)^neg × m × 2^e under a rounding mode, and whether it is inexact. -/
def roundInt (rm : Rm) (neg : Bool) (m : Nat) (e : Int) (sticky : Bool) : Int × Bool :=
  let (n, ix) := roundTo rm neg m e sticky 0
  (signed neg n, ix)

/-- Round to nearest even, bits alone: RNE32 and its like (R39). -/
def rne (r : Nat × Flg) : Nat := r.1

/-- RNE32(a × b) on bit patterns of binary32. -/
def mul32 (a b : Nat) : Nat := rne (fmtSF.mulV .rne (fmtSF.decode a) (fmtSF.decode b))

/-- RNE32(a + b) on bit patterns of binary32. -/
def add32 (a b : Nat) : Nat := rne (fmtSF.addV .rne (fmtSF.decode a) (fmtSF.decode b))

/-- RNE32(a × b + c), fused, on bit patterns of binary32. -/
def fma32 (a b c : Nat) : Nat := rne (fmtSF.fmaV .rne (fmtSF.decode a) (fmtSF.decode b) (fmtSF.decode c))

/-- The datum of an exact integer. -/
def FVal.ofInt (v : Int) : FVal := .fin (decide (v < 0)) v.natAbs 0

/-- A datum of a narrower format in binary32, exactly (R58). -/
def toSF (f : Fmt) (v : Nat) : Nat := rne (fmtSF.convert .rne (f.decode v))

end Sys2Proof.Machine
end

