-- ==== Sys2Proof/Machine/Scalar.lean ====
section
/-!
DEFINITION. The scalar instructions: register and immediate arithmetic, pointer helpers and constants, loads and stores (spec 13, R301 to
R309).
-/

namespace Sys2Proof.Machine

/-- A three-register instruction without a trap: its result goes to rd (R301). -/
def alu3 (rd rs1 rs2 : Reg) (f : Word → Word → Word) : Act Unit := do
  setX rd (f (← getX rs1) (← getX rs2))

/-- A unary or immediate instruction without a trap (R302, R303, R306). -/
def alu1 (rd rs1 : Reg) (f : Word → Word) : Act Unit := do setX rd (f (← getX rs1))

/-- A comparison's result. -/
def ofBool (b : Bool) : Word := if b then 1 else 0

/-- Signed quotient of R34. -/
def divWord (a b : Word) : Word :=
  if b = 0 then 0xFFFFFFFFFFFFFFFF
  else BitVec.ofInt 64 (a.toInt.tdiv b.toInt)

/-- Unsigned quotient of R34. -/
def divuWord (a b : Word) : Word := if b = 0 then 0xFFFFFFFFFFFFFFFF else a / b

/-- Signed remainder of R34: the sign of the dividend. -/
def remWord (a b : Word) : Word := if b = 0 then a else BitVec.ofInt 64 (a.toInt.tmod b.toInt)

/-- Unsigned remainder of R34. -/
def remuWord (a b : Word) : Word := if b = 0 then a else a % b

/-- Number of one bits. -/
def popCount (n v : Nat) : Nat := ((List.range n).filter fun i => v.testBit i).length

/-- Number of trailing zero bits of a word, 64 for zero. -/
def ctzWord (a : Word) : Nat := ((List.range 64).find? fun i => a.getLsbD i).getD 64

/-- Number of leading zero bits of a word, 64 for zero. -/
def clzWord (a : Word) : Nat := ((List.range 64).find? fun i => a.getLsbD (63 - i)).getD 64

def bodyAdd (rd rs1 rs2 : Reg) : Act Unit :=
  do setX rd (← ptrResult false (← getX rs1) (← getX rs2))

def execAdd (rd rs1 rs2 : Reg) (s : State) : Host.Outcome State Fault Refusal :=
  runSeq (.add rd rs1 rs2) (bodyAdd rd rs1 rs2) s

def bodySub (rd rs1 rs2 : Reg) : Act Unit :=
  do setX rd (← ptrResult true (← getX rs1) (← getX rs2))

def execSub (rd rs1 rs2 : Reg) (s : State) : Host.Outcome State Fault Refusal :=
  runSeq (.sub rd rs1 rs2) (bodySub rd rs1 rs2) s

def bodyAnd (rd rs1 rs2 : Reg) : Act Unit :=
  alu3 rd rs1 rs2 fun a b => a &&& b

def execAnd (rd rs1 rs2 : Reg) (s : State) : Host.Outcome State Fault Refusal :=
  runSeq (.and rd rs1 rs2) (bodyAnd rd rs1 rs2) s

def bodyOr (rd rs1 rs2 : Reg) : Act Unit :=
  alu3 rd rs1 rs2 fun a b => a ||| b

def execOr (rd rs1 rs2 : Reg) (s : State) : Host.Outcome State Fault Refusal :=
  runSeq (.or rd rs1 rs2) (bodyOr rd rs1 rs2) s

def bodyXor (rd rs1 rs2 : Reg) : Act Unit :=
  alu3 rd rs1 rs2 fun a b => a ^^^ b

def execXor (rd rs1 rs2 : Reg) (s : State) : Host.Outcome State Fault Refusal :=
  runSeq (.xor rd rs1 rs2) (bodyXor rd rs1 rs2) s

def bodyAndn (rd rs1 rs2 : Reg) : Act Unit :=
  alu3 rd rs1 rs2 fun a b => a &&& ~~~b

def execAndn (rd rs1 rs2 : Reg) (s : State) : Host.Outcome State Fault Refusal :=
  runSeq (.andn rd rs1 rs2) (bodyAndn rd rs1 rs2) s

def bodyOrn (rd rs1 rs2 : Reg) : Act Unit :=
  alu3 rd rs1 rs2 fun a b => a ||| ~~~b

def execOrn (rd rs1 rs2 : Reg) (s : State) : Host.Outcome State Fault Refusal :=
  runSeq (.orn rd rs1 rs2) (bodyOrn rd rs1 rs2) s

def bodySll (rd rs1 rs2 : Reg) : Act Unit :=
  alu3 rd rs1 rs2 fun a b => a <<< bits b 0 6

def execSll (rd rs1 rs2 : Reg) (s : State) : Host.Outcome State Fault Refusal :=
  runSeq (.sll rd rs1 rs2) (bodySll rd rs1 rs2) s

def bodySrl (rd rs1 rs2 : Reg) : Act Unit :=
  alu3 rd rs1 rs2 fun a b => a >>> bits b 0 6

def execSrl (rd rs1 rs2 : Reg) (s : State) : Host.Outcome State Fault Refusal :=
  runSeq (.srl rd rs1 rs2) (bodySrl rd rs1 rs2) s

def bodySra (rd rs1 rs2 : Reg) : Act Unit :=
  alu3 rd rs1 rs2 fun a b => a.sshiftRight (bits b 0 6)

def execSra (rd rs1 rs2 : Reg) (s : State) : Host.Outcome State Fault Refusal :=
  runSeq (.sra rd rs1 rs2) (bodySra rd rs1 rs2) s

def bodySlli (rd rs1 : Reg) (sh : BitVec 6) : Act Unit :=
  alu1 rd rs1 fun a => a <<< sh.toNat

def execSlli (rd rs1 : Reg) (sh : BitVec 6) (s : State) : Host.Outcome State Fault Refusal :=
  runSeq (.slli rd rs1 sh) (bodySlli rd rs1 sh) s

def bodySrli (rd rs1 : Reg) (sh : BitVec 6) : Act Unit :=
  alu1 rd rs1 fun a => a >>> sh.toNat

def execSrli (rd rs1 : Reg) (sh : BitVec 6) (s : State) : Host.Outcome State Fault Refusal :=
  runSeq (.srli rd rs1 sh) (bodySrli rd rs1 sh) s

def bodySrai (rd rs1 : Reg) (sh : BitVec 6) : Act Unit :=
  alu1 rd rs1 fun a => a.sshiftRight sh.toNat

def execSrai (rd rs1 : Reg) (sh : BitVec 6) (s : State) : Host.Outcome State Fault Refusal :=
  runSeq (.srai rd rs1 sh) (bodySrai rd rs1 sh) s

def bodySlt (rd rs1 rs2 : Reg) : Act Unit :=
  alu3 rd rs1 rs2 fun a b => ofBool (a.slt b)

def execSlt (rd rs1 rs2 : Reg) (s : State) : Host.Outcome State Fault Refusal :=
  runSeq (.slt rd rs1 rs2) (bodySlt rd rs1 rs2) s

def bodySltu (rd rs1 rs2 : Reg) : Act Unit :=
  alu3 rd rs1 rs2 fun a b => ofBool (a.ult b)

def execSltu (rd rs1 rs2 : Reg) (s : State) : Host.Outcome State Fault Refusal :=
  runSeq (.sltu rd rs1 rs2) (bodySltu rd rs1 rs2) s

def bodyMin (rd rs1 rs2 : Reg) : Act Unit :=
  alu3 rd rs1 rs2 fun a b => if a.slt b then a else b

def execMin (rd rs1 rs2 : Reg) (s : State) : Host.Outcome State Fault Refusal :=
  runSeq (.min rd rs1 rs2) (bodyMin rd rs1 rs2) s

def bodyMax (rd rs1 rs2 : Reg) : Act Unit :=
  alu3 rd rs1 rs2 fun a b => if a.slt b then b else a

def execMax (rd rs1 rs2 : Reg) (s : State) : Host.Outcome State Fault Refusal :=
  runSeq (.max rd rs1 rs2) (bodyMax rd rs1 rs2) s

def bodyMinu (rd rs1 rs2 : Reg) : Act Unit :=
  alu3 rd rs1 rs2 fun a b => if a.ult b then a else b

def execMinu (rd rs1 rs2 : Reg) (s : State) : Host.Outcome State Fault Refusal :=
  runSeq (.minu rd rs1 rs2) (bodyMinu rd rs1 rs2) s

def bodyMaxu (rd rs1 rs2 : Reg) : Act Unit :=
  alu3 rd rs1 rs2 fun a b => if a.ult b then b else a

def execMaxu (rd rs1 rs2 : Reg) (s : State) : Host.Outcome State Fault Refusal :=
  runSeq (.maxu rd rs1 rs2) (bodyMaxu rd rs1 rs2) s

def bodyMul (rd rs1 rs2 : Reg) : Act Unit :=
  alu3 rd rs1 rs2 fun a b => a * b

def execMul (rd rs1 rs2 : Reg) (s : State) : Host.Outcome State Fault Refusal :=
  runSeq (.mul rd rs1 rs2) (bodyMul rd rs1 rs2) s

def bodyMulh (rd rs1 rs2 : Reg) : Act Unit :=
  alu3 rd rs1 rs2 fun a b => BitVec.ofInt 64 ((a.toInt * b.toInt) / 2 ^ 64)

def execMulh (rd rs1 rs2 : Reg) (s : State) : Host.Outcome State Fault Refusal :=
  runSeq (.mulh rd rs1 rs2) (bodyMulh rd rs1 rs2) s

def bodyMulhu (rd rs1 rs2 : Reg) : Act Unit :=
  alu3 rd rs1 rs2 fun a b => BitVec.ofNat 64 (a.toNat * b.toNat / 2 ^ 64)

def execMulhu (rd rs1 rs2 : Reg) (s : State) : Host.Outcome State Fault Refusal :=
  runSeq (.mulhu rd rs1 rs2) (bodyMulhu rd rs1 rs2) s

def bodyDiv (rd rs1 rs2 : Reg) : Act Unit :=
  alu3 rd rs1 rs2 divWord

def execDiv (rd rs1 rs2 : Reg) (s : State) : Host.Outcome State Fault Refusal :=
  runSeq (.div rd rs1 rs2) (bodyDiv rd rs1 rs2) s

def bodyDivu (rd rs1 rs2 : Reg) : Act Unit :=
  alu3 rd rs1 rs2 divuWord

def execDivu (rd rs1 rs2 : Reg) (s : State) : Host.Outcome State Fault Refusal :=
  runSeq (.divu rd rs1 rs2) (bodyDivu rd rs1 rs2) s

def bodyRem (rd rs1 rs2 : Reg) : Act Unit :=
  alu3 rd rs1 rs2 remWord

def execRem (rd rs1 rs2 : Reg) (s : State) : Host.Outcome State Fault Refusal :=
  runSeq (.rem rd rs1 rs2) (bodyRem rd rs1 rs2) s

def bodyRemu (rd rs1 rs2 : Reg) : Act Unit :=
  alu3 rd rs1 rs2 remuWord

def execRemu (rd rs1 rs2 : Reg) (s : State) : Host.Outcome State Fault Refusal :=
  runSeq (.remu rd rs1 rs2) (bodyRemu rd rs1 rs2) s

def bodyClz (rd rs1 : Reg) : Act Unit :=
  alu1 rd rs1 fun a => BitVec.ofNat 64 (clzWord a)

def execClz (rd rs1 : Reg) (s : State) : Host.Outcome State Fault Refusal :=
  runSeq (.clz rd rs1) (bodyClz rd rs1) s

def bodyCtz (rd rs1 : Reg) : Act Unit :=
  alu1 rd rs1 fun a => BitVec.ofNat 64 (ctzWord a)

def execCtz (rd rs1 : Reg) (s : State) : Host.Outcome State Fault Refusal :=
  runSeq (.ctz rd rs1) (bodyCtz rd rs1) s

def bodyPopc (rd rs1 : Reg) : Act Unit :=
  alu1 rd rs1 fun a => BitVec.ofNat 64 (popCount 64 a.toNat)

def execPopc (rd rs1 : Reg) (s : State) : Host.Outcome State Fault Refusal :=
  runSeq (.popc rd rs1) (bodyPopc rd rs1) s

def bodySextb (rd rs1 : Reg) : Act Unit :=
  alu1 rd rs1 fun a => (a.setWidth 8).signExtend 64

def execSextb (rd rs1 : Reg) (s : State) : Host.Outcome State Fault Refusal :=
  runSeq (.sextb rd rs1) (bodySextb rd rs1) s

def bodySexth (rd rs1 : Reg) : Act Unit :=
  alu1 rd rs1 fun a => (a.setWidth 16).signExtend 64

def execSexth (rd rs1 : Reg) (s : State) : Host.Outcome State Fault Refusal :=
  runSeq (.sexth rd rs1) (bodySexth rd rs1) s

def bodySextw (rd rs1 : Reg) : Act Unit :=
  alu1 rd rs1 fun a => (a.setWidth 32).signExtend 64

def execSextw (rd rs1 : Reg) (s : State) : Host.Outcome State Fault Refusal :=
  runSeq (.sextw rd rs1) (bodySextw rd rs1) s

def bodyZextw (rd rs1 : Reg) : Act Unit :=
  alu1 rd rs1 fun a => (a.setWidth 32).setWidth 64

def execZextw (rd rs1 : Reg) (s : State) : Host.Outcome State Fault Refusal :=
  runSeq (.zextw rd rs1) (bodyZextw rd rs1) s

def bodyCsel (rd rs1 rs2 : Reg) : Act Unit :=
  do if (← getX rs1) ≠ 0 then setX rd (← getX rs2)

def execCsel (rd rs1 rs2 : Reg) (s : State) : Host.Outcome State Fault Refusal :=
  runSeq (.csel rd rs1 rs2) (bodyCsel rd rs1 rs2) s

def bodyPtag (rd rs1 rs2 : Reg) : Act Unit :=
  alu3 rd rs1 rs2 fun a b => putBits a 56 8 (bits b 0 8)

def execPtag (rd rs1 rs2 : Reg) (s : State) : Host.Outcome State Fault Refusal :=
  runSeq (.ptag rd rs1 rs2) (bodyPtag rd rs1 rs2) s

def bodyPfmt (rd rs1 : Reg) : Act Unit :=
  alu1 rd rs1 fun a => BitVec.ofNat 64 (bits a 59 5)

def execPfmt (rd rs1 : Reg) (s : State) : Host.Outcome State Fault Refusal :=
  runSeq (.pfmt rd rs1) (bodyPfmt rd rs1) s

def bodyPblk (rd rs1 : Reg) : Act Unit :=
  alu1 rd rs1 fun a => BitVec.ofNat 64 (bits a 56 3)

def execPblk (rd rs1 : Reg) (s : State) : Host.Outcome State Fault Refusal :=
  runSeq (.pblk rd rs1) (bodyPblk rd rs1) s

/-- The mesh address that a coordinate word and a pointer make (R305). -/
def meshPointer (coord p : Word) : Word :=
  BitVec.ofNat 64 (bits p 56 8 * 2 ^ 56 + 2 ^ 55 + bits coord 24 2 * 2 ^ 53 + bits coord 16 1 * 2 ^ 52 + bits coord 8 6 * 2 ^ 46
    + bits coord 0 6 * 2 ^ 40 + bits p 0 40)

def bodyPmesh (rd rs1 rs2 : Reg) : Act Unit :=
  alu3 rd rs1 rs2 meshPointer

def execPmesh (rd rs1 rs2 : Reg) (s : State) : Host.Outcome State Fault Refusal :=
  runSeq (.pmesh rd rs1 rs2) (bodyPmesh rd rs1 rs2) s

def bodyAddi (rd rs1 : Reg) (imm : BitVec 16) : Act Unit :=
  do setX rd (← ptrResult false (← getX rs1) (imm.signExtend 64))

def execAddi (rd rs1 : Reg) (imm : BitVec 16) (s : State) : Host.Outcome State Fault Refusal :=
  runSeq (.addi rd rs1 imm) (bodyAddi rd rs1 imm) s

def bodyAndi (rd rs1 : Reg) (imm : BitVec 16) : Act Unit :=
  alu1 rd rs1 fun a => a &&& imm.setWidth 64

def execAndi (rd rs1 : Reg) (imm : BitVec 16) (s : State) : Host.Outcome State Fault Refusal :=
  runSeq (.andi rd rs1 imm) (bodyAndi rd rs1 imm) s

def bodyOri (rd rs1 : Reg) (imm : BitVec 16) : Act Unit :=
  alu1 rd rs1 fun a => a ||| imm.setWidth 64

def execOri (rd rs1 : Reg) (imm : BitVec 16) (s : State) : Host.Outcome State Fault Refusal :=
  runSeq (.ori rd rs1 imm) (bodyOri rd rs1 imm) s

def bodyXori (rd rs1 : Reg) (imm : BitVec 16) : Act Unit :=
  alu1 rd rs1 fun a => a ^^^ imm.setWidth 64

def execXori (rd rs1 : Reg) (imm : BitVec 16) (s : State) : Host.Outcome State Fault Refusal :=
  runSeq (.xori rd rs1 imm) (bodyXori rd rs1 imm) s

def bodySlti (rd rs1 : Reg) (imm : BitVec 16) : Act Unit :=
  alu1 rd rs1 fun a => ofBool (a.slt (imm.signExtend 64))

def execSlti (rd rs1 : Reg) (imm : BitVec 16) (s : State) : Host.Outcome State Fault Refusal :=
  runSeq (.slti rd rs1 imm) (bodySlti rd rs1 imm) s

def bodySltiu (rd rs1 : Reg) (imm : BitVec 16) : Act Unit :=
  alu1 rd rs1 fun a => ofBool (a.ult (imm.signExtend 64))

def execSltiu (rd rs1 : Reg) (imm : BitVec 16) (s : State) : Host.Outcome State Fault Refusal :=
  runSeq (.sltiu rd rs1 imm) (bodySltiu rd rs1 imm) s

def bodyLui (rd : Reg) (imm : BitVec 16) : Act Unit :=
  setX rd (imm.signExtend 64 <<< 16)

def execLui (rd : Reg) (imm : BitVec 16) (s : State) : Host.Outcome State Fault Refusal :=
  runSeq (.lui rd imm) (bodyLui rd imm) s

def execAuipc (rd : Reg) (imm : BitVec 16) (s : State) : Host.Outcome State Fault Refusal :=
  runSeq (.auipc rd imm) (do setX rd (keepLow (← getCtx).pc 48 + (imm.signExtend 64 <<< 16))) s

def bodyShori (rd rs1 : Reg) (imm : BitVec 16) : Act Unit :=
  alu1 rd rs1 fun a => (a <<< 16) ||| imm.setWidth 64

def execShori (rd rs1 : Reg) (imm : BitVec 16) (s : State) : Host.Outcome State Fault Refusal :=
  runSeq (.shori rd rs1 imm) (bodyShori rd rs1 imm) s

/-! ## Loads and stores (R308) -/

/-- A scalar load: an access off the device leaves the core and returns later (R26, R29). -/
def scalarLoad (i : Instr) (rd rs1 : Reg) (imm : BitVec 16) (n : Nat) (signed : Bool) : Act Flow := do
  let ea ← ptrResult false (← getX rs1) (imm.signExtend 64)
  let key ← scalarKey .load ea n
  if (regionOf key).offDevice then leaveFor i key n
  else
    setX rd (extendTo64 signed n (leNat (← homeRead key n)))
    return .seq

/-- A scalar store. -/
def scalarStore (rs2 rs1 : Reg) (imm : BitVec 16) (n : Nat) : Act Unit := do
  let ea ← ptrResult false (← getX rs1) (imm.signExtend 64)
  let key ← scalarKey .store ea n
  coreWrite key (leBytes n (← getX rs2).toNat)

def execLb (rd rs1 : Reg) (imm : BitVec 16) (s : State) : Host.Outcome State Fault Refusal :=
  runFlow (.lb rd rs1 imm) (scalarLoad (.lb rd rs1 imm) rd rs1 imm 1 true) s

def execLbu (rd rs1 : Reg) (imm : BitVec 16) (s : State) : Host.Outcome State Fault Refusal :=
  runFlow (.lbu rd rs1 imm) (scalarLoad (.lbu rd rs1 imm) rd rs1 imm 1 false) s

def execLh (rd rs1 : Reg) (imm : BitVec 16) (s : State) : Host.Outcome State Fault Refusal :=
  runFlow (.lh rd rs1 imm) (scalarLoad (.lh rd rs1 imm) rd rs1 imm 2 true) s

def execLhu (rd rs1 : Reg) (imm : BitVec 16) (s : State) : Host.Outcome State Fault Refusal :=
  runFlow (.lhu rd rs1 imm) (scalarLoad (.lhu rd rs1 imm) rd rs1 imm 2 false) s

def execLw (rd rs1 : Reg) (imm : BitVec 16) (s : State) : Host.Outcome State Fault Refusal :=
  runFlow (.lw rd rs1 imm) (scalarLoad (.lw rd rs1 imm) rd rs1 imm 4 true) s

def execLwu (rd rs1 : Reg) (imm : BitVec 16) (s : State) : Host.Outcome State Fault Refusal :=
  runFlow (.lwu rd rs1 imm) (scalarLoad (.lwu rd rs1 imm) rd rs1 imm 4 false) s

def execLd (rd rs1 : Reg) (imm : BitVec 16) (s : State) : Host.Outcome State Fault Refusal :=
  runFlow (.ld rd rs1 imm) (scalarLoad (.ld rd rs1 imm) rd rs1 imm 8 false) s

def execSb (rs2 rs1 : Reg) (imm : BitVec 16) (s : State) : Host.Outcome State Fault Refusal :=
  runSeq (.sb rs2 rs1 imm) (scalarStore rs2 rs1 imm 1) s

def execSh (rs2 rs1 : Reg) (imm : BitVec 16) (s : State) : Host.Outcome State Fault Refusal :=
  runSeq (.sh rs2 rs1 imm) (scalarStore rs2 rs1 imm 2) s

def execSw (rs2 rs1 : Reg) (imm : BitVec 16) (s : State) : Host.Outcome State Fault Refusal :=
  runSeq (.sw rs2 rs1 imm) (scalarStore rs2 rs1 imm 4) s

def execSd (rs2 rs1 : Reg) (imm : BitVec 16) (s : State) : Host.Outcome State Fault Refusal :=
  runSeq (.sd rs2 rs1 imm) (scalarStore rs2 rs1 imm 8) s

end Sys2Proof.Machine
end

