-- ==== Sys2Proof/Machine/Control.lean ====
section
/-!
DEFINITION. Branches, jumps and hardware loops (spec 13, R310 to R317).
-/

namespace Sys2Proof.Machine

/-- A conditional branch (R310): PC := PC + 4 × SignExtend(off) where the condition holds. -/
def branch (rs1 rs2 : Reg) (off : BitVec 16) (cond : Word → Word → Bool) : Act Flow := do
  let c ← getCtx
  return if cond (c.getX rs1) (c.getX rs2) then .jump (c.pc + 4 * off.signExtend 64) else .seq

def execBeq (rs1 rs2 : Reg) (off : BitVec 16) (s : State) : Host.Outcome State Fault Refusal :=
  runFlow (.beq rs1 rs2 off) (branch rs1 rs2 off fun a b => a == b) s

def execBne (rs1 rs2 : Reg) (off : BitVec 16) (s : State) : Host.Outcome State Fault Refusal :=
  runFlow (.bne rs1 rs2 off) (branch rs1 rs2 off fun a b => a != b) s

def execBlt (rs1 rs2 : Reg) (off : BitVec 16) (s : State) : Host.Outcome State Fault Refusal :=
  runFlow (.blt rs1 rs2 off) (branch rs1 rs2 off fun a b => a.slt b) s

def execBge (rs1 rs2 : Reg) (off : BitVec 16) (s : State) : Host.Outcome State Fault Refusal :=
  runFlow (.bge rs1 rs2 off) (branch rs1 rs2 off fun a b => !(a.slt b)) s

def execBltu (rs1 rs2 : Reg) (off : BitVec 16) (s : State) : Host.Outcome State Fault Refusal :=
  runFlow (.bltu rs1 rs2 off) (branch rs1 rs2 off fun a b => a.ult b) s

def execBgeu (rs1 rs2 : Reg) (off : BitVec 16) (s : State) : Host.Outcome State Fault Refusal :=
  runFlow (.bgeu rs1 rs2 off) (branch rs1 rs2 off fun a b => !(a.ult b)) s

def execJal (rd : Reg) (off : BitVec 21) (s : State) : Host.Outcome State Fault Refusal :=
  runFlow (.jal rd off) (do
    let pc := (← getCtx).pc
    setX rd (keepLow (pc + 4) 48)
    return .jump (pc + 4 * off.signExtend 64)) s

/-- JALR's target: a plain sum with bits [1:0] cleared and bits [63:56] ignored (R14, R311). -/
def jalrTarget (a : Word) (imm : BitVec 16) : Word := (a + imm.signExtend 64) &&& 0x00FFFFFFFFFFFFFC#64

def execJalr (rd rs1 : Reg) (imm : BitVec 16) (s : State) : Host.Outcome State Fault Refusal :=
  runFlow (.jalr rd rs1 imm) (do
    let c ← getCtx
    setX rd (keepLow (c.pc + 4) 48)
    return .jump (jalrTarget (c.getX rs1) imm)) s

/-- The field of an address register of a loop or a vector: bits [47:2] (R231, R314). -/
def addrField : Word := 0x0000FFFFFFFFFFFC

def execLoop (lvl : BitVec 1) (rs1 : Reg) (off : BitVec 20) (s : State) : Host.Outcome State Fault Refusal :=
  runFlow (.loop lvl rs1 off) (do
    let c ← getCtx
    let count := keepLow (c.getX rs1) 32
    let first := (c.pc + 4) &&& addrField
    let last := (c.pc + 4 * off.setWidth 64) &&& addrField
    modCtx fun c =>
      if lvl = 0 then { c with lstart0 := first, lend0 := last, lcount0 := count }
      else { c with lstart1 := first, lend1 := last, lcount1 := count }
    return if count = 0 then .jump (c.pc + 4 * off.setWidth 64 + 4) else .seq) s

end Sys2Proof.Machine
end

