-- ==== Sys2Proof/Machine/Csr.lean ====
section
/-!
DEFINITION. The special registers and their access (R5, R298, R299, R319): each with the fields that a write sets and those that a write of
ones clears.
-/

namespace Sys2Proof.Machine

/-- The lowest level that reaches a CSR number (R298). -/
def csrLevel (n : Nat) : Level := if n < 0x100 then .u else if n < 0x300 then .k else .f

/-- Order of the levels (R183). -/
def Level.atLeast (a b : Level) : Bool := decide (b.code ≤ a.code)

/-- COREID (R321). -/
def Core.coreId (c : Core) : Word :=
  let phys := if c.mgmt then 0 else c.id / 2496 * 2 ^ 40 + c.id / 48 % 52 * 2 ^ 34 + c.id % 48 * 2 ^ 28
  BitVec.ofNat 64 ((if c.mgmt then 2 ^ 47 else 0) + c.part.toNat * 2 ^ 41 + phys + c.die.toNat * 2 ^ 16 + c.row.toNat * 2 ^ 8
    + c.col.toNat)

/-- KIP as it reads: TIMER is pending while TIME is not below KTCMP (R235, R236). -/
def State.kip (s : State) : BitVec 5 :=
  if s.core.ktcmp.toNat ≤ s.dev.time.toNat then s.core.kip ||| 4 else s.core.kip &&& 0x1B

/-- KIE as it reads: PREEMPT always reads 1 (R235). -/
def Core.kieRead (c : Core) : BitVec 5 := c.kie ||| 2

/-- The value of an assigned CSR (R299), or none for an unassigned number. -/
def State.csrGet (s : State) (n : Nat) : Option Word :=
  let c := s.ctx
  let k := s.core
  match n with
  | 0x000 => some k.cycle
  | 0x001 => some s.dev.time
  | 0x002 => some k.coreId
  | 0x003 => some c.wuid
  | 0x004 => some (c.gang.setWidth 64)
  | 0x005 => some (c.fstat.setWidth 64)
  | 0x006 => some c.tagrdy
  | 0x007 => some c.tagerr
  | 0x008 => some (BitVec.ofNat 64 k.unack)
  | 0x009 => some (c.mtmask.setWidth 64)
  | 0x00A => some c.rprog
  | 0x00B => some c.dealpat
  | 0x00C => some c.lcount0
  | 0x00D => some c.lstart0
  | 0x00E => some c.lend0
  | 0x00F => some c.lcount1
  | 0x010 => some c.lstart1
  | 0x011 => some c.lend1
  | 0x012 => some (c.evEn.setWidth 64 ||| (c.evPend.setWidth 64 <<< 8))
  | 0x013 => some ((k.banksel.setWidth 64 <<< 48) ||| (k.bankcf[k.banksel.toNat]'(k.banksel.isLt)).setWidth 64)
  | 0x014 => some (k.expstall.setWidth 64)
  | 0x100 => some k.kvec
  | 0x101 => some k.kcause
  | 0x102 => some k.kinfo
  | 0x103 => some k.kretpc
  | 0x104 => some k.kstat
  | 0x105 => some k.kscr
  | 0x106 => some (k.wp.setWidth 64)
  | 0x107 => some k.kptb
  | 0x108 => some (k.kieRead.setWidth 64)
  | 0x109 => some (s.kip.setWidth 64)
  | 0x10A => some k.kctxb
  | 0x10B => some k.ktcmp
  | 0x10C => some k.kefr
  | 0x300 => some k.fvec
  | 0x301 => some k.fcause
  | 0x302 => some k.finfo
  | 0x303 => some k.fretpc
  | 0x304 => some k.fstatus
  | 0x305 => some k.fscr
  | 0x306 => some k.fdeleg
  | _ => none

/-- The fields of a CSR that a write sets: its RW bits (R5). -/
def csrRw (n : Nat) : Word :=
  match n with
  | 0x005 => 0x1FF
  | 0x009 => 0xFFFFFFFF
  | 0x00A => 0x7FFFFFFFF
  | 0x00B => 0x0007FFFFFFFF000F
  | 0x00C => 0xFFFFFFFFFFFFFFFF
  | 0x00D => addrField
  | 0x00E => addrField
  | 0x00F => 0xFFFFFFFFFFFFFFFF
  | 0x010 => addrField
  | 0x011 => addrField
  | 0x012 => 0xFFFF
  | 0x013 => 0x0007000000000000
  | 0x100 => addrField
  | 0x101 => 0x800000000000003F
  | 0x102 => 0xFFFFFFFFFFFFFFFF
  | 0x103 => 0x0000FFFFFFFFFFFF
  | 0x104 => 0xF
  | 0x105 => 0xFFFFFFFFFFFFFFFF
  | 0x107 => 0xFFFF00FFFFFFFFFF
  | 0x108 => 0x1D
  | 0x109 => 0x08
  | 0x10A => 0xFFFFFFFFFFFFF001
  | 0x10B => 0xFFFFFFFFFFFFFFFF
  | 0x10C => 0x000FFFFFFFFFE001
  | 0x300 => addrField
  | 0x301 => 0x800000000000003F
  | 0x302 => 0xFFFFFFFFFFFFFFFF
  | 0x303 => 0x0000FFFFFFFFFFFF
  | 0x304 => 0x3F
  | 0x305 => 0xFFFFFFFFFFFFFFFF
  | 0x306 => 0x0000001F03FFEFFE
  | _ => 0

/-- The fields of a CSR that a write of ones clears: its W1C bits (R5). -/
def csrW1c (n : Nat) : Word := if n = 0x109 then 0x13 else 0

/-- How a CSR instruction writes (R319). -/
inductive CsrOp where
  | write | set | clear
  deriving DecidableEq, Repr

/-- The value a CSR takes from a write of v by its access codes alone (R319). -/
def csrValue (op : CsrOp) (n : Nat) (old v : Word) : Word :=
  match op with
  | .write => ((old &&& ~~~(csrRw n)) ||| (v &&& csrRw n)) &&& ~~~(v &&& csrW1c n)
  | .set => (old ||| (v &&& csrRw n)) &&& ~~~(v &&& csrW1c n)
  | .clear => old &&& ~~~(v &&& csrRw n)

/-- Whether an engine area or context buffer that is in use lies outside local device memory (R152, R241). -/
def badArea (v : Word) : Bool := bit v 0 && decide (localBytes ≤ bits v 12 40 * 4096)

/-- A level status with PPL 0b11 refused (R230). -/
def fstatusWrite (old v : Word) : Word := if bits v 2 2 = 3 then (v &&& ~~~0xC#64) ||| (old &&& 0xC#64) else v

/-- A write of LENDn: where its loop is active, DELTA moves so that the end in force stays, or none where it does not fit (R316). -/
def lendDelta (lcount old new : Word) : Option Word :=
  if keepLow lcount 32 = 0 then some lcount
  else
    let d := ((lcount >>> 32).setWidth 32).toInt + ((old.toNat : Int) - new.toNat) / 4
    if -(2 ^ 31) ≤ d ∧ d < 2 ^ 31 then some (putBits lcount 32 32 (BitVec.ofInt 32 d).toNat) else none

/-- Stores a CSR's new value. -/
def State.csrPut (s : State) (n : Nat) (v : Word) : State :=
  match n with
  | 0x005 => s.modCtx fun c => { c with fstat := fstatWrite c.fstat (v.setWidth 9) }
  | 0x009 => s.modCtx fun c => { c with mtmask := v.setWidth 32 }
  | 0x00A => s.modCtx fun c => { c with rprog := v }
  | 0x00B => s.modCtx fun c => { c with dealpat := v }
  | 0x00C => s.modCtx fun c => { c with lcount0 := v }
  | 0x00D => s.modCtx fun c => { c with lstart0 := v }
  | 0x00E => s.modCtx fun c => { c with lend0 := v, lcount0 := (lendDelta c.lcount0 c.lend0 v).getD c.lcount0 }
  | 0x00F => s.modCtx fun c => { c with lcount1 := v }
  | 0x010 => s.modCtx fun c => { c with lstart1 := v }
  | 0x011 => s.modCtx fun c => { c with lend1 := v, lcount1 := (lendDelta c.lcount1 c.lend1 v).getD c.lcount1 }
  | 0x012 => s.modCtx fun c => { c with evEn := v.setWidth 8, evPend := (v >>> 8).setWidth 8 }
  | 0x013 => s.modCore fun k => { k with banksel := (v >>> 48).setWidth 3 }
  | 0x100 => s.modCore fun k => { k with kvec := v }
  | 0x101 => s.modCore fun k => { k with kcause := v }
  | 0x102 => s.modCore fun k => { k with kinfo := v }
  | 0x103 => s.modCore fun k => { k with kretpc := v }
  | 0x104 => s.modCore fun k => { k with kstat := v }
  | 0x105 => s.modCore fun k => { k with kscr := v }
  | 0x107 => s.modCore fun k => { k with kptb := v }
  | 0x108 => s.modCore fun k => { k with kie := v.setWidth 5 }
  | 0x109 => s.modCore fun k => { k with kip := v.setWidth 5 }
  | 0x10A => s.modCore fun k => { k with kctxb := v }
  | 0x10B => s.modCore fun k => { k with ktcmp := v }
  | 0x10C => s.modCore fun k => { k with kefr := v }
  | 0x300 => s.modCore fun k => { k with fvec := v }
  | 0x301 => s.modCore fun k => { k with fcause := v }
  | 0x302 => s.modCore fun k => { k with finfo := v }
  | 0x303 => s.modCore fun k => { k with fretpc := v }
  | 0x304 => s.modCore fun k => { k with fstatus := fstatusWrite k.fstatus v }
  | 0x305 => s.modCore fun k => { k with fscr := v }
  | 0x306 => s.modCore fun k => { k with fdeleg := v }
  | _ => s

/-- Checks 1 and 2 of R298, and the value of the CSR. -/
def csrCheck (i : Instr) (csr : BitVec 12) : Act Word := do
  let s ← get
  if !(s.core.level.atLeast (csrLevel csr.toNat)) then trap cPriv (csr.setWidth 64)
  match s.csrGet csr.toNat with
  | none => trap cIllegalInstr (infoWord i)
  | some v => return v

/-- A CSR instruction that writes (R319), with the traps of the registers that have them (R152, R241, R316). -/
def csrWrite (i : Instr) (op : CsrOp) (csr : BitVec 12) (rs1 : Reg) : Act Unit := do
  let old ← csrCheck i csr
  let v ← getX rs1
  let new := csrValue op csr.toNat old v
  let c ← getCtx
  if (csr = 0x10A ∨ csr = 0x10C) ∧ badArea new then trap cAccess new
  if csr = 0x00E ∧ (lendDelta c.lcount0 c.lend0 new).isNone then trap cAccess v
  if csr = 0x011 ∧ (lendDelta c.lcount1 c.lend1 new).isNone then trap cAccess v
  modify fun s => s.csrPut csr.toNat new

def execCsrr (rd : Reg) (csr : BitVec 12) (s : State) : Host.Outcome State Fault Refusal :=
  runSeq (.csrr rd csr) (do setX rd (← csrCheck (.csrr rd csr) csr)) s

def execCsrw (csr : BitVec 12) (rs1 : Reg) (s : State) : Host.Outcome State Fault Refusal :=
  runSeq (.csrw csr rs1) (csrWrite (.csrw csr rs1) .write csr rs1) s

def execCsrs (csr : BitVec 12) (rs1 : Reg) (s : State) : Host.Outcome State Fault Refusal :=
  runSeq (.csrs csr rs1) (csrWrite (.csrs csr rs1) .set csr rs1) s

def execCsrc (csr : BitVec 12) (rs1 : Reg) (s : State) : Host.Outcome State Fault Refusal :=
  runSeq (.csrc csr rs1) (csrWrite (.csrc csr rs1) .clear csr rs1) s

end Sys2Proof.Machine
end

