-- ==== Sys2Proof/Machine/System.lean ====
section
/-!
DEFINITION. Fetching, calls and returns, waiting, interrupts, translation and instruction caches, and HALT (spec 10 R235 to R238, 12 R279,
13 R322 to R328).
-/

namespace Sys2Proof.Machine

/-! ## Fetching (R14, R25, R279 check 1, R328) -/

/-- The fetch of the word at an address for the core in focus: its checks in order, then the cluster's cached word or memory's. The cluster's
64 KiB hold 16,384 words, of which the oldest makes room (R2, log 4). -/
def fetchWord (pc : Word) : Chk IWord := do
  let w := (← get).who
  if bit pc 55 then failWith cAccess pc
  if bits pc 48 7 ≠ 0 then failWith cNoncanon pc
  let key ← resolve w .fetch (keepLow pc 48) 4 4
  let s ← get
  match s.dev.badWord key 4 with
  | some b => failWith cEccUncorr (setBit (← modifyGet fun s => s.meetError b) 63 true)
  | none =>
    let cid := clusterOfId s.core.id
    let cached : Option (Nat × IWord) :=
      if w.mgmt then none
      else match s.dev.clusters.find? fun c => c.id == cid with
        | none => none
        | some c => c.words.find? fun x => x.1 == key
    match cached with
    | some x => return x.2
    | none =>
      let word := BitVec.ofNat 32 (s.peekNat key 4)
      if !w.mgmt then set (s.modCluster cid fun c => { c with words := ((key, word) :: c.words).take 16384 })
      return word

/-- Takes a trap that no body of an instruction raises, once the results that come first are in (R29, R237). -/
def State.trapNow (s : State) (n : Nat) (info : Word) (word : Option IWord) : State := s.raiseTrap n info s.ctx.pc word

/-- FETCH_FAILURE: the word at the pc could not be fetched (R279 check 1). -/
def execFetchFailure (s : State) : Host.Outcome State Fault Refusal :=
  match runChk (fetchWord s.ctx.pc) s with
  | (.ok _, _) => .next s
  | (.error (n, info), t) => .next (t.trapNow n info none)

/-- ILLEGAL_ENCODING: the fetched word is no instruction (R278, R279 check 2). -/
def execIllegalEncoding (word : IWord) (s : State) : Host.Outcome State Fault Refusal :=
  .next (s.trapNow cIllegalInstr (word.setWidth 64) (some word))

/-! ## Calls and returns (R322, R323) -/

def execKcall (code : BitVec 12) (s : State) : Host.Outcome State Fault Refusal :=
  runFlow (.kcall code) (throw (.trap cKcall (infoWord (.kcall code)) .next)) s

def execFcall (code : BitVec 12) (s : State) : Host.Outcome State Fault Refusal :=
  runFlow (.fcall code) (throw (.trap cFcall (infoWord (.fcall code)) .next)) s

def execBrk (code : BitVec 12) (s : State) : Host.Outcome State Fault Refusal :=
  runFlow (.brk code) (throw (.trap cBrk (infoWord (.brk code)) .here)) s

/-- TRET (R234, R323). The context that it returns into is active; one that has been restored, so that it has a PPW, is checked as its activation
is (R61, log 57). -/
def execTret (s : State) : Host.Outcome State Fault Refusal :=
  runFlow .tret (do
    needK .tret
    let s ← get
    if s.ctx.ppw ≠ 0 ∧ ppwActivates s.ctx.ppw s.core.wp s.ctx.vregs s.ctx.bregs = false then trap cAccess s.ctx.ppw
    modify State.tret
    return .stay) s

/-! ## Waiting and interrupts (R235, R324) -/

/-- Whether an interrupt is pending: its KIP bit and its KIE bit are 1 (R235). -/
def State.interruptPending (s : State) : Bool := s.kip &&& s.core.kieRead != 0

/-- WFI's wait (R324). -/
def waitInterrupt : Act Unit := do
  if !(← get).interruptPending then holdFor .completes

def execWfi (s : State) : Host.Outcome State Fault Refusal :=
  runSeq .wfi (do needK .wfi; waitInterrupt) s

/-- Whether the core in focus can take interrupt i: it is pending and its target's level admits it (R235). -/
def State.canTake (s : State) (i : Nat) : Bool :=
  let c := s.core
  s.kip.getLsbD i && c.kieRead.getLsbD i &&
    (if bit c.fdeleg (32 + i) && c.level != .f then
      c.level == .u || (bit c.kstat 0 && !(bit c.kstat 3))
    else c.level != .f || (bit c.fstatus 0 && !(bit c.fstatus 4)))

/-- The highest interrupt that the core can take: PREEMPT, EFAULT, HOST, TIMER, SOFT (R235). -/
def State.takeable (s : State) : Option Nat := [1, 0, 4, 2, 3].find? s.canTake

/-- A CLD or CST of a core at its home. -/
def State.cellOf (s : State) (core : Nat) : Option CellWait := s.dev.cells.find? fun w => w.core == core

/-- The bytes of an RRT record (R54). -/
def recordBytes (r : RuleRes) : List Byte := leBytes 4 r.len ++ leBytes 4 r.s0 ++ leBytes 4 r.s1 ++ leBytes 4 r.s2

/-- RPROG of an instruction's FN and units done (R410). -/
def progWord (fn done : Nat) : Word := BitVec.ofNat 64 (fn * 2 ^ 32 + done % 2 ^ 32)

/-- Whether the instruction in hand is one that an interrupt abandons although what left the core for it has come (R411). -/
def State.redoes (s : State) : Bool :=
  match s.core.issued.bind decode with
  | some (.rgopen _ _) => true
  | some (.rseek _ _) => true
  | some (.rmv _ _ _) => true
  | _ => false

/-- Whether lines off the device have been read for the instruction in hand. -/
def Core.hasRead (c : Core) : Bool := !c.arrived.isEmpty || c.hold == .completes

/-- RPROG of an RMV whose row in hand is discarded: the rows done, none where the row is the first (R411). -/
def State.discardRow (s : State) : State :=
  match s.core.issued.bind decode with
  | some (.rmv _ _ _) => if s.core.hasRead ∧ bits s.ctx.rprog 32 3 ≠ 6 then s.modCtx fun c => { c with rprog := progWord 6 0 } else s
  | _ => s

/-- Withdraws what a holding instruction has posted, so that it is executed afresh later (R151, R178, R189, R204, R256, R356); an RSPINE writes
its fold record (R416), and an RMV discards its row (R411). A member that arrived at a barrier in its slot has retired that GBAR, and its arrival
stays (R200). -/
def State.abandon (s : State) : State :=
  let s := (s.withdraw s.core.id).discardRow
  let s := match s.core.link with
    | none => s
    | some l => if s.core.ctx.gangMode = 3 then
        s.modGang l.gang fun g => g.modMember l.pos fun m => { m with parked := none, atBar := m.atBar && decide (s.core.hold ≠ Hold.gbar) }
      else s
  let s := match s.core.ruleRun with
    | some { acc, record := some key, .. } => s.pokeOwn key (recordBytes acc)
    | _ => s
  s.modCore fun c => { c.unhold with ruleRun := none }

/-- Whether the instruction in hand goes on and completes before anything is taken (R29, R235, R256, R356, R411): each other wait yields to an
interrupt. -/
def State.completesInHand (s : State) : Bool :=
  (s.core.hasRead && !s.redoes) || s.core.hold == .launch || s.core.hold == .wswap ||
    (match s.cellOf s.core.id with
      | none => false
      | some w => w.result.isSome) ||
    (s.dev.resvs.any fun r => r.core == s.core.id && r.granted) || s.core.hold == .mwait ||
    (match s.core.hold with
      | .gatt _ => s.core.link.isNone
      | _ => false)

/-- Whether the core in focus completes what holds it, or an access that has left it, before anything is taken at the instruction that it has not
started (R29, R235, R256, R356). -/
def State.completesFirst (s : State) : Bool := s.core.out.isSome || s.resultsPending || s.completesInHand

/-- Whether something completes, or a trap is taken, before an interrupt (R29, R235, R356). -/
def State.mustFinish (s : State) : Bool := s.completesFirst || s.core.trapDue.isSome || s.core.lost.any fun a => a.level == s.core.level

/-- KINFO of ENGINE_FAULT (R242): the oldest record not yet reported, and LOST. It is 0 where KIP.EFAULT still stands and each record has been
reported (the model's choice, log 151). -/
def Core.efaultInfo (c : Core) : Word :=
  let place := match c.faults with
    | f :: _ => f.1.toNat * 256 + f.2.toNat
    | [] => match c.lostRec with
      | some f => f.1.toNat * 256 + f.2.toNat
      | none => 0
  setBit (BitVec.ofNat 64 place) 62 c.lostRec.isSome

/-- KINFO of an interrupt (R238). -/
def State.interruptInfo (s : State) (i : Nat) : Word :=
  match i with
  | 0 => s.core.efaultInfo
  | 1 => s.core.preemptInfo
  | 2 => s.dev.time
  | 4 => s.core.hostInfo
  | _ => 0

/-- Where the stream goes on: the address of the instruction that the leader executes next, or that it is held at (R193, R202). -/
def State.streamPc (s : State) (g : Gang) : Option Word :=
  ((g.present.find? fun m => m.pos == 0).bind fun m => s.coreById m.core).bind fun c => match c.heldAt with
    | some h => some h.pc
    | none => if c.ctx.gangMode = 0 then none else some c.ctx.pc

/-- The address at which the core in focus takes an interrupt: an attached member's is that of the stream instruction in its slot, which is the next
one that the leader issues where it has not been issued (R202). -/
def State.atSlot (s : State) : State :=
  match s.core.link with
  | none => s
  | some l => if s.core.inStream ∧ s.ctx.gangMode = 2 then (match s.entryFor l with
      | none => (((s.gang? l.gang).bind s.streamPc).map s.setPc).getD s
      | some e => s.setPc e.pc) else s

/-- TAKE_INTERRUPT: the highest interrupt that can be taken is, at the instruction that is not started, which a blocking wait yields (R235, R238,
R256). A core that does not
execute, that can take none, or whose access must first complete, is left as it is. -/
def execTakeInterrupt (s : State) : Host.Outcome State Fault Refusal :=
  match s.takeable with
  | none => .next s
  | some i =>
    if s.core.run ≠ .running ∨ s.mustFinish then .next s
    else
      let s := s.atSlot
      let info := s.interruptInfo i
      let s := s.abandon
      let s := if i = 0 then s.modCore fun c => { c with faults := c.faults.drop 1, lostRec := none } else s
      .next (s.takeTrap true (32 + i) info s.ctx.pc none)

/-- CELL_ABANDON: the home settles the abandon of a CLD or CST: not performed, it is discarded (R349). -/
def execCellAbandon (s : State) : Host.Outcome State Fault Refusal :=
  match s.cellOf s.core.id with
  | none => .next s
  | some w =>
    match w.result with
    | some _ => .next s
    | none => .next s.abandon

/-- TIMER_EXPIRE: TIME reaches the core's compare value (R236). -/
def execTimerExpire (s : State) : Host.Outcome State Fault Refusal :=
  .next (s.modDev fun d => { d with time := if d.time.ult s.core.ktcmp then s.core.ktcmp else d.time })

/-- SOFTWARE_INTERRUPT: the management complex sets KIP.SOFT on a core (R235). -/
def execSoftwareInterrupt (target : Nat) (s : State) : Host.Outcome State Fault Refusal := .next (s.raise target 3)

/-! ## Translation and instruction caches (R327, R328) -/

/-- Whether TLBINV discards an entry (R327). -/
def tlbDrops (mode : TlbMode) (x : Word) (asid : BitVec 16) (e : TlbEntry) : Bool :=
  match mode with
  | .all => true
  | .asid => !e.global && e.asid == x.setWidth 16
  | .va => (e.global || e.asid == asid) && decide (e.base ≤ bits x 0 48 ∧ bits x 0 48 < e.base + e.size)

/-- Discards entries from every TLB of the device, and every walk-cache entry (R327). A walk that a speculative atomic started reads the page
tables when it ends, and so starts afresh. -/
def State.tlbDiscard (s : State) (drops : TlbEntry → Bool) : State :=
  let cut (c : Core) : Core := { c with tlb := c.tlb.filter fun e => !(drops e) }
  { s with
    core := cut s.core
    rest := s.rest.map cut
    dev := { s.dev with
      walkCache := []
      clusters := s.dev.clusters.map fun c => { c with tlb := c.tlb.filter fun e => !(drops e) } } }

/-- Whether an access of any agent that has been translated is still to be performed (R327 step 3): in flight, out for the host or a peer, a
quantum atomic on its way, the stores that an instruction has still to make, or the chunk that a DMA engine has in hand. -/
def State.accessesInFlight (s : State) : Bool :=
  (s.dev.flights.any fun f => !f.done)
  || (s.dev.bcasts.any fun b => match b.op with
    | .quantum _ _ _ => true
    | .mcast _ _ _ => false)
  || s.cores.any fun c => (c.out.any fun o => o.value.isNone) || c.listing.isSome || c.dma.any fun j => match j.stage with
    | .placed _ _ _ => true
    | .idle => false
    | .read _ _ _ => false

def execTlbinv (rs1 : Reg) (mode : TlbMode) (s : State) : Host.Outcome State Fault Refusal :=
  runSeq (.tlbinv rs1 mode) (do
    needK (.tlbinv rs1 mode)
    let s ← get
    if !(s.releaseMet .dev) || s.accessesInFlight then holdFor .completes
    let x ← getX rs1
    modify fun s => s.tlbDiscard (tlbDrops mode x (BitVec.ofNat 16 (bits s.core.kptb 48 16)))) s

def execIflush (s : State) : Host.Outcome State Fault Refusal :=
  runSeq .iflush (do
    needK .iflush
    releaseFence .dev
    modDev fun d => { d with clusters := d.clusters.map fun c => { c with words := [] } }) s

/-! ## HALT (R190, R219, R326) -/

/-- Whether a core has stores that are not acknowledged, an access that has not returned, or engine commands or a submission that are not
complete (R29, R30, R219). -/
def State.unitBusy (s : State) (c : Core) : Bool :=
  c.unack != 0 || c.out.isSome || !c.dma.isEmpty || !c.mtx.isEmpty || (s.dev.eddy.any fun j => j.core == c.id)
  || (s.dev.submits.any fun b => b.core == c.id) || (s.dev.flights.any fun f => f.core == c.id && f.rd.isSome)
  || !(s.stagedOf c).isEmpty

/-- A gang dissolves: the commands of it that have entered q2 keep its members, which are pre-empted as one until these have completed (R448). -/
def State.keepFormer (s : State) (g : Gang) : State :=
  let former := g.present.filterMap fun m => ((s.coreById m.core).filter fun c => c.ctx.gangMode != 0).map fun c => (m.core, c.ctx.lnum, c.ctx.wuid)
  let keep (c : Core) : Core := { c with
    mtx := c.mtx.map fun j => { j with joint := j.joint.map fun x => if x.gang = g.num then { x with former := former } else x } }
  { s with core := keep s.core, rest := s.rest.map keep }

/-- A core's active context, a member of a gang, becomes independent as the gang dissolves (R190). -/
def State.freeMember (s : State) (core num pos : Nat) : State :=
  (s.modCoreId core fun c => { c with
    link := none, heldAt := none
    ctx := if c.ctx.gangMode = 0 then c.ctx else { c.ctx with gang := gangIndependent } }).modGang num
      fun g => (g.modMember pos fun m => { m with state := .gone, slotDone := true, parked := none }).unsent pos

/-- What GSPLIT does at the core in focus, a leader or attached member (R190): it becomes independent, and at the leader the gang's detached
members do too; one parked in GATT keeps its wait, which then traps. -/
def State.splitGang (s : State) : State :=
  match s.core.link with
  | none => s
  | some l =>
    let lead := s.core.ctx.gangMode = 1
    let gang := if lead then s.gang? l.gang else none
    let s := (gang.map s.keepFormer).getD s
    let s := s.freeMember s.core.id l.gang l.pos
    match gang with
    | none => s
    | some g => (g.members.filter fun m => m.state == .detached).foldl (fun s m => s.freeMember m.core l.gang m.pos) s

/-- HALT (R190, R219, R326). In the stream it splits the gang, and each core keeps the HALT in hand, with which it then ends its unit. -/
def execHalt (s : State) : Host.Outcome State Fault Refusal :=
  runFlow .halt (do
    let s ← get
    let pc := s.ctx.pc
    if s.ctx.lnum = 0 then
      waitInterrupt
      return .seq
    else
      match s.core.level with
      | .k =>
        modify fun s => s.faultEvent s.core.id false s.core.kcause s.core.kinfo
        return .stay
      | .f =>
        modify fun s => s.faultEvent s.core.id false s.core.fcause s.core.finfo
        return .stay
      | .u =>
        if s.core.inStream then
          modify fun t => t.splitGang.bookSlot s.core (wordOf .halt)
          holdFor .retry
        else
          if s.unitBusy s.core then holdFor .retry
          modify fun s => (s.leaveGang s.core.id).modCore fun c => { c with run := .ended, kip := c.kip &&& 0x1D }
          return .jump (pc + 4)) s

end Sys2Proof.Machine
end

