-- ==== Sys2Proof/Machine/Stream.lean ====
section
/-!
DEFINITION. Vector registers as operands: groups, and the streams and fibres bound to v28 to v31 (spec 05 R138 to R141, 15 R358, R359, R373
to R376).
-/

namespace Sys2Proof.Machine

/-- Runs a body so that a trap or a hold leaves the context as it was, but for what other parties did to it meanwhile (R237). The
lost reads of an instruction that does not complete are among those the spec leaves open (log 3). -/
def guardCtx {α : Type} (body : Act α) : Act α := fun s =>
  match body s with
  | .ok a t => .ok a t
  | .error e t => .error e (t.modCore fun k => { k with
      ctx := { s.core.ctx with monHit := k.ctx.monHit, evPend := k.ctx.evPend }, bankcf := s.core.bankcf })

/-- The reads of a vector group in the mirror: one of each register's bank (R71). -/
def groupReads (r : Reg) (n : Nat) : List (Nat × Nat) := (List.range n).map fun i => ((r.toNat + i) % 8, 1)

/-- Reads that an instruction's own operands lose in one bank: an operand's next read loses once in each cycle in which the bank serves
an earlier operand (R71). -/
def ownLosses (ops : List (List (Nat × Nat))) (bank : Nat) : Nat :=
  (ops.foldl (fun (before, lost) op =>
    let n := (op.map fun x => if x.1 = bank then x.2 else 0).sum
    (before + n, if n = 0 then lost else lost + before)) (0, 0)).2

/-- Counts the reads that an instruction's operands, in the order they are read, lose to one another (R71, R72). -/
def countReads (ops : List (List (Nat × Nat))) : Act Unit :=
  modCore fun k => { k with bankcf := k.bankcf.mapFinIdx fun i v _h => v + BitVec.ofNat 48 (ownLosses ops i) }

/-- Bytes of a stream at a pointer: those fetched ahead for it, else a load (R140). -/
def streamRead (s : BitVec 2) (p : Word) (n a : Nat) : Act (List Byte) := do
  match (← getCtx).pieces.find? fun x => x.stream == s && x.ptr == p && x.bytes.length == n with
  | some x => return x.bytes
  | none => loadBytes p n a

/-- A line of a line fibre holds at most 48 HF or 96 SB values (R45). -/
def lineRoom (p : Word) : Nat := if fmtOf p = 17 then 48 else 96

/-- The positions set in a sparse line, in ascending order, or none where the line is malformed (R45). -/
def lineSet (p : Word) (bytes : List Byte) : Option (List Nat) :=
  let bitmap := leNat (bytes.take 32)
  let set := (List.range 256).filter fun i => bitmap.testBit i
  if 4 < bits p 56 3 ∨ lineRoom p < set.length ∨ (set.any fun i => decide (blockLen p ≤ i)) then none else some set

/-- A fibre's value in binary32, exactly: HF and SB from lines, HF, BF, SF and SB from lists (R138, R139). -/
def fibreValue (fmt : Nat) (v : Nat) : Nat :=
  match fmt with
  | 17 => toSF fmtHF v
  | 7 => toSF fmtHF v
  | 8 => toSF fmtBF v
  | 9 => v
  | _ => rne (fmtSF.ofInt .rne (BitVec.ofNat 8 v).toInt)

/-- An entry of a fibre: its coordinate, and its value in binary32. -/
abbrev FibreEntry := Nat × Nat

/-- The entries of one line of a line fibre (R45). -/
def lineEntries (s : BitVec 2) (d : StreamDesc) (m : Nat) : Act (List FibreEntry) := do
  let p := ptrAt d.val (128 * m)
  let bytes ← streamRead s p 128 128
  match lineSet d.val bytes with
  | none => trap cFormat p
  | some set =>
    let size := if fmtOf d.val = 17 then 2 else 1
    return set.zipIdx.map fun (i, j) =>
      (m * blockLen d.val + i, fibreValue (fmtOf d.val) (leNat ((bytes.drop (32 + size * j)).take size)))

/-- Where the entry after the first skip entries of a line fibre's lines from m on stands: its line, and how many entries of that line come first. -/
def lineSkip (s : BitVec 2) (d : StreamDesc) : Nat → Nat → Nat → Act (Nat × Nat)
  | 0, m, _ => return (m, 0)
  | left + 1, m, skip => do
    if skip = 0 then return (m, 0)
    let es ← lineEntries s d m
    if es.length ≤ skip then lineSkip s d left (m + 1) (skip - es.length) else return (m, skip)

/-- Up to want entries of a line fibre from line m on, but for the first skip of that line, and where the next one is looked for. -/
def lineFrom (s : BitVec 2) (d : StreamDesc) : Nat → Nat → Nat → Nat → Act (List FibreEntry × (Nat × Nat))
  | 0, m, skip, _ => return ([], (m, skip))
  | left + 1, m, skip, want => do
    if want = 0 then return ([], (m, skip))
    let es ← lineEntries s d m
    let got := (es.drop skip).take want
    if skip + got.length < es.length then return (got, (m, skip + got.length))
    let (rest, at') ← lineFrom s d left (m + 1) 0 (want - got.length)
    return (got ++ rest, at')

/-- Up to want entries of a line fibre from its position on, and where the next one is looked for: from the line that the stream unit has come to,
or, after an activation, from the first line on (R139, R140, log 135). -/
def lineNext (s : BitVec 2) (d : StreamDesc) (want : Nat) : Act (List FibreEntry × (Nat × Nat)) := do
  let (m, skip) ← match d.lineAt with
    | some p => pure p
    | none => lineSkip s d d.limit.toNat 0 d.pos.toNat
  lineFrom s d (d.limit.toNat - m) m skip want

/-- Bytes of a list fibre's value. -/
def listSize (d : StreamDesc) : Nat :=
  match fmtOf d.val with
  | 1 => 1
  | 9 => 4
  | _ => 2

/-- Entry number n of a list fibre. -/
def listEntry (s : BitVec 2) (d : StreamDesc) (n : Nat) : Act FibreEntry := do
  let v ← streamRead s (ptrAt d.val (listSize d * n)) (listSize d) (listSize d)
  let c ← streamRead s (ptrAt d.coord (4 * n)) 4 4
  return (leNat c, fibreValue (fmtOf d.val) (leNat v))

/-- Up to want entries of a fibre from a position, its own or a later one. -/
def fibreEntries (s : BitVec 2) (d : StreamDesc) (pos want : Nat) : Act (List FibreEntry) := do
  match d.kind with
  | .line =>
    let (es, _) ← lineNext s d (pos - d.pos.toNat + want)
    return es.drop (pos - d.pos.toNat)
  | _ => (List.range (min want (d.limit.toNat - pos))).mapM fun i => listEntry s d (pos + i)

/-- Values of entries as SF lanes with +0.0 after them, and coordinates as SW lanes with -1 after them (R139, R375). -/
def entryLanes (es : List FibreEntry) : VWord × VWord :=
  let pad (n : Nat) (x : Nat) := List.replicate (16 - n) x
  (BitVec.ofNat 512 (ofLanes 32 (es.map (·.2) ++ pad es.length 0)),
   BitVec.ofNat 512 (ofLanes 32 (es.map (·.1) ++ pad es.length 0xFFFFFFFF)))

/-- Forgets the pieces of a stream. -/
def Ctx.dropPieces (c : Ctx) (s : BitVec 2) : Ctx := { c with pieces := c.pieces.filter fun x => x.stream != s }

/-- A stream moves on to a position: the pieces that it has passed are forgotten, and those that it holds beyond stay (R140). A line that it has
popped in part stays as it was read. -/
def moveTo (s : BitVec 2) (d : StreamDesc) (pos : Nat) : Act Unit := do
  let lineAt ← match d.kind with
    | .line =>
      let (_, (m, k)) ← lineNext s d (pos - d.pos.toNat)
      if k ≠ 0 then
        let p := ptrAt d.val (128 * m)
        let bytes ← streamRead s p 128 128
        modCtx fun c => if c.pieces.any fun x => x.stream == s && x.ptr == p then c
          else { c with pieces := { stream := s, index := m, ptr := p, bytes := bytes } :: c.pieces }
      pure (some (m, k))
    | _ => pure none
  let from' := match lineAt with
    | some p => p.1
    | none => pos
  modCtx fun c => ({ c with pieces := c.pieces.filter fun x => x.stream != s || decide (from' ≤ x.index) } : Ctx).setSd s
    { d with pos := BitVec.ofNat 64 pos, lineAt := lineAt }

/-- The pop of a stream whose register an instruction reads (R139). -/
def popStream (s : BitVec 2) : Act Unit := do
  let d := (← getCtx).getSd s
  let n := 28 + s.toNat
  match d.kind with
  | .denseWrite => return ()
  | .denseRead =>
    if d.limit.toNat ≤ d.pos.toNat then modCtx fun c => c.setV n 0
    else
      let bytes ← streamRead s (ptrAt d.val (64 * d.pos.toNat)) 64 64
      modCtx fun c => c.setV n (BitVec.ofNat 512 (leNat bytes))
      moveTo s d (d.pos.toNat + 1)
  | _ =>
    if s.toNat % 2 = 1 then return ()
    let es ← fibreEntries s d d.pos.toNat 16
    let (v, k) := entryLanes es
    modCtx fun c => (c.setV n v).setV (n + 1) k
    moveTo s d (d.pos.toNat + es.length)

/-- The registers of a group. -/
def groupRegs (r : Reg) (n : Nat) : List Nat := (List.range n).map fun i => r.toNat + i

/-- Registers that a pop of a bound stream writes when an instruction reads some registers (R139, R359, R393). -/
def Ctx.popWrites (c : Ctx) (reads : List Nat) : List Nat :=
  ((List.range 4).map fun i =>
    let d := c.getSd (BitVec.ofNat 2 i)
    if d.bound && reads.contains (28 + i) && d.kind != .denseWrite then
      (if d.kind.isFibre then [28 + i, 29 + i] else [28 + i])
    else []).flatten

/-- What reading operands does to the streams bound to their registers: each pops at most once (R359). -/
def popOperands (rs : List Nat) : Act Unit :=
  (List.range 4).forM fun i => do
    let s := BitVec.ofNat 2 i
    if ((← getCtx).getSd s).bound && rs.contains (28 + i) then popStream s

/-- The pool self-alias address of a descriptor: what KINFO holds where a write stream is full (R139). -/
def descAddress (wp : BitVec 19) (s : Nat) : Word := 0x008FFF0000000000#64 + BitVec.ofNat 64 (wp.toNat + 0x200 + 64 * s)

/-- The write streams bound to some registers. -/
def Ctx.writeStreams (c : Ctx) (rs : List Nat) : List Nat :=
  (List.range 4).filter fun i =>
    let d := c.getSd (BitVec.ofNat 2 i)
    rs.contains (28 + i) && d.bound && d.kind == .denseWrite

/-- The checks of the appends that writing some registers makes, for each bound write stream (R139, R359): where its piece goes. -/
def appendKeys (rs : List Nat) : Act (List (Nat × List (Nat × Nat))) := do
  let c ← getCtx
  (c.writeStreams rs).mapM fun i => do
    let d := c.getSd (BitVec.ofNat 2 i)
    if d.limit.toNat ≤ d.pos.toNat then trap cAccess (descAddress (← get).core.wp i)
    return (i, ← spanKeys .store (ptrAt d.val (64 * d.pos.toNat)) 64 64)

/-- What writing a destination does to the write streams bound to its registers: each appends once (R139, R359). -/
def appendResults (rs : List Nat) : Act Unit := do
  let keys ← appendKeys rs
  let c ← getCtx
  keys.forM fun p =>
    let s := BitVec.ofNat 2 p.1
    modCtx fun c => c.setSd s { c.getSd s with pos := (c.getSd s).pos + 1 }
  coreWriteLines true (keys.flatMap fun p => spanLines p.2 (leBytes 64 (c.getV (28 + p.1)).toNat))

/-- Reads groups as the operands of one instruction, lowest register first: the values, after every pop. -/
def readGroups (gs : List (Reg × Nat)) : Act (List Nat) := do
  popOperands (gs.map fun g => groupRegs g.1 g.2).flatten
  countReads (gs.map fun g => groupReads g.1 g.2)
  let c ← getCtx
  return gs.map fun g => c.getGroup g.1 g.2

/-- Writes a group as an instruction's destination. -/
def writeGroup (r : Reg) (n : Nat) (v : Nat) : Act Unit := do
  modCtx fun c => c.setGroup r v n
  appendResults (groupRegs r n)

/-! ## Stream instructions (R373 to R376) -/

/-- The pointer formats a stream kind accepts (R138). -/
def kindAccepts (k : StreamKind) (fmt : Nat) : Bool :=
  match k with
  | .denseRead => decide (fmt ≤ 9)
  | .denseWrite => decide (fmt ≤ 9)
  | .line => fmt == 17 || fmt == 18
  | .list => fmt == 7 || fmt == 8 || fmt == 9 || fmt == 1

/-- Alignment of a stream's data (R373). -/
def kindAlign (k : StreamKind) (d : StreamDesc) : Nat :=
  match k with
  | .denseRead => 64
  | .denseWrite => 64
  | .line => 128
  | .list => listSize d

/-- Performs the appended stores of the core in focus, each behind the core's own earlier accesses to its line; one that cannot be yet is waited for
(R139, R140, R161, R163). -/
def performAppends : Act Unit := do
  let s ← get
  let mine := s.dev.flights.filter fun f => f.core == s.core.id && f.append && !f.done
  if mine.any fun f => !(s.dev.passable f) then holdFor .retry
  modify fun s => mine.foldl (fun s f => s.drainLines s.core.id f.home 1 (f.id + 1)) s

/-- SCLOSE of a bound descriptor (R139, R374): its register keeps its contents. -/
def closeStream (s : BitVec 2) : Act Unit := do
  performAppends
  modCtx fun c =>
    let d := c.getSd s
    let c := (c.dropPieces s).setSd s { d with bound := false, lineAt := none }
    if d.kind.isFibre then c.setSd (s + 1) { c.getSd (s + 1) with bound := false } else c

/-- Whether a descriptor is bound for itself, and is not the odd one that a fibre claims (R374). -/
def StreamDesc.opened (d : StreamDesc) (s : BitVec 2) : Bool := d.bound && !(s.toNat % 2 == 1 && d.kind.isFibre)

/-- SCLOSE: it has no effect on an unbound descriptor and on the odd one that a fibre claims (R374). -/
def closeOwn (s : BitVec 2) (d : StreamDesc) : Act Unit := if d.opened s then closeStream s else pure ()

/-- SOPEN (R373): the checks come before the SCLOSE, so that a fibre that is still bound keeps another off its descriptors (log 30). The second
descriptor of a fibre is bound, and holds the fibre's KIND and zeros (the model's choice, log 127). -/
def execSopen (sd : BitVec 2) (xv xl : Reg) (kind : StreamKind) (xc : Reg) (s : State) : Host.Outcome State Fault Refusal :=
  let i := Instr.sopen sd xv xl kind xc
  runSeq i (guardCtx do
    let c ← getCtx
    let n := 28 + sd.toNat
    needReg i (decide (n + (if kind.isFibre then 1 else 0) < c.vregs))
    let own := c.getSd sd
    needReg i (!kind.isFibre || (sd.toNat % 2 == 0 && !(c.getSd (sd + 1)).bound))
    let val := c.getX xv
    let coord := if kind = .list then c.getX xc else 0
    if !(kindAccepts kind (fmtOf val)) then trap cFormat val
    if kind = .list ∧ fmtOf coord ≠ 3 then trap cFormat coord
    let d : StreamDesc := { val := val, coord := coord, pos := 0, limit := c.getX xl, kind := kind, bound := true }
    let _ ← spanKeys (if kind = .denseWrite then .store else .load) val 1 1
    if kind = .list then let _ ← spanKeys .load coord 1 1
    if !(alignedTo val (kindAlign kind d)) then trap cMisaligned val
    if kind = .list ∧ !(alignedTo coord 4) then trap cMisaligned coord
    closeOwn sd own
    modCtx fun c =>
      let c := (c.dropPieces sd).setSd sd d
      if kind.isFibre then c.setSd (sd + 1) { StreamDesc.zero with kind := kind, bound := true } else c) s

/-- The descriptor an instruction names: bound, and not the odd one that a fibre claims (R374). -/
def namedStream (i : Instr) (s : BitVec 2) : Act StreamDesc := do
  let d := (← getCtx).getSd s
  needReg i (d.opened s)
  return d

/-- Whether a stream's end is reached (R374). -/
def streamEnd (s : BitVec 2) (d : StreamDesc) : Act Bool := do
  match d.kind with
  | .line => return (← lineNext s d 1).1.isEmpty
  | _ => return decide (d.limit.toNat ≤ d.pos.toNat)

/-- Where SADV by n leaves a stream: n further on, or at its end (R374). -/
def advanced (s : BitVec 2) (d : StreamDesc) (n : Nat) : Act Nat := do
  match d.kind with
  | .line => return d.pos.toNat + (← lineNext s d n).1.length
  | _ => return max d.pos.toNat (min (d.pos.toNat + n) d.limit.toNat)

def execSadv (sd : BitVec 2) (xn : Reg) (s : State) : Host.Outcome State Fault Refusal :=
  runSeq (.sadv sd xn) (do
    let d ← namedStream (.sadv sd xn) sd
    let pos ← advanced sd d (← getX xn).toNat
    moveTo sd d pos) s

def execStend (sd : BitVec 2) (off : BitVec 13) (s : State) : Host.Outcome State Fault Refusal :=
  runFlow (.stend sd off) (do
    let d ← namedStream (.stend sd off) sd
    if (← streamEnd sd d) then return .jump ((← getCtx).pc + 4 * off.signExtend 64) else return .seq) s

def execSclose (sd : BitVec 2) (s : State) : Host.Outcome State Fault Refusal :=
  runSeq (.sclose sd) (do
    closeOwn sd ((← getCtx).getSd sd)) s

def execSpos (xd : Reg) (sd : BitVec 2) (s : State) : Host.Outcome State Fault Refusal :=
  runSeq (.spos xd sd) (do
    let d ← namedStream (.spos xd sd) sd
    setX xd d.pos) s

/-- The entry at a position of a fibre, none past its end. -/
def headAt (s : BitVec 2) (d : StreamDesc) (pos : Nat) : Act (Option FibreEntry) := do
  return (← fibreEntries s d pos 1).head?

/-- A coordinate as its fibre has it: a list's is the signed word it is, and a line's rises without end (R139, R141). -/
def coordInt (d : StreamDesc) (e : FibreEntry) : Int :=
  match d.kind with
  | .line => e.1
  | _ => (BitVec.ofNat 32 e.1).toInt

/-- How a merge ends: entries emitted, the two positions, and the input whose next coordinate does not rise, with its position. -/
structure MergeEnd where
  out : List FibreEntry
  p0  : Nat
  p1  : Nat
  bad : Option (Nat × Nat)
  deriving DecidableEq, Repr

/-- SMERGE's loop from the heads of its two inputs (R375, R376). Where the coordinates of both fall in one step, KINFO names input 0 (R141; the
model's choice, log 128). -/
def mergeFrom (uni : Bool) (d0 d1 : StreamDesc) :
    Nat → Option FibreEntry → Option FibreEntry → List FibreEntry → Nat → Nat → Nat → Act MergeEnd
  | 0, _, _, out, p0, p1, _ => return { out := out, p0 := p0, p1 := p1, bad := none }
  | fuel + 1, h0, h1, out, p0, p1, taken => do
    let stop : MergeEnd := { out := out, p0 := p0, p1 := p1, bad := none }
    if 16 ≤ out.length ∨ 32 ≤ taken then return stop
    let eat0 := match h0, h1 with
      | some x, some y => decide (coordInt d0 x ≤ coordInt d1 y)
      | some _, none => uni
      | none, _ => false
    let eat1 := match h0, h1 with
      | some x, some y => decide (coordInt d1 y ≤ coordInt d0 x)
      | none, some _ => uni
      | _, none => false
    if !eat0 && !eat1 then return stop
    let emit : List FibreEntry := match h0, h1 with
      | some x, some y =>
        if eat0 && eat1 then [(x.1, if uni then add32 x.2 y.2 else mul32 x.2 y.2)]
        else if uni then [if eat0 then x else y] else []
      | some x, none => [x]
      | none, some y => [y]
      | none, none => []
    let q0 := if eat0 then p0 + 1 else p0
    let q1 := if eat1 then p1 + 1 else p1
    let n0 ← if eat0 then headAt 0 d0 q0 else pure h0
    let n1 ← if eat1 then headAt 2 d1 q1 else pure h1
    let falls (d : StreamDesc) (eat : Bool) (a b : Option FibreEntry) : Bool := match a, b with
      | some x, some y => eat && decide (coordInt d y ≤ coordInt d x)
      | _, _ => false
    let done : MergeEnd := { out := out ++ emit, p0 := q0, p1 := q1, bad := none }
    if falls d0 eat0 h0 n0 then return { done with bad := some (0, q0) }
    if falls d1 eat1 h1 n1 then return { done with bad := some (1, q1) }
    mergeFrom uni d0 d1 fuel n0 n1 (out ++ emit) q0 q1 (taken + (if eat0 then 1 else 0) + (if eat1 then 1 else 0))

def execSmerge (vn : Reg) (uni : Bool) (s : State) : Host.Outcome State Fault Refusal :=
  runSeq (.smerge vn uni) (do
    let c ← getCtx
    needReg (.smerge vn uni) (c.hasV vn 2)
    let d0 := c.getSd 0
    let d1 := c.getSd 2
    needReg (.smerge vn uni) (d0.bound && d0.kind.isFibre && d1.bound && d1.kind.isFibre)
    let h0 ← headAt 0 d0 d0.pos.toNat
    let h1 ← headAt 2 d1 d1.pos.toNat
    let r ← mergeFrom uni d0 d1 33 h0 h1 [] d0.pos.toNat d1.pos.toNat 0
    let (v, k) := entryLanes r.out
    modCtx fun c => (c.setV vn.toNat v).setV (vn.toNat + 1) k
    moveTo 0 d0 r.p0
    moveTo 2 d1 r.p1
    match r.bad with
    | none => return ()
    | some (n, pos) => trap cFibreOrder (BitVec.ofNat 64 (n * 2 ^ 32 + pos % 2 ^ 32))) s

/-- The j-th piece after a read stream's position: its number, its pointer, its bytes and their alignment; none past the stream's end (R140). -/
def pieceAfter (d : StreamDesc) (j : Nat) : Option (Nat × Word × Nat × Nat) :=
  match d.kind with
  | .line =>
    let m := (d.lineAt.map fun p => p.1).getD 0 + j
    if m < d.limit.toNat then some (m, ptrAt d.val (128 * m), 128, 128) else none
  | .list =>
    let n := d.pos.toNat + j / 2
    if d.limit.toNat ≤ n then none
    else if j % 2 = 0 then some (n, ptrAt d.val (listSize d * n), listSize d, listSize d) else some (n, ptrAt d.coord (4 * n), 4, 4)
  | _ =>
    let n := d.pos.toNat + j
    if n < d.limit.toNat then some (n, ptrAt d.val (64 * n), 64, 64) else none

/-- STREAM_PREFETCH: a read stream fetches the first piece that it does not hold (R140); a fetch that fails is dropped. -/
def execStreamPrefetch (sd : BitVec 2) (s : State) : Host.Outcome State Fault Refusal :=
  let d := s.ctx.getSd sd
  if !d.bound || d.kind == .denseWrite || (sd.toNat % 2 == 1 && d.kind.isFibre) then .next s
  else
    let held := s.ctx.pieces.filter fun x => x.stream == sd
    match ((List.range (held.length + 1)).filterMap (pieceAfter d)).find? fun p => !(held.any fun x => x.ptr == p.2.1) with
    | none => .next s
    | some (index, p, n, a) => match (fetchBytes p n a : Act (List Byte)) s with
      | .ok bytes t => .next (t.modCtx fun c => { c with pieces := c.pieces ++ [{ stream := sd, index := index, ptr := p, bytes := bytes }] })
      | .error _ _ => .next s

/-- A read stream gives up a piece that it has fetched ahead, and fetches it again later: what a piece reflects is memory at any moment before its
pop (R140). A line popped in part is none. -/
def Ctx.dropPiece (c : Ctx) (k : Nat) : Ctx :=
  match c.pieces[k]? with
  | none => c
  | some x => match (c.getSd x.stream).lineAt with
    | some (m, n) => if x.index = m ∧ n ≠ 0 then c else { c with pieces := c.pieces.eraseIdx k }
    | none => { c with pieces := c.pieces.eraseIdx k }

end Sys2Proof.Machine
end

