-- ==== Sys2Proof/Machine/Sync.lean ====
section
/-!
DEFINITION. Fences, monitors, event lines, messages and multicast stores (spec 06 R149 to R158, 07 R164 to R179, 14 R331 to R343).
-/

namespace Sys2Proof.Machine

/-! ## Fences (R165, R167, R333) -/

def execFence (kind : FenceKind) (scope : Scope) (s : State) : Host.Outcome State Fault Refusal :=
  runSeq (.fence kind scope) (do
    match kind with
    | .acq => acquireFence
    | .rel => releaseFence scope
    | .full => do releaseFence scope; acquireFence) s

def execRfence (s : State) : Host.Outcome State Fault Refusal :=
  runSeq .rfence (do if (← get).core.unack ≠ 0 then holdFor .retry) s

/-! ## Monitors (R179, R334, R335) -/

def execMon (rs1 : Reg) (s : State) : Host.Outcome State Fault Refusal :=
  runSeq (.mon rs1) (do
    let p ← getX rs1
    let key ← scalarKey .load p 1
    if (regionOf key).offDevice then trap cAccess p
    let _ ← coreRead key 1
    modCtx fun c => { c with mon := (p &&& 0x00FFFFFFFFFFFF80#64) ||| 1, monLine := some (lineOf key), monHit := false }) s

/-- Disarms the monitor. -/
def Ctx.disarm (c : Ctx) : Ctx := { c with mon := c.mon &&& ~~~1#64, monLine := none, monHit := false }

/-- Whether MWAIT has a reason to return (R179). -/
def State.awake (s : State) : Bool :=
  bit s.ctx.mon 0 == false || s.ctx.monHit || s.ctx.evPend &&& s.ctx.evEn != 0 || s.interruptPending

def execMwait (s : State) : Host.Outcome State Fault Refusal :=
  runSeq .mwait (do
    if !(← get).awake then holdFor .mwait
    modCtx Ctx.disarm) s

/-- MWAIT_SPURIOUS_RETURN: a waiting MWAIT returns for no reason at all (R179). -/
def execMwaitSpuriousReturn (s : State) : Host.Outcome State Fault Refusal :=
  if s.core.hold = .mwait then runSeq .mwait (modCtx Ctx.disarm) s else .next s

/-! ## Event lines (R336 to R338) -/

def execEvsig (rs1 : Reg) (ev : BitVec 3) (s : State) : Host.Outcome State Fault Refusal :=
  runSeq (.evsig rs1 ev) (do
    let w := (← get).who
    let target ← liftChk (coordCore w (← getX rs1))
    roomFor 1
    modify fun s => (s.modDev fun d => { d with signals := d.signals ++ [{ core := s.core.id, target := target, ev := ev }] }).modCore
      fun c => { c with unack := c.unack + 1 }) s

/-- EVENT_SIGNAL_LAND: the k-th signal in flight sets its bit in the context that is active at its target (R336, R337). It does not
overtake an earlier one of its sender to its target (R144). -/
def execEventSignalLand (k : Nat) (s : State) : Host.Outcome State Fault Refusal :=
  match s.dev.signals[k]? with
  | none => .next s
  | some e =>
    if (s.dev.signals.take k).any fun f => f.core == e.core && f.target == e.target then .next s
    else
      let s := s.modDev fun d => { d with signals := d.signals.eraseIdx k }
      let s := s.modCtxId e.target fun c => { c with evPend := c.evPend ||| (1#8 <<< e.ev.toNat) }
      .next (s.acknowledge e.core)

def execEvwait (ev : BitVec 3) (s : State) : Host.Outcome State Fault Refusal :=
  runSeq (.evwait ev) (do
    if (← getCtx).evPend.getLsbD ev.toNat = false then holdFor .retry
    modCtx fun c => { c with evPend := c.evPend &&& ~~~(1#8 <<< ev.toNat) }) s

/-! ## Messages (R149 to R154, R339 to R341) -/

/-- The header of a message (R149). -/
def State.msgHeader (s : State) (ch : BitVec 4) (vec : Bool) : Word :=
  BitVec.ofNat 64 (s.ctx.lnum.toNat * 2 ^ 28 + (if s.ctx.narm then 2 ^ 27 else 0) + (if vec then 2 ^ 26 else 0) + ch.toNat * 2 ^ 22
    + s.core.die.toNat * 2 ^ 21 + s.core.row.toNat * 2 ^ 15 + s.core.col.toNat * 2 ^ 9)

/-- Fields of a header. -/
def hdrLnum (h : Word) : BitVec 12 := BitVec.ofNat 12 (bits h 28 12)
def hdrNarm (h : Word) : Bool := bit h 27
def hdrVec (h : Word) : Bool := bit h 26
def hdrCh (h : Word) : BitVec 4 := BitVec.ofNat 4 (bits h 22 4)

def execSend (data rs1 : Reg) (ch : BitVec 4) (vec : Bool) (s : State) : Host.Outcome State Fault Refusal :=
  let i := Instr.send data rs1 ch vec
  runSeq i (do
    needReg i (!vec || (← getCtx).hasV data 1)
    let s ← get
    if s.dev.resvs.any fun r => r.core == s.core.id then holdFor .send
    let target ← liftChk (coordCore s.who (← getX rs1))
    roomFor 1
    let r : Reservation :=
      { core := s.core.id, target := target, hdr := s.msgHeader ch vec, reached := false, granted := false, toBuffer := false, word := wordOf i }
    modDev fun d => { d with resvs := d.resvs ++ [r] }
    holdFor .send) s

/-- Takes a received message into a register: a scalar one has eight bytes (R341). -/
def takePayload (rd : Reg) (vec : Bool) (m : Msg) : Act Unit :=
  if vec then writeGroup rd 1 (if hdrVec m.hdr then m.payload.toNat else m.payload.toNat % 2 ^ 64) else setX rd (m.payload.setWidth 64)

/-- RECV and RECVNB (R154, R341): empty says what happens where the channel has no entry. -/
def receive (i : Instr) (rd : Reg) (ch : BitVec 4) (vec : Bool) (empty : Act Unit) : Act Unit := guardCtx do
  needReg i (!vec || (← getCtx).hasV rd 1)
  let c ← getCtx
  match c.rbuf.findIdx? fun m => hdrCh m.hdr == ch with
  | none => empty
  | some k =>
    match c.rbuf[k]? with
    | none => empty
    | some m =>
      if hdrNarm m.hdr ≠ c.narm then trap cNarmMismatch m.hdr
      modCtx fun c => { c with rbuf := c.rbuf.eraseIdx k }
      takePayload rd vec m

def execRecv (rd : Reg) (ch : BitVec 4) (vec : Bool) (s : State) : Host.Outcome State Fault Refusal :=
  runSeq (.recv rd ch vec) (receive (.recv rd ch vec) rd ch vec (holdFor (.recv ch))) s

def execRecvnb (rd : Reg) (ch : BitVec 4) (vec : Bool) (s : State) : Host.Outcome State Fault Refusal :=
  runSeq (.recvnb rd ch vec) (receive (.recvnb rd ch vec) rd ch vec (takePayload rd vec { hdr := 0, payload := 0 })) s

/-- Counts a message of a launch number at a core's interface (R225). -/
def Core.countMsg (c : Core) (lnum : BitVec 12) (sent received : Nat) : Core :=
  if c.counts.any fun n => n.lnum == lnum then
    { c with counts := c.counts.map fun n => if n.lnum = lnum then { n with sent := n.sent + sent, received := n.received + received } else n }
  else { c with counts := c.counts ++ [{ lnum := lnum, sent := sent, received := received }] }

/-- The context buffer that KCTXB names, where it is in use: its physical address (R152). -/
def Core.ctxBuffer (c : Core) : Option Nat := if bit c.kctxb 0 then some (bits c.kctxb 12 40 * 4096) else none

/-- Messages that a context buffer holds (R152). -/
def State.bufferCount (s : State) (base : Nat) : Nat := s.peekNat (base + 0x1600) 8 % 128

/-- Whether KCTXB of a core names a launch number, and its buffer. -/
def Core.bufferOf (c : Core) (lnum : BitVec 12) : Option Nat :=
  if BitVec.ofNat 12 (bits c.kctxb 52 12) = lnum then c.ctxBuffer else none

/-- A core's message interface reads the count of the context buffer that KCTXB names for a launch number, and meets an uncorrectable error there
(R253). -/
def State.meetCount (s : State) (core : Nat) (lnum : BitVec 12) : State :=
  match (s.coreById core).bind fun c => c.bufferOf lnum with
  | none => s
  | some b => s.meetRange (b + 0x1600) 8

/-- The read of the first messages of a context buffer, and of its count, meets what uncorrectable errors lie there (R253). -/
def State.meetMessages (s : State) (base n : Nat) : State :=
  ((s.meetRange (base + 0x1600) 8).meetRange base (64 * n)).meetRange (base + 0x1400) (8 * n)

/-- Writes message slot i of a context buffer (R152). -/
def State.bufferPut (s : State) (base i : Nat) (m : Msg) : State :=
  (s.poke (base + 64 * i) (leBytes 64 m.payload.toNat)).poke (base + 0x1400 + 8 * i) (leBytes 8 m.hdr.toNat)

/-- Reads message slot i of a context buffer. -/
def State.bufferGet (s : State) (base i : Nat) : Msg :=
  { hdr := BitVec.ofNat 64 (s.peekNat (base + 0x1400 + 8 * i) 8), payload := BitVec.ofNat 512 (s.peekNat (base + 64 * i) 64) }

/-- The context buffer holding these messages, in slot order. -/
def State.bufferStore (s : State) (base : Nat) (ms : List Msg) : State :=
  ((ms.zipIdx).foldl (fun s (m, i) => s.bufferPut base i m) s).poke (base + 0x1600) (leBytes 8 ms.length)

/-- The messages of a context buffer. -/
def State.bufferLoad (s : State) (base : Nat) : List Msg := (List.range (s.bufferCount base)).map fun i => s.bufferGet base i

/-- A number for the distributor as the sender of messages; no core has it. Its messages take an entry when they arrive (log 51). -/
def distributorId : Nat := 5000

/-- Entries reserved at a core in one of its two places: granted and not yet sent, or on their way (R151). -/
def Dev.reservedAt (d : Dev) (target : Nat) (toBuffer : Bool) : Nat :=
  (d.resvs.filter fun r => r.target == target && r.granted && r.toBuffer == toBuffer).length
    + (d.payloads.filter fun p => p.core != distributorId && p.target == target && p.toBuffer == toBuffer).length

/-- Whether the active context of a core is one of a launch number: a context that has ended or left is none (R150). -/
def Core.takes (c : Core) (lnum : BitVec 12) : Bool := c.run == .running && c.ctx.lnum == lnum

/-- Where a target would grant a reservation of a launch number: none where it must wait, else whether in the context buffer (R150 to
R153). A message does not overtake one of its context that stands in the buffer or is on its way there. -/
def State.grantAt (s : State) (target : Nat) (lnum : BitVec 12) : Option Bool :=
  match s.coreById target with
  | none => none
  | some c =>
    if c.takes lnum then
      let older := match c.bufferOf lnum with
        | none => 0
        | some b => s.bufferCount b + s.dev.reservedAt target true
      if older = 0 ∧ c.ctx.rbuf.length + s.dev.reservedAt target false < 32 then some false else none
    else match c.bufferOf lnum with
      | none => none
      | some b => if s.bufferCount b + s.dev.reservedAt target true < 32 then some true else none

/-- RESERVATION_REQUEST: the k-th reservation reaches its target, or is looked at there again; the target grants it when it is the oldest
that can be granted there (R151). -/
def execReservationRequest (k : Nat) (s : State) : Host.Outcome State Fault Refusal :=
  match s.dev.resvs[k]? with
  | none => .next s
  | some r =>
    if r.granted then .next s
    else
      let s := if r.reached then s
        else s.modDev fun d => { d with resvs := d.resvs.eraseIdx k ++ [{ r with reached := true }] }
      let s := s.meetCount r.target (hdrLnum r.hdr)
      let waiting := s.dev.resvs.filter fun q => q.target == r.target && q.reached && !q.granted
      match waiting.find? fun q => (s.grantAt q.target (hdrLnum q.hdr)).isSome with
      | none => .next s
      | some q =>
        if q.core = r.core then
          let place := (s.grantAt q.target (hdrLnum q.hdr)).getD false
          .next (s.modDev fun d => { d with
            resvs := d.resvs.map fun p => if p.core = r.core then { p with granted := true, toBuffer := place } else p })
        else .next s

/-- The payload of a SEND, as its register stands (R340). -/
def sendPayload (data : Reg) (vec : Bool) : Act VWord := do
  if vec then
    let vs ← readGroups [(data, 1)]
    return BitVec.ofNat 512 (vs.getD 0 0)
  else return (← getX data).setWidth 512

/-- RESERVATION_GRANT: the grant of the k-th reservation reaches its sender, whose SEND retires and whose payload leaves (R151, R340). -/
def execReservationGrant (k : Nat) (s : State) : Host.Outcome State Fault Refusal :=
  match s.dev.resvs[k]? with
  | none => .next s
  | some r =>
    if r.granted = false ∨ r.core ≠ s.core.id ∨ s.core.hold ≠ .send then .next s
    else match decode r.word with
      | some (.send data rs1 ch vec) =>
        runSeq (.send data rs1 ch vec) (guardCtx do
          modDev fun d => { d with resvs := d.resvs.filter fun q => q.core != r.core }
          let payload ← sendPayload data vec
          modDev fun d => { d with
            payloads := d.payloads ++ [{ core := r.core, target := r.target, msg := { hdr := r.hdr, payload := payload }, toBuffer := r.toBuffer }] }
          modCore fun c => { (c.countMsg (hdrLnum r.hdr) 1 0) with unack := c.unack + 1 }) s
      | _ => .next s

/-- Whether a core has a context of a launch number, active or not, that a message can still reach. -/
def Core.hasContext (c : Core) (lnum : BitVec 12) : Bool :=
  ((c.run == .running || c.run == .heldForRebuild) && c.ctx.lnum == lnum) || c.residents.any fun r => r.lnum == lnum

/-- A message enters the receive buffer of a core's active context, or the context buffer (R150, R152, R153); none where neither is its
context's at the moment, or, of the distributor's message, where neither has an entry that is free and not reserved. The entry of a message that
was granted is that of a context: one that has ended by HALT has it until its hand-off, and with one that is gone the message is discarded
(log 117). -/
def State.deliver (s : State) (sender target : Nat) (m : Msg) : Option State :=
  match s.coreById target with
  | none => none
  | some c =>
    let lnum := hdrLnum m.hdr
    let toRbuf := s.modCtxId target fun x => { x with rbuf := x.rbuf ++ [m] }
    let toBuffer (b : Nat) : Option State :=
      if s.bufferCount b < 64 then some ((s.bufferPut b (s.bufferCount b) m).poke (b + 0x1600) (leBytes 8 (s.bufferCount b + 1))) else none
    if sender = distributorId ∧ (s.grantAt target lnum).isNone then none
    else if c.takes lnum then
      match c.bufferOf lnum with
      | none => if c.ctx.rbuf.length < 32 then some toRbuf else none
      | some b => if s.bufferCount b = 0 ∧ c.ctx.rbuf.length < 32 then some toRbuf else toBuffer b
    else match c.bufferOf lnum with
      | some b => toBuffer b
      | none =>
        if sender = distributorId ∨ c.hasContext lnum then none
        else if c.run = .ended ∧ c.ctx.lnum = lnum then some toRbuf
        else some s

/-- MESSAGE_ARRIVAL: the k-th payload in flight arrives; it does not overtake an earlier one of its sender to its target (R144, R151). -/
def execMessageArrival (k : Nat) (s : State) : Host.Outcome State Fault Refusal :=
  match s.dev.payloads[k]? with
  | none => .next s
  | some p =>
    let s := s.meetCount p.target (hdrLnum p.msg.hdr)
    if (s.dev.payloads.take k).any fun q => q.core == p.core && q.target == p.target then .next s
    else match s.deliver p.core p.target p.msg with
      | none => .next s
      | some t =>
        let t := t.modDev fun d => { d with payloads := d.payloads.eraseIdx k }
        let t := t.modCoreId p.target fun c => c.countMsg (hdrLnum p.msg.hdr) 0 1
        .next (t.acknowledge p.core)

/-- Moves messages of the active context out of its context buffer into its receive buffer, as far as entries are free; one that is reserved
is not (R153, log 105). -/
def State.replayBuffer (s : State) : State :=
  match s.core.bufferOf s.ctx.lnum with
  | none => s
  | some b =>
    let ms := s.bufferLoad b
    let n := min ms.length (32 - (s.ctx.rbuf.length + s.dev.reservedAt s.core.id false))
    let s := s.meetMessages b (if n = 0 then 0 else ms.length)
    if n = 0 then s
    else
      (s.modCtx fun c => { c with rbuf := c.rbuf ++ ms.take n }).bufferStore b (ms.drop n)

/-- CONTEXT_BUFFER_DRAIN: messages move on from the context buffer as entries free up (R153). -/
def execContextBufferDrain (s : State) : Host.Outcome State Fault Refusal :=
  if s.core.run = .running then .next s.replayBuffer else .next s

/-! ## Multicast stores (R156 to R158, R342, R343) -/

/-- Bits of a target set that must be zero (R342). -/
def targetReserved : Word := 0xFFFFFFC0C0FEC0C0#64

/-- The cores of a target set, or none where one lies outside the party's partition (R342). -/
def State.targetSet (s : State) (w : Who) (v : Word) : Option (List Nat) :=
  let rows := (List.range (bits v 32 6 + 1)).map fun i => bits v 8 6 + i
  let cols := (List.range (bits v 24 6 + 1)).map fun i => bits v 0 6 + i
  let each := rows.flatMap fun r => cols.map fun c => s.coreNamed w (bits v 16 1) r c
  if each.any fun t => t.isNone then none else some (each.filterMap fun t => t)

/-- The announcer index of the core in focus (R157); that of a core of no partition is its number (log 102). -/
def State.announcer (s : State) : Nat :=
  match s.part? s.core.part with
  | none => s.core.id
  | some p => s.core.die.toNat * p.height * p.width + s.core.row.toNat * p.width + s.core.col.toNat

/-- Hands a broadcast to the interface (R156): it counts in UNACK. -/
def State.broadcast (s : State) (op : BcastOp) (todo : List Nat) : State :=
  let (n, s) := s.takeSeq
  let b : Bcast :=
    { id := n, core := s.core.id, part := s.core.part, lnum := s.ctx.lnum, index := s.announcer, op := op
      retired := s.dev.cycles / 32, window := none, ordered := none, todo := todo }
  (s.modDev fun d => { d with bcasts := d.bcasts ++ [b] }).modCore fun c => { c with
    unack := c.unack + 1
    bq := c.bq ++ [n]
    pendReg := match op with
      | .quantum _ _ rd => if rd = 0 then c.pendReg else c.pendReg ++ [(n, rd)]
      | .mcast _ _ _ => c.pendReg }

/-- Holds the core while its interface holds 16 broadcasts not announced (R343). -/
def interfaceRoom : Act Unit := do
  if 16 ≤ (← get).core.bq.length then holdFor .retry
  roomFor 1

def execMcast (data rs1 rs2 : Reg) (s : State) : Host.Outcome State Fault Refusal :=
  runSeq (.mcast data rs1 rs2) (do
    let p ← getX rs1
    let set ← getX rs2
    if 10 ≤ fmtOf p then trap cFormat p
    if set &&& targetReserved ≠ 0 then trap cFormat set
    if !(alignedTo p 8) then trap cMisaligned p
    if isMesh p = false ∨ bits p 53 2 ≠ 0 ∨ 0x60000 ≤ bits p 0 40 then trap cAccess p
    let s ← get
    match s.targetSet s.who set with
    | none => trap cAccess set
    | some ts =>
      interfaceRoom
      let datum ← getX data
      modify fun s => s.broadcast (.mcast (bits p 0 40) datum ts) ts) s

/-- Whether one broadcast comes before another in a window (R157). -/
def Bcast.before (a b : Bcast) : Bool :=
  decide (a.part.toNat < b.part.toNat) || (a.part == b.part && (decide (a.index < b.index) || (a.index == b.index && decide (a.id < b.id))))

/-- Broadcasts in the order of R157. -/
def insertBcast (a : Bcast) : List Bcast → List Bcast
  | [] => [a]
  | b :: bs => if a.before b then a :: b :: bs else b :: insertBcast a bs

def sortBcasts (bs : List Bcast) : List Bcast := bs.foldr insertBcast []

/-- The broadcasts of a core's interface that it announces in the window after one: up to four, in their order, of those that have retired by
then (R156). -/
def Dev.announced (d : Dev) (now : Nat) (bq : List Nat) : List Nat :=
  (bq.takeWhile fun n => d.bcasts.any fun b => b.id == n && decide (b.retired ≤ now)).take 4

/-- The close of a window: the broadcasts announced in it get their place in the one order, and each interface announces those of the next
(R155 to R157). -/
def State.closeWindow (s : State) : State :=
  let now := s.dev.window
  let order := sortBcasts (s.dev.bcasts.filter fun b => b.window == some now)
  let s := order.foldl (fun s b =>
    let (n, s) := s.takeSeq
    s.modDev fun d => { d with bcasts := d.bcasts.map fun x => if x.id = b.id then { x with ordered := some n } else x }) s
  let next := s.cores.flatMap fun c => s.dev.announced now c.bq
  let cut (c : Core) : Core := { c with bq := c.bq.drop (s.dev.announced now c.bq).length }
  { s with
    core := cut s.core
    rest := s.rest.map cut
    dev := { s.dev with
      window := now + 1
      bcasts := s.dev.bcasts.map fun b => if next.contains b.id then { b with window := some (now + 1) } else b } }

/-- WEIR_WINDOW_CLOSE: the next window that is to close does, once its 32 cycles of the main clock are over (R155). -/
def execWeirWindowClose (s : State) : Host.Outcome State Fault Refusal :=
  if (s.dev.window + 1) * 32 ≤ s.dev.cycles then .next s.closeWindow else .next s

/-- The core whose pool a quantum atomic's home is, if it is a pool. -/
def Bcast.poolHome (b : Bcast) : Option Nat :=
  match b.op with
  | .quantum home _ _ => match regionOf home with
    | .pool t => some t
    | _ => none
  | .mcast _ _ _ => none

def Bcast.isQuantum (b : Bcast) : Bool :=
  match b.op with
  | .quantum _ _ _ => true
  | .mcast _ _ _ => false

/-- The applications still to be made, one for each broadcast and target (R157). -/
def Dev.applications (d : Dev) : List (Bcast × Nat) := d.bcasts.flatMap fun b => b.todo.map fun t => (b, t)

/-- Whether a broadcast that comes earlier in the order and concerns the same agent is still to be applied (R157, R175). -/
def Dev.earlierPending (d : Dev) (b : Bcast) (t : Nat) : Bool :=
  match b.ordered with
  | none => true
  | some n => d.bcasts.any fun x => match x.ordered with
    | none => false
    | some m => decide (m < n) &&
      (if b.isQuantum then x.isQuantum || (match b.poolHome with
        | some p => x.todo.contains p
        | none => false)
      else (!x.isQuantum && x.todo.contains t) || x.poolHome == some t)

/-- Whether a broadcast is a quantum atomic whose home lies behind a failed port (R464). -/
def Bcast.cutOff (b : Bcast) (d : Dev) : Bool :=
  match b.op with
  | .quantum home _ _ => d.cutOff home
  | .mcast _ _ _ => false

/-- Whether a context of a launch number is resident on a core with the bytes in its scratchpad granules (R343). -/
def State.holdsScratch (s : State) (target : Nat) (lnum : BitVec 12) (off : Nat) : Bool :=
  let g := off / 4096
  let inPpw (p : Word) : Bool := decide (bits p 32 8 ≤ g ∧ g < bits p 32 8 + bits p 40 8)
  match s.coreById target with
  | none => false
  | some c => (c.ctx.lnum == lnum && inPpw c.ctx.ppw) || c.residents.any fun r => r.lnum == lnum && inPpw r.ppw

/-- A quantum atomic that cannot be performed is lost, and no longer counts in UNACK (R80, R464). -/
def State.loseBcast (s : State) (b : Bcast) (info : Word) : State :=
  let s := s.modDev fun d => { d with bcasts := d.bcasts.filter fun x => x.id != b.id }
  let s := s.modCoreId b.core fun c => { c with bq := c.bq.filter fun n => n != b.id }
  (s.acknowledge b.core).lose [(b.core, b.id)] info

/-- BROADCAST_APPLY: the k-th application outstanding is made, once the order admits it: a target applies or discards a multicast store, or
the home performs a quantum atomic, whose result then returns (R157, R158, R175, R343). -/
def execBroadcastApply (k : Nat) (s : State) : Host.Outcome State Fault Refusal :=
  match s.dev.applications[k]? with
  | none => .next s
  | some (b, t) =>
    if s.dev.earlierPending b t || b.cutOff s.dev then .next s
    else match b.op with
      | .mcast off datum _ =>
        let s := if b.lnum = 0 ∨ s.holdsScratch t b.lnum off then s.poke (poolKey t off) (leBytes 8 datum.toNat) else s
        let left := b.todo.erase t
        let s := s.modDev fun d => { d with
          bcasts := (d.bcasts.map fun x => if x.id = b.id then { x with todo := left } else x).filter fun x => !(x.id == b.id && left.isEmpty) }
        .next (if left.isEmpty then s.acknowledge b.core else s)
      | .quantum home op rd =>
        let s := s.drainLines b.core home 8 b.id
        match s.dev.opBad home op with
        | some w =>
          let (info, s) := s.meetError w
          .next (s.loseBcast b info)
        | none =>
          let (old, s) := s.performOp home op
          let f : Flight :=
            { id := b.id, core := b.core, lnum := b.lnum, home := home, op := op, comm := false, append := false, rd := some rd, done := true, acked := false
              old := old, merged := [] }
          .next ((s.modDev fun d => { d with bcasts := d.bcasts.filter fun x => x.id != b.id, flights := d.flights ++ [f] }).acknowledge b.core)

end Sys2Proof.Machine
end

