-- ==== Sys2Proof/Machine/Atomics.lean ====
section
/-!
DEFINITION. Atomics, acquire loads and release stores (spec 07 R171 to R175, 14 R344 to R347), and versioned cells (07 R176 to R178,
14 R348, R349).
-/

namespace Sys2Proof.Machine

/-! ## Atomics -/

/-- Whether an atomic may go to the host window: AMO add and swap, and CAS, ordered or unpaired or non-ordering (R17, R346). -/
def hostAccepts (op : FlightOp) (ord : AtomOrder) : Bool :=
  (match op with
    | .amo .add _ => true
    | .amo .swap _ => true
    | .cas _ _ => true
    | _ => false) &&
  (match ord with
    | .relaxed .unp => true
    | .relaxed .nord => true
    | .relaxed _ => false
    | _ => true)

/-- What a speculative atomic that was performed writes to rd (R345). -/
def specResult (op : FlightOp) (old : Word) : Word :=
  match op with
  | .cas c _ => if old = c then 1 else 0
  | _ => 1

/-- An atomic performed now for the core in focus, as a load is (R159, R162): the old value. -/
def performNow (key : Nat) (op : FlightOp) : Act Word := do
  let _ ← homeRead key 8
  modifyGet fun s => s.performOp key op

/-- The scope of an ordered atomic's release part, and that of its acquire part (R171). -/
def orderReleases : AtomOrder → Option Scope
  | .rel s => some s
  | .acqrel s => some s
  | .acq _ => none
  | .relaxed _ => none

def orderAcquires : AtomOrder → Bool
  | .acq _ => true
  | .acqrel _ => true
  | .rel _ => false
  | .relaxed _ => false

/-- Ends an access that has its value and acquires: where earlier results are still to come, it keeps the core until they are (R165). -/
def acquireWith (i : Instr) (key : Nat) (v : Word) : Act Unit := do
  if (← get).resultsPending then
    modCore fun c => { c with out := some { word := some (wordOf i), home := key, width := 8, value := some v, failed := false } }
    holdFor .load
  modCtx fun c => { c with pieces := [] }

/-- An atomic that holds the core until its old value returns (R171, R172): off the device it leaves the core. -/
def holdingAtomic (i : Instr) (ord : AtomOrder) (key : Nat) (op : FlightOp) (rd : Reg) : Act Flow := do
  match orderReleases ord with
  | some scope => releaseFence scope
  | none => pure ()
  if (regionOf key).offDevice then leaveFor i key 8
  else
    let old ← performNow key op
    if orderAcquires ord then acquireWith i key old
    setX rd old
    return .seq

/-- Whether the translation of an access misses the TLB that serves it (R86, R174). -/
def State.missesTlb (s : State) (p : Word) : Bool :=
  !isMesh p && !(s.core.mgmt && s.core.kptb == 0) && (s.tlbFind s.who (bits p 0 48) true).isNone

/-- Whether a kept page fault is that of an address in an address space. -/
def SpecFault.isAt (f : SpecFault) (kptb p : Word) : Bool := f.kptb == kptb && f.page == bits p 12 36

/-- PAGE_WALK: the walk that a speculative atomic started ends; of its outcomes only a page fault is kept (R84, R346). Its
information is that of the attempt that started the walk, also where a later one takes it with another tag or page offset (the model's choice, log
145). -/
def State.endSpecWalk (s : State) : State :=
  match s.core.specWalk with
  | none => s
  | some (kptb, p) =>
    let s := s.modCore fun c => { c with specWalk := none }
    match runChk (pageWalk { s.who with kptb := kptb } .rmw (tagOf p) (bits p 0 48)) s with
    | (.ok _, t) => t
    | (.error (n, info), t) =>
      let f : SpecFault := { kptb := kptb, page := bits p 12 36, cause := n, info := info }
      if n = cStorePage then t.modCore fun c => { c with specFault := (c.specFault.filter fun g => !(g.isAt kptb p)) ++ [f] } else t

def execPageWalk (s : State) : Host.Outcome State Fault Refusal := .next s.endSpecWalk

/-- The checks of a speculative atomic's pointer that come before its translation (R25 checks 1 to 3). -/
def specChecks (p : Word) : Chk Unit := do
  checkScalar p
  if isMesh p = false ∧ bits p 48 7 ≠ 0 then failWith cNoncanon p
  if !(alignedTo p 8) then failWith cMisaligned p

/-- A speculative atomic that misses: it fails and starts a walk, or takes the page fault of an earlier walk (R174, R346). -/
def specMiss (p : Word) (rd : Reg) : Act Flow := do
  let kptb := (← get).core.kptb
  match (← get).core.specFault.find? fun f => f.isAt kptb p with
  | some f =>
    modCore fun c => { c with specFault := c.specFault.filter fun g => !(g.isAt kptb p) }
    trap f.cause f.info
  | none => pure ()
  modify State.endSpecWalk
  modCore fun c => { c with specWalk := some (kptb, p) }
  setX rd 0
  return .seq

/-- A speculative atomic (R174): it fails, too, where a quantum atomic of the core to the line is on its way. -/
def specAtomic (i : Instr) (p : Word) (op : FlightOp) (rd : Reg) : Act Flow := do
  liftChk (specChecks p)
  if (← get).missesTlb p then specMiss p rd
  else
    let key ← scalarKey .rmw p 8
    if regionOf key == .hostMem then trap cAccess p
    let n ← modifyGet State.takeFresh
    if (← get).quantumOn key 8 || Config.specDeclined n then
      setX rd 0
      return .seq
    else if (regionOf key).offDevice then leaveFor i key 8
    else
      setX rd (specResult op (← performNow key op))
      return .seq

/-- Traps where what an operation that does not hold the core is to read at its home holds an uncorrectable error when it is issued, behind the
core's own earlier accesses; behind a quantum atomic to the line it meets the error at its home (R80, R116, R163, log 31). -/
def soundFor (key : Nat) (op : FlightOp) : Act Unit := do
  if ((← get).dev.opBad key op).isSome && !((← get).quantumOn key 8) then
    modify fun s => s.drainLines s.core.id key 8 s.dev.seq
    match (← get).dev.opBad key op with
    | some w => trap cEccUncorr (← modifyGet fun s => s.meetError w)
    | none => return ()

/-- An AMO or CAS (R345, R346). -/
def atomic (i : Instr) (ord : AtomOrder) (p : Word) (op : FlightOp) (rd : Reg) : Act Flow := do
  if ord = .relaxed .spec then specAtomic i p op rd
  else
    let key ← scalarKey .rmw p 8
    if regionOf key == .hostMem && !hostAccepts op ord then trap cAccess p
    match ord with
    | .relaxed .unp =>
      soundFor key op
      roomFor 1
      modify fun s => s.launchFlight key op false false (some rd)
      return .seq
    | .relaxed .comm =>
      soundFor key op
      roomFor 1
      modify fun s => s.launchFlight key op true false none
      return .seq
    | .relaxed .quant =>
      soundFor key op
      interfaceRoom
      modify fun s => s.broadcast (.quantum key op rd) [0]
      return .seq
    | _ => holdingAtomic i ord key op rd

def execAmo (op : AmoOp) (ord : AtomOrder) (rd rs1 rs2 : Reg) (s : State) : Host.Outcome State Fault Refusal :=
  let i := Instr.amo op ord rd rs1 rs2
  runFlow i (do atomic i ord (← getX rs1) (.amo op (← getX rs2)) rd) s

def execCas (ord : AtomOrder) (rd rs1 rs2 : Reg) (s : State) : Host.Outcome State Fault Refusal :=
  let i := Instr.cas ord rd rs1 rs2
  runFlow i (do atomic i ord (← getX rs1) (.cas (← getX rd) (← getX rs2)) rd) s

/-! ## Acquire loads and release stores (R165, R347) -/

def execLda (scope : Scope) (rd rs1 : Reg) (s : State) : Host.Outcome State Fault Refusal :=
  let i := Instr.lda scope rd rs1
  runFlow i (do
    let key ← scalarKey .load (← getX rs1) 8
    if (regionOf key).offDevice then leaveFor i key 8
    else
      let v := BitVec.ofNat 64 (leNat (← homeRead key 8))
      acquireWith i key v
      setX rd v
      return .seq) s

def execStr (scope : Scope) (rs1 rs2 : Reg) (s : State) : Host.Outcome State Fault Refusal :=
  runSeq (.str scope rs1 rs2) (do
    releaseFence scope
    let key ← scalarKey .store (← getX rs1) 8
    coreWrite key (leBytes 8 (← getX rs2).toNat)) s

/-! ## Versioned cells -/

/-- The checks of a cell's pointer, in the order of R348. -/
def cellKey (p : Word) : Act Nat := do
  liftChk (checkScalar p)
  if !(alignedTo p 64) then trap cMisaligned p
  if isMesh p = false ∨ 2 ≤ bits p 53 2 then trap cAccess p
  let s ← get
  match s.meshKey s.who p 64 with
  | none => trap cAccess p
  | some k => return k

/-- A cell write that retires once it has left the core (R348). -/
def cellWrite (key : Nat) (op : FlightOp) : Act Unit := do
  if (← get).storeHeld key 8 then holdFor .retry
  soundFor key op
  let s ← get
  if s.isRemote key then
    roomFor 1
    modify fun s => s.launchFlight key op false false none
  else modify fun s => ((s.drainLines s.core.id key 64 s.dev.seq).performOp key op).2

def execCinit (rs1 rs2 : Reg) (s : State) : Host.Outcome State Fault Refusal :=
  runSeq (.cinit rs1 rs2) (do
    let key ← cellKey (← getX rs1)
    releaseFence .dev
    cellWrite key (.cinit (← getX rs2))) s

def execCrcl (rs1 rs2 : Reg) (s : State) : Host.Outcome State Fault Refusal :=
  runSeq (.crcl rs1 rs2) (do
    let key ← cellKey (← getX rs1)
    cellWrite key (.crcl (← getX rs2))) s

def execCver (rd rs1 : Reg) (s : State) : Host.Outcome State Fault Refusal :=
  runSeq (.cver rd rs1) (do
    let key ← cellKey (← getX rs1)
    setX rd (BitVec.ofNat 64 (← coreReadNat (key + 0x20) 8))) s

/-- Withdraws the core's posted CST or CLD. -/
def dropCell : Act Unit := modify fun s => s.modDev fun d => { d with cells := d.cells.filter fun w => w.core != s.core.id }

/-- A CST or CLD at its home: performed when its condition holds, else it waits there (R177, R348): what it returns. -/
def cellAt (w : CellWait) : Act CellResult := do
  if (← get).quantumOn w.home 64 then holdFor .retry
  modify fun s => s.drainLines s.core.id w.home 64 s.dev.seq
  let s ← get
  match s.cellOf s.core.id with
  | some x => match x.result with
    | some r => return r
    | none => holdFor .cell
  | none => match s.cellPerform w with
    | some (r, t) =>
      set (t.settleCells t.dev.cells.length)
      return r
    | none =>
      modDev fun d => { d with cells := d.cells ++ [w] }
      holdFor .cell

def execCst (rs1 rs2 : Reg) (s : State) : Host.Outcome State Fault Refusal :=
  runSeq (.cst rs1 rs2) (do
    let s ← get
    let w ← match s.cellOf s.core.id with
      | some x => pure x
      | none => do
        let key ← cellKey (← getX rs1)
        releaseFence .dev
        pure { core := s.core.id, home := key, store := true, arg := ← getX rs2, rd := 0, result := none }
    let r ← cellAt w
    dropCell
    match r with
    | .spoilt info => trap cEccUncorr info
    | _ => return ()) s

def execCld (rd rs1 rs2 : Reg) (s : State) : Host.Outcome State Fault Refusal :=
  runSeq (.cld rd rs1 rs2) (do
    let s ← get
    let w ← match s.cellOf s.core.id with
      | some x => pure x
      | none => do
        let key ← cellKey (← getX rs1)
        pure { core := s.core.id, home := key, store := false, arg := ← getX rs2, rd := rd, result := none }
    let r ← cellAt w
    match r with
    | .gone => do
      dropCell
      trap cCellGone w.arg
    | .spoilt info => do
      dropCell
      trap cEccUncorr info
    | .value v => do
      if (← get).resultsPending then
        modDev fun d => { d with cells := (d.cells.filter fun x => x.core != w.core) ++ [{ w with result := some r }] }
        holdFor .cell
      dropCell
      modCtx fun c => { c with pieces := [] }
      setX rd v) s

end Sys2Proof.Machine
end

