-- ==== Sys2Proof/Machine/Network.lean ====
section
/-!
DEFINITION. Accesses in flight (spec 01 R26 to R30, 07 R159 to R175): performed at their homes, acknowledged and returned; link errors and
self-tests (06 R145, 10 R253, R254), and the error log (24 R471, R472).
-/

namespace Sys2Proof.Machine

/-! ## At the homes -/

/-- Whether another access is still to be performed before an access in flight: an earlier one of the same core to the same line or to the host
(R17, R161), a quantum atomic of the core to the line (R163), or one that stands before it in the host interface's posted queue (R27). -/
def Dev.behind (d : Dev) (f : Flight) : Bool :=
  (d.flights.any fun g => g.ahead f) || d.behindQuantum f
  || (regionOf f.home == .hostMem && (d.flights.takeWhile fun g => g.id != f.id).any fun g => g.acked && !g.done)

/-- HOME_PERFORM_ACCESS: the k-th access in flight is performed at its home (R159); never one that goes through a port
that has failed (R464). -/
def execHomePerformAccess (k : Nat) (s : State) : Host.Outcome State Fault Refusal :=
  match s.dev.flights[k]? with
  | none => .next s
  | some f => if f.done || s.dev.behind f || s.dev.cutOff f.home then .next s else .next (s.performFlight f)

/-- Whether an access in flight can enter the host interface's posted queue: it is a store to the host, and its core's earlier stores to the host
stand there; it waits for no atomic (R17, R26). -/
def Dev.mayPost (d : Dev) (f : Flight) : Bool :=
  !f.done && !f.acked && !f.op.isAtomic && regionOf f.home == .hostMem
    && !(d.flights.any fun g => g.ahead f && !g.acked && !g.op.isAtomic)

/-- The accesses in flight once one has entered the posted queue. It stands behind those that entered before, and behind its core's earlier atomics
to its line, which are performed before it (R161). -/
def postFlight (f : Flight) (fs : List Flight) : List Flight :=
  let n := fs.length - (fs.reverse.takeWhile fun g => !g.acked).length
  let rest := (fs.drop n).filter fun g => g.id != f.id
  let front := dueFlights (fun g => g.ahead f) rest
  fs.take n ++ front ++ { f with acked := true } :: rest.filter fun g => !(front.contains g)

/-- STORE_ACK: the acknowledgement of the k-th access reaches its core: of a store that is performed (R27, R28), or that stands in the host
interface's posted queue (R26). -/
def execStoreAck (k : Nat) (s : State) : Host.Outcome State Fault Refusal :=
  match s.dev.flights[k]? with
  | none => .next s
  | some f =>
    if f.done && !f.op.isAtomic then .next ((s.modDev fun d => { d with flights := d.flights.eraseIdx k }).acknowledge f.core)
    else if s.dev.mayPost f then .next ((s.modDev fun d => { d with flights := postFlight f d.flights }).acknowledge f.core)
    else .next s

/-- ATOMIC_RESULT_RETURN: the old value of the k-th access, an atomic that is performed, returns to its register (R172). -/
def execAtomicResultReturn (k : Nat) (s : State) : Host.Outcome State Fault Refusal :=
  match s.dev.flights[k]? with
  | none => .next s
  | some f =>
    match f.rd with
    | none => .next s
    | some rd =>
      if f.done then
        .next ((s.modDev fun d => { d with flights := d.flights.eraseIdx k }).modCoreId f.core fun c => { c with
          ctx := c.ctx.setX rd f.old
          pendReg := c.pendReg.filter fun p => p.1 != f.id })
      else .next s

/-- One commutative atomic with another's operand taken in (R173). -/
def mergeOps (a b : FlightOp) : Option FlightOp :=
  match a, b with
  | .amo o x, .amo p y => if o = p then some (.amo o (amoApply o x y)) else none
  | _, _ => none

/-- Whether the j-th access in flight can join the k-th, a later one: both are commutative atomics to one address, still to be performed, and
none of those between them waits for the first, and neither waits for a quantum atomic (R161, R163, R173). -/
def Dev.mayMerge (d : Dev) (j k : Nat) (a b : Flight) : Bool :=
  decide (j < k) && a.comm && b.comm && !a.done && !b.done && a.home == b.home
    && !(d.behindQuantum a) && !(d.behindQuantum b) && !(((d.flights.take k).drop (j + 1)).any fun h => !h.done && a.ahead h)

/-- COMMUTATIVE_MERGE: the j-th access joins the k-th, both commutative atomics of one operation and address (R173). -/
def execCommutativeMerge (j k : Nat) (s : State) : Host.Outcome State Fault Refusal :=
  match s.dev.flights[j]?, s.dev.flights[k]? with
  | some a, some b =>
    match mergeOps a.op b.op with
    | none => .next s
    | some op =>
      if s.dev.mayMerge j k a b then
        .next (s.modDev fun d => { d with
          flights := (d.flights.filter fun g => g.id != a.id).map fun g =>
            if g.id = b.id then { g with op := op, merged := g.merged ++ a.parts } else g })
      else .next s
  | _, _ => .next s

/-! ## Loads that return (R26, R29) -/

/-- A scalar load's register, width and whether it sign-extends (R308). -/
def loadShape (i : Instr) : Option (Reg × Nat × Bool) :=
  match i with
  | .lb rd _ _ => some (rd, 1, true)
  | .lbu rd _ _ => some (rd, 1, false)
  | .lh rd _ _ => some (rd, 2, true)
  | .lhu rd _ _ => some (rd, 2, false)
  | .lw rd _ _ => some (rd, 4, true)
  | .lwu rd _ _ => some (rd, 4, false)
  | .ld rd _ _ => some (rd, 8, false)
  | _ => none

/-- The operation of an atomic whose word a core holds. -/
def heldOp (i : Instr) (c : Ctx) : Option (AtomOrder × FlightOp × Reg) :=
  match i with
  | .amo op ord rd _ rs2 => some (ord, .amo op (c.getX rs2), rd)
  | .cas ord rd _ rs2 => some (ord, .cas (c.getX rd) (c.getX rs2), rd)
  | _ => none

/-- An access that had left its core returns: what its instruction then does (R26, R345, R347). A failed one traps (R464). -/
def returned (i : Instr) (o : Outstanding) : Act Flow := do
  modCore fun c => { c with out := none }
  if o.failed then trap cEccUncorr (BitVec.ofNat 64 o.home)
  match loadShape i with
  | some (rd, n, signed) =>
    setX rd (extendTo64 signed n (leNat (← homeRead o.home n)))
    return .seq
  | none =>
    match heldOp i (← getCtx) with
    | some (ord, op, rd) =>
      let old ← match o.value with
        | some v => pure v
        | none => performNow o.home op
      if orderAcquires ord then acquireWith i o.home old
      setX rd (if ord = .relaxed .spec then specResult op old else old)
      return .seq
    | none =>
      match i with
      | .lda _ rd _ =>
        let v ← match o.value with
          | some v => pure v
          | none => do pure (BitVec.ofNat 64 (leNat (← homeRead o.home 8)))
        acquireWith i o.home v
        setX rd v
        return .seq
      | _ => return .stay

/-- An access that has left a core which no longer executes it is performed, and returns to nothing (R29). -/
def returnedToNone (i : Instr) (o : Outstanding) (s : State) : State :=
  let t := match returned i o s with
    | .ok _ t => t
    | .error _ t => t
  t.modCore fun c => { c with ctx := s.ctx, out := none }

/-- The part of a line that an instruction loads has come: its bytes, read behind the core's own earlier accesses, or the error in which its access
ended (R26, R80, R464). The instruction goes on, where the core still executes it. -/
def State.arrive (s : State) (o : Outstanding) : State :=
  let (a, s) : Arrived × State :=
    if o.failed then ({ key := o.home, bytes := List.replicate o.width 0, error := some (BitVec.ofNat 64 o.home) }, s)
    else
      let s := s.drainLines s.core.id o.home o.width s.dev.seq
      match s.dev.badWord o.home o.width with
      | some w =>
        let (info, s) := s.meetError w
        ({ key := o.home, bytes := List.replicate o.width 0, error := some info }, s)
      | none => ({ key := o.home, bytes := s.peek o.home o.width, error := none }, s)
  s.modCore fun c => { c with out := none, arrived := if c.run = .running then c.arrived ++ [a] else c.arrived }

/-- LOAD_RETURN: the access that the core in focus has outstanding is performed and returns. A quantum atomic of the core to its line comes
first (R163); through a port that has failed it does not return until it fails (R464). -/
def execLoadReturn (s : State) : Host.Outcome State Fault Refusal :=
  match s.core.out with
  | none => .next s
  | some o =>
    if o.value.isNone ∧ o.failed = false ∧ (s.quantumOn o.home o.width = true ∨ s.dev.cutOff o.home = true) then .next s
    else match o.word with
      | none => .next (s.arrive o)
      | some w => match decode w with
        | none => .next s
        | some i => if s.core.run = .running then runFlow i (returned i o) s else .next (returnedToNone i o s)

/-! ## The error log, links and self-tests -/

/-- Puts an entry on the error log, which holds 512 (R471). -/
def Dev.logEntry (d : Dev) (e : Word) : Dev :=
  if 512 ≤ d.errlog.length then { d with errlog := d.errlog.drop 1 ++ [e], ovf := true } else { d with errlog := d.errlog ++ [e] }

/-- An entry of the error log (R472). -/
def logWord (kind : Nat) (unit : BitVec 6) (place : BitVec 52) : Word := BitVec.ofNat 64 (kind * 2 ^ 62 + unit.toNat * 2 ^ 56 + place.toNat)

def State.log (s : State) (kind : Nat) (unit : BitVec 6) (place : BitVec 52) : State :=
  s.modDev fun d => d.logEntry (logWord kind unit place)

/-- The core at whose router a link starts: four links to a router (log 32). -/
def linkCore (link : Nat) : Nat := link / 4

/-- LINK_CRC_ERROR: the replay of a flit fails on a link; the eighth failure in a row starts a self-test of it (R145, R253). -/
def execLinkCrcError (link : Nat) (s : State) : Host.Outcome State Fault Refusal :=
  let n := match s.dev.linkErrs.find? fun x => x.1 == link with
    | none => 1
    | some x => x.2 + 1
  let others := s.dev.linkErrs.filter fun x => x.1 != link
  if 8 ≤ n then .next ((s.modDev fun d => { d with linkErrs := others }).startTest 5 (physCoord (linkCore link)))
  else .next (s.modDev fun d => { d with linkErrs := (link, n) :: others })

/-- A flit passes a link: its failures in a row are over (R145). -/
def State.linkPasses (s : State) (link : Nat) : State :=
  s.modDev fun d => { d with linkErrs := d.linkErrs.filter fun x => x.1 != link }

/-- The core of a physical coordinate word. -/
def coordId (place : BitVec 52) : Nat := place.toNat / 2 ^ 16 % 2 * 2496 + place.toNat / 2 ^ 8 % 64 * 48 + place.toNat % 64

/-- Cores are out of use: units that wait to restart on one of them end failed (R254, R255; the model's choice, log 141). -/
def Dev.fence (d : Dev) (cores : List Nat) : Dev :=
  let lost (us : List (Nat × Nat)) : Bool := us.any fun u => cores.contains u.2
  { d with
    fencedCores := d.fencedCores ++ cores.filter fun n => !(d.fencedCores.contains n)
    launches := d.launches.map fun l => { l with
      failedCount := l.failedCount + ((l.restarts.filter lost).map List.length).sum
      restarts := l.restarts.filter fun us => !(lost us) } }

/-- A core is fenced: its active and parked contexts end as fault events, and nothing is placed on it (R254). -/
def State.fenceCore (s : State) (core : Nat) (info : Word) : State :=
  match s.coreById core with
  | none => s
  | some c =>
    let s := s.modDev fun d => d.fence [core]
    let s := if c.run = .running then s.faultEvent core false 0 info else if c.run = .ended then s.countDone c else s
    let s := c.residents.foldl (fun s r => s.unitFault r.lnum r.wuid.toNat core false 0 info) s
    (s.withdraw core).modCoreId core fun c => { c.unhold with run := .fenced, residents := [], shadow := none, trapDue := none, lost := [] }

/-- The cores of a physical cluster (R22). -/
def clusterCores (cid : Nat) : List Nat :=
  let die := cid / 156
  let r := cid / 12 % 13
  let c := cid % 12
  (List.range 16).map fun i => die * 2496 + (r * 4 + i / 4) * 48 + c * 4 + i % 4

/-- A LASTING result in a shared unit of a cluster or in a link: the cluster is fenced, its row is out of use at the next rebuild, and the
partition-level policy of every launch on its partition applies (R250, R254). -/
def State.fenceCluster (s : State) (core : Nat) (info : Word) : State :=
  let cid := clusterOfId core
  let parts := (clusterCores cid).filterMap fun n => (s.coreById n).map fun c => c.part
  let touched := s.dev.launches.filter fun l => parts.contains (BitVec.ofNat 6 (l.field 0x18 1))
  let s := touched.foldl (fun s l => s.containPartition l.lnum) s
  let row := (cid / 156, cid / 12 % 13)
  let s := s.modDev fun d => { d with fencedRows := if d.fencedRows.contains row then d.fencedRows else d.fencedRows ++ [row] }
  let s := s.modDev fun d => d.fence (clusterCores cid)
  (clusterCores cid).foldl (fun s n => s.fenceCore n info) s

/-- SELF_TEST_COMPLETE: the oldest self-test that can end does. A pass is logged TRANSIENT; a failure is logged LASTING and fences a core's or
a cluster's unit, its cache bank rows among them (R254). A logic scan waits until its core has no active context (R253). -/
def execSelfTestComplete (pass : Bool) (s : State) : Host.Outcome State Fault Refusal :=
  let ready (t : SelfTest) : Bool := t.unit != 6 || (match s.coreById (coordId t.place) with
    | none => true
    | some c => c.run != .running)
  match s.dev.tests.find? ready with
  | none => .next s
  | some t =>
    let s := s.modDev fun d => { d with tests := d.tests.erase t }
    let s := s.log (if pass then 0 else 1) t.unit t.place
    let info := logWord 1 t.unit t.place
    if pass then .next s
    else if t.unit = 0 ∨ t.unit = 1 ∨ t.unit = 6 then .next (s.fenceCore (coordId t.place) info)
    else if t.unit = 2 ∨ t.unit = 5 ∨ (t.unit = 3 ∧ t.memSide = false) then .next (s.fenceCluster (coordId t.place) info)
    else .next s

end Sys2Proof.Machine
end

