-- ==== Sys2Proof/Machine/Gang.lean ====
section
/-!
DEFINITION. The gang instructions and the shifts between members (spec 06 R146 to R148, 08 R186 to R204, 16 R382 to R385).
-/

namespace Sys2Proof.Machine

/-- A GANG_STATE trap with its reason and request word (R192). -/
def trapGang {α : Type} (reason : Nat) (word : Word) : Act α := trap cGangState (putBits word 56 8 reason)

/-- Whether the core in focus runs the context of a member that is held (R202). -/
def State.memberHeld (s : State) : Bool := (s.core.heldAt.any fun h => h.stream) && s.ctx.gangMode != 0

/-- Reason 7: a gang instruction executed by a held member. -/
def notHeld (word : Word) : Act Unit := do if (← get).memberHeld then trapGang 7 word

/-- The link of the active context's gang. -/
def State.ownLink (s : State) : Option GangLink := if s.ctx.gangMode = 0 then none else s.core.link

/-! ## Stitching (R146 to R148) -/

/-- The core at a ring index of a partition (R147). -/
def ringCore (p : PartConfig) (k : Nat) : Option Nat :=
  let r := k / p.width % p.height
  let c := k % p.width
  partCoreAt p (k / (p.height * p.width)) r (if r % 2 = 0 then c else p.width - 1 - c)

/-- Columns from a column toward column 0 by the parents of TREE mode. -/
def treePath : Nat → Nat → List Nat
  | 0, _ => []
  | n + 1, c => c :: (if c = 0 then [] else treePath n ((c - 1) / 2))

/-- The cores of a gang of some width that the core at logical coordinates leads, where the stitch mode allows it (R148). -/
def gangRange (p : PartConfig) (die row col width : Nat) : Option (List Nat) :=
  let cores : Option (List (Option Nat)) :=
    match p.stitch.toNat with
    | 0 => if width ≤ 48 ∧ col + width ≤ p.width then some ((List.range width).map fun i => partCoreAt p die row (col + i)) else none
    | 1 => if width ≤ p.width then some ((List.range width).map fun i => partCoreAt p die row ((col + i) % p.width)) else none
    | 2 =>
      let n := p.dies * p.height * p.width
      let k := die * p.height * p.width + row * p.width + (if row % 2 = 0 then col else p.width - 1 - col)
      if width ≤ min 192 n then some ((List.range width).map fun i => ringCore p ((k + i) % n)) else none
    | _ =>
      let path := treePath width col
      if width ≤ 6 ∧ path.length = width then some (path.map fun c => partCoreAt p die row c) else none
  match cores with
  | none => none
  | some cs => if cs.any fun c => c.isNone then none else some (cs.filterMap fun c => c)

/-- The range that the core in focus would lead. A core of no partition has no neighbours. -/
def State.rangeOf (s : State) (width : Nat) : Option (List Nat) :=
  match s.part? s.core.part with
  | none => if width = 1 then some [s.core.id] else none
  | some p => if s.core.mgmt then (if width = 1 then some [s.core.id] else none)
      else gangRange p s.core.die.toNat s.core.row.toNat s.core.col.toNat width

/-! ## Forming, joining and leaving (R187 to R191) -/

/-- GANG of a member (R186). -/
def gangWord (id : Byte) (skewCode mode width pos : Nat) : BitVec 24 :=
  BitVec.ofNat 24 (id.toNat * 2 ^ 16 + skewCode * 2 ^ 14 + mode * 2 ^ 12 + width % 64 * 2 ^ 6 + pos % 64)

/-- A gang as it begins: every member attached, and nothing in its stream (R188, R193). -/
def Gang.new (num : Nat) (cores : List Nat) (id : Byte) (skewCode : Nat) (lnum : BitVec 12) (part : BitVec 6) : Gang :=
  { num := num, gid := id, lnum := lnum, part := part, width := cores.length, skew := skewCode + 2
    members := cores.zipIdx.map fun (n, i) =>
      { pos := i, core := n, state := .attached, parked := none, next := 0, slotDone := false, atBar := false, poison := none }
    stream := [], nextK := 0, now := 0, hold := .none, parking := false, sent := [], due := [], staged := [] }

/-- A gang joins those of the device, and each of its cores holds its link (R185, R188, R203). -/
def State.addGang (s : State) (cores : List Nat) (id : Byte) (skewCode : Nat) (lnum : BitVec 12) (part : BitVec 6) : State :=
  let num := s.dev.gangCount
  let s := s.modDev fun d => { d with gangs := d.gangs ++ [Gang.new num cores id skewCode lnum part], gangCount := num + 1 }
  cores.zipIdx.foldl (fun s (n, i) => s.modCoreId n fun c => { c with link := some { gang := num, pos := i, gid := id, lnum := lnum } }) s

/-- Forms a gang of cores, the first its leader; pc is where its stream begins (R188). -/
def State.formGang (s : State) (cores : List Nat) (id : Byte) (skewCode : Nat) (lnum : BitVec 12) (part : BitVec 6) (pc : Word) : State :=
  let s := s.addGang cores id skewCode lnum part
  cores.zipIdx.foldl (fun s (n, i) => s.modCoreId n fun c => { c.unhold with
    ctx := { c.ctx with
      gang := gangWord id skewCode (if i = 0 then 1 else 2) cores.length i
      pc := if i = 0 then c.ctx.pc else pc } }) s

/-- How far a core of a range is: parked in GJOIN with the id, in conflict, or waited for (R188). -/
inductive RangeCore where
  | ready | conflict | wait
  deriving DecidableEq, Repr

def State.rangeCore (s : State) (id : Byte) (lnum : BitVec 12) (n : Nat) : RangeCore :=
  match s.coreById n with
  | none => .wait
  | some c =>
    if c.link.isSome then .conflict
    else match c.hold with
      | .gjoin i => if i = id ∧ c.ctx.lnum = lnum then .ready else .conflict
      | _ => .wait

def execGform (rs : Reg) (s : State) : Host.Outcome State Fault Refusal :=
  runSeq (.gform rs) (do
    let w ← getX rs
    notHeld w
    let s ← get
    if s.ctx.gangMode ≠ 0 ∨ s.core.link.isSome then trapGang 1 w
    let width := bits w 0 8
    if bits w 24 40 ≠ 0 ∨ bits w 10 6 ≠ 0 ∨ bits w 8 2 = 3 ∨ width = 0 then trapGang 2 w
    match s.rangeOf width with
    | none => trapGang 3 w
    | some cores =>
      let id : Byte := BitVec.ofNat 8 (bits w 16 8)
      let others := (cores.drop 1).map (s.rangeCore id s.ctx.lnum)
      if others.contains .conflict then trapGang 4 w
      if others.contains .wait then holdFor .gform
      modify fun s => s.formGang cores id (bits w 8 2) s.ctx.lnum s.core.part (s.ctx.pc + 4)) s

def execGjoin (rs : Reg) (s : State) : Host.Outcome State Fault Refusal :=
  runSeq (.gjoin rs) (do
    let w ← getX rs
    notHeld w
    let s ← get
    if s.ctx.gangMode ≠ 0 ∨ s.core.link.isSome then trapGang 1 w
    if bits w 24 40 ≠ 0 ∨ bits w 0 16 ≠ 0 then trapGang 2 w
    holdFor (.gjoin (BitVec.ofNat 8 (bits w 16 8)))) s

def execGleave (rs : Reg) (s : State) : Host.Outcome State Fault Refusal :=
  runSeq (.gleave rs) (do
    notHeld 0
    let x ← getX rs
    let s ← get
    if s.ctx.gangMode = 1 ∧ x ≠ 0 then trapGang 6 0
    if s.ctx.gangMode ≠ 0 ∧ x ≠ 0 then modify fun s => s.leaveGang s.core.id) s

def execGsplit (s : State) : Host.Outcome State Fault Refusal :=
  runSeq .gsplit (do
    notHeld 0
    let s ← get
    if s.ctx.gangMode = 1 ∨ s.ctx.gangMode = 2 then modify State.splitGang) s

/-! ## Divergence and rejoining (R198 to R200) -/

def execGdet (rs : Reg) (s : State) : Host.Outcome State Fault Refusal :=
  runSeq (.gdet rs) (do
    notHeld 0
    let x ← getX rs
    let s ← get
    match s.ownLink with
    | some l => if s.ctx.gangMode = 2 ∧ x ≠ 0 then modify fun s => s.detach l
    | none => return ()) s

/-- The member that a link names. -/
def State.memberAt (s : State) (l : GangLink) : Option Member := (s.gang? l.gang).bind fun g => g.member? l.pos

/-- A wait of a gang whose member has failed traps once (R251). -/
def poisonCheck (l : GangLink) : Act Unit := do
  let s ← get
  match (s.memberAt l).bind fun m => m.poison with
  | none => return ()
  | some p =>
    modify fun s => s.modGang l.gang fun g => g.modMember l.pos fun m =>
      { m with poison := none, parked := none, atBar := m.atBar && decide (s.core.hold ≠ Hold.gbar) }
    trap cBarrierPoison (p.setWidth 64)

def execGatt (id : BitVec 8) (s : State) : Host.Outcome State Fault Refusal :=
  runFlow (.gatt id) (do
    notHeld 0
    let s ← get
    match s.ownLink with
    | none => trapGang (if s.core.hold = .gatt id then 5 else 8) 0
    | some l =>
      if s.ctx.gangMode ≠ 3 then return .seq
      poisonCheck l
      modify fun s => (s.modGang l.gang fun g => g.modMember l.pos fun m => { m with parked := some id }).gangTick l.gang
      if (← getCtx).gangMode = 3 then holdFor (.gatt id)
      return .stay) s

def execRjp (id : BitVec 8) (s : State) : Host.Outcome State Fault Refusal :=
  runSeq (.rjp id) (do
    notHeld 0
    let s ← get
    match s.ownLink with
    | none => return ()
    | some l =>
      if s.ctx.gangMode = 1 then
        poisonCheck l
        modify fun s => s.modGang l.gang fun g => { g with hold := .rjp id g.nextK (s.ctx.pc + 4) }) s

/-- A member's arrival at a barrier (R200). -/
def State.arriveBar (s : State) (l : GangLink) : State :=
  (s.modGang l.gang fun g => { g.modMember l.pos (fun m => { m with atBar := true }) with
    hold := if s.ctx.gangMode = 1 then .gbar else g.hold }).settleGang l.gang

/-- GBAR (R200). A detached member that has arrived at a barrier in its slot arrives at the next one when that is complete. Where a detached
member's arrival completes the barrier, that retires its GBAR as it does the others'. -/
def execGbar (s : State) : Host.Outcome State Fault Refusal :=
  runFlow .gbar (do
    notHeld 0
    let s ← get
    match s.ownLink with
    | none =>
      releaseFence .gang
      acquireFence
      return .seq
    | some l =>
      poisonCheck l
      if s.ctx.gangMode = 3 ∧ s.core.hold ≠ .gbar ∧ (s.memberAt l).any (fun m => m.atBar) then holdFor .retry
      releaseFence .gang
      acquireFence
      modify fun s => s.arriveBar l
      if s.ctx.gangMode = 3 then
        if ((← get).memberAt l).any fun m => m.atBar then holdFor .gbar
        modify fun s => s.gangTick l.gang
        return if s.core.hold = .gbar then .stay else .seq
      modify fun s => s.gangTick l.gang
      return .seq) s

/-! ## Shifts (R196, R384, R385) -/

/-- The positions that take part in the shift that is stream instruction k: members that executed it, and attached ones whose slot is to
come. -/
def Gang.parties (g : Gang) (k : Nat) : List Nat :=
  (List.range g.width).filter fun p =>
    (g.sent.any fun x => x.k == k && x.pos == p) || g.members.any fun m => m.pos == p && m.state == .attached && decide (m.next ≤ k)

/-- The position whose value a receiver gets (R384). -/
def shiftSource (parties : List Nat) (p : Nat) (west wrap : Bool) : Option Nat :=
  let src := if west then parties.find? fun q => decide (p < q) else (parties.filter fun q => decide (q < p)).getLast?
  match src with
  | some q => some q
  | none => if wrap then (if west then parties.head? else parties.getLast?) else none

/-- A member sends a value in its slot: those that await it have it on its way (R384, R385). -/
def Gang.send (g : Gang) (k pos : Nat) (value : BitVec 4096) : Gang :=
  { g with
    sent := g.sent ++ [{ k := k, pos := pos, value := value }]
    due := g.due.map fun d => if d.k = k ∧ d.src = pos ∧ d.value.isNone then { d with value := some value, arrive := g.now + d.dist } else d }

/-- A shift executed by the core in focus in its slot (R384, R385): where its register cannot be written, it sends nothing either. -/
def shift (i : Instr) (wd : Wd) (vd vs : Reg) (west wrap : Bool) : Act Unit := guardCtx do
  let c ← getCtx
  needReg i (c.hasV vd wd.count && c.hasV vs wd.count)
  notHeld 0
  let s ← get
  match s.ownLink with
  | none => trapGang 11 0
  | some l =>
    if s.ctx.gangMode = 3 then trapGang 12 0
    let k := s.slotOf l
    let vals ← readGroups [(vs, wd.count)]
    match (← get).gang? l.gang with
    | none => return ()
    | some g =>
      let g := g.send k l.pos (BitVec.ofNat 4096 (vals.getD 0 0))
      let g ← match shiftSource (g.parties k) l.pos west wrap with
        | none => do
          writeGroup vd wd.count 0
          pure g
        | some src =>
          match g.sent.find? fun x => x.k == k && x.pos == src with
          | some x => do
            writeGroup vd wd.count x.value.toNat
            pure g
          | none =>
            let dist := if l.pos ≤ src then src - l.pos else l.pos - src
            pure { g with due := g.due ++ [{ k := k, dst := l.pos, src := src, dist := dist, wd := wd, vd := vd, value := none, arrive := 0 }] }
      modify fun s => s.modGang l.gang fun _ => g

def execXsh (wd : Wd) (vd vs : Reg) (west : Bool) (s : State) : Host.Outcome State Fault Refusal :=
  runSeq (.xsh wd vd vs west) (shift (.xsh wd vd vs west) wd vd vs west false) s

def execXwrap (wd : Wd) (vd vs : Reg) (west : Bool) (s : State) : Host.Outcome State Fault Refusal :=
  runSeq (.xwrap wd vd vs west) (shift (.xwrap wd vd vs west) wd vd vs west true) s

/-- A shift's arrival can be written: its value has travelled, and the receiver's context is active and not frozen (R203, R385). -/
def State.arrivalReady (s : State) (g : Gang) (d : ShiftDue) : Bool :=
  d.value.isSome && decide (d.arrive ≤ g.now) && (match g.member? d.dst with
    | none => true
    | some m => m.state == .gone || (match s.coreById m.core with
      | none => true
      | some c => c.ctx.gangMode != 0 && c.heldAt.isNone))

/-- How the arrival of a shift's value comes out at the receiver: it is written, it waits until its append can be made, the receiver traps, or
the receiver is to trap and first completes the instruction that holds it. -/
inductive Arrival where
  | written (s : State)
  | waits
  | traps (s : State)
  | later
  deriving DecidableEq, Repr

/-- A shift's value reaches the receiver, which is in focus: it is written, and a write stream bound to it appends (R139, R359, R385). Where the
append cannot be made, nothing is written, and the receiver traps at the instruction that it has not started (log 83). -/
def State.arriveShift (s : State) (d : ShiftDue) (v : BitVec 4096) : Arrival :=
  match guardCtx (writeGroup d.vd d.wd.count v.toNat) s with
  | .ok _ t => .written t
  | .error (.hold _) _ => .waits
  | .error (.trap n info _) t =>
    if t.completesFirst then .later
    else
      let t := t.atSlot.abandon
      .traps (t.raiseTrap n info t.ctx.pc none)

/-- How an arrival comes out, with the core in focus as before. A receiver that has left is not written. -/
def State.arrivalAt (s : State) (g : Gang) (d : ShiftDue) : Arrival :=
  match g.member? d.dst, d.value with
  | some m, some v =>
    if m.state = .gone then .written s
    else match s.focus m.core with
      | none => .written s
      | some r => match r.arriveShift d v with
        | .written t => .written ((t.focus s.core.id).getD t)
        | .traps t => .traps ((t.focus s.core.id).getD t)
        | .waits => .waits
        | .later => .later
  | _, _ => .written s

/-- The first arrival due in a gang, but for those that the receiver can take only later. -/
def State.nextArrival (s : State) (g : Gang) : Option Nat :=
  g.due.findIdx? fun d => s.arrivalReady g d && (match s.arrivalAt g d with
    | .later => false
    | _ => true)

/-- XSH_ARRIVAL: the k-th value in flight of the focused core's gang reaches its receiver, which is written then (R385). A value at which the
receiver traps stays in flight. -/
def execXshArrival (k : Nat) (s : State) : Host.Outcome State Fault Refusal :=
  match s.core.link with
  | none => .next s
  | some l =>
    match s.gang? l.gang with
    | none => .next s
    | some g =>
      match g.due[k]? with
      | none => .next s
      | some d =>
        if s.arrivalReady g d = false then .next s
        else match s.arrivalAt g d with
          | .written t => .next (t.modGang l.gang fun g => { g with due := g.due.eraseIdx k })
          | .traps t => .next t
          | .waits => .next s
          | .later => .next s

end Sys2Proof.Machine
end

