-- ==== Sys2Proof/Machine/Engine.lean ====
section
/-!
DEFINITION. What the engines of a core share (spec 04 R98, R111, R116, 05 R121, R125, 10 R241, R242): their accesses, their records, and the
queues of their results.
-/

namespace Sys2Proof.Machine

/-- Why an engine's access gives no bytes: a failed check with its cause and pointer, an uncorrectable error, which is a data error (R116, log
104), or a broadcast of the pushing core that is still to be applied (R98, R121). -/
inductive EngErr where
  | fault (cause : Nat) (ptr : Word)
  | ecc
  | wait
  deriving DecidableEq, Repr

/-- An engine's work on memory. -/
abbrev Eng := EStateM EngErr State

/-- For whom an engine works: the pushing core, the push's place in the device's order, and the address space and privilege captured at the
push. -/
structure Party where
  core  : Nat
  seq   : Nat
  kptb  : Word
  level : Level
  deriving DecidableEq, Repr

/-- The party as the checks of R25 see it. -/
def State.partyWho (s : State) (p : Party) : Who :=
  match s.coreById p.core with
  | none => { core := some p.core, mgmt := false, part := 0, kptb := p.kptb, level := p.level }
  | some c => { core := some p.core, mgmt := c.mgmt, part := c.part, kptb := p.kptb, level := p.level }

/-- A broadcast of the core, pushed before, that is still to be applied to a range: a quantum atomic to one of its lines, behind which the core's later
stores to the line wait (R163). -/
def Dev.bcastAhead (d : Dev) (p : Party) (key n : Nat) : Bool :=
  d.bcasts.any fun b => b.core == p.core && decide (b.id < p.seq) && (match b.op with
    | .mcast off _ _ => b.todo.any fun t => decide (poolKey t off < key + n ∧ key < poolKey t off + 8)
    | .quantum home _ _ => decide (lineOf key ≤ lineOf home ∧ lineOf home ≤ lineOf (key + n - 1)))

/-- The keys of a range that an engine reads or writes: each page's piece is checked, the port of each of its peer lines among that (R464), and a
failure names the piece's pointer (log 35). An uncorrectable word of a page table is such a failure (log 41). A piece beyond 2^48 fails with
NONCANON as its sub-cause (R25 check 2; the model's choice, log 149). -/
def engKeys (p : Party) (acc : Acc) (ptr : Word) (n : Nat) : Eng (List (Nat × Nat)) := do
  let pieces := if isMesh ptr then (if n = 0 then [] else [(0, n)]) else pagePieces (bits ptr 0 48) n
  pieces.mapM fun (o, len) => do
    let s ← get
    match runChk (resolve (s.partyWho p) acc (ptrAt ptr o) len 1) s with
    | (.ok k, t) =>
      set t
      if regionOf k == .peerMem && t.dev.linesDown k len then throw (EngErr.fault cAccess (ptrAt ptr o))
      return (k, len)
    | (.error (cause, _), t) =>
      set t
      throw (EngErr.fault cause (ptrAt ptr o))

/-- An engine's read of one piece: it observes the pushing core's earlier stores (R98, R121). -/
def engPeek (p : Party) (key n : Nat) : Eng (List Byte) := do
  if (← get).dev.bcastAhead p key n then throw EngErr.wait
  modify fun s => s.drainLines p.core key n p.seq
  match (← get).dev.badWord key n with
  | some w =>
    modify fun s => (s.meetError w).2
    throw EngErr.ecc
  | none => return (← get).peek key n

/-- An engine's read of n bytes at a pointer. -/
def engRead (p : Party) (ptr : Word) (n : Nat) : Eng (List Byte) := do
  let keys ← engKeys p .load ptr n
  let bs ← keys.mapM fun (k, len) => engPeek p k len
  return bs.flatten

/-- Writes checked pieces, each line's part as a single write (R98). -/
def State.pokePieces (s : State) (ps : List (Nat × Nat)) (bytes : List Byte) : State :=
  (ps.foldl (fun (acc : State × List Byte) p =>
    let mine := acc.2.take p.2
    ((linePieces p.1 mine (mine.length / lineBytes + 2)).foldl (fun s x => s.poke x.1 x.2) acc.1, acc.2.drop p.2)) (s, bytes)).1

/-- An engine's write at a pointer: every byte is checked before any is written, so that a fault leaves none of them performed (R111, R132; the
model's choice, log 149). -/
def engWrite (p : Party) (ptr : Word) (bytes : List Byte) : Eng Unit := do
  let keys ← engKeys p .store ptr bytes.length
  modify fun s => s.pokePieces keys bytes

/-! ## Engine records (R241, R242) -/

/-- The engine record area of a core, where it is in use. -/
def Core.recordArea (c : Core) : Option Nat := if bit c.kefr 0 then some (bits c.kefr 13 39 * 8192) else none

/-- Writes an engine record, or discards it where the area is not in use; engine is 0 DMA, 1 eddy or 2 matrix (R241, R242). -/
def State.writeRecord (s : State) (core : Nat) (off : Nat) (bytes : List Byte) (faulted : Bool) (engine : BitVec 2) (slot : BitVec 6) : State :=
  match s.coreById core with
  | none => s
  | some c =>
    match c.recordArea with
    | some a =>
      let s := s.poke (a + off) bytes
      if faulted then (s.modCoreId core fun c => { c with faults := c.faults ++ [(engine, slot)] }).raise core 0 else s
    | none => (s.modCoreId core fun c => { c with lostRec := some (c.lostRec.getD (engine, slot)) }).raise core 0

/-- Whether a core's records are kept. -/
def State.keepsRecords (s : State) (core : Nat) : Bool :=
  match s.coreById core with
  | none => false
  | some c => c.recordArea.isSome

/-- A list of words as bytes. -/
def wordBytes (ws : List Word) : List Byte := (ws.map fun w => leBytes 8 w.toNat).flatten

/-- The words of some bytes, by index. -/
def wordAt (bytes : List Byte) (i : Nat) : Word := BitVec.ofNat 64 (leNat ((bytes.drop (8 * i)).take 8))

/-- A result element put on its queue: it replaces an unpopped element of its tag in place, else it is last (R97, R128, R388). -/
def putElement (mask : Word) (q : List Word) (e : Word) : List Word :=
  if q.any fun x => x &&& mask == e &&& mask then q.map fun x => if x &&& mask = e &&& mask then e else x else q ++ [e]

/-- The core waits to leave its context: its engines start nothing more (R112, R136, R244). -/
def State.leaving (s : State) (core : Nat) : Bool :=
  match s.coreById core with
  | none => true
  | some c => c.hold == .wswap

/-- A record of n bytes that an instruction takes from memory, by one load: one that holds afterwards keeps the bytes (R91, R332). -/
def readRecord (p : Word) (n : Nat) : Act (List Byte) := do
  let kept := (← get).core.record
  if kept.length = n then return kept
  let w := (← get).who
  let bytes ← coreReadSpan (← liftChk (asLeft do checkScalar p; return [(← resolve w .load p n n, n)]))
  modCore fun c => { c with record := bytes, arrived := [], passed := [] }
  return bytes

end Sys2Proof.Machine
end

