-- ==== Sys2Proof/Machine/Blocks.lean ====
section
/-!
DEFINITION. Block formats: bit planes (R40 to R44, R93), and quotients rounded once, which their encoders and VQNT use.
-/

namespace Sys2Proof.Machine

/-- Rounds num / den to an integer: the integer's magnitude, and whether it is inexact. -/
def roundRatio (rm : Rm) (neg : Bool) (num den : Nat) : Nat × Bool :=
  let q := num / den
  let rem := num % den
  (if roundsUp rm neg q (2 * rem) den false then q + 1 else q, decide (rem ≠ 0))

/-- Rounds the quotient of two finite data to an integer. -/
def quotientInt (rm : Rm) (n1 : Bool) (m1 : Nat) (e1 : Int) (n2 : Bool) (m2 : Nat) (e2 : Int) : Int × Bool :=
  let e := min e1 e2
  let (n, ix) := roundRatio rm (n1 != n2) (m1 * 2 ^ (e1 - e).toNat) (m2 * 2 ^ (e2 - e).toNat)
  (signed (n1 != n2) n, ix)

/-- A value bounded to lo..hi. -/
def clampInt (v lo hi : Int) : Int := max lo (min v hi)

/-- Planes of a BPn format code (R31). -/
def planesOf (fmt : Nat) : Nat := fmt - 8

/-- Whether a format code is a bit-plane format. -/
def isPlanes (fmt : Nat) : Bool := decide (10 ≤ fmt ∧ fmt ≤ 16)

/-- Bytes of a bit-plane block without its padding, and from one block to the next (R31, R40). -/
def planeBytes (planes b : Nat) : Nat := 8 + planes * b / 8
def planeStride (planes b : Nat) : Nat := (planeBytes planes b + 7) / 8 * 8

/-- The stored code of element i of a bit-plane block, as a signed integer (R40). -/
def planeCode (block : List Byte) (planes b i : Nat) : Int :=
  let plane (p : Nat) : Bool := (block.getD (8 + (planes - 1 - p) * (b / 8) + i / 8) 0).getLsbD (i % 8)
  let u := (List.range planes).foldl (fun a p => a + if plane p then 2 ^ p else 0) 0
  if u < 2 ^ (planes - 1) then u else (u : Int) - 2 ^ planes

/-- A code of P planes read with k of them; none is NaR (R41). -/
def readPlanes (q : Int) (planes k : Nat) (narm : Bool) : Option Int :=
  if narm ∧ q = -(2 ^ (planes - 1)) then none
  else
    let k := if narm ∧ k = 1 then 2 else k
    if planes ≤ k then some q
    else
      let drop := planes - k
      let top := q / 2 ^ drop
      let top := if narm ∧ top = -(2 ^ (k - 1)) then top + 1 else top
      some (top * 2 ^ drop + 2 ^ (drop - 1))

/-- The magnitude of the larger of two finite data. -/
def maxMagnitude (a : Nat × Int) (v : FVal) : Nat × Int :=
  match v with
  | .fin _ m e =>
    let low := min a.2 e
    if a.1 * 2 ^ (a.2 - low).toNat < m * 2 ^ (e - low).toNat then (m, e) else a
  | _ => a

/-- The code of one element of a block to encode (R93). -/
def encodeElement (scale : FVal) (planes : Nat) (narm : Bool) (x : FVal) : Int :=
  let lo : Int := -(2 ^ (planes - 1)) + (if narm then 1 else 0)
  let hi : Int := 2 ^ (planes - 1) - 1
  match x, scale with
  | .nan _, _ => if narm then -(2 ^ (planes - 1)) else 0
  | .inf neg, .fin _ m _ => if m = 0 then 0 else if neg then lo else hi
  | .inf neg, _ => if neg then lo else hi
  | .fin n1 m1 e1, .fin n2 m2 e2 => if m2 = 0 then 0 else clampInt (quotientInt .rne n1 m1 e1 n2 m2 e2).1 lo hi
  | .fin _ _ _, _ => 0

/-- EncodeBlock (R93): the bytes of one block, padding included. -/
def encodeBlock (xs : List FVal) (planes : Nat) (narm : Bool) : List Byte :=
  let (m, e) := xs.foldl maxMagnitude (0, 0)
  let scale := rne (fmtBF.divV .rne (.fin false m e) (FVal.ofInt (2 ^ (planes - 1) - 1)))
  let codes := xs.map (encodeElement (fmtBF.decode scale) planes narm)
  let b := xs.length
  let plane (p : Nat) : List Byte :=
    let bitsOf := codes.map fun q => (q / 2 ^ p % 2).toNat
    leBytes (b / 8) (ofLanes 1 bitsOf)
  let body := leBytes 2 scale ++ List.replicate 6 0 ++ ((List.range planes).map fun i => plane (planes - 1 - i)).flatten
  body ++ List.replicate (planeStride planes b - body.length) 0

/-- CRC-32C over bytes (R49): one bit. -/
def crcBit (c : Nat) : Nat := if c % 2 = 1 then (c / 2) ^^^ 0x82F63B78 else c / 2

/-- CRC-32C over bytes: one byte. -/
def crcByte (c : Nat) (b : Byte) : Nat := crcBit (crcBit (crcBit (crcBit (crcBit (crcBit (crcBit (crcBit (c ^^^ b.toNat))))))))

/-- CRC-32C (R49). -/
def crc32c (bs : List Byte) : Nat := bs.foldl crcByte 0xFFFFFFFF ^^^ 0xFFFFFFFF

end Sys2Proof.Machine
end

