-- ==== Sys2Proof/Machine/VectorMem.lean ====
section
/-!
DEFINITION. The vector loads and stores (spec 15 R360 to R365) and the nonzero scan, whose list is a store of the core (R137, R372).
-/

namespace Sys2Proof.Machine

/-- Bytes of one element of a byte copy's format: 1 for RAW (R361). -/
def copySize (fmt : Nat) : Nat :=
  match fmt with
  | 0 => 1 | 1 => 1 | 2 => 2 | 3 => 4 | 4 => 8 | 5 => 1 | 6 => 2 | 7 => 2 | 8 => 2 | _ => 4

/-- The planes a VLD or VST asks for: none, or k. -/
def PlaneSel.count (pc : PlaneSel) : Nat :=
  match pc with
  | .stored => 0
  | .planes k => k.toNat + 1

/-- The signed offset field of VLD and VST. -/
def offInt (off : BitVec 5) : Int := off.toInt

/-- Pointer plus a signed byte distance, with R10's trap. -/
def ptrPlus (p : Word) (d : Int) : Act Word := ptrResult false p (BitVec.ofInt 64 d)

/-- The checks of byte copies through several addresses, each of n bytes aligned to e, in order. -/
def checkAll (acc : Acc) (ps : List Word) (n e : Nat) : Act (List (List (Nat × Nat))) := ps.mapM fun p => spanKeys acc p n e

/-- The addresses of a byte copy's registers: VLD and VST. -/
def copyAddresses (p : Word) (off : BitVec 5) (w : Nat) : Act (List Word) := do
  let ea ← ptrPlus p (offInt off * (64 * w))
  return (List.range w).map fun j => ptrAt ea (64 * j)

/-- The addresses of a byte copy's registers: VLDS and VSTS. -/
def strideAddresses (p x : Word) (w : Nat) : Act (List Word) := (List.range w).mapM fun (j : Nat) => ptrPlus p ((j : Int) * x.toInt)

/-- The checks of the appends to the write streams bound to a destination: they come before a load reads memory (R359, R365). -/
def checkAppends (vd : Reg) (n : Nat) : Act Unit := do
  let _ ← appendKeys (groupRegs vd n)

/-- A byte copy into a group from checked addresses: the accesses of its registers are made in one step, but for lines off the device (R160; the model's
choice, log 146). -/
def copyIn (vd : Reg) (keys : List (List (Nat × Nat))) : Act Unit := do
  checkAppends vd keys.length
  let bytes ← keys.mapM coreReadSpan
  writeGroup vd keys.length (leNat bytes.flatten)

/-- Stores one run of bytes to each of some checked addresses, in their order (R160, R365). -/
def storeAll (keys : List (List (Nat × Nat))) (runs : List (List Byte)) : Act Unit :=
  coreWriteLines false ((keys.zip runs).flatMap fun p => spanLines p.1 p.2)

/-- A byte copy out of a group's value to checked addresses. -/
def copyOut (v : Nat) (keys : List (List (Nat × Nat))) : Act Unit :=
  storeAll keys ((List.range keys.length).map fun j => leBytes 64 (v / 2 ^ (512 * j)))

/-- A format that a vector memory instruction without planes refuses (R360). -/
def needCopyFormat (p : Word) : Act Unit := do if 10 ≤ fmtOf p then trap cFormat p

/-- The pointers of the blocks that hold elements j .. j + n - 1 of a bit-plane array (R362). -/
def blockPointers (p : Word) (planes b : Nat) (j : Int) (n : Nat) : Act (List Word) := do
  let first := j / b
  let count := ((j + n - 1) / b - first + 1).toNat
  (List.range count).mapM fun (i : Nat) => ptrPlus p ((first + (i : Int)) * planeStride planes b)

/-- A lane that VLD makes of a block's element (R362): bits and flags. -/
def planeLane (block : List Byte) (planes b k : Nat) (narm : Bool) (i : Nat) : Nat × Flg :=
  match readPlanes (planeCode block planes b i) planes k narm with
  | none => (fmtSF.qnan, 0)
  | some v => fmtSF.mulV .rne (fmtBF.decode (leNat (block.take 2))) (FVal.ofInt v)

/-- The first n bytes of some pieces. -/
def headPieces : Nat → List (Nat × Nat) → List (Nat × Nat)
  | _, [] => []
  | n, (k, len) :: ps => if n = 0 then [] else (k, min n len) :: headPieces (n - len) ps

/-- What some pieces hold after their first n bytes. -/
def tailPieces : Nat → List (Nat × Nat) → List (Nat × Nat)
  | _, [] => []
  | n, (k, len) :: ps => if n < len then (k + n, len - n) :: ps else tailPieces (n - len) ps

/-- The bytes of a block that a read of k planes fetches: its header and its top planes, and the others where an element could be NaR (R43,
R362). Bytes that are not fetched are left out at the end. -/
def fetchBlock (keys : List (Nat × Nat)) (planes b k : Nat) (narm : Bool) : Act (List Byte) := do
  let top := planeBytes (min planes (if narm ∧ k = 1 then 2 else k)) b
  let bytes ← coreReadSpan (headPieces top keys)
  if narm ∧ top < planeBytes planes b ∧ ((List.range b).any fun i => decide (planeCode bytes planes b i = -(2 ^ (planes - 1)))) then
    return bytes ++ (← coreReadSpan (tailPieces top keys))
  else return bytes

/-- VLD from a bit-plane pointer (R362). -/
def loadPlanes (vd : Reg) (w : Nat) (p : Word) (off : BitVec 5) (k : Nat) : Act Unit := do
  let planes := planesOf (fmtOf p)
  let b := blockLen p
  let k := if k = 0 then planes else k
  let n := 16 * w
  let j := offInt off * n
  let ptrs ← blockPointers p planes b j n
  let keys ← checkAll .load ptrs (planeBytes planes b) 8
  checkAppends vd w
  let narm := (← getCtx).narm
  let blocks ← keys.mapM fun ks => fetchBlock ks planes b k narm
  let lanesOut := (List.range n).map fun (i : Nat) =>
    let e : Int := j % b + (i : Int)
    planeLane (blocks.getD (e / b).toNat []) planes b k narm (e % b).toNat
  writeGroup vd w (ofLanes 32 (lanesOut.map (·.1)))
  modCtx fun c => c.orFlags (lanesOut.foldl (fun f x => f ||| x.2) 0)

/-- VST of a register group to a bit-plane pointer (R363): the checks come before the group is read (R365). -/
def storePlanes (vd : Reg) (w : Nat) (p : Word) (off : BitVec 5) (k : Nat) : Act Unit := do
  let planes := planesOf (fmtOf p)
  let b := blockLen p
  if k ≠ 0 ∧ k ≠ planes then trap cFormat p
  if 16 * w < b then trap cFormat p
  let ptrs ← blockPointers p planes b (offInt off * (16 * w)) (16 * w)
  let keys ← checkAll .store ptrs (planeStride planes b) 8
  let vs ← readGroups [(vd, w)]
  let narm := (← getCtx).narm
  let xs := (lanes (vs.getD 0 0) 32 (16 * w)).map fmtSF.decode
  storeAll keys ((List.range keys.length).map fun t => encodeBlock ((xs.drop (b * t)).take b) planes narm)

def execVld (wd : Wd) (vd xb : Reg) (off : BitVec 5) (pc : PlaneSel) (s : State) : Host.Outcome State Fault Refusal :=
  let i := Instr.vld wd vd xb off pc
  runSeq i (guardCtx do
    needReg i ((← getCtx).hasV vd wd.count)
    let p ← getX xb
    if isPlanes (fmtOf p) then loadPlanes vd wd.count p off (PlaneSel.count pc)
    else
      needCopyFormat p
      if PlaneSel.count pc ≠ 0 then trap cFormat p
      copyIn vd (← checkAll .load (← copyAddresses p off wd.count) 64 (copySize (fmtOf p)))) s

def execVst (wd : Wd) (vd xb : Reg) (off : BitVec 5) (pc : PlaneSel) (s : State) : Host.Outcome State Fault Refusal :=
  let i := Instr.vst wd vd xb off pc
  runSeq i (guardCtx do
    needReg i ((← getCtx).hasV vd wd.count)
    let p ← getX xb
    if isPlanes (fmtOf p) then storePlanes vd wd.count p off (PlaneSel.count pc)
    else
      needCopyFormat p
      if PlaneSel.count pc ≠ 0 then trap cFormat p
      let keys ← checkAll .store (← copyAddresses p off wd.count) 64 (copySize (fmtOf p))
      let vs ← readGroups [(vd, wd.count)]
      copyOut (vs.getD 0 0) keys) s

def execVlds (wd : Wd) (vd xb xs : Reg) (s : State) : Host.Outcome State Fault Refusal :=
  let i := Instr.vlds wd vd xb xs
  runSeq i (guardCtx do
    needReg i ((← getCtx).hasV vd wd.count)
    let p ← getX xb
    needCopyFormat p
    copyIn vd (← checkAll .load (← strideAddresses p (← getX xs) wd.count) 64 (copySize (fmtOf p)))) s

def execVsts (wd : Wd) (vd xb xs : Reg) (s : State) : Host.Outcome State Fault Refusal :=
  let i := Instr.vsts wd vd xb xs
  runSeq i (guardCtx do
    needReg i ((← getCtx).hasV vd wd.count)
    let p ← getX xb
    needCopyFormat p
    let keys ← checkAll .store (← strideAddresses p (← getX xs) wd.count) 64 (copySize (fmtOf p))
    let vs ← readGroups [(vd, wd.count)]
    copyOut (vs.getD 0 0) keys) s

/-- Elements that VLDX and VSTX move (R364). -/
def indexCount (w e : Nat) : Nat := min 16 (64 * w / e)

/-- Their addresses, by the SW lanes of the index register. -/
def indexAddresses (p : Word) (vi : Nat) (w e : Nat) : Act (List Word) :=
  (List.range (indexCount w e)).mapM fun i => ptrPlus p ((BitVec.ofNat 32 (lane vi 32 i)).toInt * e)

def execVldx (wd : Wd) (vd xb vi : Reg) (s : State) : Host.Outcome State Fault Refusal :=
  let i := Instr.vldx wd vd xb vi
  runSeq i (guardCtx do
    let c ← getCtx
    needReg i (c.hasV vd wd.count && c.hasV vi 1)
    let p ← getX xb
    needCopyFormat p
    let e := copySize (fmtOf p)
    let vs ← readGroups [(vi, 1)]
    let keys ← checkAll .load (← indexAddresses p (vs.getD 0 0) wd.count e) e e
    checkAppends vd wd.count
    let bytes ← keys.mapM coreReadSpan
    writeGroup vd wd.count (leNat bytes.flatten)) s

/-- VSTX (R364). Every address is checked before the group that is stored is read: of its pops only those come first that the index register
takes part in (R359, R365). -/
def execVstx (wd : Wd) (vd xb vi : Reg) (s : State) : Host.Outcome State Fault Refusal :=
  let i := Instr.vstx wd vd xb vi
  runSeq i (guardCtx do
    let c ← getCtx
    needReg i (c.hasV vd wd.count && c.hasV vi 1)
    let p ← getX xb
    needCopyFormat p
    let e := copySize (fmtOf p)
    let rs := groupRegs vd wd.count
    let first := vi.toNat :: rs.filter fun r => (c.popWrites [r]).contains vi.toNat
    popOperands first
    let keys ← checkAll .store (← indexAddresses p ((← getCtx).getGroup vi 1) wd.count e) e e
    popOperands (rs.filter fun r => !(first.contains r))
    countReads [groupReads vd wd.count, groupReads vi 1]
    let v := (← getCtx).getGroup vd wd.count
    storeAll keys ((List.range keys.length).map fun j => leBytes e (lane v (8 * e) j))) s

/-- Whether a lane is non-zero by value: both zeros of a float type count as zero (R372). -/
def laneNonzero (ty : Ty) (x : Nat) : Bool := if ty.isFloat then x % 2 ^ (8 * ty.size - 1) != 0 else x != 0

/-- Puts a summary on q6, which holds 16 (R137). -/
def pushSummary (q : List Word) (e : Word) : List Word := if 16 ≤ q.length then q.drop 1 ++ [e] else q ++ [e]

/-- Where the elements of a size lie that a piece holds. -/
def elementKeys (size : Nat) (piece : Nat × Nat) : List Nat := (List.range (piece.2 / size)).map fun i => piece.1 + size * i

/-- The lanes that VNZ lists, by their numbers. -/
def nonzeroLanes (ty : Ty) (w v : Nat) : List Nat := (List.range (64 * w / ty.size)).filter fun j => laneNonzero ty (lane v (8 * ty.size) j)

/-- The stores of VNZ's list at a pointer, one for each element, behind its checks: the first byte, and, of a list that is not empty, the last
(R372). -/
def listStores (p : Word) (size : Nat) (list : List Nat) : Act (List (Nat × List Byte)) := do
  let _ ← spanKeys .store p 1 size
  if list.isEmpty then return []
  let _ ← spanKeys .store (ptrAt p (list.length * size - 1)) 1 1
  let keys ← spanKeys .store p (list.length * size) size
  return (keys.flatMap (elementKeys size)).zip (list.map (leBytes size))

/-- What VNZ does before its first store: it reads its lanes and makes its checks. A trap leaves the context as it was. -/
def listLanes (i : Instr) (ty : Ty) (wd : Wd) (vs1 : Reg) (p : Word) : Act (List (Nat × List Byte)) := guardCtx do
  needReg i ((← getCtx).hasV vs1 wd.count)
  if fmtOf p ≠ 6 ∧ fmtOf p ≠ 3 then trap cFormat p
  let vs ← readGroups [(vs1, wd.count)]
  listStores p (copySize (fmtOf p)) (nonzeroLanes ty wd.count (vs.getD 0 0))

/-- VNZ (R372). One that holds between its stores has read its lanes and made its checks: it goes on with the stores that are left, and its count and
its summary are those of the lanes that its register keeps (log 119). -/
def execVnz (ty : Ty) (wd : Wd) (xd vs1 xp : Reg) (s : State) : Host.Outcome State Fault Refusal :=
  let i := Instr.vnz ty wd xd vs1 xp
  runSeq i (do
    let stores ← match s.core.listing with
      | some left => pure left
      | none => listLanes i ty wd vs1 (← getX xp)
    storesInTurn stores
    let list := nonzeroLanes ty wd.count ((← getCtx).getGroup vs1 wd.count)
    setX xd (BitVec.ofNat 64 list.length)
    let summary := list.length * 2 ^ 32 + (list.head?.getD 0xFFFF) * 2 ^ 16 + list.getLast?.getD 0xFFFF
    modCtx fun c => { c with q6 := pushSummary c.q6 (BitVec.ofNat 64 summary) }) s

end Sys2Proof.Machine
end

