-- ==== Sys2Proof/Machine/Dma.lean ====
section
/-!
DEFINITION. The DMA engine with its port expander, tags and tag waits (spec 04 R89 to R118, 14 R350 to R353).
-/

namespace Sys2Proof.Machine

/-! ## Commands (R89 to R92) -/

def DmaCmd.tag (c : DmaCmd) : BitVec 6 := c.ctl.setWidth 6
def DmaCmd.kind (c : DmaCmd) : Nat := bits c.ctl 6 2
def DmaCmd.len32 (c : DmaCmd) : Nat := bits c.len 0 32
def DmaCmd.toff (c : DmaCmd) : Nat := bits c.len 32 32
def DmaCmd.isDeal (c : DmaCmd) : Bool := c.kind == 1

/-- The operations of R92. -/
inductive DmaOp where
  | copy | codebook | entropy | encode
  deriving DecidableEq, Repr

/-- The operation of a pair of formats, or none where it is not listed (R92). A byte copy of sparse lines does not look at them (log 106). -/
def dmaOp (src dest : Word) : Option DmaOp :=
  let sf := fmtOf src
  let df := fmtOf dest
  if (df = 0 ∧ sf ≤ 18) ∨ (sf = 0 ∧ df ≤ 18) ∨ (sf = df ∧ sf ≤ 18 ∧ (sf ≤ 9 ∨ blockLen src = blockLen dest)) then some .copy
  else if (sf = 19 ∨ sf = 20) ∧ (df = 8 ∨ df = 0) then some .codebook
  else if sf = 21 ∧ df ≤ 16 then some .entropy
  else if (sf = 7 ∨ sf = 8 ∨ sf = 9) ∧ isPlanes df then some .encode
  else none

/-- Whether a source has a table array. -/
def hasTable (src : Word) : Bool := decide (19 ≤ fmtOf src ∧ fmtOf src ≤ 21)

/-- Bytes of an element of a plain format. -/
def plainSize (fmt : Nat) : Nat := copySize fmt

/-- The alignment at which a block or object of a format starts (R32). -/
def startAlign (fmt : Nat) : Nat :=
  if fmt ≤ 9 then copySize fmt
  else if fmt ≤ 16 then 8
  else if fmt ≤ 18 then 128
  else if fmt ≤ 20 then 4
  else if fmt = 22 then 64
  else 1

/-- Bits of a codebook index. -/
def indexBits (src : Word) : Nat := if fmtOf src = 19 then 3 else 4

/-- Bytes from one codebook block to the next (R31). -/
def codebookStride (src : Word) : Nat := if fmtOf src = 19 then (3 * blockLen src / 8 + 3) / 4 * 4 else blockLen src / 2

/-- Bytes of an entropy-coded chunk, expanded (R103). -/
def chunkBytes (src : Word) : Nat := 2 ^ (src.toNat / 2 ^ 56 % 8 + 9)

/-- The unit of L (R92). -/
def dmaUnit (op : DmaOp) (src dest : Word) : Nat :=
  match op with
  | .copy => if fmtOf src = 17 ∨ fmtOf src = 18 then 128 else 1
  | .codebook => 2 * blockLen src
  | .entropy => 1
  | .encode => blockLen dest * plainSize (fmtOf src)

/-- What a chunk counts of L. -/
def dmaChunk (op : DmaOp) (src dest : Word) : Nat :=
  match op with
  | .copy => 4096
  | .codebook => 2 * blockLen src
  | .entropy => chunkBytes src
  | .encode => blockLen dest * plainSize (fmtOf src)

/-- The operation of a command that has passed its checks. -/
def DmaCmd.op (c : DmaCmd) : DmaOp := (dmaOp c.src c.dest).getD .copy

/-- The number of chunks of a command. -/
def DmaCmd.chunks (c : DmaCmd) : Nat :=
  let n := dmaChunk c.op c.src c.dest
  (c.len32 + n - 1) / n

/-- Offset of a chunk's output from the destination. -/
def DmaCmd.outOff (c : DmaCmd) (m : Nat) : Nat :=
  match c.op with
  | .encode => m * planeStride (planesOf (fmtOf c.dest)) (blockLen c.dest)
  | op => m * dmaChunk op c.src c.dest

/-! ## Pushing (R91, R95, R101, R350, R351) -/

/-- Fields of DEALPAT (R99). -/
def dealCount (d : Word) : Nat := bits d 16 8
def dealFirst (d : Word) : Nat := bits d 24 8
def dealLog (d : Word) : Nat := bits d 0 4
def dealOff (d : Word) : Nat := bits d 32 19

/-- The checks of a deal against the gang of the core in focus (R101): the members' cores by position. -/
def dealChecks (c : DmaCmd) : Act (List Nat) := do
  let s ← get
  let d := c.deal
  match s.ownLink with
  | none => trapGang 13 d
  | some l => match s.gang? l.gang with
    | none => trapGang 13 d
    | some g =>
      if g.width < dealCount d then trapGang 14 d
      if bits d 51 13 ≠ 0 ∨ bits d 4 12 ≠ 0 ∨ dealLog d < 6 ∨ 12 < dealLog d ∨ dealCount d = 0 ∨ dealCount d ≤ dealFirst d then trap cFormat d
      let b := 2 ^ dealLog d
      if dealOff d % 64 ≠ 0 ∨ c.len32 % b ≠ 0 then trap cMisaligned d
      if 0x60000 < dealOff d + (c.len32 / b + dealCount d - 1) / dealCount d * b then trap cAccess d
      return g.members.map fun m => m.core

/-- A pointer's first byte checked for the core in focus, at an alignment (R25, R32, R91 check 4). -/
def firstByte (acc : Acc) (p : Word) (a : Nat) : Act Unit := do
  let w := (← get).who
  liftChk do
    checkFormat p
    let _ ← resolve w acc p 1 a

/-- A tag's two bits cleared, and the tag in flight (R95). -/
def State.tagStart (s : State) (t : BitVec 6) : State :=
  (s.modCtx fun c => { c with tagrdy := setBit c.tagrdy t.toNat false, tagerr := setBit c.tagerr t.toNat false }).modCore
    fun c => { c with dmaTags := setBit c.dmaTags t.toNat true }

/-- Commands of q0 that the engine has not started (R119). -/
def Core.q0Waiting (c : Core) : Nat := (c.dma.filter fun j => !j.started).length

/-- The push of a DMA command, from chunk next on (R91, R113). In the stream an attached member pushes no deal; the handler of a held one, which is
not in it, does (R202, R350). Of a bad CTL and a bad DEST of a deal, CTL is reported (the model's choice, log 148). -/
def pushDma (c : DmaCmd) (next : Nat) (plain : Bool) : Act Unit := do
  if bit (← get).core.dmaTags c.tag.toNat then holdFor .retry
  if bits c.ctl 10 54 ≠ 0 ∨ plain = false ∨ 2 ≤ c.kind ∨ (c.toff ≠ 0 ∧ hasTable c.src = false) then trap cFormat c.ctl
  if c.isDeal ∧ bits c.dest 0 56 ≠ 0 then trap cFormat c.dest
  match dmaOp c.src c.dest with
  | none => trap cFormat c.src
  | some op =>
    if !c.isDeal then firstByte .store c.dest (startAlign (fmtOf c.dest))
    firstByte .load c.src (startAlign (fmtOf c.src))
    if hasTable c.src then firstByte .load (ptrAt c.src c.toff) (if fmtOf c.src ≠ 21 ∧ c.toff % 16 = 0 then 16 else 1)
    if bit c.ctl 8 then let _ ← scalarKey .store c.arrive 8
    if c.len32 % dmaUnit op c.src c.dest ≠ 0 ∨ c.toff % 16 ≠ 0 then trap cMisaligned c.len
    let members ← if c.isDeal then dealChecks c else pure []
    let s ← get
    if c.isDeal ∧ s.ctx.gangMode = 2 ∧ s.core.inStream then return ()
    if 16 ≤ s.core.q0Waiting then holdFor .retry
    let n ← modifyGet State.takeSeq
    let s ← get
    let j : DmaJob :=
      { cmd := c, started := false, next := next, stage := .idle, failed := none, seq := n, narm := s.ctx.narm
        kptb := s.core.kptb, level := s.core.level, members := members }
    modify fun s => (s.tagStart c.tag).modCore fun k => { k with dma := k.dma ++ [j] }

/-- The command that DMA and DMAD build (R90, R350). -/
def builtCmd (dest src len : Word) (tag : BitVec 6) (deal : Option Word) : DmaCmd :=
  { dest := dest, src := src, len := len, ctl := tag.setWidth 64 ||| (if deal.isSome then 0x40 else 0), arrive := 0, deal := deal.getD 0 }

def execDma (dest src len : Reg) (tag : BitVec 6) (s : State) : Host.Outcome State Fault Refusal :=
  runSeq (.dma dest src len tag) (do
    pushDma (builtCmd (← getX dest) (← getX src) (← getX len) tag none) 0 true) s

def execDmad (dest src len : Reg) (tag : BitVec 6) (s : State) : Host.Outcome State Fault Refusal :=
  runSeq (.dmad dest src len tag) (do
    pushDma (builtCmd (← getX dest) (← getX src) (← getX len) tag (some (← getCtx).dealpat)) 0 true) s

/-- The command that a record's bytes hold (R89). -/
def cmdOf (bytes : List Byte) : DmaCmd :=
  { dest := wordAt bytes 0, src := wordAt bytes 1, len := wordAt bytes 2, ctl := wordAt bytes 3, arrive := wordAt bytes 4, deal := wordAt bytes 5 }

/-- DMARES (R113, R351). A record that traps FORMAT does so before the hold of R91 check 1 (the model's choice, log 147). -/
def execDmares (rs : Reg) (s : State) : Host.Outcome State Fault Refusal :=
  runSeq (.dmares rs) (do
    let p ← getX rs
    let bytes ← readRecord p 64
    let prog := wordAt bytes 6
    if (bits prog 40 8 ≠ 1 ∧ bits prog 40 8 ≠ 2) ∨ bits prog 48 16 ≠ 0 then trap cFormat p
    pushDma (cmdOf bytes) (bits prog 0 32) true) s

/-! ## Tag waits (R96, R352, R353) -/

/-- A wait that completes: its acquire, and the trap where a satisfying tag has an error (R353). -/
def waitDone (mask : Word) : Act Unit := do
  let c ← getCtx
  let bad := c.tagrdy &&& mask &&& c.tagerr
  if bad ≠ 0 then throw (Stop.trap cTagError bad .next)

def execWaitany (rs : Reg) (s : State) : Host.Outcome State Fault Refusal :=
  runSeq (.waitany rs) (do
    let x ← getX rs
    if x ≠ 0 ∧ (← getCtx).tagrdy &&& x = 0 then holdFor .retry
    waitDone x) s

def execWaitall (rs : Reg) (s : State) : Host.Outcome State Fault Refusal :=
  runSeq (.waitall rs) (do
    let x ← getX rs
    if (← getCtx).tagrdy &&& x ≠ x then holdFor .retry
    waitDone x) s

def execFfrdy (rd : Reg) (s : State) : Host.Outcome State Fault Refusal :=
  runSeq (.ffrdy rd) (do
    let rdy := (← getCtx).tagrdy
    setX rd (if rdy = 0 then 0xFFFFFFFFFFFFFFFF else BitVec.ofNat 64 (ctzWord rdy))) s

/-- Tags with a command in q0 or q2, or on its way to q2, that has not stopped with a record. -/
def State.liveTags (s : State) : Word :=
  let one (t : Nat) : Word := 1#64 <<< t
  let mtx (j : MtxJob) : Word := if j.state = .faulted ∧ j.restart.isNone then 0 else one (56 + j.word.toNat / 8 % 8)
  (s.core.dma.foldl (fun m j => m ||| one j.cmd.tag.toNat) 0) ||| (s.core.mtx.foldl (fun m j => m ||| mtx j) 0)
    ||| ((s.stagedOf s.core).foldl (fun m x => m ||| mtx x.job) 0)

def execTagclr (rs : Reg) (s : State) : Host.Outcome State Fault Refusal :=
  runSeq (.tagclr rs) (do
    let x ← getX rs
    modCtx fun c => { c with tagrdy := c.tagrdy &&& ~~~x, tagerr := c.tagerr &&& ~~~x }
    modify fun s => s.modCore fun c => { c with dmaTags := c.dmaTags &&& (~~~x ||| s.liveTags) }) s

/-! ## Expansion (R46, R47, R102 to R107) -/

/-- The bytes that a codebook block expands to (R46, R47). -/
def codebookExpand (w b : Nat) (block table : List Byte) : List Byte :=
  let bitsAll := leNat block
  ((List.range b).map fun i =>
    let idx := lane bitsAll w i
    (table.drop (2 * idx)).take 2).flatten

/-- Lengths of the 273 symbols of a code-length table (R105). -/
def codeLens (table : List Byte) : List Nat :=
  (List.range 273).map fun s => (table.getD (s / 2) 0).toNat / 16 ^ (s % 2) % 16

/-- Symbols of a length. -/
def symbolsOf (lens : List Nat) (n : Nat) : List Nat := (List.range 273).filter fun s => lens.getD s 0 == n

/-- The first code of each length, and the symbols of that length in order (R105). -/
def canonical (lens : List Nat) : Nat → Nat → Nat → List (Nat × List Nat)
  | 0, _, _ => []
  | left + 1, n, code =>
    let syms := symbolsOf lens n
    (code, syms) :: canonical lens left (n + 1) ((code + syms.length) * 2)

/-- Fifteen lengths' codes. -/
def codesOf (lens : List Nat) : List (Nat × List Nat) := canonical lens 15 1 0

/-- Kraft's sum in units of 2^-15. -/
def kraft (lens : List Nat) : Nat := (lens.map fun n => if n = 0 then 0 else 2 ^ (15 - n)).sum

/-- Stream bit k (R106). -/
def streamBit (slot : List Byte) (k : Nat) : Nat := if (slot.getD (k / 8) 0).getLsbD (k % 8) then 1 else 0

/-- The symbol whose code word the bits from k spell, and its length. -/
def readSymbol (slot : List Byte) (total : Nat) : List (Nat × List Nat) → Nat → Nat → Nat → Option (Nat × Nat)
  | [], _, _, _ => none
  | (first, syms) :: rest, k, n, code =>
    if total ≤ k + n then none
    else
      let code := code * 2 + streamBit slot (k + n)
      if first ≤ code ∧ code < first + syms.length then some (syms.getD (code - first) 0, n + 1)
      else readSymbol slot total rest k (n + 1) code

/-- A distance field, least significant bit first (R106). -/
def readBits (slot : List Byte) (k : Nat) : Nat → Nat
  | 0 => 0
  | n + 1 => streamBit slot k + 2 * readBits slot (k + 1) n

/-- Copies len bytes from d back, held in reverse, up to a bound: the bytes, and whether the bound stops it. -/
def copyBack (d bound : Nat) : Nat → List Byte → List Byte × Bool
  | 0, out => (out, false)
  | n + 1, out => if bound ≤ out.length then (out, true) else copyBack d bound n (out.getD (d - 1) 0 :: out)

/-- Expand's loop (R107): output in reverse, status, sub-code. -/
def expandFrom (slot : List Byte) (total d : Nat) (codes : List (Nat × List Nat)) : Nat → Nat → List Byte → List Byte × Nat × Nat
  | 0, _, out => (out, 1, 5)
  | fuel + 1, k, out =>
    match readSymbol slot total codes k 0 0 with
    | none => (out, 1, if total < k + 15 then 5 else 2)
    | some (s, n) =>
      let k := k + n
      if s = 256 then (if out.length < d then (out, 1, 3) else (out, 0, 0))
      else if s < 256 then
        if out.length = d then (out, 1, 4) else expandFrom slot total d codes fuel k (BitVec.ofNat 8 s :: out)
      else if total < k + 12 then (out, 1, 5)
      else
        let dist := readBits slot k 12 + 1
        if out.length < dist then (out, 1, 1)
        else
          let (out, long) := copyBack dist d (s - 254) out
          if long then (out, 1, 4) else expandFrom slot total d codes fuel (k + 12) out

/-- A chunk descriptor (R104). -/
structure ChunkDesc where
  inner   : Nat
  stored  : Bool
  codeoff : Nat
  clen    : Nat
  crc     : Nat
  deriving DecidableEq, Repr

/-- The descriptor that 16 bytes hold for a chunk of declared size d whose consumer accepts some formats, or none where it breaks a rule
(R104). -/
def chunkDesc (bytes : List Byte) (d : Nat) (accepts : Nat → Bool) : Option ChunkDesc :=
  let at' (o n : Nat) : Nat := leNat ((bytes.drop o).take n)
  let stored := at' 3 1 % 2 = 1
  let inner := at' 2 1
  let clen := at' 8 4
  if at' 0 2 ≠ 0x4C52 ∨ 16 < inner ∨ 1 < at' 3 1 ∨ (!stored && at' 4 4 % 16 ≠ 0) ∨ d < clen ∨ (stored && clen ≠ d) ∨ accepts inner = false
  then none
  else some { inner := inner, stored := stored, codeoff := at' 4 4, clen := clen, crc := at' 12 4 }

/-- The end of Expand: the check of a chunk's bytes (R107). -/
def verifyChunk (out : List Byte) (crc : Nat) : List Byte × Nat × Nat := if crc32c out ≠ crc then (out, 2, 0) else (out, 0, 0)

/-- Expand of a chunk whose descriptor is sound (R107, R108): bytes, status and sub-code. -/
def expandChunk (desc : ChunkDesc) (d : Nat) (slot table : List Byte) : List Byte × Nat × Nat :=
  if desc.stored then verifyChunk (slot.take d) desc.crc
  else
    let lens := codeLens table
    if 2 ^ 15 < kraft lens ∨ lens.getD 256 0 = 0 then ([], 1, 2)
    else
      let total := 8 * desc.clen
      let (rev, st, sub) := expandFrom slot total d (codesOf lens) (total + 1) 0 []
      if st = 0 then verifyChunk rev.reverse desc.crc else (rev.reverse, st, sub)

/-- Reads and expands chunk m of an entropy-coded source of total expanded length len with its table array at tab (R103, R107). -/
def readEntropy (p : Party) (src tab : Word) (len m : Nat) (accepts : Nat → Bool) : Eng (List Byte × Nat × Nat) := do
  let c := chunkBytes src
  let d := min c (len - m * c)
  let bytes ← engRead p (ptrAt tab (16 * m)) 16
  match chunkDesc bytes d accepts with
  | none => return ([], 3, 0)
  | some desc =>
    let slot ← engRead p (ptrAt src (m * c)) desc.clen
    let table ← if desc.stored then pure [] else engRead p (ptrAt tab desc.codeoff) 144
    return expandChunk desc d slot table

/-! ## The engine's events (R90, R92, R98, R111, R115) -/

def DmaJob.party (j : DmaJob) (core : Nat) : Party := { core := core, seq := j.seq, kptb := j.kptb, level := j.level }

/-- The command of a tag in q0 of the core in focus. -/
def State.dmaJob (s : State) (tag : BitVec 6) : Option DmaJob := s.core.dma.find? fun j => j.cmd.tag == tag

def State.modDma (s : State) (tag : BitVec 6) (f : DmaJob → DmaJob) : State :=
  s.modCore fun c => { c with dma := c.dma.map fun j => if j.cmd.tag = tag then f j else j }

/-- Whether a command has been started or can be: the engine starts commands in the order they entered q0, and works on up to eight (R90). -/
def State.dmaMayRun (s : State) (j : DmaJob) : Bool :=
  j.started || decide (((s.core.dma.filter fun k => k.started).length + (s.core.dma.filter fun k => !k.started && decide (k.seq ≤ j.seq)).length) ≤ 8)

/-- A command starts, and with it those before it in q0 (R90). -/
def State.startDma (s : State) (j : DmaJob) : State :=
  s.modCore fun c => { c with dma := c.dma.map fun k => if k.seq ≤ j.seq then { k with started := true } else k }

/-- A command stops with an engine record, at a chunk (R111, R112): state 1 suspended, 2 faulted. -/
def State.stopDma (s : State) (j : DmaJob) (state sub : Nat) (faddr : Word) : State :=
  let prog := BitVec.ofNat 64 (j.next % 2 ^ 32 + sub * 2 ^ 32 + state * 2 ^ 40)
  let bytes := wordBytes [j.cmd.dest, j.cmd.src, j.cmd.len, j.cmd.ctl, j.cmd.arrive, j.cmd.deal, prog, faddr]
  let kept := s.keepsRecords s.core.id
  let s := s.writeRecord s.core.id (64 * j.cmd.tag.toNat) bytes (state == 2) 0 j.cmd.tag
  s.modCore fun c => { c with
    dma := c.dma.filter fun k => k.cmd.tag != j.cmd.tag
    dmaTags := if kept then setBit c.dmaTags j.cmd.tag.toNat false else c.dmaTags }

/-- Reads a chunk's source wholly: its output, status and sub-code (R92, R98). -/
def readChunk (p : Party) (j : DmaJob) : Eng (List Byte × Nat × Nat) := do
  let c := j.cmd
  let m := j.next
  match c.op with
  | .copy => return (← engRead p (ptrAt c.src (4096 * m)) (min 4096 (c.len32 - 4096 * m)), 0, 0)
  | .codebook =>
    let w := indexBits c.src
    let block ← engRead p (ptrAt c.src (m * codebookStride c.src)) (codebookStride c.src)
    let table ← engRead p (ptrAt c.src (c.toff + m * 2 ^ w * 2)) (2 ^ w * 2)
    return (codebookExpand w (blockLen c.src) block table, 0, 0)
  | .entropy =>
    let df := fmtOf c.dest
    readEntropy p c.src (ptrAt c.src c.toff) c.len32 m fun inner => df == 0 || inner == df
  | .encode =>
    let e := plainSize (fmtOf c.src)
    let b := blockLen c.dest
    let bytes ← engRead p (ptrAt c.src (m * b * e)) (b * e)
    let fmt := if fmtOf c.src = 7 then fmtHF else if fmtOf c.src = 8 then fmtBF else fmtSF
    let xs := (List.range b).map fun i => fmt.decode (leNat ((bytes.drop (e * i)).take e))
    return (encodeBlock xs (planesOf (fmtOf c.dest)) j.narm, 0, 0)

/-- A chunk's source is read and turned into its output, which waits to be placed and written: none of one whose source has an uncorrectable error
(R116; the model's choice, log 149). -/
def State.dmaRead (s : State) (op : DmaOp) (tag : BitVec 6) : State :=
  match s.dmaJob tag with
  | none => s
  | some j =>
    if j.cmd.op = op ∧ j.stage = .idle ∧ j.failed = none ∧ j.next < j.cmd.chunks ∧ s.dmaMayRun j ∧ s.leaving s.core.id = false then
      match readChunk (j.party s.core.id) j (s.startDma j) with
      | .ok (out, st, sub) t => t.modDma tag fun j => { j with stage := .read out st sub }
      | .error .wait _ => s
      | .error .ecc t => t.modDma tag fun j => { j with stage := .read [] 4 0 }
      | .error (.fault n ptr) t => t.stopDma j 2 n ptr
    else s

def execDmaByteCopy (tag : BitVec 6) (s : State) : Host.Outcome State Fault Refusal := .next (s.dmaRead .copy tag)

def execCodebookExpansion (tag : BitVec 6) (s : State) : Host.Outcome State Fault Refusal := .next (s.dmaRead .codebook tag)

def execEntropyExpansion (tag : BitVec 6) (s : State) : Host.Outcome State Fault Refusal := .next (s.dmaRead .entropy tag)

def execBitPlaneEncoding (tag : BitVec 6) (s : State) : Host.Outcome State Fault Refusal := .next (s.dmaRead .encode tag)

/-- A pool range of a core checked at a level (R19, R23): its key, or none where the access traps ACCESS. -/
def State.poolRange (s : State) (level : Level) (core off n : Nat) : Option Nat :=
  if off + n ≤ 0x60000 then
    let granules := List.range ((off + n - 1) / 4096 + 1 - off / 4096)
    if level == .u && !(granules.all fun i => s.isScratch core (off / 4096 + i)) then none else some (poolKey core off)
  else none

/-- The blocks of a deal's output from byte s on: member position, pool offset and bytes (R100). -/
def dealBlocks (d : Word) : Nat → Nat → List Byte → List (Nat × Nat × List Byte)
  | 0, _, _ => []
  | fuel + 1, s, bytes =>
    if bytes.isEmpty then []
    else
      let size := 2 ^ dealLog d
      let b := s / size
      let n := min (size - s % size) bytes.length
      ((dealFirst d + b) % dealCount d, dealOff d + b / dealCount d * size + s % size, bytes.take n) :: dealBlocks d fuel (s + n) (bytes.drop n)

/-- The mesh address of a pool byte of a core, by its coordinates in its partition. -/
def State.poolPointer (s : State) (core off : Nat) : Word :=
  match s.coreById core with
  | none => 0
  | some c => BitVec.ofNat 64 (2 ^ 55 + c.die.toNat * 2 ^ 52 + c.row.toNat * 2 ^ 46 + c.col.toNat * 2 ^ 40 + off)

/-- BLOCK_CYCLIC_DEAL: a deal's chunk is dealt out: its bytes have their members' pools (R100). FADDR of a fault is the mesh address of the block
that fails (log 109). -/
def execBlockCyclicDeal (tag : BitVec 6) (s : State) : Host.Outcome State Fault Refusal :=
  match s.dmaJob tag with
  | none => .next s
  | some j =>
    match j.stage with
    | .read out st sub =>
      if j.cmd.isDeal then
        let blocks := dealBlocks j.cmd.deal (out.length + 1) (j.cmd.outOff j.next) out
        let placed := blocks.map fun (pos, off, bytes) =>
          let core := j.members.getD pos 0
          (core, off, bytes, s.poolRange j.level core off bytes.length)
        match placed.find? fun x => x.2.2.2.isNone with
        | some (core, off, _, _) => .next (s.stopDma j 2 cAccess (s.poolPointer core off))
        | none => .next (s.modDma tag fun j => { j with stage := .placed (placed.map fun x => (x.2.2.2.getD 0, x.2.2.1)) st sub })
      else .next s
    | _ => .next s

/-- A chunk whose output is written: the next is in hand, or the command has a data error at it (R115). -/
def State.dmaAdvance (s : State) (tag : BitVec 6) (st sub : Nat) : State :=
  s.modDma tag fun j => if st = 0 then { j with stage := .idle, next := j.next + 1 } else { j with stage := .idle, failed := some (st, sub) }

/-- DMA_CHUNK_COMPLETE: the output of the chunk in hand is written, as far as it verified (R108, R111, R115). -/
def execDmaChunkComplete (tag : BitVec 6) (s : State) : Host.Outcome State Fault Refusal :=
  match s.dmaJob tag with
  | none => .next s
  | some j =>
    match j.stage with
    | .read out st sub =>
      if j.cmd.isDeal then .next s
      else match engWrite (j.party s.core.id) (ptrAt j.cmd.dest (j.cmd.outOff j.next)) out s with
        | .ok _ t => .next (t.dmaAdvance tag st sub)
        | .error (.fault n ptr) t => .next (t.stopDma j 2 n ptr)
        | .error _ _ => .next s
    | .placed cells st sub =>
      let s := cells.foldl (fun s c => s.pokePieces [(c.1, c.2.length)] c.2) s
      .next (s.dmaAdvance tag st sub)
    | .idle => .next s

/-- The arrival of a command that completes (R117), or its engine fault (R111): the host takes no OR (R17). The counter's uncorrectable error is
a data error (R116, log 104). -/
def dmaArrival (p : Party) (j : DmaJob) : Eng Unit := do
  if bit j.cmd.ctl 8 then
    let s ← get
    match runChk (do checkScalar j.cmd.arrive; resolve (s.partyWho p) .rmw j.cmd.arrive 8 8) s with
    | (.error (n, _), t) =>
      set t
      throw (EngErr.fault n j.cmd.arrive)
    | (.ok key, t) =>
      set t
      if j.failed.isSome ∧ regionOf key = .hostMem then throw (EngErr.fault cAccess j.cmd.arrive)
      let _ ← engPeek p key 8
      modify fun s => (s.performOp key (if j.failed.isSome then .amo .or 0x8000000000000000 else .amo .add 1)).2

/-- A status element of q1 (R97). -/
def dmaElement (tag : BitVec 6) (chunk st sub : Nat) : Word := BitVec.ofNat 64 (chunk % 2 ^ 32 * 2 ^ 16 + sub * 2 ^ 12 + st * 2 ^ 8 + tag.toNat)

/-- A tag's command completes: TAGERR on a data error, then TAGRDY (R95). -/
def State.tagDone (s : State) (core : Nat) (t : Nat) (err : Bool) : State :=
  s.modCoreId core fun c => { c with
    dmaTags := setBit c.dmaTags t false
    ctx := { c.ctx with tagerr := if err then setBit c.ctx.tagerr t true else c.ctx.tagerr, tagrdy := setBit c.ctx.tagrdy t true } }

/-- The end of a command: its status element, where it has one, and its tag (R95, R97). Where only the word of the arrival counter is uncorrectable
(R116), every chunk is written and CHUNK is their number (the model's choice, log 133). -/
def State.endDma (s : State) (j : DmaJob) (st sub : Nat) : State :=
  let tag := j.cmd.tag
  let s := s.modCore fun c => { c with dma := c.dma.filter fun k => k.cmd.tag != tag }
  let s := if st ≠ 0 ∨ bit j.cmd.ctl 9 then
      s.modCtx fun c => { c with q1 := putElement 0x3F c.q1 (dmaElement tag (if j.failed.isSome then j.next else j.cmd.chunks) st sub) }
    else s
  s.tagDone s.core.id tag.toNat (st ≠ 0)

/-- DMA_COMMAND_COMPLETE: a command whose chunks are all written, or that has a data error, makes its arrival and sets its tag (R95, R97,
R117). Where the arrival of one with a data error fails, the record names the chunk of the error, which its DMARES meets again (log 109). One that a DMARES
starts beyond its number of chunks has none left to write (the model's choice, log 147). -/
def execDmaCommandComplete (tag : BitVec 6) (s : State) : Host.Outcome State Fault Refusal :=
  match s.dmaJob tag with
  | none => .next s
  | some j =>
    if j.stage = .idle ∧ s.dmaMayRun j ∧ (j.failed.isSome ∨ j.cmd.chunks ≤ j.next) ∧ (j.started ∨ s.leaving s.core.id = false) then
      match dmaArrival (j.party s.core.id) j (s.startDma j) with
      | .error .wait _ => .next s
      | .error (.fault n ptr) t => .next (t.stopDma { j with next := if j.failed.isSome then j.next else j.cmd.chunks } 2 n ptr)
      | .error .ecc t => .next (t.endDma j (j.failed.getD (4, 0)).1 (j.failed.getD (4, 0)).2)
      | .ok _ t => .next (t.endDma j (j.failed.getD (0, 0)).1 (j.failed.getD (0, 0)).2)
    else .next s

end Sys2Proof.Machine
end

