-- ==== Sys2Proof/Machine/Eddy.lean ====
section
/-!
DEFINITION. The indirect copy engine (spec 05 R124 to R136, 14 R355).
-/

namespace Sys2Proof.Machine

/-! ## Commands (R124) -/

def EddyJob.count (j : EddyJob) : Nat := bits j.w10 32 32
def EddyJob.dstOff (j : EddyJob) : Nat := bits j.w10 0 21
def EddyJob.tag (j : EddyJob) : Nat := bits j.w18 32 4
def EddyJob.listId (j : EddyJob) : Nat := bits j.w18 24 8
def EddyJob.event (j : EddyJob) : Nat := bits j.w18 16 3
def EddyJob.rowLen (j : EddyJob) : Nat := bits j.w18 0 16

/-- Bytes of an index element: UH or SW (R124). -/
def indexSize (idx : Word) : Nat := if fmtOf idx = 6 then 2 else 4

/-- The checks of a push, but for the tag's (R126). Where several words fail one check, KINFO holds the first of IDX, BASE, the word at 0x10 and the
word at 0x18 (the model's choice, log 123). -/
def eddyChecks (idx base w10 w18 : Word) (scatter : Bool) : Act Unit := do
  if fmtOf idx ≠ 6 ∧ fmtOf idx ≠ 3 then trap cFormat idx
  if 9 < fmtOf base then trap cFormat base
  if bits w10 21 11 ≠ 0 ∨ 2 ^ 24 < bits w10 32 32 then trap cFormat w10
  if bits w18 36 28 ≠ 0 ∨ bits w18 19 5 ≠ 0 then trap cFormat w18
  firstByte .load idx (indexSize idx)
  firstByte (if scatter then .store else .load) base (startAlign (fmtOf base))
  let len := bits w18 0 16
  if len < 8 ∨ 4096 < len ∨ len % 8 ≠ 0 then trap cMisaligned w18
  if bits w10 0 21 % 64 ≠ 0 then trap cMisaligned w10
  if 0x200000 < bits w10 0 21 + bits w10 32 32 * len then trap cAccess w10

/-- Whether a core has a command of a tag on q4 or being worked on. -/
def Dev.eddyBusy (d : Dev) (core tag : Nat) : Bool := d.eddy.any fun j => j.core == core && j.tag == tag

/-- Commands of a core's q4 not yet started (R119). -/
def Dev.q4Waiting (d : Dev) (core : Nat) : Nat := (d.eddy.filter fun j => j.core == core && !j.started).length

/-- The push of an eddy command from row next on (R126, R135, R355): a tag whose command faulted is held for its resume (R132). -/
def pushEddy (bytes : List Byte) (scatter : Bool) (next : Nat) (resumed : Bool) : Act Unit := do
  let idx := wordAt bytes 0
  let base := wordAt bytes 1
  let w10 := wordAt bytes 2
  let w18 := wordAt bytes 3
  let tag := bits w18 32 4
  let s ← get
  if s.dev.eddyBusy s.core.id tag || (!resumed && s.core.eddyTags.getLsbD tag) then holdFor .retry
  eddyChecks idx base w10 w18 scatter
  let s ← get
  if 4 ≤ s.dev.q4Waiting s.core.id then holdFor .retry
  let n ← modifyGet State.takeSeq
  let s ← get
  let j : EddyJob :=
    { core := s.core.id, idx := idx, base := base, w10 := w10, w18 := w18, scatter := scatter, started := false, next := next
      failed := none, seq := n, kptb := s.core.kptb, level := s.core.level }
  modDev fun d => { d with eddy := d.eddy ++ [j] }
  modCore fun c => { c with eddyTags := c.eddyTags ||| (1#16 <<< tag) }

def execIceg (rs : Reg) (s : State) : Host.Outcome State Fault Refusal :=
  runSeq (.iceg rs) (do pushEddy (← readRecord (← getX rs) 32) false 0 false) s

def execIces (rs : Reg) (s : State) : Host.Outcome State Fault Refusal :=
  runSeq (.ices rs) (do pushEddy (← readRecord (← getX rs) 32) true 0 false) s

/-- ICERES (R135). Of the record it reads the block and the word at 0x20; bits that are set in its bytes 0x30 to 0x3F are not looked at (the model's
choice, log 124). -/
def execIceres (rs : Reg) (s : State) : Host.Outcome State Fault Refusal :=
  runSeq (.iceres rs) (do
    let p ← getX rs
    let bytes ← readRecord p 64
    let w := wordAt bytes 4
    if (bits w 40 8 ≠ 1 ∧ bits w 40 8 ≠ 2) ∨ bits w 49 15 ≠ 0 then trap cFormat p
    pushEddy bytes (bit w 48) (bits w 0 32) true) s

/-! ## The eddy's events (R125, R127 to R133) -/

def EddyJob.party (j : EddyJob) : Party := { core := j.core, seq := j.seq, kptb := j.kptb, level := j.level }

/-- Changes the command of a core's tag. -/
def State.modEddy (s : State) (j : EddyJob) (f : EddyJob → EddyJob) : State :=
  s.modDev fun d => { d with eddy := d.eddy.map fun k => if k.core = j.core ∧ k.tag = j.tag then f k else k }

/-- Whether a command has been taken or can be: the eddy of a cluster takes them oldest first, and works on up to four (R127). -/
def Dev.eddyMayRun (d : Dev) (j : EddyJob) : Bool :=
  let mine := d.eddy.filter fun k => clusterOfId k.core == clusterOfId j.core
  j.started || decide ((mine.filter fun k => k.started).length + (mine.filter fun k => !k.started && decide (k.seq ≤ j.seq)).length ≤ 4)

/-- The eddy takes a command, and with it those of its cluster that are older (R127). -/
def State.startEddy (s : State) (j : EddyJob) : State :=
  s.modDev fun d => { d with
    eddy := d.eddy.map fun k => if clusterOfId k.core = clusterOfId j.core ∧ k.seq ≤ j.seq then { k with started := true } else k }

/-- A command stops with an engine record (R132, R134, R136), at the row it is to do next (log 106): state 1 suspended, 2 faulted. -/
def State.stopEddy (s : State) (j : EddyJob) (state sub : Nat) (faddr : Word) : State :=
  let w := BitVec.ofNat 64 (j.next % 2 ^ 32 + sub * 2 ^ 32 + state * 2 ^ 40 + (if j.scatter then 2 ^ 48 else 0))
  let bytes := wordBytes [j.idx, j.base, j.w10, j.w18, w, faddr, 0, 0]
  let kept := s.keepsRecords j.core
  let s := s.writeRecord j.core (0x1000 + 64 * j.tag) bytes (state == 2) 1 (BitVec.ofNat 6 j.tag)
  let s := s.modDev fun d => { d with eddy := d.eddy.filter fun k => !(k.core == j.core && k.tag == j.tag) }
  if kept ∧ state = 2 then s else s.modCoreId j.core fun c => { c with eddyTags := c.eddyTags &&& ~~~(1#16 <<< j.tag) }

/-- How a row ends: it has been moved, or its index is negative (R125). -/
inductive RowEnd where
  | moved | range
  deriving DecidableEq, Repr

/-- The pointer of a row: exact from BASE's 55 address bits, or the failure of R125. -/
def rowPointer (base : Word) (i len : Nat) : Eng Word := do
  let sum := bits base 0 55 + i * len
  let p := (base &&& 0xFF80000000000000#64) ||| BitVec.ofNat 64 (sum % 2 ^ 55)
  if 2 ^ 55 ≤ sum then throw (EngErr.fault cAccess p)
  return p

/-- An access to a row, whose faults name the row (R125). -/
def namingRow {α : Type} (row : Word) (act : Eng α) : Eng α := fun s =>
  match act s with
  | .error (.fault n _) t => .error (.fault n row) t
  | r => r

/-- One row of a command (R125). -/
def eddyRow (j : EddyJob) : Eng RowEnd := do
  let p := j.party
  let size := indexSize j.idx
  let raw ← engRead p (ptrAt j.idx (j.next * size)) size
  let v := leNat raw
  if size = 4 ∧ 2 ^ 31 ≤ v then return .range
  let row ← rowPointer j.base v j.rowLen
  let packed := clusterKey (clusterOfId j.core) (j.dstOff + j.next * j.rowLen)
  if j.scatter then
    let bytes ← engPeek p packed j.rowLen
    namingRow row (engWrite p row bytes)
  else
    let bytes ← namingRow row (engRead p row j.rowLen)
    modify fun s => s.pokePieces [(packed, j.rowLen)] bytes
  return .moved

/-- The eddy moves the next row of the k-th command in its direction. -/
def State.eddyStep (s : State) (k : Nat) (scatter : Bool) : State :=
  match s.dev.eddy[k]? with
  | none => s
  | some j =>
    if j.scatter = scatter ∧ j.failed = none ∧ j.next < j.count ∧ s.dev.eddyMayRun j ∧ s.leaving j.core = false then
      match eddyRow j (s.startEddy j) with
      | .ok .moved t => t.modEddy j fun k => { k with next := k.next + 1 }
      | .ok .range t => t.modEddy j fun k => { k with failed := some 5 }
      | .error .wait _ => s
      | .error .ecc t => t.modEddy j fun k => { k with failed := some 4 }
      | .error (.fault n ptr) t => t.stopEddy j 2 n ptr
    else s

def execEddyGather (k : Nat) (s : State) : Host.Outcome State Fault Refusal := .next (s.eddyStep k false)

def execEddyScatter (k : Nat) (s : State) : Host.Outcome State Fault Refusal := .next (s.eddyStep k true)

/-- An eddy result element (R130). -/
def eddyElement (j : EddyJob) (rows status : Nat) : Word :=
  BitVec.ofNat 64 (rows * 2 ^ 24 + j.listId * 2 ^ 16 + status * 2 ^ 12 + j.tag)

/-- EDDY_COMPLETE: the k-th command, all of whose rows are moved or which has a data error, pushes its element and signals its event (R128,
R129, R133). -/
def execEddyComplete (k : Nat) (s : State) : Host.Outcome State Fault Refusal :=
  match s.dev.eddy[k]? with
  | none => .next s
  | some j =>
    if s.dev.eddyMayRun j ∧ (j.failed.isSome ∨ j.count ≤ j.next) ∧ (j.started ∨ s.leaving j.core = false) then
      let e := eddyElement j (if j.failed.isSome then j.next else j.count) (j.failed.getD 0)
      let s := (s.startEddy j).modDev fun d => { d with eddy := d.eddy.eraseIdx k }
      .next (s.modCoreId j.core fun c => { c with
        eddyTags := c.eddyTags &&& ~~~(1#16 <<< j.tag)
        ctx := { c.ctx with q5 := putElement 0xF c.ctx.q5 e, evPend := c.ctx.evPend ||| (1#8 <<< j.event) } })
    else .next s

end Sys2Proof.Machine
end

