-- ==== Sys2Proof/Machine/Matrix.lean ====
section
/-!
DEFINITION. The matrix engine (spec 02 R57, 03 R65, R66, R74, 08 R205, 10 R243 to R245, 16 R386 to R402): its commands, their pushes, and the
slice that runs them, alone or as part of a gang's joint array.
-/

namespace Sys2Proof.Machine

/-! ## The fields of an MTX word (R386) -/

/-- n bits from lo of an instruction word. -/
def field (w : IWord) (lo n : Nat) : Nat := w.toNat / 2 ^ lo % 2 ^ n

def mtxFn (w : IWord) : Nat := field w 0 3
def mtxTag (w : IWord) : Nat := field w 3 3
def mtxPri (w : IWord) : Nat := field w 6 2
def mtxPlanes (w : IWord) : Nat := field w 8 3 + 1
def mtxC (w : IWord) : Nat := field w 11 5
def mtxB (w : IWord) : Nat := field w 16 5
def mtxWt (w : IWord) : Nat := field w 21 2
def mtxAc (w : IWord) : Nat := field w 23 3

/-- First register of an MMA's octet, and its rows (R396). -/
def mmaOctet (w : IWord) : Nat := field w 19 2 * 8
def mmaRows (w : IWord) : Nat := field w 16 3 + 1

/-- Row groups of MMAS and MSTA (R397, R398), and k-steps of MMAS. -/
def mtxGroups (w : IWord) : Nat := field w 13 3 + 1
def mmasSteps (w : IWord) : Nat := mtxWt w + 1

/-- Whether a word is a legal MTX word (R389). -/
def isMtxWord (w : IWord) : Bool :=
  match decode w with
  | some (.mldw _ _ _ _) | some (.mzero _ _ _) | some (.mma _ _ _ _ _ _ _ _) | some (.mmas _ _ _ _ _ _ _)
  | some (.msta _ _ _ _ _) | some (.mstv _ _ _ _ _) => true
  | _ => false

/-- The tiles that a command names: accumulator tiles 0 to 7, weight tiles from 8 (R391). -/
def mtxTiles (w : IWord) : List Nat :=
  match mtxFn w with
  | 0 => [8 + mtxWt w]
  | 2 => [mtxAc w, 8 + mtxWt w]
  | 3 => mtxAc w :: (List.range (mmasSteps w)).map fun j => 8 + j
  | _ => [mtxAc w]

/-- The micro-tiles of a command that has them, as DONE bits in order (R396, R397). -/
def microTiles (w : IWord) : List Nat :=
  match mtxFn w with
  | 2 => [0]
  | 3 => ((List.range (mmasSteps w)).map fun k => (List.range (mtxGroups w)).map fun g => 8 * k + g).flatten
  | _ => []

/-- Whether a command progresses by micro-tiles. -/
def hasMicroTiles (w : IWord) : Bool := mtxFn w == 2 || mtxFn w == 3

/-! ## Tiles (R66, R57, R396) -/

/-- The datum of an accumulator tile, element (m, n) in bits 32 (64 m + n) up. -/
def Ctx.getAc (c : Ctx) (n : Nat) : BitVec 131072 := if h : n < 8 then c.ac[n]'h else 0

def Ctx.setAc (c : Ctx) (n : Nat) (v : BitVec 131072) : Ctx := if h : n < 8 then { c with ac := c.ac.set n v h } else c

/-- A weight tile: 64 columns of 72 bytes. -/
def Ctx.getWt (c : Ctx) (n : Nat) : BitVec 36864 := if h : n < 4 then c.wt[n]'h else 0

def Ctx.getWtPlanes (c : Ctx) (n : Nat) : Nat := if h : n < 4 then (c.wtPlanes[n]'h).toNat else 0

/-- Loads a weight tile with its plane count. -/
def Ctx.setWt (c : Ctx) (n : Nat) (v : BitVec 36864) (planes : Nat) : Ctx :=
  if h : n < 4 then { c with wt := c.wt.set n v h, wtPlanes := c.wtPlanes.set n (BitVec.ofNat 8 planes) h } else c

/-- A tile that an MLDW with a data error leaves: plane count 0 (R394). -/
def Ctx.spoilWt (c : Ctx) (n : Nat) : Ctx := if h : n < 4 then { c with wtPlanes := c.wtPlanes.set n 0 h } else c

/-- A column of a weight tile read with k planes: its 64 weights, none where one reads as NaR, and its scale in binary32 (R396). -/
def Ctx.weightCol (c : Ctx) (j k n : Nat) (narm : Bool) : Option (List Int) × Nat :=
  let planes := c.getWtPlanes j
  if planes = 0 then (some (List.replicate 64 0), 0)
  else
    let block := leBytes 72 (lane (c.getWt j).toNat 576 n)
    let ws := (List.range 64).map fun e => readPlanes (planeCode block planes 64 e) planes k narm
    (if ws.any fun w => w.isNone then none else some (ws.filterMap fun w => w), toSF fmtBF (leNat (block.take 2)))

/-- The sum of products of a row and a column. -/
def dotInt : List Int → List Int → Int
  | a :: as, b :: bs => a * b + dotInt as bs
  | _, _ => 0

/-- One element's update (R57), with a NaR in its column (R396). -/
def macElement (old : Nat) (row : List Int × Nat) (col : Option (List Int) × Nat) : Nat :=
  match col.1 with
  | none => 0x7FC00000
  | some ws =>
    let t := mul32 row.2 col.2
    rne (fmtSF.fmaV .rne (FVal.ofInt (dotInt row.1 ws)) (fmtSF.decode t) (fmtSF.decode old))

/-- One k-step of some rows from a first one on, into an accumulator tile (R57). -/
def Ctx.kStep (c : Ctx) (ac wt planes : Nat) (narm : Bool) (first : Nat) (rows : List (List Int × Nat)) : Ctx :=
  let cols := (List.range 64).map fun n => c.weightCol wt planes n narm
  let old := (c.getAc ac).toNat
  let cell (i : Nat) : Nat :=
    let m := i / 64
    let x := lane old 32 i
    if m < first then x
    else match rows[m - first]?, cols[i % 64]? with
      | some r, some k => macElement x r k
      | _, _ => x
  c.setAc ac (BitVec.ofNat 131072 (ofLanes 32 ((List.range 4096).map cell)))

/-- A byte as a signed integer. -/
def signed8 (v : Nat) : Int := if v < 128 then v else (v : Int) - 256

/-- The rows and scales that an MMA read when it started: the octet, then the register of row scales. -/
def actRows (act : BitVec 4608) (n : Nat) : List (List Int × Nat) :=
  (List.range n).map fun m => ((List.range 64).map fun k => signed8 (lane act.toNat 8 (64 * m + k)), lane act.toNat 32 (128 + m))

/-! ## Pushing (R388 to R390) -/

/-- Check 1 of R390: every tile and register that a word names lies below its declared count. -/
def Ctx.hasMtxRegs (c : Ctx) (w : IWord) : Bool :=
  let wts := match mtxFn w with
    | 0 => mtxWt w + 1
    | 2 => mtxWt w + 1
    | 3 => mmasSteps w
    | _ => 0
  (mtxFn w == 0 || decide (mtxAc w < c.actiles)) && decide (wts ≤ c.wtiles) &&
    (match mtxFn w with
      | 2 => decide (mmaOctet w + 8 ≤ c.vregs ∧ mtxC w < c.vregs)
      | 5 => decide (mtxB w + 4 ≤ c.vregs)
      | _ => true)

/-- Fields of an MMAS descriptor (R74). -/
def rowPitch (d : Word) : Nat := bits d 0 16
def tilePitch (d : Word) : Nat := bits d 16 24

/-- Offset of the last byte of an MMAS operand (R397). -/
def mmasSpan (w : IWord) (d : Word) : Nat := mmasSteps w * tilePitch d + (8 * mtxGroups w - 1) * rowPitch d + 63

/-- The operand checks of an MMAS (R397). -/
def mmasChecks (w : IWord) (base d : Word) : Act Unit := do
  if bits d 43 21 ≠ 0 then trap cFormat d
  if rowPitch d % 64 ≠ 0 ∨ tilePitch d % 64 ≠ 0 then trap cMisaligned d
  if isMesh base = false ∨ bits base 53 2 ≠ 1 then trap cAccess base
  if bits base 0 40 % 64 ≠ 0 then trap cMisaligned base
  firstByte .load base 1
  if 0x200000 ≤ bits base 0 40 + mmasSpan w d then trap cAccess base

/-- Bytes of a bit-plane tile of some planes (R394). -/
def tileBytes (planes : Nat) : Nat := 64 * (8 + 8 * planes)

/-- Where the table array of an entropy-coded tile begins (R394). -/
def tileTable (src : Word) (planes : Nat) : Word :=
  ptrAt src ((tileBytes planes + chunkBytes src - 1) / chunkBytes src * chunkBytes src)

/-- Whether an entropy-coded source is laid out for a plane count: the descriptor of its first chunk, where R394 puts the table array for that
count, names that bit-plane format (log 34). -/
def laidOutFor (p : Party) (src : Word) (n : Nat) : Eng Bool := do
  let bytes ← engRead p (tileTable src n) 16
  return (chunkDesc bytes (min (chunkBytes src) (tileBytes n)) fun inner => inner == n + 8).isSome

/-- The plane counts of MLDW. -/
def planeCounts : List Nat := [2, 3, 4, 5, 6, 7, 8]

/-- The plane count for which an entropy-coded source is laid out, the counts tried in order. -/
def tilePlanes (p : Party) (src : Word) : List Nat → Eng (Option Nat)
  | [] => return none
  | n :: rest => do if (← laidOutFor p src n) then return some n else tilePlanes p src rest

/-- The plane count of an entropy-coded source as it stands at the push: the one whose descriptor cannot be read, and the least one where none
fits. -/
def tilePlanesNow (p : Party) (src : Word) : List Nat → Act Nat
  | [] => return 2
  | n :: rest => fun s =>
    match laidOutFor p src n s with
    | .ok true t => .ok n t
    | .ok false t => tilePlanesNow p src rest t
    | .error _ t => .ok n t

/-- The operand checks of an MLDW (R394). -/
def mldwChecks (src : Word) : Act Unit := do
  if fmtOf src = 21 then
    firstByte .load src 8
    let s ← get
    let n ← tilePlanesNow { core := s.core.id, seq := s.dev.seq, kptb := s.core.kptb, level := s.core.level } src planeCounts
    firstByte .load (tileTable src n) 1
  else
    if isPlanes (fmtOf src) = false ∨ blockLen src ≠ 64 then trap cFormat src
    firstByte .load src 8

/-- Check 3 of R390; for MSTV the appends that writing its quad is to make are checked too (R139, R359, R399). -/
def mtxOperands (w : IWord) (bval cval : Word) : Act Unit := do
  match mtxFn w with
  | 0 => mldwChecks bval
  | 3 => mmasChecks w bval cval
  | 4 =>
    if fmtOf bval ≠ 9 ∧ fmtOf bval ≠ 0 ∧ fmtOf bval ≠ 8 then trap cFormat bval
    firstByte .store bval (if fmtOf bval = 8 then 2 else 4)
  | 5 =>
    if 63 < cval.toNat then trap cFormat cval
    let _ ← appendKeys ((List.range 4).map fun i => mtxB w + i)
  | _ => return ()

/-- The slice of the leader that a member's push joins: the one the leader executed in its slot of the same stream instruction. -/
def State.leaderJob (s : State) (l : GangLink) : Option MtxJob :=
  match s.gang? l.gang with
  | none => none
  | some g =>
    let lead := (g.members.find? fun m => m.pos == 0).map fun m => m.core
    (g.staged.find? fun x => x.k == s.slotOf l && some x.core == lead).map fun x => x.job

/-- Whether an instruction of a core that reads and writes some vector registers holds at issue: an MMA of its own whose octet or row
scales it writes, or an MSTV whose quad it reads or writes. -/
def State.mtxBlocks (s : State) (core : Nat) (reads writes : List Nat) : Bool :=
  let own (j : MtxJob) : Bool := match j.joint with
    | none => true
    | some x => x.lead == core
  let octet (j : MtxJob) (r : Nat) : Bool := decide (mmaOctet j.word ≤ r ∧ r < mmaOctet j.word + 8) || r == mtxC j.word
  let quad (j : MtxJob) (r : Nat) : Bool := decide (mtxB j.word ≤ r ∧ r < mtxB j.word + 4)
  let blocks (j : MtxJob) : Bool :=
    (mtxFn j.word == 5 && (reads ++ writes).any (quad j)) || (mtxFn j.word == 2 && own j && writes.any (octet j))
  let queued := match s.coreById core with
    | none => []
    | some c => c.mtx
  let staged := (s.dev.gangs.map fun g =>
    let lead := g.members.any fun m => m.pos == 0 && m.core == core
    (g.staged.filter fun x => ((s.coreById core).any fun c => x.isOf c) && (lead || g.dissolved || mtxFn x.job.word == 5)).map fun x => x.job).flatten
  queued.any blocks || staged.any blocks

/-- The push of a matrix command (R387 to R390, R205). An MMA pops the bound registers that it is to read, once its push is certain (R359,
log 60). -/
def pushMatrix (i : Instr) (w : IWord) (bval cval : Word) : Act Unit := do
  let s ← get
  needReg i (s.ctx.hasMtxRegs w)
  notHeld 0
  if s.ctx.gangMode = 3 ∧ hasMicroTiles w then trapGang 9 0
  let member := s.core.inStream && s.ctx.gangMode == 2
  let reads := if mtxFn w = 2 ∧ member = false then (List.range 8).map (fun i => mmaOctet w + i) ++ [mtxC w] else []
  let writes := if mtxFn w = 5 then (List.range 4).map fun i => mtxB w + i else s.ctx.popWrites reads
  if s.mtxBlocks s.core.id reads writes then holdFor .retry
  if !(member && mtxFn w == 3) then mtxOperands w bval cval
  let s ← get
  let lead := match s.core.link with
    | some l => if member then s.leaderJob l else none
    | none => none
  let word := match lead with
    | some j => j.word
    | none => w
  let (bval, cval) := match lead with
    | some j => if hasMicroTiles word then (j.bval, j.cval) else (bval, cval)
    | none => (bval, cval)
  if bit s.core.dmaTags (56 + mtxTag w) || bit s.core.dmaTags (56 + mtxTag word) then holdFor .retry
  match lowestSlot (s.heldSlots s.core.id) with
  | none => holdFor .retry
  | some slot =>
    popOperands reads
    let n ← modifyGet State.takeSeq
    let s ← get
    let j : MtxJob :=
      { slot := slot, word := word, bval := bval, cval := cval, mask := 0, state := .waiting, fresh := true, started := false
        restart := none, prio := 0, since := s.dev.cycles, seq := n, narm := s.ctx.narm, kptb := s.core.kptb, level := s.core.level, act := 0, joint := none }
    modify fun s => s.tagStart (BitVec.ofNat 6 (56 + mtxTag word))
    match s.core.link with
    | some l =>
      if s.core.inStream then
        let x : Staged := { k := s.slotOf l, core := s.core.id, lnum := s.ctx.lnum, wuid := s.ctx.wuid, job := j }
        modify fun s => s.modGang l.gang fun g => { g with staged := g.staged ++ [x] }
      else modCore fun c => { c with mtx := c.mtx ++ [j] }
    | none => modCore fun c => { c with mtx := c.mtx ++ [j] }

def execMldw (wt : BitVec 2) (xs : Reg) (pri : BitVec 2) (tag : BitVec 3) (s : State) : Host.Outcome State Fault Refusal :=
  let i := Instr.mldw wt xs pri tag
  runSeq i (do pushMatrix i (wordOf i) (← getX xs) 0) s

def execMzero (ac : BitVec 3) (pri : BitVec 2) (tag : BitVec 3) (s : State) : Host.Outcome State Fault Refusal :=
  let i := Instr.mzero ac pri tag
  runSeq i (pushMatrix i (wordOf i) 0 0) s

def execMma (ac : BitVec 3) (wt oct : BitVec 2) (rows : BitVec 3) (vs : Reg) (planes : BitVec 3) (pri : BitVec 2) (tag : BitVec 3)
    (s : State) : Host.Outcome State Fault Refusal :=
  let i := Instr.mma ac wt oct rows vs planes pri tag
  runSeq i (guardCtx (pushMatrix i (wordOf i) 0 0)) s

def execMmas (ac : BitVec 3) (ks : BitVec 2) (xb : Reg) (rows : BitVec 3) (planes : BitVec 3) (pri : BitVec 2) (tag : BitVec 3)
    (s : State) : Host.Outcome State Fault Refusal :=
  let i := Instr.mmas ac ks xb rows planes pri tag
  runSeq i (do pushMatrix i (wordOf i) (← getX xb) (← getX (xb + 1))) s

def execMsta (ac : BitVec 3) (xd : Reg) (rows : BitVec 3) (pri : BitVec 2) (tag : BitVec 3) (s : State) : Host.Outcome State Fault Refusal :=
  let i := Instr.msta ac xd rows pri tag
  runSeq i (do pushMatrix i (wordOf i) (← getX xd) 0) s

def execMstv (ac : BitVec 3) (vq xr : Reg) (pri : BitVec 2) (tag : BitVec 3) (s : State) : Host.Outcome State Fault Refusal :=
  let i := Instr.mstv ac vq xr pri tag
  runSeq i (do pushMatrix i (wordOf i) 0 (← getX xr)) s

/-! ## The slice's choice (R391, R392, R245) -/

/-- The effective priority of a waiting command (R392). -/
def MtxJob.effPrio (j : MtxJob) (now : Nat) : Nat := min 3 (mtxPri j.word + (now - j.since) / 2048)

/-- Whether two commands name a common tile (R391). -/
def MtxJob.shares (j k : MtxJob) : Bool := (mtxTiles j.word).any fun t => (mtxTiles k.word).contains t

/-- The commands of q2 that may start: waiting, and none of the commands ahead of them names a tile of theirs (R391). -/
def mayStart : List MtxJob → List MtxJob → List MtxJob
  | [], _ => []
  | j :: js, ahead =>
    let rest := mayStart js (j :: ahead)
    if j.state = .waiting ∧ !(ahead.any j.shares) then j :: rest else rest

/-- The first of the highest effective priority. -/
def bestJob (now : Nat) : List MtxJob → Option MtxJob
  | [] => none
  | j :: js => match bestJob now js with
    | none => some j
    | some k => if j.effPrio now < k.effPrio now then some k else some j

/-- A slice runs its command, or has it finished. -/
def MtxJob.busy (j : MtxJob) : Bool :=
  match j.state with
  | .running => true
  | .finished _ _ => true
  | .waiting => false
  | .faulted => false

/-- The command that a core's slice runs. -/
def Core.mtxRunning (c : Core) : Option MtxJob := c.mtx.find? MtxJob.busy

/-- Micro-tiles of a command that are not marked. -/
def MtxJob.tilesLeft (j : MtxJob) : List Nat := (microTiles j.word).filter fun t => !(j.mask.getLsbD t)

/-- Whether a running command stands at a k-step boundary (R392). -/
def MtxJob.atStep (j : MtxJob) : Bool :=
  match j.tilesLeft with
  | [] => false
  | t :: _ => mtxFn j.word == 3 && decide (8 ≤ t) && !((microTiles j.word).any fun u => u / 8 == t / 8 && j.mask.getLsbD u) && j.state == .running

/-- Whether a slice can begin its choice: it is free, or its MMAS is to be overtaken (R392). -/
def Core.mtxCanBegin (c : Core) (now : Nat) (j : MtxJob) : Bool :=
  match c.mtxRunning with
  | none => true
  | some r => r.atStep && decide (r.prio < j.effPrio now)

/-- Weight tiles that a context's accumulator storage has (R60). -/
def Ctx.wtn (c : Ctx) : Nat := bits c.ppw 53 3

/-- A core whose context waits to leave starts nothing that can be saved (R244). -/
def Core.mtxStops (c : Core) : Bool := c.hold == .wswap && c.ctx.wtn != 0

/-- The cores of a command's slices. -/
def MtxJob.cores (j : MtxJob) (core : Nat) : List Nat :=
  match j.joint with
  | none => [core]
  | some x => x.cores

/-- A core has a slice of the joint command saved with a parked context (R244). -/
def Core.hasSaved (c : Core) (id : Nat) : Bool :=
  c.jointSaved.any fun k => k.keys.any fun j => match j.joint with
    | none => false
    | some x => x.id == id

/-- Whether two slices are of one command. -/
def MtxJob.isSlice (j k : MtxJob) : Bool :=
  match j.joint, k.joint with
  | none, none => j.seq == k.seq
  | some x, some y => x.id == y.id
  | _, _ => false

/-- The slices of a command with their cores. -/
def State.slices (s : State) (core : Nat) (j : MtxJob) : List (Nat × MtxJob) :=
  (j.cores core).filterMap fun n => match s.coreById n with
    | none => none
    | some c => (c.mtx.find? fun k => k.isSlice j).map fun k => (n, k)

/-- The cores that have a slice of a command in q2. -/
def State.slicers (s : State) (j : MtxJob) : List Core := s.cores.filter fun c => c.mtx.any fun k => k.isSlice j

/-- Whether no slice of a command is saved, or stopped by a fault (R244, R245). -/
def State.jointWhole (s : State) (j : MtxJob) : Bool :=
  match j.joint with
  | none => true
  | some x => x.cores.all fun n => match s.coreById n with
    | none => true
    | some c => !(c.hasSaved x.id) && !(c.mtx.any fun k => k.isSlice j && k.state == .faulted)

/-- A joint command waits while it is not whole, and pauses in place while a member that takes part is held (R202, R243, R450): but for one that
runs to completion before a context leaves (R244). -/
def State.jointReady (s : State) (j : MtxJob) : Bool :=
  let cs := s.slicers j
  s.jointWhole j && (j.joint.isNone || !(cs.any fun c => c.heldAt.isSome) || (!(hasMicroTiles j.word) && cs.any fun c => c.hold == .wswap))

/-- The command that a core's slice has chosen to run next (R392). One of its pushes that has still to enter q2 is ahead of the pushes after
it (R391). -/
def State.mtxChoice (s : State) (c : Core) : Option MtxJob :=
  let free (j : MtxJob) : Bool := s.jointWhole j && !((s.stagedOf c).any fun x => decide (x.job.seq < j.seq) && j.shares x.job)
  bestJob s.dev.cycles ((mayStart c.mtx []).filter free)

/-- Changes a command's slice on a core. -/
def State.modSlice (s : State) (n : Nat) (j : MtxJob) (f : MtxJob → MtxJob) : State :=
  s.modCoreId n fun c => { c with mtx := c.mtx.map fun k => if k.isSlice j then f k else k }

/-- The octet and the row scales of a core, as an MMA reads them. -/
def Ctx.actOf (c : Ctx) (w : IWord) : BitVec 4608 :=
  BitVec.ofNat 4608 (ofLanes 512 ((List.range 8).map (fun i => (c.getV (mmaOctet w + i)).toNat) ++ [(c.getV (mtxC w)).toNat]))

/-- A slice starts: an overtaken command waits again, and MTMASK and the command's done mask agree (R392, R400). -/
def Core.startSlice (c : Core) (j : MtxJob) (now : Nat) (act : BitVec 4608) : Core :=
  let mask := match c.mtx.find? fun k => k.isSlice j with
    | some k => if k.fresh then c.ctx.mtmask else k.mask
    | none => c.ctx.mtmask
  { c with
    ctx := { c.ctx with mtmask := mask }
    mtx := c.mtx.map fun k =>
      if k.isSlice j then { k with state := .running, fresh := false, started := true, mask := mask, prio := k.effPrio now, act := act }
      else if k.state = .running then { k with state := .waiting } else k }

/-- The registers that an MMA works on: what it read when it started, which a slice that has not left its core still has; else the leader's as they
stand, which the interlock has kept (R393). -/
def State.actFor (s : State) (core : Nat) (j : MtxJob) (slices : List (Nat × MtxJob)) : BitVec 4608 :=
  match slices.find? fun x => x.2.started with
  | some x => x.2.act
  | none =>
    let lead := match j.joint with
      | none => core
      | some x => x.lead
    match s.coreById lead with
    | none => s.ctx.actOf j.word
    | some c => c.ctx.actOf j.word

/-- MATRIX_COMMAND_START: the slice of the core in focus begins its choice, where every slice of the command can or runs it already (R391, R392,
R205). -/
def execMatrixCommandStart (s : State) : Host.Outcome State Fault Refusal :=
  let now := s.dev.cycles
  match s.mtxChoice s.core with
  | none => .next s
  | some j =>
    let ready (n : Nat) : Bool := match s.coreById n with
      | none => false
      | some c => !c.mtxStops && (match s.mtxChoice c with
        | none => false
        | some k => k.isSlice j && c.mtxCanBegin now k)
    let idle := ((s.slices s.core.id j).filter fun x => !x.2.busy).map fun x => x.1
    if s.jointReady j ∧ idle.all ready then
      let act := s.actFor s.core.id j (s.slices s.core.id j)
      .next (idle.foldl (fun s n => s.modCoreId n fun c => c.startSlice j now act) s)
    else .next s

/-! ## Micro-tiles (R243, R397) -/

def MtxJob.party (j : MtxJob) (core : Nat) : Party := { core := core, seq := j.seq, kptb := j.kptb, level := j.level }

/-- A read of rows for several slices: the earlier stores of each slice's core are observed (R121, R205). -/
def jointRead (p : Party) (others : List Party) (ptr : Word) (n : Nat) : Eng (List Byte) := do
  let keys ← engKeys p .load ptr n
  let bs ← keys.mapM fun (k, len) => do
    for q in others do
      if (← get).dev.bcastAhead q k len then throw EngErr.wait
      modify fun s => s.drainLines q.core k len q.seq
    engPeek p k len
  return bs.flatten

/-- One row of an MMAS operand with its scale (R397). -/
def mmasRow (p : Party) (others : List Party) (j : MtxJob) (t r : Nat) : Eng (List Int × Nat) := do
  let row := r * rowPitch j.cval
  let bytes ← jointRead p others (ptrAt j.bval (t * tilePitch j.cval + row)) 64
  let scale ← jointRead p others (ptrAt j.bval (mmasSteps j.word * tilePitch j.cval + row)) 4
  return (bytes.map fun b => signed8 b.toNat, leNat scale)

/-- The rows of a micro-tile. -/
def tileRows (p : Party) (others : List Party) (j : MtxJob) (t : Nat) : Eng (List (List Int × Nat)) :=
  if mtxFn j.word = 2 then return actRows j.act (mmaRows j.word)
  else (List.range 8).mapM fun r => mmasRow p others j (t / 8) (8 * (t % 8) + r)

/-- A micro-tile on one slice: applied where it is not marked, and marked. -/
def Core.applyTile (c : Core) (j : MtxJob) (t : Nat) (rows : List (List Int × Nat)) : Core :=
  match c.mtx.find? fun k => k.isSlice j with
  | none => c
  | some k =>
    if k.mask.getLsbD t then c
    else
      let wt := if mtxFn k.word = 2 then mtxWt k.word else t / 8
      let mask := k.mask ||| (1#32 <<< t)
      { c with
        ctx := { c.ctx.kStep (mtxAc k.word) wt (mtxPlanes k.word) k.narm (8 * (t % 8)) rows with mtmask := mask }
        mtx := c.mtx.map fun m => if m.isSlice j then { m with mask := mask } else m }

/-- The record of a matrix command with a STATE and a faulting pointer (R389). -/
def MtxJob.record (j : MtxJob) (state sub : Nat) (faddr : Word) : List Byte :=
  wordBytes [j.word.setWidth 64, j.bval, j.cval, BitVec.ofNat 64 (j.mask.toNat * 2 ^ 32 + sub * 2 ^ 8 + state), faddr, 0, 0, 0]

/-- A tag of a core whose command stops with a record is in flight no longer (R95); one whose record is not kept stays so (R242). -/
def State.endFlight (s : State) (core tag : Nat) : State :=
  if s.keepsRecords core then s.modCoreId core fun c => { c with dmaTags := setBit c.dmaTags tag false } else s

/-- A matrix engine fault at one slice: its FAULTED record, which ends its tag's flight, ENGINE_FAULT, and the command back in q2 (R95, R245, R387,
R401). -/
def State.faultSlice (s : State) (core : Nat) (j : MtxJob) (sub : Nat) (faddr : Word) : State :=
  match s.coreById core with
  | none => s
  | some c =>
    match c.mtx.find? fun k => k.isSlice j with
    | none => s
    | some k =>
      let s := s.writeRecord core (0x1400 + 64 * k.slot.toNat) (k.record 2 sub faddr) true 2 (k.slot.setWidth 6)
      ((s.modSlice core j fun k => { k with state := .faulted, restart := none }).endFlight core (56 + mtxTag k.word)).giveSlots core

/-- MICRO_TILE_COMPLETE: the running MMA or MMAS of the slice in focus completes its next micro-tile, on every slice, once each of them runs it: one
that a command of its own core has overtaken is waited for (R243, R392, R397). -/
def execMicroTileComplete (s : State) : Host.Outcome State Fault Refusal :=
  match s.core.mtxRunning with
  | none => .next s
  | some j =>
    let slices := s.slices s.core.id j
    let left := (microTiles j.word).filter fun t => slices.any fun x => !(x.2.mask.getLsbD t)
    let overtaken := slices.any fun x => match s.coreById x.1 with
      | none => false
      | some c => x.2.atStep && (match s.mtxChoice c with
        | none => false
        | some k => decide (x.2.prio < k.effPrio s.dev.cycles))
    match left with
    | [] => .next s
    | t :: _ =>
      if slices.all (fun x => x.2.state == .running) ∧ s.jointReady j ∧ overtaken = false then
        let lead := match j.joint with
          | none => s.core.id
          | some x => if slices.any fun y => y.1 == x.lead then x.lead else s.core.id
        let main := ((slices.find? fun x => x.1 == lead).map fun x => x.2).getD j
        let others := (slices.filter fun x => x.1 != lead).map fun x => x.2.party x.1
        match tileRows (main.party lead) others main t s with
        | .ok rows u => .next (slices.foldl (fun s x => s.modCoreId x.1 fun c => c.applyTile j t rows) u)
        | .error .wait _ => .next s
        | .error .ecc u => .next (slices.foldl (fun s x => s.modSlice x.1 j fun k => { k with state := .finished 4 0 }) u)
        | .error (.fault n ptr) u =>
          let u := (slices.filter fun x => x.1 != lead).foldl (fun s x => s.modSlice x.1 j fun k => { k with state := .waiting }) u
          .next (u.faultSlice lead j n ptr)
      else .next s

/-! ## Completion (R387, R388, R394 to R399) -/

/-- The bytes of a tile as MLDW fetches them, or how it ends (R394): bytes, plane count, status and sub-code. -/
def tileFetch (p : Party) (src : Word) : Eng (List Byte × Nat × Nat × Nat) := do
  if fmtOf src = 21 then
    match (← tilePlanes p src planeCounts) with
    | none => return ([], 0, 3, 0)
    | some n =>
      let len := tileBytes n
      let chunks := (len + chunkBytes src - 1) / chunkBytes src
      let mut out : List Byte := []
      for m in List.range chunks do
        let (bytes, st, sub) ← readEntropy p src (tileTable src n) len m fun inner => inner == n + 8
        if st ≠ 0 then return ([], n, st, sub)
        out := out ++ bytes
      return (out, n, 0, 0)
  else
    let n := planesOf (fmtOf src)
    return (← engRead p src (tileBytes n), n, 0, 0)

/-- The tile that fetched bytes make: each column in its 72-byte slot, the rest of the slot zero (R66, R394). -/
def tileOf (bytes : List Byte) (planes : Nat) : BitVec 36864 :=
  let stride := 8 + 8 * planes
  BitVec.ofNat 36864 (ofLanes 576 ((List.range 64).map fun n => leNat ((bytes.drop (stride * n)).take stride)))

/-- The bytes that MSTA stores (R398). -/
def staBytes (tile : BitVec 131072) (rows : Nat) (dest : Word) : List Byte :=
  ((List.range (64 * rows)).map fun i =>
    let v := lane tile.toNat 32 i
    if fmtOf dest = 8 then leBytes 2 (rne (fmtBF.convert .rne (fmtSF.decode v))) else leBytes 4 v).flatten

/-- A write of the engine in ascending pieces of a page, each checked before it is written: a fault leaves the pieces before it written
(R401, log 35). -/
def writeAscending (p : Party) (dest : Word) (bytes : List Byte) : Eng Unit := do
  let pieces := if isMesh dest then [(0, bytes.length)] else pagePieces (bits dest 0 48) bytes.length
  for (o, n) in pieces do
    engWrite p (ptrAt dest o) ((bytes.drop o).take n)

/-- The registers of a quad are written, and each that is bound as a write stream is appended. The push has checked the appends; one that fails when
they are checked again, before anything is written, is an engine fault, and has no effect (R139, R359, R399, log 60). -/
def writeQuad (p : Party) (first row : Nat) : Eng Unit := do
  let (ctx, wp) := match (← get).coreById p.core with
    | none => (Ctx.boot, 0)
    | some c => (c.ctx.setGroup (BitVec.ofNat 5 first) row 4, c.wp)
  let due := ctx.writeStreams ((List.range 4).map fun i => first + i)
  for i in due do
    let d := ctx.getSd (BitVec.ofNat 2 i)
    if d.limit.toNat ≤ d.pos.toNat then throw (EngErr.fault cAccess (descAddress wp i))
    let _ ← engKeys p .store (ptrAt d.val (64 * d.pos.toNat)) 64
  modify fun s => s.modCtxId p.core fun c => c.setGroup (BitVec.ofNat 5 first) row 4
  for i in due do
    let d := ctx.getSd (BitVec.ofNat 2 i)
    engWrite p (ptrAt d.val (64 * d.pos.toNat)) (leBytes 64 (ctx.getV (28 + i)).toNat)
    modify fun s => s.modCtxId p.core fun c => c.setSd (BitVec.ofNat 2 i) { d with pos := d.pos + 1 }

/-- The work of a slice of MLDW, MZERO, MSTA or MSTV: a data error's status and sub-code, 0 without. -/
def sliceWork (core : Nat) (j : MtxJob) : Eng (Nat × Nat) := do
  let p := j.party core
  let ctx := match (← get).coreById core with
    | none => Ctx.boot
    | some c => c.ctx
  match mtxFn j.word with
  | 0 =>
    match (← (fun s => match tileFetch p j.bval s with
        | .error .ecc t => .ok ([], 0, 4, 0) t
        | r => r : Eng (List Byte × Nat × Nat × Nat))) with
    | (bytes, n, 0, _) =>
      modify fun s => s.modCtxId core fun c => c.setWt (mtxWt j.word) (tileOf bytes n) n
      return (0, 0)
    | (_, _, st, sub) =>
      modify fun s => s.modCtxId core fun c => c.spoilWt (mtxWt j.word)
      return (st, sub)
  | 1 =>
    modify fun s => s.modCtxId core fun c => c.setAc (mtxAc j.word) 0
    return (0, 0)
  | 4 =>
    writeAscending p j.bval (staBytes (ctx.getAc (mtxAc j.word)) (8 * mtxGroups j.word) j.bval)
    return (0, 0)
  | 5 =>
    writeQuad p (mtxB j.word) (lane (ctx.getAc (mtxAc j.word)).toNat 2048 (j.cval.toNat % 64))
    return (0, 0)
  | _ => return (0, 0)

/-- How the work of a slice ended. -/
inductive SliceEnd where
  | done (st sub : Nat)
  | fault (cause : Nat) (ptr : Word)
  | wait
  deriving DecidableEq, Repr

/-- The work of every slice of a command. -/
def State.workSlices (s : State) : List (Nat × MtxJob) → State × List (Nat × SliceEnd)
  | [] => (s, [])
  | (n, j) :: rest =>
    let (s, e) : State × SliceEnd := match sliceWork n j s with
      | .ok (st, sub) t => (t, .done st sub)
      | .error .ecc t => (t, .done 4 0)
      | .error .wait t => (t, .wait)
      | .error (.fault c ptr) t => (t, .fault c ptr)
    let (s, es) := s.workSlices rest
    (s, (n, e) :: es)

/-- A q3 element (R388). -/
def mtxElement (j : MtxJob) (st sub : Nat) : Word :=
  BitVec.ofNat 64 (j.slot.toNat * 2 ^ 16 + st * 2 ^ 12 + sub * 2 ^ 8 + mtxFn j.word * 2 ^ 5 + mtxTag j.word)

/-- A slice completes: its tag's bits, its element, and MTMASK 0 (R387, R400). -/
def State.completeSlice (s : State) (core : Nat) (j : MtxJob) (st sub : Nat) : State :=
  match (s.coreById core).bind fun c => c.mtx.find? fun k => k.isSlice j with
  | none => s
  | some k =>
    ((s.tagDone core (56 + mtxTag k.word) (st != 0)).modCoreId core fun c => { c with
      mtx := c.mtx.filter fun m => !(m.isSlice j)
      ctx := { c.ctx with mtmask := 0, q3 := putElement 7 c.ctx.q3 (mtxElement k st sub) } }).giveSlots core

/-- MATRIX_COMMAND_COMPLETE: the command that the slice in focus runs completes, on every slice, once each of them runs it; one that fails a check in
a slice's work stops there, and its other slices wait for it (R387, R394 to R399, R401). -/
def execMatrixCommandComplete (s : State) : Host.Outcome State Fault Refusal :=
  match s.core.mtxRunning with
  | none => .next s
  | some j =>
    let slices := s.slices s.core.id j
    if !(slices.all fun x => x.2.busy) then .next s
    else if hasMicroTiles j.word then
      let left := (microTiles j.word).any fun t => slices.any fun x => !(x.2.mask.getLsbD t)
      match j.state with
      | .finished st sub => .next (slices.foldl (fun s x => s.completeSlice x.1 j st sub) s)
      | _ => if left ∨ s.jointReady j = false then .next s else .next (slices.foldl (fun s x => s.completeSlice x.1 j 0 0) s)
    else if s.jointReady j = false then .next s
    else
      let (t, ends) := s.workSlices slices
      if ends.any fun e => e.2 == .wait then .next s
      else if ends.any fun e => match e.2 with
        | .fault _ _ => true
        | _ => false then
        .next (ends.foldl (fun s e => match e.2 with
          | .fault c ptr => s.faultSlice e.1 j c ptr
          | _ => s.modSlice e.1 j fun k => { k with state := .waiting }) t)
      else .next (ends.foldl (fun s e => match e.2 with
        | .done st sub => s.completeSlice e.1 j st sub
        | _ => s) t)

/-! ## Saving and re-entering (R244, R401) -/

/-- What is retained is that of the context active on a core: its WP, launch number and id. -/
def JointSaved.isOf (k : JointSaved) (c : Core) : Bool := k.wp == c.wp && k.lnum == c.ctx.lnum && k.wuid == c.ctx.wuid

/-- Whether a context's matrix commands can leave with it: with weight tiles, once no command that runs to completion is running; without,
once none is left but one that a fault stopped, which its core retains (R244, R245, R255; the model's choice, log 61). A context of no gang's stream
waits for what it executed there. -/
def State.mtxMayLeave (s : State) : Bool :=
  let c := s.core
  (c.ctx.gangMode != 0 || (s.stagedOf c).isEmpty) &&
    (if c.ctx.wtn = 0 then c.mtx.all fun j => j.state == .faulted && j.restart.isNone
     else match c.mtxRunning with
      | none => true
      | some j => hasMicroTiles j.word && j.state == .running)

/-- A command's slice that stops on one core stops on every one of them, at its micro-tile boundary (R244, R450). -/
def State.stopSlices (s : State) (core : Nat) (j : MtxJob) : State :=
  (s.slices core j).foldl (fun s x => s.modSlice x.1 j fun k => if k.state = .running then { k with state := .waiting } else k) s

/-- The commands of q2 are saved with the context, and q2 is empty (R244). The core retains what their records do not hold (R37, R203, R245). -/
def Core.saveMatrix (c : Core) : Core :=
  let recs := c.mtx.map fun j =>
    { word := j.word, bval := j.bval, cval := j.cval, state := BitVec.ofNat 64 (j.mask.toNat * 2 ^ 32 + 1), faddr := 0 : MtxRecord }
  let tags := c.mtx.foldl (fun (m : Word) j => setBit m (56 + mtxTag j.word) false) c.dmaTags
  { c with
    mtx := [], dmaTags := tags
    jointSaved := (c.jointSaved.filter fun k => !(k.isOf c)) ++
      (if c.mtx.isEmpty then []
       else [{ wp := c.wp, lnum := c.ctx.lnum, wuid := c.ctx.wuid
               keys := c.mtx.map fun j => { joint := j.joint, narm := j.narm, seq := j.seq, stopped := j.state == .faulted }
               recs := recs }])
    ctx := { c.ctx with mtxSaved := recs } }

/-- The tags of what a core's active context has executed in a gang and that has not entered q2 are its own in flight, or no longer, as it comes or
leaves (R95, R390). -/
def State.tagStaged (s : State) (live : Bool) : State :=
  let tags := (s.stagedOf s.core).map fun x => 56 + mtxTag x.job.word
  s.modCore fun c => { c with dmaTags := tags.foldl (fun m t => setBit m t live) c.dmaTags }

/-- The matrix commands of the core in focus are saved, and the joint ones among them stop on their other slices (R244, R450). -/
def State.saveMatrix (s : State) : State :=
  ((s.core.mtx.foldl (fun s j => s.stopSlices s.core.id j) s).modCore Core.saveMatrix).tagStaged false

/-- Slots for some commands in their order: those that hold one take the lowest that are not held (R388). -/
def takeSlots : List (BitVec 4) → List MtxJob → List MtxJob
  | _, [] => []
  | held, j :: js =>
    match j.state, lowestSlot held with
    | .waiting, some k => { j with slot := k } :: takeSlots (k :: held) js
    | .waiting, none => { j with state := .faulted, restart := some j.kptb } :: takeSlots held js
    | _, _ => j :: takeSlots held js

/-- Whether what is retained is that of an activated context's saved commands, by its id and its records. -/
def JointSaved.matchesImage (k : JointSaved) (c : Ctx) : Bool := k.wuid == c.wuid && k.recs == c.mtxSaved

/-- What is retained of the saved commands of the context that is being activated: at its own core and WP, by their number, or, where its image has
come from another core or WP, wherever a core retains it for the same records (R37, R247, log 60). -/
def State.keptCommands (s : State) : Option JointSaved :=
  match s.core.jointSaved.find? fun k => k.isOf s.core && (s.ctx.wtn == 0 || k.keys.length == s.ctx.mtxSaved.length) with
  | some k => some k
  | none => if s.ctx.mtxSaved.isEmpty then none else (s.cores.flatMap fun c => c.jointSaved).find? fun k => k.matchesImage s.ctx

/-- What was retained of a context that has been activated is so no longer. -/
def State.forgetKept (s : State) (kept : Option JointSaved) : State :=
  let drop (c : Core) : Core := { c with jointSaved := c.jointSaved.filter fun k => kept != some k }
  ({ s with core := drop s.core, rest := s.rest.map drop }).modCore fun c => { c with jointSaved := c.jointSaved.filter fun k => !(k.isOf c) }

/-- The saved commands of the activated context enter q2 in their order, each with its done mask, as pushed at a level and in the order of their
pushes, ahead of what is pushed later (R244, R391, R401); one that an engine fault stopped is stopped still (R245). What their records do not hold is
retained; where it is not, since the records in the image have been changed, they take the context's NARM and stand as if pushed now (R37, log
60). -/
def State.reenterMatrix (s : State) (level : Level) : State :=
  let c := s.core
  let n := s.dev.seq
  let kept := s.keptCommands
  let keys := (kept.map fun k => if k.isOf c then k.keys else k.keys.map fun j => { j with joint := none }).getD []
  let key (i : Nat) : SavedKey := (keys[i]?).getD { joint := none, narm := c.ctx.narm, seq := n + i, stopped := false }
  let saved := if c.ctx.wtn = 0 then (kept.map fun k => k.recs).getD [] else c.ctx.mtxSaved
  let recs := saved.zipIdx.filter fun r => isMtxWord r.1.word
  let job (r : MtxRecord × Nat) : MtxJob :=
    let k := key r.2
    { slot := BitVec.ofNat 4 r.2, word := r.1.word, bval := r.1.bval, cval := r.1.cval, mask := BitVec.ofNat 32 (bits r.1.state 32 32)
      state := if k.stopped then .faulted else .waiting, fresh := false, started := false, restart := none, prio := 0, since := s.dev.cycles
      seq := k.seq, narm := k.narm, kptb := c.kptb, level := level, act := 0, joint := k.joint }
  let held := s.heldSlots c.id
  (((s.modDev fun d => { d with seq := n + saved.length }).modCore fun c => { c with
    mtx := takeSlots held (recs.map job)
    dmaTags := (recs.filter fun r => !(key r.2).stopped).foldl (fun (m : Word) r => setBit m (56 + mtxTag r.1.word) true) c.dmaTags
    ctx := { c.ctx with mtxSaved := [] } }).forgetKept kept).tagStaged true

end Sys2Proof.Machine
end

