-- ==== Sys2Proof/Machine/Queues.lean ====
section
/-!
DEFINITION. The queue instructions (spec 05 R119 to R123, 14 R354, 16 R389).
-/

namespace Sys2Proof.Machine

/-- A result queue of a context by its number, where it is one (R119). -/
def Ctx.resultQueue (c : Ctx) (q : BitVec 3) : Option (List Word) :=
  match q.toNat with
  | 1 => some c.q1
  | 3 => some c.q3
  | 5 => some c.q5
  | 6 => some c.q6
  | _ => none

/-- A result queue without its oldest element. -/
def Ctx.popQueue (c : Ctx) (q : BitVec 3) : Ctx :=
  match q.toNat with
  | 1 => { c with q1 := c.q1.drop 1 }
  | 3 => { c with q3 := c.q3.drop 1 }
  | 5 => { c with q5 := c.q5.drop 1 }
  | 6 => { c with q6 := c.q6.drop 1 }
  | _ => c

/-- A matrix record as QPUSH takes it (R389): its word, BVAL and CVAL, or none where it is no legal command. A BVAL or CVAL that the command does not
use is taken as it stands (the model's choice, log 89). -/
def queuedMatrix (bytes : List Byte) : Option (IWord × Word × Word) :=
  let w : IWord := (wordAt bytes 0).setWidth 32
  if isMtxWord w ∧ wordAt bytes 3 = 0 ∧ wordAt bytes 4 = 0 then
    some (w, wordAt bytes 1, wordAt bytes 2)
  else none

def execQpush (q : BitVec 3) (rs : Reg) (s : State) : Host.Outcome State Fault Refusal :=
  let i := Instr.qpush q rs
  runSeq i (guardCtx do
    needReg i (q == 0 || q == 2 || q == 4)
    let p ← getX rs
    match q.toNat with
    | 0 =>
      let bytes ← readRecord p 64
      pushDma (cmdOf bytes) 0 (wordAt bytes 6 == 0)
    | 2 =>
      let bytes ← readRecord p 64
      match queuedMatrix bytes with
      | none => trap cFormat p
      | some (w, b, c) => pushMatrix i w b c
    | _ => pushEddy (← readRecord p 32) false 0 false) s

def execQpop (rd : Reg) (q : BitVec 3) (s : State) : Host.Outcome State Fault Refusal :=
  let i := Instr.qpop rd q
  runSeq i (do
    match (← getCtx).resultQueue q with
    | none => trap cIllegalReg (infoWord i)
    | some [] => holdFor .retry
    | some (e :: _) =>
      modCtx fun c => c.popQueue q
      setX rd e) s

def execQtry (rd : Reg) (q : BitVec 3) (s : State) : Host.Outcome State Fault Refusal :=
  let i := Instr.qtry rd q
  runSeq i (do
    match (← getCtx).resultQueue q with
    | none => trap cIllegalReg (infoWord i)
    | some [] => setX rd 0xFFFFFFFFFFFFFFFF
    | some (e :: _) =>
      modCtx fun c => c.popQueue q
      setX rd e) s

def execQcnt (rd : Reg) (q : BitVec 3) (s : State) : Host.Outcome State Fault Refusal :=
  let i := Instr.qcnt rd q
  runSeq i (do
    let s ← get
    needReg i (q != 7)
    let n := match s.ctx.resultQueue q with
      | some es => es.length
      | none =>
        if q = 0 then s.core.q0Waiting
        else if q = 2 then ((s.mtxHeld s.core.id).filter fun j => !j.started).length
        else s.dev.q4Waiting s.core.id
    setX rd (BitVec.ofNat 64 n)) s

end Sys2Proof.Machine
end

