-- ==== Sys2Proof/Machine/Rule.lean ====
section
/-!
DEFINITION. The rule evaluation unit (spec 02 R49 to R54, R58, 17 R403 to R423). REVAL, RSPINE, RSCAN and RMV do one unit of R411 in a turn:
a turn that leaves units to do keeps the core at the instruction, and an interrupt can come between.
-/

namespace Sys2Proof.Machine

/-! ## The header of a grammar object (R49, R53) -/

/-- A little-endian field of a header: n bytes at an offset. -/
def hdrField (h : BitVec 512) (off n : Nat) : Nat := h.toNat / 2 ^ (8 * off) % 2 ^ (8 * n)

def hdrKind (h : BitVec 512) : Nat := hdrField h 4 1
def hdrMatrix (h : BitVec 512) : Bool := hdrField h 6 2 % 2 == 1
def hdrRules (h : BitVec 512) : Nat := hdrField h 8 4
def hdrSpine (h : BitVec 512) : Nat := hdrField h 0xC 4
def hdrRows (h : BitVec 512) : Nat := hdrField h 0x10 4
def hdrColumns (h : BitVec 512) : Nat := hdrField h 0x14 4
def hdrRuleOff (h : BitVec 512) : Nat := hdrField h 0x18 4
def hdrSpineOff (h : BitVec 512) : Nat := hdrField h 0x1C 4
def hdrRowOff (h : BitVec 512) : Nat := hdrField h 0x20 4
def hdrBodyLen (h : BitVec 512) : Nat := hdrField h 0x24 4
def hdrExpLen (h : BitVec 512) : Nat := hdrField h 0x28 8

/-- The tables of an object: offset and length in bytes. -/
def hdrTables (h : BitVec 512) : List (Nat × Nat) :=
  [(hdrRuleOff h, 8 * hdrRules h), (hdrSpineOff h, 4 * hdrSpine h)] ++
    if hdrMatrix h then [(hdrRowOff h, 4 * (hdrRows h + 1))] else []

/-- A table lies where R53 allows it. -/
def tableOk (body : Nat) (t : Nat × Nat) : Bool :=
  t.1 % 4 == 0 && decide (0x40 ≤ t.1 ∧ t.1 + t.2 ≤ 0x40 + body)

/-- Two tables share a byte. -/
def tablesMeet (a b : Nat × Nat) : Bool := decide (0 < a.2 ∧ 0 < b.2 ∧ a.1 < b.1 + b.2 ∧ b.1 < a.1 + a.2)

/-- No two tables of a list share a byte. -/
def tablesApart : List (Nat × Nat) → Bool
  | [] => true
  | t :: ts => !(ts.any (tablesMeet t)) && tablesApart ts

/-- Whether the terminals of a kind carry a column. -/
def isColval (kind : Nat) : Bool := kind == 5 || kind == 6

/-- The checks of R53 on a header that need no byte of the body. -/
def headerOk (h : BitVec 512) : Bool :=
  hdrField h 0 4 == 0x4D52475A && decide (hdrKind h ≤ 6) && hdrField h 5 1 == 1 && decide (hdrField h 6 2 ≤ 1) && hdrField h 0x34 12 == 0
    && (hdrMatrix h || hdrRowOff h == 0) && decide (hdrRules h ≤ 2 ^ 24)
    && (if hdrMatrix h then decide (1 ≤ hdrRows h ∧ hdrRows h ≤ 2 ^ 24) else hdrRows h == 0)
    && (if isColval (hdrKind h) then decide (1 ≤ hdrColumns h ∧ hdrColumns h ≤ 32768) else hdrColumns h == 0)
    && (hdrTables h).all (tableOk (hdrBodyLen h)) && tablesApart (hdrTables h)

/-- 4-byte words of some bytes. -/
def wordsOf4 (bytes : List Byte) : Nat → List Nat
  | 0 => []
  | n + 1 => leNat (bytes.take 4) :: wordsOf4 (bytes.drop 4) n

/-- A list does not decrease. -/
def rises : List Nat → Bool
  | a :: b :: xs => decide (a ≤ b) && rises (b :: xs)
  | _ => true

/-- The checks of R53 on the body: its CRC and its row table. -/
def bodyOk (h : BitVec 512) (body : List Byte) : Bool :=
  crc32c body == hdrField h 0x30 4 &&
    (!hdrMatrix h ||
      let rows := wordsOf4 (body.drop (hdrRowOff h - 0x40)) (hdrRows h + 1)
      rows.head? == some 0 && rows.getLast? == some (hdrSpine h) && rises rows)

/-! ## Own-pool pointers (R404) -/

/-- Whether a pointer names the pool of the core in focus. -/
def State.isOwnPool (s : State) (p : Word) : Bool :=
  let row := bits p 46 6
  let col := bits p 40 6
  isMesh p && bits p 53 2 == 0 &&
    (if row = 63 ∧ col = 63 then !s.core.mgmt
     else row != 63 && col != 63 && s.coreNamed s.who (bits p 52 1) row col == some s.core.id)

/-- The checks of R404 for n bytes aligned to a: the key. -/
def ownKey (acc : Acc) (p : Word) (n a : Nat) : Act Nat := do
  if 10 ≤ fmtOf p then trap cFormat p
  let s ← get
  if !(s.isOwnPool p) then trap cAccess p
  if !(alignedTo p a) then trap cMisaligned p
  liftChk (resolve s.who acc p n 1)

/-- An RRT record, fold record or scan record read from the own pool (R54). -/
def readRes (p : Word) : Act RuleRes := do
  let bytes ← coreRead (← ownKey .load p 16 16) 16
  let w (i : Nat) : Nat := leNat ((bytes.drop (4 * i)).take 4)
  return { len := w 0, s0 := w 1, s1 := w 2, s2 := w 3 }

/-- Such a record written, in one write. -/
def writeRes (p : Word) (r : RuleRes) : Act Unit := do coreWrite (← ownKey .store p 16 16) (recordBytes r)

/-! ## Terminals and operators (R50, R405 to R408) -/

def opdTerm (d : Word) : Nat := bits d 16 8
def opdXoff (d : Word) : Nat := bits d 32 19

/-- Operation code of a slot. -/
def opdOp (d : Word) (slot : Nat) : Nat := bits d (4 * slot) 4

/-- Kinds whose terminals are integers. -/
def intKind (kind : Nat) : Bool := kind == 0 || kind == 1 || kind == 4

def isIntOp (n : Nat) : Bool := n == 1 || n == 3 || n == 4 || n == 5 || n == 6 || n == 7 || n == 9
def isFloatOp (n : Nat) : Bool := n == 8 || n == 10 || n == 11

/-- Check 1 of R407. -/
def opdReserved (d : Word) : Bool := bits d 51 13 != 0 || bits d 24 8 != 0 || bits d 12 4 != 0 || decide (6 < opdTerm d)

/-- Check 2 of R407. -/
def opdNotLiftable (d : Word) : Bool := [0, 1, 2].any fun i => opdOp d i == 2 || opdOp d i == 12 || opdOp d i == 15

/-- Check 3 of R407. -/
def opdClash (d : Word) : Bool :=
  let int := intKind (opdTerm d)
  let slots := [0, 1, 2]
  (slots.any fun i => (isIntOp (opdOp d i) && !int) || (isFloatOp (opdOp d i) && int))
    || (slots.any fun i => opdOp d i == 11 && !isColval (opdTerm d))
    || (slots.any fun i => opdOp d i == 9 && (i != 1 || opdOp d 0 != 1 || opdOp d 2 != 0))
    || (slots.any fun i => opdOp d i == 10 && (i == 0 || opdOp d 0 != 8))
    || opdXoff d % 4 != 0 || (opdXoff d != 0 && !(slots.any fun i => opdOp d i == 11))

/-- I(t) (R406, R50). -/
def termInt (kind sym : Nat) : Int :=
  match kind with
  | 0 => (BitVec.ofNat 8 sym).toInt
  | 1 => (BitVec.ofNat 16 sym).toInt
  | _ => (BitVec.ofNat 31 sym).toInt

/-- F(t): binary32 bits (R406, R58). -/
def termFloat (kind sym : Nat) : Nat := toSF (if kind = 2 ∨ kind = 5 then fmtHF else fmtBF) (sym % 2 ^ 16)

/-- An integer as a 32-bit pattern. -/
def word32 (v : Int) : Nat := (v % 2 ^ 32).toNat

/-- A 32-bit pattern as an integer. -/
def int32 (v : Nat) : Int := (BitVec.ofNat 32 v).toInt

def RuleRes.slot (r : RuleRes) (i : Nat) : Nat :=
  match i with
  | 0 => r.s0
  | 1 => r.s1
  | _ => r.s2

/-- The 64-bit value of a WSUM. -/
def RuleRes.wide (r : RuleRes) : Nat := r.s1 + r.s2 * 2 ^ 32

/-- What a slot's operation combines two results to (R406), but for WSUM. -/
def combineSlot (op i : Nat) (a b : RuleRes) : Nat :=
  let x := a.slot i
  let y := b.slot i
  match op with
  | 1 => (x + y) % 2 ^ 32
  | 3 => if int32 y < int32 x then y else x
  | 4 => if int32 x < int32 y then y else x
  | 5 => x &&& y
  | 6 => x ||| y
  | 7 => x ^^^ y
  | 8 => add32 x y
  | 10 => add32 x (rne (fmtSF.fmaV .rne (FVal.ofInt a.len) (fmtSF.decode b.s0) (fmtSF.decode y)))
  | 11 => add32 x y
  | 13 => x
  | 14 => y
  | _ => 0

/-- Combine of two results under a descriptor (R406, R408), the length apart. -/
def combineRes (d : Word) (a b : RuleRes) : RuleRes :=
  let len := a.len + b.len
  let s0 := combineSlot (opdOp d 0) 0 a b
  if opdOp d 1 = 9 then
    let w := (((a.wide + b.wide : Nat) : Int) + a.len * int32 b.s0) % 2 ^ 64
    { len := len, s0 := s0, s1 := w.toNat % 2 ^ 32, s2 := w.toNat / 2 ^ 32 }
  else { len := len, s0 := s0, s1 := combineSlot (opdOp d 1) 1 a b, s2 := combineSlot (opdOp d 2) 2 a b }

/-- Identity of an operation (R406). -/
def opIdentity (op : Nat) : Nat :=
  match op with
  | 3 => 0x7FFFFFFF
  | 4 => 0x80000000
  | 5 => 0xFFFFFFFF
  | _ => 0

/-- The empty result (R408). -/
def emptyRes (d : Word) : RuleRes :=
  { len := 0, s0 := opIdentity (opdOp d 0), s1 := opIdentity (opdOp d 1), s2 := opIdentity (opdOp d 2) }

/-- Combine, with the length bound; info names the place for KINFO (R53, R408). -/
def combine (info : Word) (a b : RuleRes) : Act RuleRes := do
  let d := (← getCtx).opd
  if 2 ^ 32 ≤ a.len + b.len then trap cFormat info
  return combineRes d a b

/-- Fold (R408). -/
def foldRes (info : Word) (acc : Option RuleRes) (x : RuleRes) : Act RuleRes :=
  match acc with
  | none => return x
  | some a => combine info a x

/-- The self-alias address of a byte of the own pool (R20). -/
def selfAlias (off : Nat) : Word := BitVec.ofNat 64 (0x008FFF0000000000 + off)

/-- x[c] (R406, R419). -/
def readX (d : Word) (c : Nat) : Act Nat := do coreReadNat (← ownKey .load (selfAlias (opdXoff d + 4 * c)) 4 4) 4

/-- The leaf value of an operation for a terminal (R406). -/
def leafSlot (d : Word) (kind op sym : Nat) : Act Nat := do
  let p := if intKind kind then word32 (termInt kind sym) else termFloat kind sym
  match op with
  | 0 => return 0
  | 9 => return 0
  | 10 => return 0
  | 11 => return mul32 p (← readX d (sym / 2 ^ 16 % 2 ^ 15))
  | _ => return p

/-- The result of a terminal (R408), its column in range (R53). -/
def leafRes (info : Word) (sym : Nat) : Act RuleRes := do
  let c ← getCtx
  let d := c.opd
  let kind := hdrKind c.ghdr
  if isColval kind ∧ hdrColumns c.ghdr ≤ sym / 2 ^ 16 % 2 ^ 15 then trap cFormat info
  return { len := 1, s0 := ← leafSlot d kind (opdOp d 0) sym, s1 := ← leafSlot d kind (opdOp d 1) sym, s2 := ← leafSlot d kind (opdOp d 2) sym }

/-- Whether a symbol names a rule (R50). -/
def isRule (sym : Nat) : Bool := decide (2 ^ 31 ≤ sym)

/-- The index of the rule a symbol names. -/
def ruleIndex (sym : Nat) : Nat := sym % 2 ^ 31

/-- The pointer of an RRT record. -/
def recordPtr (c : Ctx) (i : Nat) : Word := ptrAt c.rrt (16 * i)

/-- Value of a symbol (R408). -/
def valueOf (info : Word) (sym : Nat) : Act RuleRes := do
  if isRule sym then
    let c ← getCtx
    if hdrRules c.ghdr ≤ ruleIndex sym then trap cGrammarOrder info
    readRes (recordPtr c (ruleIndex sym))
  else leafRes info sym

/-- A 4-byte word of the bound object. -/
def objWord (off : Nat) : Act Nat := do return leNat (← loadBytes (ptrAt (← getCtx).gptr off) 4 4)

/-- The symbol at a spine position. -/
def spineAt (j : Nat) : Act Nat := do objWord (hdrSpineOff (← getCtx).ghdr + 4 * j)

/-- The two symbols of a rule. -/
def ruleAt (i : Nat) : Act (Nat × Nat) := do
  let off := hdrRuleOff (← getCtx).ghdr + 8 * i
  return (← objWord off, ← objWord (off + 4))

/-- A child of rule i names a rule below i (R51, R53). -/
def childOk (i sym : Nat) : Act Unit := do
  if isRule sym ∧ i ≤ ruleIndex sym then trap cGrammarOrder (BitVec.ofNat 64 i)

/-- KINFO of a spine position (R53). -/
def spineInfo (j : Nat) : Word := BitVec.ofNat 64 (j + 2 ^ 62)

/-! ## Binding (R412, R413) -/

/-- RGOPEN (R412). A body that cannot be loaded is reported with the pointer to the body's first byte (the model's choice, log 152). -/
def execRgopen (xg xr : Reg) (s : State) : Host.Outcome State Fault Refusal :=
  runSeq (.rgopen xg xr) (do
    let g ← getX xg
    let r ← getX xr
    if fmtOf g ≠ 22 then trap cFormat g
    let h : BitVec 512 := BitVec.ofNat 512 (leNat (← loadBytes g 64 64))
    if !headerOk h then trap cFormat g
    let body ← loadBytes (ptrAt g 0x40) (hdrBodyLen h) 1
    if !bodyOk h body then trap cFormat g
    let n := 16 * hdrRules h
    let _ ← ownKey .store r 1 16
    let s ← get
    let off := bits r 0 40
    let inside := decide (off + n ≤ 0x60000) &&
      (List.range ((off + n - 1) / 4096 + 1 - off / 4096)).all fun i => s.isScratch s.core.id (off / 4096 + i)
    if n ≠ 0 ∧ inside = false then trap cAccess r
    modCtx fun c => { c with gptr := g, rrt := r, ghdr := h, rprog := 0 }) s

def execRlift (xd : Reg) (s : State) : Host.Outcome State Fault Refusal :=
  runSeq (.rlift xd) (do
    let d ← getX xd
    if opdReserved d then trap cFormat d
    if opdNotLiftable d then trap cNotLiftable d
    if opdClash d then trap cFormat d
    modCtx fun c => { c with opd := d }) s

/-! ## Progress (R410, R411, R421) -/

/-- Checks 1 and 2 of R421. -/
def ruleReady : Act Unit := do
  let c ← getCtx
  if c.gptr = 0 then trap cFormat 0
  if opdTerm c.opd ≠ hdrKind c.ghdr then trap cFormat c.opd

/-- The unit at which an instruction of some units starts (R411). -/
def unitsDone (fn count : Nat) : Act Nat := do
  let p := (← getCtx).rprog
  let done := if bits p 32 3 = fn then bits p 0 32 else 0
  if count < done then trap cFormat p
  return done

/-- A unit: a trap in it keeps the units done, and what else the rule says of one (R411). -/
def inUnit {α : Type} (fn done : Nat) (onTrap : State → State) (body : Act α) : Act α := fun s =>
  match body s with
  | .ok a t => .ok a t
  | .error (.trap n info r) t =>
    .error (.trap n info r) ((onTrap t).modCore fun c => { c with ruleRun := none, ctx := { c.ctx with rprog := progWord fn done } })
  | .error e t => .error e t

/-- After a unit: the instruction has completed, or it goes on at its next turn, before which an interrupt may come (R411). -/
def unitEnd (fn done count : Nat) : Act Unit := do
  if done < count then
    modCore fun c => { c with arrived := [], passed := [], ctx := { c.ctx with rprog := progWord fn done } }
    holdFor .retry
  else
    modCore fun c => { c with ruleRun := none, ctx := { c.ctx with rprog := 0 } }

/-! ## REVAL, RSPINE and RSCAN (R414 to R417) -/

/-- One rule of a REVAL. -/
def revalUnit (i : Nat) : Act Unit := do
  let info : Word := BitVec.ofNat 64 i
  let (l, r) ← ruleAt i
  childOk i l
  childOk i r
  let a ← valueOf info l
  let b ← valueOf info r
  writeRes (recordPtr (← getCtx) i) (← combine info a b)

def execReval (xf xn : Reg) (s : State) : Host.Outcome State Fault Refusal :=
  runSeq (.reval xf xn) (do
    ruleReady
    let f := (← getX xf).toNat
    let x ← getX xn
    let n := x.toNat
    if hdrRules (← getCtx).ghdr < f + n then trap cFormat x
    let done ← unitsDone 2 n
    if done < n then inUnit 2 done id (revalUnit (f + done))
    unitEnd 2 (done + 1) n) s

/-- The spine range of RSPINE and RSCAN: start and end (R416). -/
def spineRange (xs xe : Reg) : Act (Nat × Nat) := do
  let a := (← getX xs).toNat
  let e ← getX xe
  if e.toNat < a ∨ hdrSpine (← getCtx).ghdr < e.toNat then trap cFormat e
  return (a, e.toNat)

/-- The running result that an instruction carries from its last unit, where RPROG says that it goes on (R410, R411). -/
def runGoing (fn : Nat) : Act (Option RuleRun) := do
  let s ← get
  return if bits s.ctx.rprog 32 3 = fn ∧ bits s.ctx.rprog 0 32 ≠ 0 then s.core.ruleRun else none

/-- Goes on to the next unit with a running result. -/
def keepRun (r : RuleRun) : Act Unit := modCore fun c => { c with ruleRun := some r }

def execRspine (xo xs xe : Reg) (s : State) : Host.Outcome State Fault Refusal :=
  runSeq (.rspine xo xs xe) (do
    ruleReady
    let (a, e) ← spineRange xs xe
    let out ← getX xo
    let going ← runGoing 3
    let key ← match going.bind RuleRun.record with
      | some key => pure key
      | none => ownKey .store out 16 16
    let done ← unitsDone 3 (e - a)
    let acc : Option RuleRes ← match going with
      | some r => pure (some r.acc)
      | none => if done = 0 then pure none else do pure (some (← readRes out))
    let d := (← getCtx).opd
    if done < e - a then
      let j := a + done
      let keep (s : State) : State := s.pokeOwn key (recordBytes (acc.getD (emptyRes d)))
      let next ← inUnit 3 done keep (do foldRes (spineInfo j) acc (← valueOf (spineInfo j) (← spineAt j)))
      if done + 1 < e - a then keepRun { acc := next, record := some key, pos := 0 } else writeRes out next
    else writeRes out (acc.getD (emptyRes d))
    unitEnd 3 (done + 1) (e - a)) s

/-- The terminals that a symbol expands to, left to right (R51). -/
def expandSym : Nat → Nat → Act (List Nat)
  | 0, sym => return [sym]
  | fuel + 1, sym => do
    if isRule sym then
      let k := ruleIndex sym
      let (l, r) ← ruleAt k
      childOk k l
      let first ← expandSym fuel l
      childOk k r
      return first ++ (← expandSym fuel r)
    else return [sym]

/-- The records of the earlier positions inside a symbol of spine position j, one terminal at a time, from the output position and the fold in
hand: the position and the fold that come of it (R417). The terminal that ends the spine symbol has no such record. A child is checked when it is
used, and KINFO of what stands inside rule k is k (R53). -/
def interior (j : Nat) (out : Word) (before : Option RuleRes) : Nat → Bool → Word → Nat → Nat × Option RuleRes → Act (Nat × Option RuleRes)
  | 0, _, _, _, here => return here
  | fuel + 1, ends, info, sym, here => do
    if isRule sym then
      let k := ruleIndex sym
      let (l, r) ← ruleAt k
      childOk k l
      let mid ← interior j out before fuel false (BitVec.ofNat 64 k) l here
      childOk k r
      interior j out before fuel ends (BitVec.ofNat 64 k) r mid
    else if ends then return here
    else
      let p ← foldRes (spineInfo j) here.2 (← leafRes info sym)
      writeRes (ptrAt out (16 * here.1)) (← foldRes (spineInfo j) before p)
      return (here.1 + 1, some p)

/-- The terminals of a spine symbol. -/
def terminalsOf (sym : Nat) : Act (List Nat) := expandSym (ruleIndex sym + 1) sym

/-- How many terminals some spine symbols expand to together. -/
def positionsOf (a n : Nat) : Act Nat := do
  let ls ← (List.range n).mapM fun i => do return (← terminalsOf (← spineAt (a + i))).length
  return ls.sum

/-- One symbol of an RSCAN: what goes on from it (R417). -/
def rscanUnit (all : Bool) (out : Word) (j pos : Nat) (acc : Option RuleRes) : Act RuleRun := do
  let info := spineInfo j
  let sym ← spineAt j
  let next ← foldRes info acc (← valueOf info sym)
  let inside ← if all && isRule sym then interior j out acc (ruleIndex sym + 2) true info sym (pos, none) else pure (pos, none)
  let last := inside.1
  writeRes (ptrAt out (16 * last)) next
  return { acc := next, record := none, pos := last + 1 }

def execRscan (xo xs xe : Reg) (all : Bool) (s : State) : Host.Outcome State Fault Refusal :=
  runSeq (.rscan xo xs xe all) (do
    ruleReady
    let (a, e) ← spineRange xs xe
    let out ← getX xo
    let going ← runGoing 4
    if going.isNone then
      let _ ← ownKey .store out 1 16
    let done ← unitsDone 4 (e - a)
    let run : Option RuleRes × Nat ← match going with
      | some r => pure (some r.acc, r.pos)
      | none =>
        if done = 0 then pure (none, 0)
        else do
          let pos ← if all then positionsOf a done else pure done
          pure (some (← readRes (ptrAt out (16 * (pos - 1)))), pos)
    if done < e - a then
      let next ← inUnit 4 done id (rscanUnit all out (a + done) run.2 run.1)
      if done + 1 < e - a then keepRun next
    unitEnd 4 (done + 1) (e - a)) s

/-! ## RSEEK (R418) -/

/-- The walk along the spine to the symbol that holds an element: the fold before it, the offset left, its position and the symbol. -/
def seekSpine (i : Word) (total : Nat) : Nat → Nat → Nat → Option RuleRes → Act (Option RuleRes × Nat × Nat × Nat)
  | 0, _, _, _ => trap cFormat i
  | fuel + 1, j, o, pre => do
    if total ≤ j then trap cFormat i
    let sym ← spineAt j
    let v ← valueOf (spineInfo j) sym
    if o < v.len then return (pre, o, j, sym)
    else seekSpine i total fuel (j + 1) (o - v.len) (some (← foldRes (spineInfo j) pre v))

/-- The descent from a symbol to a terminal: the fold before it, the terminal and KINFO of the rule that holds it. -/
def seekDown (i : Word) : Nat → Word → Nat → Nat → Option RuleRes → Act (Option RuleRes × Nat × Word)
  | 0, info, _, sym, pre => return (pre, sym, info)
  | fuel + 1, info, o, sym, pre => do
    if isRule sym then
      let k := ruleIndex sym
      let (l, r) ← ruleAt k
      let kInfo : Word := BitVec.ofNat 64 k
      childOk k l
      let v ← valueOf kInfo l
      if o < v.len then seekDown i fuel kInfo o l pre
      else
        let pre ← foldRes kInfo pre v
        childOk k r
        seekDown i fuel kInfo (o - v.len) r (some pre)
    else
      if o ≠ 0 then trap cFormat i
      return (pre, sym, info)

/-- The element a terminal gives (R418). -/
def seekElement (kind sym : Nat) : Word :=
  if intKind kind then BitVec.ofInt 64 (termInt kind sym)
  else if isColval kind then BitVec.ofNat 64 (sym % 2 ^ 32)
  else BitVec.ofNat 64 (termFloat kind sym)

/-- The prefix register (R418). -/
def seekPrefix (kind op s0 : Nat) : Word :=
  if op = 0 then 0
  else if isFloatOp op ∨ ((op = 13 ∨ op = 14) ∧ intKind kind = false) then BitVec.ofNat 64 s0
  else BitVec.ofInt 64 (int32 s0)

/-- RSEEK (R418). The header's explen bounds the element number, as R418 has it, though R49 says that no unit reads explen (log 113). -/
def execRseek (xn xi : Reg) (s : State) : Host.Outcome State Fault Refusal :=
  runSeq (.rseek xn xi) (do
    ruleReady
    let i ← getX xi
    let c ← getCtx
    if hdrExpLen c.ghdr ≤ i.toNat then trap cFormat i
    let total := hdrSpine c.ghdr
    let (pre, o, j, sym) ← seekSpine i total (total + 1) 0 i.toNat none
    let (pre, sym, info) ← seekDown i (ruleIndex sym + 2) (spineInfo j) o sym pre
    let r ← foldRes info pre (← leafRes info sym)
    let kind := hdrKind c.ghdr
    setX xn (seekElement kind sym)
    setX (xn + 1) (seekPrefix kind (opdOp c.opd 0) r.s0)) s

/-! ## RMV and RGET (R419, R420) -/

/-- The fold of some spine symbols. -/
def foldSpine : Nat → Nat → Option RuleRes → Act (Option RuleRes)
  | 0, _, acc => return acc
  | n + 1, j, acc => do
    let r ← foldRes (spineInfo j) acc (← valueOf (spineInfo j) (← spineAt j))
    foldSpine n (j + 1) (some r)

/-- One row of an RMV. -/
def rmvUnit (y : Word) (j first : Nat) : Act Unit := do
  let off := hdrRowOff (← getCtx).ghdr + 4 * j
  let a ← objWord off
  let b ← objWord (off + 4)
  let acc ← foldSpine (b - a) a none
  let v := match acc with
    | none => 0
    | some r => r.s0
  coreWrite (← ownKey .store (ptrAt y (4 * (j - first))) 4 4) (leBytes 4 v)

def execRmv (xy xx xw : Reg) (s : State) : Host.Outcome State Fault Refusal :=
  runSeq (.rmv xy xx xw) (do
    ruleReady
    let c ← getCtx
    if hdrMatrix c.ghdr = false ∨ isColval (hdrKind c.ghdr) = false ∨ opdOp c.opd 0 ≠ 11 then trap cFormat c.opd
    let y ← getX xy
    let x ← getX xx
    let w ← getX xw
    let _ ← ownKey .store y 1 4
    let _ ← ownKey .load x 1 4
    if bits x 0 40 ≠ opdXoff c.opd then trap cFormat x
    let first := bits w 0 24
    let count := bits w 32 24
    if bits w 24 8 ≠ 0 ∨ bits w 56 8 ≠ 0 ∨ hdrRows c.ghdr < first + count then trap cFormat w
    let done ← unitsDone 6 count
    if done < count then inUnit 6 done id (rmvUnit y (first + done) first)
    unitEnd 6 (done + 1) count) s

def execRget (xd xi : Reg) (sel : BitVec 2) (s : State) : Host.Outcome State Fault Refusal :=
  runSeq (.rget xd xi sel) (do
    let i ← getX xi
    let c ← getCtx
    if hdrRules c.ghdr ≤ i.toNat then trap cFormat i
    let key ← ownKey .load (ptrAt c.rrt (16 * i.toNat + 4 * sel.toNat)) 4 4
    setX xd (BitVec.ofNat 64 (← coreReadNat key 4))) s

/-- What activation does to the rule unit: the header is read again, and a grammar that cannot be is unbound (R403). -/
def State.rebindGrammar (s : State) : State :=
  let g := s.ctx.gptr
  let unbound (s : State) : State := s.modCtx fun c => { c with gptr := 0, ghdr := 0 }
  if g = 0 then s.modCtx fun c => { c with ghdr := 0 }
  else match (fetchBytes g 64 64 : Act (List Byte)) s with
    | .ok bytes t =>
      let h : BitVec 512 := BitVec.ofNat 512 (leNat bytes)
      if headerOk h then t.modCtx fun c => { c with ghdr := h } else unbound t
    | .error _ t => unbound t

end Sys2Proof.Machine
end

