-- ==== Sys2Proof/Machine/Riffle.lean ====
section
/-!
DEFINITION. The bit-stream unit (spec 18 R424 to R436).
-/

namespace Sys2Proof.Machine

/-! ## Streams and sources (R424 to R426) -/

/-- log2 of a length code's length, and the length. -/
def lenLog (code : BitVec 2) : Nat := 6 + 2 * code.toNat
def streamLen (code : BitVec 2) : Nat := 2 ^ lenLog code

/-- A register with bits at and above its length zero (R424). -/
def BReg.of (bits : Nat) (len : BitVec 2) (mask : Byte) : BReg :=
  { bits := BitVec.ofNat 4096 (bits % 2 ^ streamLen len), len := len, mask := mask }

/-- The number of ones of a stream. -/
def BReg.ones (b : BReg) : Nat := ((List.range (streamLen b.len)).filter fun j => b.bits.getLsbD j).length

/-- The order of m bits reversed. -/
def bitReverse (m v : Nat) : Nat := ofLanes 1 ((List.range m).map fun i => v / 2 ^ (m - 1 - i) % 2)

/-- One step of the shift register (R426). -/
def lfsrStep (s : BitVec 32) : BitVec 32 :=
  (s <<< 1) ||| (if (s.getLsbD 31 ^^ s.getLsbD 21 ^^ s.getLsbD 1 ^^ s.getLsbD 0) then 1 else 0)

/-- The thresholds of an LFSR source: n of them from a state. -/
def lfsrFrom (m : Nat) : Nat → BitVec 32 → List Nat
  | 0, _ => []
  | n + 1, s => s.toNat / 2 ^ (32 - m) :: lfsrFrom m n (lfsrStep s)

/-- The threshold sequence of a source word for a length (R426). -/
def thresholds (src : Word) (len : BitVec 2) : List Nat :=
  let m := lenLog len
  let n := 2 ^ m
  let seed := bits src 0 32
  match bits src 62 2 with
  | 0 => (List.range n).map fun j => (j + seed) % n
  | 1 => (List.range n).map fun j => bitReverse m ((j + seed) % n)
  | _ => lfsrFrom m n (BitVec.ofNat 32 seed)

/-- Whether BSRC accepts a source word (R429). -/
def sourceOk (src : Word) : Bool :=
  bits src 62 2 != 3 && bits src 32 30 == 0 && !(bits src 62 2 == 2 && bits src 0 32 == 0)

/-- A source of a context. -/
def Ctx.getSrc (c : Ctx) (g : BitVec 3) : Word := c.src[g.toNat]'(g.isLt)

/-- The stream of k ones from a source (R430, R432). -/
def genStream (g : BitVec 3) (src : Word) (len : BitVec 2) (k : Nat) : BReg :=
  BReg.of (ofLanes 1 ((thresholds src len).map fun t => if t < k then 1 else 0)) len (1#8 <<< g.toNat)

/-! ## The instructions (R429 to R434) -/

def execBsrc (g : BitVec 3) (xs : Reg) (s : State) : Host.Outcome State Fault Refusal :=
  runSeq (.bsrc g xs) (do
    let v ← getX xs
    if !sourceOk v then trap cFormat v
    modCtx fun c => { c with src := c.src.set g.toNat v g.isLt }) s

/-- The count of BGEN (R430). -/
def genCount (p : FVal) (len : BitVec 2) : Nat :=
  let n := streamLen len
  match p with
  | .nan _ => 0
  | .inf neg => if neg then 0 else n
  | .fin neg m e => (clampInt (roundInt .rne neg m (e + lenLog len) false).1 0 n).toNat

def bodyBgen (bd : BitVec 4) (vp : Reg) (g : BitVec 3) (len : BitVec 2) : Act Unit := guardCtx do
  let i := Instr.bgen bd vp g len
  let c ← getCtx
  needReg i (c.hasB bd && c.hasV vp 1)
  let src := c.getSrc g
  if !sourceOk src then trap cFormat src
  let vs ← readGroups [(vp, 1)]
  modCtx fun c => c.setB bd (genStream g src len (genCount (fmtSF.decode (lane (vs.getD 0 0) 32 0)) len))

/-- The reads of a bit-stream register in the mirror: one for each 512 bits (R71). -/
def streamReads (r : BitVec 4) (b : BReg) : List (Nat × Nat) := [(r.toNat % 8, (streamLen b.len + 511) / 512)]

/-- BAND and BXNOR (R428, R431, R433). -/
def combine2 (i : Instr) (bd bs1 bs2 : BitVec 4) (cor : Bool) (f : Nat → Nat → Nat → Nat) : Act Unit := do
  let c ← getCtx
  needReg i (c.hasB bd && c.hasB bs1 && c.hasB bs2)
  let a := c.getB bs1
  let b := c.getB bs2
  if a.len ≠ b.len then trap cFormat (infoWord i)
  if !cor && a.mask &&& b.mask != 0 then trap cCorrMix (a.mask.setWidth 64 ||| (b.mask.setWidth 64 <<< 8))
  countReads [streamReads bs1 a, streamReads bs2 b]
  modCtx fun c => c.setB bd (BReg.of (f (2 ^ streamLen a.len - 1) a.bits.toNat b.bits.toNat) a.len (a.mask ||| b.mask))

def bodyBand (bd bs1 bs2 : BitVec 4) (cor : Bool) : Act Unit :=
  combine2 (.band bd bs1 bs2 cor) bd bs1 bs2 cor fun _ a b => a &&& b

def bodyBxnor (bd bs1 bs2 : BitVec 4) (cor : Bool) : Act Unit :=
  combine2 (.bxnor bd bs1 bs2 cor) bd bs1 bs2 cor fun all a b => all ^^^ (a ^^^ b)

def bodyBmux (bd bs1 bs2 bsel : BitVec 4) (cor : Bool) : Act Unit := do
  let i := Instr.bmux bd bs1 bs2 bsel cor
  let c ← getCtx
  needReg i (c.hasB bd && c.hasB bs1 && c.hasB bs2 && c.hasB bsel)
  let a := c.getB bs1
  let b := c.getB bs2
  let k := c.getB bsel
  if a.len ≠ b.len ∨ a.len ≠ k.len then trap cFormat (infoWord i)
  let m := a.mask ||| b.mask
  if !cor && k.mask &&& m != 0 then trap cCorrMix (m.setWidth 64 ||| (k.mask.setWidth 64 <<< 8))
  countReads [streamReads bs1 a, streamReads bs2 b, streamReads bsel k]
  let bits := (a.bits &&& ~~~k.bits) ||| (b.bits &&& k.bits)
  modCtx fun c => c.setB bd (BReg.of bits.toNat a.len (m ||| k.mask))

def bodyBnot (bd bs : BitVec 4) : Act Unit := do
  let c ← getCtx
  needReg (.bnot bd bs) (c.hasB bd && c.hasB bs)
  let a := c.getB bs
  modCtx fun c => c.setB bd (BReg.of ((2 ^ streamLen a.len - 1) ^^^ (a.bits.toNat % 2 ^ streamLen a.len)) a.len a.mask)

def bodyBcnt (xd : Reg) (bs : BitVec 4) : Act Unit := do
  let c ← getCtx
  needReg (.bcnt xd bs) (c.hasB bs)
  setX xd (BitVec.ofNat 64 (c.getB bs).ones)

def bodyBregen (bd bs : BitVec 4) (g : BitVec 3) : Act Unit := do
  let c ← getCtx
  needReg (.bregen bd bs g) (c.hasB bd && c.hasB bs)
  let src := c.getSrc g
  if !sourceOk src then trap cFormat src
  let a := c.getB bs
  modCtx fun c => c.setB bd (genStream g src a.len a.ones)

def bodyBcls (xd : Reg) (bs : BitVec 4) : Act Unit := do
  let c ← getCtx
  needReg (.bcls xd bs) (c.hasB bs)
  let a := c.getB bs
  setX xd (a.mask.setWidth 64 ||| (a.len.setWidth 64 <<< 8))

def bodyBmov (bd bs : BitVec 4) : Act Unit := do
  let c ← getCtx
  needReg (.bmov bd bs) (c.hasB bd && c.hasB bs)
  modCtx fun c => c.setB bd (c.getB bs)

def execBgen (bd : BitVec 4) (vp : Reg) (g : BitVec 3) (len : BitVec 2) (s : State) : Host.Outcome State Fault Refusal :=
  runSeq (.bgen bd vp g len) (bodyBgen bd vp g len) s

def execBand (bd bs1 bs2 : BitVec 4) (cor : Bool) (s : State) : Host.Outcome State Fault Refusal :=
  runSeq (.band bd bs1 bs2 cor) (bodyBand bd bs1 bs2 cor) s

def execBxnor (bd bs1 bs2 : BitVec 4) (cor : Bool) (s : State) : Host.Outcome State Fault Refusal :=
  runSeq (.bxnor bd bs1 bs2 cor) (bodyBxnor bd bs1 bs2 cor) s

def execBmux (bd bs1 bs2 bsel : BitVec 4) (cor : Bool) (s : State) : Host.Outcome State Fault Refusal :=
  runSeq (.bmux bd bs1 bs2 bsel cor) (bodyBmux bd bs1 bs2 bsel cor) s

def execBnot (bd bs : BitVec 4) (s : State) : Host.Outcome State Fault Refusal := runSeq (.bnot bd bs) (bodyBnot bd bs) s

def execBcnt (xd : Reg) (bs : BitVec 4) (s : State) : Host.Outcome State Fault Refusal := runSeq (.bcnt xd bs) (bodyBcnt xd bs) s

def execBregen (bd bs : BitVec 4) (g : BitVec 3) (s : State) : Host.Outcome State Fault Refusal :=
  runSeq (.bregen bd bs g) (bodyBregen bd bs g) s

def execBcls (xd : Reg) (bs : BitVec 4) (s : State) : Host.Outcome State Fault Refusal := runSeq (.bcls xd bs) (bodyBcls xd bs) s

def execBmov (bd bs : BitVec 4) (s : State) : Host.Outcome State Fault Refusal := runSeq (.bmov bd bs) (bodyBmov bd bs) s

end Sys2Proof.Machine
end

