-- ==== Sys2Proof/Machine/Use.lean ====
section
/-!
DEFINITION. The registers that an instruction names, and the interlocks that hold it at issue: a register that awaits an atomic's result
(R172), and the vector registers of matrix commands (R393).
-/

namespace Sys2Proof.Machine

/-- Scalar registers named, and vector registers read and written. Those of a matrix command are looked at where it is pushed. -/
structure RegUse where
  x      : List Reg
  reads  : List Nat
  writes : List Nat
  deriving DecidableEq, Repr

def noUse : RegUse := { x := [], reads := [], writes := [] }

/-- The registers that an instruction names. -/
def useOf (i : Instr) : RegUse :=
  match i with
  | .add rd rs1 rs2 => { x := [rd, rs1, rs2], reads := [], writes := [] }
  | .sub rd rs1 rs2 => { x := [rd, rs1, rs2], reads := [], writes := [] }
  | .and rd rs1 rs2 => { x := [rd, rs1, rs2], reads := [], writes := [] }
  | .or rd rs1 rs2 => { x := [rd, rs1, rs2], reads := [], writes := [] }
  | .xor rd rs1 rs2 => { x := [rd, rs1, rs2], reads := [], writes := [] }
  | .andn rd rs1 rs2 => { x := [rd, rs1, rs2], reads := [], writes := [] }
  | .orn rd rs1 rs2 => { x := [rd, rs1, rs2], reads := [], writes := [] }
  | .sll rd rs1 rs2 => { x := [rd, rs1, rs2], reads := [], writes := [] }
  | .srl rd rs1 rs2 => { x := [rd, rs1, rs2], reads := [], writes := [] }
  | .sra rd rs1 rs2 => { x := [rd, rs1, rs2], reads := [], writes := [] }
  | .slli rd rs1 _ => { x := [rd, rs1], reads := [], writes := [] }
  | .srli rd rs1 _ => { x := [rd, rs1], reads := [], writes := [] }
  | .srai rd rs1 _ => { x := [rd, rs1], reads := [], writes := [] }
  | .slt rd rs1 rs2 => { x := [rd, rs1, rs2], reads := [], writes := [] }
  | .sltu rd rs1 rs2 => { x := [rd, rs1, rs2], reads := [], writes := [] }
  | .min rd rs1 rs2 => { x := [rd, rs1, rs2], reads := [], writes := [] }
  | .max rd rs1 rs2 => { x := [rd, rs1, rs2], reads := [], writes := [] }
  | .minu rd rs1 rs2 => { x := [rd, rs1, rs2], reads := [], writes := [] }
  | .maxu rd rs1 rs2 => { x := [rd, rs1, rs2], reads := [], writes := [] }
  | .mul rd rs1 rs2 => { x := [rd, rs1, rs2], reads := [], writes := [] }
  | .mulh rd rs1 rs2 => { x := [rd, rs1, rs2], reads := [], writes := [] }
  | .mulhu rd rs1 rs2 => { x := [rd, rs1, rs2], reads := [], writes := [] }
  | .div rd rs1 rs2 => { x := [rd, rs1, rs2], reads := [], writes := [] }
  | .divu rd rs1 rs2 => { x := [rd, rs1, rs2], reads := [], writes := [] }
  | .rem rd rs1 rs2 => { x := [rd, rs1, rs2], reads := [], writes := [] }
  | .remu rd rs1 rs2 => { x := [rd, rs1, rs2], reads := [], writes := [] }
  | .clz rd rs1 => { x := [rd, rs1], reads := [], writes := [] }
  | .ctz rd rs1 => { x := [rd, rs1], reads := [], writes := [] }
  | .popc rd rs1 => { x := [rd, rs1], reads := [], writes := [] }
  | .sextb rd rs1 => { x := [rd, rs1], reads := [], writes := [] }
  | .sexth rd rs1 => { x := [rd, rs1], reads := [], writes := [] }
  | .sextw rd rs1 => { x := [rd, rs1], reads := [], writes := [] }
  | .zextw rd rs1 => { x := [rd, rs1], reads := [], writes := [] }
  | .csel rd rs1 rs2 => { x := [rd, rs1, rs2], reads := [], writes := [] }
  | .ptag rd rs1 rs2 => { x := [rd, rs1, rs2], reads := [], writes := [] }
  | .pfmt rd rs1 => { x := [rd, rs1], reads := [], writes := [] }
  | .pblk rd rs1 => { x := [rd, rs1], reads := [], writes := [] }
  | .pmesh rd rs1 rs2 => { x := [rd, rs1, rs2], reads := [], writes := [] }
  | .addi rd rs1 _ => { x := [rd, rs1], reads := [], writes := [] }
  | .andi rd rs1 _ => { x := [rd, rs1], reads := [], writes := [] }
  | .ori rd rs1 _ => { x := [rd, rs1], reads := [], writes := [] }
  | .xori rd rs1 _ => { x := [rd, rs1], reads := [], writes := [] }
  | .slti rd rs1 _ => { x := [rd, rs1], reads := [], writes := [] }
  | .sltiu rd rs1 _ => { x := [rd, rs1], reads := [], writes := [] }
  | .lui rd _ => { x := [rd], reads := [], writes := [] }
  | .auipc rd _ => { x := [rd], reads := [], writes := [] }
  | .shori rd rs1 _ => { x := [rd, rs1], reads := [], writes := [] }
  | .lb rd rs1 _ => { x := [rd, rs1], reads := [], writes := [] }
  | .lbu rd rs1 _ => { x := [rd, rs1], reads := [], writes := [] }
  | .lh rd rs1 _ => { x := [rd, rs1], reads := [], writes := [] }
  | .lhu rd rs1 _ => { x := [rd, rs1], reads := [], writes := [] }
  | .lw rd rs1 _ => { x := [rd, rs1], reads := [], writes := [] }
  | .lwu rd rs1 _ => { x := [rd, rs1], reads := [], writes := [] }
  | .ld rd rs1 _ => { x := [rd, rs1], reads := [], writes := [] }
  | .sb rs2 rs1 _ => { x := [rs2, rs1], reads := [], writes := [] }
  | .sh rs2 rs1 _ => { x := [rs2, rs1], reads := [], writes := [] }
  | .sw rs2 rs1 _ => { x := [rs2, rs1], reads := [], writes := [] }
  | .sd rs2 rs1 _ => { x := [rs2, rs1], reads := [], writes := [] }
  | .beq rs1 rs2 _ => { x := [rs1, rs2], reads := [], writes := [] }
  | .bne rs1 rs2 _ => { x := [rs1, rs2], reads := [], writes := [] }
  | .blt rs1 rs2 _ => { x := [rs1, rs2], reads := [], writes := [] }
  | .bge rs1 rs2 _ => { x := [rs1, rs2], reads := [], writes := [] }
  | .bltu rs1 rs2 _ => { x := [rs1, rs2], reads := [], writes := [] }
  | .bgeu rs1 rs2 _ => { x := [rs1, rs2], reads := [], writes := [] }
  | .jal rd _ => { x := [rd], reads := [], writes := [] }
  | .jalr rd rs1 _ => { x := [rd, rs1], reads := [], writes := [] }
  | .loop _ rs1 _ => { x := [rs1], reads := [], writes := [] }
  | .csrr rd _ => { x := [rd], reads := [], writes := [] }
  | .csrw _ rs1 => { x := [rs1], reads := [], writes := [] }
  | .csrs _ rs1 => { x := [rs1], reads := [], writes := [] }
  | .csrc _ rs1 => { x := [rs1], reads := [], writes := [] }
  | .kcall _ => noUse
  | .fcall _ => noUse
  | .brk _ => noUse
  | .tlbinv rs1 _ => { x := [rs1], reads := [], writes := [] }
  | .launch rd rs1 => { x := [rd, rs1], reads := [], writes := [] }
  | .fence _ _ => noUse
  | .mon rs1 => { x := [rs1], reads := [], writes := [] }
  | .evsig rs1 _ => { x := [rs1], reads := [], writes := [] }
  | .evwait _ => noUse
  | .send data rs1 _ vec => if vec then { x := [rs1], reads := [data.toNat], writes := [] } else { x := [data, rs1], reads := [], writes := [] }
  | .recv rd _ vec => if vec then { x := [], reads := [], writes := [rd.toNat] } else { x := [rd], reads := [], writes := [] }
  | .recvnb rd _ vec => if vec then { x := [], reads := [], writes := [rd.toNat] } else { x := [rd], reads := [], writes := [] }
  | .mcast data rs1 rs2 => { x := [data, rs1, rs2], reads := [], writes := [] }
  | .amo _ _ rd rs1 rs2 => { x := [rd, rs1, rs2], reads := [], writes := [] }
  | .cas _ rd rs1 rs2 => { x := [rd, rs1, rs2], reads := [], writes := [] }
  | .lda _ rd rs1 => { x := [rd, rs1], reads := [], writes := [] }
  | .str _ rs1 rs2 => { x := [rs1, rs2], reads := [], writes := [] }
  | .cinit rs1 rs2 => { x := [rs1, rs2], reads := [], writes := [] }
  | .cst rs1 rs2 => { x := [rs1, rs2], reads := [], writes := [] }
  | .cld rd rs1 rs2 => { x := [rd, rs1, rs2], reads := [], writes := [] }
  | .crcl rs1 rs2 => { x := [rs1, rs2], reads := [], writes := [] }
  | .cver rd rs1 => { x := [rd, rs1], reads := [], writes := [] }
  | .dma dest src len _ => { x := [dest, src, len], reads := [], writes := [] }
  | .dmad dest src len _ => { x := [dest, src, len], reads := [], writes := [] }
  | .dmares rs => { x := [rs], reads := [], writes := [] }
  | .waitany rs => { x := [rs], reads := [], writes := [] }
  | .waitall rs => { x := [rs], reads := [], writes := [] }
  | .ffrdy rd => { x := [rd], reads := [], writes := [] }
  | .tagclr rs => { x := [rs], reads := [], writes := [] }
  | .qpush _ rs => { x := [rs], reads := [], writes := [] }
  | .qpop rd _ => { x := [rd], reads := [], writes := [] }
  | .qtry rd _ => { x := [rd], reads := [], writes := [] }
  | .qcnt rd _ => { x := [rd], reads := [], writes := [] }
  | .iceg rs => { x := [rs], reads := [], writes := [] }
  | .ices rs => { x := [rs], reads := [], writes := [] }
  | .iceres rs => { x := [rs], reads := [], writes := [] }
  | .vld wd vd xb _ _ => { x := [xb], reads := [], writes := groupRegs vd wd.count }
  | .vlds wd vd xb xs => { x := [xb, xs], reads := [], writes := groupRegs vd wd.count }
  | .vldx wd vd xb vi => { x := [xb], reads := groupRegs vi 1, writes := groupRegs vd wd.count }
  | .vst wd vd xb _ _ => { x := [xb], reads := groupRegs vd wd.count, writes := [] }
  | .vsts wd vd xb xs => { x := [xb, xs], reads := groupRegs vd wd.count, writes := [] }
  | .vstx wd vd xb vi => { x := [xb], reads := groupRegs vd wd.count ++ groupRegs vi 1, writes := [] }
  | .vadd _ wd vd vs1 vs2 => { x := [], reads := groupRegs vs1 wd.count ++ groupRegs vs2 wd.count, writes := groupRegs vd wd.count }
  | .vsub _ wd vd vs1 vs2 => { x := [], reads := groupRegs vs1 wd.count ++ groupRegs vs2 wd.count, writes := groupRegs vd wd.count }
  | .vmul _ wd vd vs1 vs2 => { x := [], reads := groupRegs vs1 wd.count ++ groupRegs vs2 wd.count, writes := groupRegs vd wd.count }
  | .vmulh _ wd vd vs1 vs2 => { x := [], reads := groupRegs vs1 wd.count ++ groupRegs vs2 wd.count, writes := groupRegs vd wd.count }
  | .vmin _ wd vd vs1 vs2 => { x := [], reads := groupRegs vs1 wd.count ++ groupRegs vs2 wd.count, writes := groupRegs vd wd.count }
  | .vmax _ wd vd vs1 vs2 => { x := [], reads := groupRegs vs1 wd.count ++ groupRegs vs2 wd.count, writes := groupRegs vd wd.count }
  | .vand _ wd vd vs1 vs2 => { x := [], reads := groupRegs vs1 wd.count ++ groupRegs vs2 wd.count, writes := groupRegs vd wd.count }
  | .vor _ wd vd vs1 vs2 => { x := [], reads := groupRegs vs1 wd.count ++ groupRegs vs2 wd.count, writes := groupRegs vd wd.count }
  | .vxor _ wd vd vs1 vs2 => { x := [], reads := groupRegs vs1 wd.count ++ groupRegs vs2 wd.count, writes := groupRegs vd wd.count }
  | .vshl _ wd vd vs1 vs2 => { x := [], reads := groupRegs vs1 wd.count ++ groupRegs vs2 wd.count, writes := groupRegs vd wd.count }
  | .vshr _ wd vd vs1 vs2 => { x := [], reads := groupRegs vs1 wd.count ++ groupRegs vs2 wd.count, writes := groupRegs vd wd.count }
  | .vsra _ wd vd vs1 vs2 => { x := [], reads := groupRegs vs1 wd.count ++ groupRegs vs2 wd.count, writes := groupRegs vd wd.count }
  | .vabs _ wd vd vs1 => { x := [], reads := groupRegs vs1 wd.count, writes := groupRegs vd wd.count }
  | .vadds _ wd vd vs1 vs2 => { x := [], reads := groupRegs vs1 wd.count ++ groupRegs vs2 wd.count, writes := groupRegs vd wd.count }
  | .vsubs _ wd vd vs1 vs2 => { x := [], reads := groupRegs vs1 wd.count ++ groupRegs vs2 wd.count, writes := groupRegs vd wd.count }
  | .vcmpeq _ wd vd vs1 vs2 => { x := [], reads := groupRegs vs1 wd.count ++ groupRegs vs2 wd.count, writes := groupRegs vd wd.count }
  | .vcmplt _ wd vd vs1 vs2 => { x := [], reads := groupRegs vs1 wd.count ++ groupRegs vs2 wd.count, writes := groupRegs vd wd.count }
  | .vcmple _ wd vd vs1 vs2 => { x := [], reads := groupRegs vs1 wd.count ++ groupRegs vs2 wd.count, writes := groupRegs vd wd.count }
  | .vsel _ wd vd vs1 vs2 => { x := [], reads := groupRegs vd wd.count ++ groupRegs vs1 wd.count ++ groupRegs vs2 wd.count, writes := groupRegs vd wd.count }
  | .vfadd _ wd vd vs1 vs2 => { x := [], reads := groupRegs vs1 wd.count ++ groupRegs vs2 wd.count, writes := groupRegs vd wd.count }
  | .vfsub _ wd vd vs1 vs2 => { x := [], reads := groupRegs vs1 wd.count ++ groupRegs vs2 wd.count, writes := groupRegs vd wd.count }
  | .vfmul _ wd vd vs1 vs2 => { x := [], reads := groupRegs vs1 wd.count ++ groupRegs vs2 wd.count, writes := groupRegs vd wd.count }
  | .vfma _ wd vd vs1 vs2 => { x := [], reads := groupRegs vd wd.count ++ groupRegs vs1 wd.count ++ groupRegs vs2 wd.count, writes := groupRegs vd wd.count }
  | .vfnma _ wd vd vs1 vs2 => { x := [], reads := groupRegs vd wd.count ++ groupRegs vs1 wd.count ++ groupRegs vs2 wd.count, writes := groupRegs vd wd.count }
  | .vfmin _ wd vd vs1 vs2 => { x := [], reads := groupRegs vs1 wd.count ++ groupRegs vs2 wd.count, writes := groupRegs vd wd.count }
  | .vfmax _ wd vd vs1 vs2 => { x := [], reads := groupRegs vs1 wd.count ++ groupRegs vs2 wd.count, writes := groupRegs vd wd.count }
  | .vfdiv _ wd vd vs1 vs2 => { x := [], reads := groupRegs vs1 wd.count ++ groupRegs vs2 wd.count, writes := groupRegs vd wd.count }
  | .vfrsq _ wd vd vs1 => { x := [], reads := groupRegs vs1 wd.count, writes := groupRegs vd wd.count }
  | .vfexp2 _ wd vd vs1 => { x := [], reads := groupRegs vs1 wd.count, writes := groupRegs vd wd.count }
  | .vfcmpeq _ wd vd vs1 vs2 => { x := [], reads := groupRegs vs1 wd.count ++ groupRegs vs2 wd.count, writes := groupRegs vd wd.count }
  | .vfcmplt _ wd vd vs1 vs2 => { x := [], reads := groupRegs vs1 wd.count ++ groupRegs vs2 wd.count, writes := groupRegs vd wd.count }
  | .vfcmple _ wd vd vs1 vs2 => { x := [], reads := groupRegs vs1 wd.count ++ groupRegs vs2 wd.count, writes := groupRegs vd wd.count }
  | .vmovx _ xd vs1 xi => { x := [xd, xi], reads := groupRegs vs1 1, writes := [] }
  | .vsplat _ wd vd xv => { x := [xv], reads := [], writes := groupRegs vd wd.count }
  | .vins _ vd xv xi => { x := [xv, xi], reads := groupRegs vd 1, writes := groupRegs vd 1 }
  | .vperm _ wd vd vs1 vs2 => { x := [], reads := groupRegs vs1 wd.count ++ groupRegs vs2 wd.count, writes := groupRegs vd wd.count }
  | .vslide _ wd vd vs1 xa => { x := [xa], reads := groupRegs vs1 wd.count, writes := groupRegs vd wd.count }
  | .vred _ wd vd vs1 => { x := [], reads := groupRegs vs1 wd.count, writes := groupRegs vd 1 }
  | .vscan _ wd vd vs1 => { x := [], reads := groupRegs vs1 wd.count, writes := groupRegs vd wd.count }
  | .vcvt ty wd vd vs1 td => { x := [], reads := groupRegs vs1 wd.count, writes := groupRegs vd (derivedWidth wd.count td.size ty.size) }
  | .vqnt ty wd vd vs1 vs2 => { x := [], reads := groupRegs vs1 wd.count ++ groupRegs vs2 1, writes := groupRegs vd (derivedWidth wd.count 1 ty.size) }
  | .vnz _ wd xd vs1 xp => { x := [xd, xp], reads := groupRegs vs1 wd.count, writes := [] }
  | .vcompr _ wd vd vs1 vs2 => { x := [], reads := groupRegs vs1 wd.count ++ groupRegs vs2 wd.count, writes := groupRegs vd wd.count }
  | .vpopc _ wd xd vs1 => { x := [xd], reads := groupRegs vs1 wd.count, writes := [] }
  | .sopen _ xv xl _ xc => { x := [xv, xl, xc], reads := [], writes := [] }
  | .sadv _ xn => { x := [xn], reads := [], writes := [] }
  | .stend _ _ => noUse
  | .sclose _ => noUse
  | .smerge vn _ => { x := [], reads := [], writes := groupRegs vn 2 }
  | .spos xd _ => { x := [xd], reads := [], writes := [] }
  | .streamPrefetch _ => noUse
  | .repf _ ci cnt _ _ => if ci then noUse else { x := [cnt], reads := [], writes := [] }
  | .gform rs => { x := [rs], reads := [], writes := [] }
  | .gjoin rs => { x := [rs], reads := [], writes := [] }
  | .gleave rs => { x := [rs], reads := [], writes := [] }
  | .gdet rs => { x := [rs], reads := [], writes := [] }
  | .gatt _ => noUse
  | .rjp _ => noUse
  | .xsh wd vd vs _ => { x := [], reads := groupRegs vs wd.count, writes := groupRegs vd wd.count }
  | .xwrap wd vd vs _ => { x := [], reads := groupRegs vs wd.count, writes := groupRegs vd wd.count }
  | .xshArrival _ => noUse
  | .mldw _ xs _ _ => { x := [xs], reads := [], writes := [] }
  | .mzero _ _ _ => noUse
  | .mma _ _ _ _ _ _ _ _ => noUse
  | .mmas _ _ xb _ _ _ _ => { x := [xb, (xb + 1)], reads := [], writes := [] }
  | .msta _ xd _ _ _ => { x := [xd], reads := [], writes := [] }
  | .mstv _ _ xr _ _ => { x := [xr], reads := [], writes := [] }
  | .rgopen xg xr => { x := [xg, xr], reads := [], writes := [] }
  | .rlift xd => { x := [xd], reads := [], writes := [] }
  | .reval xf xn => { x := [xf, xn], reads := [], writes := [] }
  | .rspine xo xs xe => { x := [xo, xs, xe], reads := [], writes := [] }
  | .rscan xo xs xe _ => { x := [xo, xs, xe], reads := [], writes := [] }
  | .rseek xn xi => { x := [xn, (xn + 1), xi], reads := [], writes := [] }
  | .rmv xy xx xw => { x := [xy, xx, xw], reads := [], writes := [] }
  | .rget xd xi _ => { x := [xd, xi], reads := [], writes := [] }
  | .bsrc _ xs => { x := [xs], reads := [], writes := [] }
  | .bgen _ vp _ _ => { x := [], reads := groupRegs vp 1, writes := [] }
  | .band _ _ _ _ => noUse
  | .bxnor _ _ _ _ => noUse
  | .bmux _ _ _ _ _ => noUse
  | .bnot _ _ => noUse
  | .bcnt xd _ => { x := [xd], reads := [], writes := [] }
  | .bregen _ _ _ => noUse
  | .bcls xd _ => { x := [xd], reads := [], writes := [] }
  | .bmov _ _ => noUse
  | .homePerformAccess _ => noUse
  | .storeAck _ => noUse
  | .atomicResultReturn _ => noUse
  | .commutativeMerge _ _ => noUse
  | .linkCrcError _ => noUse
  | .selfTestComplete _ => noUse
  | .reservationRequest _ => noUse
  | .reservationGrant _ => noUse
  | .messageArrival _ => noUse
  | .eventSignalLand _ => noUse
  | .broadcastApply _ => noUse
  | .dmaByteCopy _ => noUse
  | .codebookExpansion _ => noUse
  | .entropyExpansion _ => noUse
  | .bitPlaneEncoding _ => noUse
  | .blockCyclicDeal _ => noUse
  | .dmaChunkComplete _ => noUse
  | .dmaCommandComplete _ => noUse
  | .eddyGather _ => noUse
  | .eddyScatter _ => noUse
  | .eddyComplete _ => noUse
  | .waitEventRead _ => noUse
  | .placementStep _ => noUse
  | .starvationBound _ => noUse
  | .quiescenceSweep _ => noUse
  | .launchCompletion _ => noUse
  | .hostBar2Access _ _ => noUse
  | .mbdoor _ => noUse
  | .pwrcap _ => noUse
  | .mgmtRegisterWrite _ _ => noUse
  | .clockThrottle _ => noUse
  | .portFailure _ => noUse
  | .portFailTimeout _ => noUse
  | .powerOn _ => noUse
  | .illegalEncoding _ => noUse
  | .partitionBuild _ => noUse
  | .softwareInterrupt _ => noUse
  | .tret => noUse
  | .wfi => noUse
  | .wswap => noUse
  | .iflush => noUse
  | .halt => noUse
  | .rfence => noUse
  | .mwait => noUse
  | .cellAbandon => noUse
  | .gsplit => noUse
  | .gbar => noUse
  | .matrixCommandStart => noUse
  | .microTileComplete => noUse
  | .matrixCommandComplete => noUse
  | .takeInterrupt => noUse
  | .timerExpire => noUse
  | .loadReturn => noUse
  | .pageWalk => noUse
  | .contextBufferDrain => noUse
  | .weirWindowClose => noUse
  | .launchAcceptance => noUse
  | .coreHandoff => noUse
  | .logclr => noUse
  | .ovfClear => noUse
  | .go => noUse
  | .fetchFailure => noUse
  | .mwaitSpuriousReturn => noUse

/-- Whether an instruction of the core in focus holds at issue (R172, R393). -/
def State.interlocked (s : State) (i : Instr) : Bool :=
  let u := useOf i
  (u.x.any fun r => s.core.pendReg.any fun p => p.2 == r)
    || ((!u.reads.isEmpty || !u.writes.isEmpty) && s.mtxBlocks s.core.id u.reads (u.writes ++ s.ctx.popWrites u.reads))

end Sys2Proof.Machine
end

