-- ==== Sys2Proof/Machine/Vector.lean ====
section
/-!
DEFINITION. Vector arithmetic and lane movement: the majors VINT, VFP and VMISC (spec 15 R366 to R371).
-/

namespace Sys2Proof.Machine

/-- Bits of an element type. -/
def laneBits (ty : Ty) : Nat := 8 * ty.size

/-- Lanes of a group (R358). -/
def laneCount (ty : Ty) (wd : Wd) : Nat := 64 * wd.count / ty.size

/-- A lane read as its type's integer. -/
def laneInt (ty : Ty) (x : Nat) : Int :=
  if ty.isSigned ∧ 2 ^ (laneBits ty - 1) ≤ x then (x : Int) - 2 ^ laneBits ty else x

/-- Wrap (R366). -/
def wrapLane (ty : Ty) (v : Int) : Nat := (v % 2 ^ laneBits ty).toNat

/-- The least and greatest values of an integer type. -/
def tyMin (ty : Ty) : Int := if ty.isSigned then -(2 ^ (laneBits ty - 1)) else 0
def tyMax (ty : Ty) : Int := if ty.isSigned then 2 ^ (laneBits ty - 1) - 1 else 2 ^ laneBits ty - 1

/-- Sat (R33). -/
def satLane (ty : Ty) (v : Int) : Nat := wrapLane ty (clampInt v (tyMin ty) (tyMax ty))

/-- A compare's lane: all ones or all zeros. -/
def maskLane (ty : Ty) (b : Bool) : Nat := if b then 2 ^ laneBits ty - 1 else 0

/-- The floating-point format of a type. -/
def fmtOfTy (ty : Ty) : Fmt :=
  match ty with
  | .hf => fmtHF
  | .bf => fmtBF
  | _ => fmtSF

/-- A lane operation of two sources and the destination's earlier value. -/
def lanes3 (i : Instr) (ty : Ty) (wd : Wd) (vd vs1 vs2 : Reg) (readsVd : Bool) (f : Nat → Nat → Nat → Nat) : Act Unit := guardCtx do
  let c ← getCtx
  let w := wd.count
  needReg i (c.hasV vd w && c.hasV vs1 w && c.hasV vs2 w)
  let vs ← readGroups ([(vs1, w), (vs2, w)] ++ if readsVd then [(vd, w)] else [])
  let a := vs.getD 0 0
  let b := vs.getD 1 0
  let d := vs.getD 2 0
  let bts := laneBits ty
  writeGroup vd w (ofLanes bts ((List.range (laneCount ty wd)).map fun j => f (lane a bts j) (lane b bts j) (lane d bts j)))

/-- An integer lane operation (R366). -/
def intLanes (i : Instr) (ty : Ty) (wd : Wd) (vd vs1 vs2 : Reg) (f : Int → Int → Nat) : Act Unit :=
  lanes3 i ty wd vd vs1 vs2 false fun a b _ => f (laneInt ty a) (laneInt ty b)

/-- A floating-point lane operation, with its flags (R367): the operands that the instruction names in turn. -/
def floatLanes (i : Instr) (ty : Ty) (wd : Wd) (vd vs1 : Reg) (more : List Reg) (f : Rm → Nat → Nat → Nat → Nat × Flg) : Act Unit :=
  guardCtx do
    let c ← getCtx
    let w := wd.count
    needReg i (c.hasV vd w && c.hasV vs1 w && more.all fun r => c.hasV r w)
    let vs ← readGroups (([vs1] ++ more).map fun r => (r, w))
    let bts := laneBits ty
    let out := (List.range (laneCount ty wd)).map fun j =>
      f c.rm (lane (vs.getD 0 0) bts j) (lane (vs.getD 1 0) bts j) (lane (vs.getD 2 0) bts j)
    writeGroup vd w (ofLanes bts (out.map (·.1)))
    modCtx fun c => c.orFlags (out.foldl (fun g x => g ||| x.2) 0)

/-! ## Integer lanes (R366) -/

def bodyVadd (ty : Ty) (wd : Wd) (vd vs1 vs2 : Reg) : Act Unit :=
  let i := Instr.vadd ty wd vd vs1 vs2
  intLanes i ty wd vd vs1 vs2 fun a b => wrapLane ty (a + b)

def execVadd (ty : Ty) (wd : Wd) (vd vs1 vs2 : Reg) (s : State) : Host.Outcome State Fault Refusal :=
  runSeq (.vadd ty wd vd vs1 vs2) (bodyVadd ty wd vd vs1 vs2) s

def bodyVsub (ty : Ty) (wd : Wd) (vd vs1 vs2 : Reg) : Act Unit :=
  let i := Instr.vsub ty wd vd vs1 vs2
  intLanes i ty wd vd vs1 vs2 fun a b => wrapLane ty (a - b)

def execVsub (ty : Ty) (wd : Wd) (vd vs1 vs2 : Reg) (s : State) : Host.Outcome State Fault Refusal :=
  runSeq (.vsub ty wd vd vs1 vs2) (bodyVsub ty wd vd vs1 vs2) s

def bodyVmul (ty : Ty) (wd : Wd) (vd vs1 vs2 : Reg) : Act Unit :=
  let i := Instr.vmul ty wd vd vs1 vs2
  intLanes i ty wd vd vs1 vs2 fun a b => wrapLane ty (a * b)

def execVmul (ty : Ty) (wd : Wd) (vd vs1 vs2 : Reg) (s : State) : Host.Outcome State Fault Refusal :=
  runSeq (.vmul ty wd vd vs1 vs2) (bodyVmul ty wd vd vs1 vs2) s

def bodyVmulh (ty : Ty) (wd : Wd) (vd vs1 vs2 : Reg) : Act Unit :=
  let i := Instr.vmulh ty wd vd vs1 vs2
  intLanes i ty wd vd vs1 vs2 fun a b => wrapLane ty (a * b / 2 ^ laneBits ty)

def execVmulh (ty : Ty) (wd : Wd) (vd vs1 vs2 : Reg) (s : State) : Host.Outcome State Fault Refusal :=
  runSeq (.vmulh ty wd vd vs1 vs2) (bodyVmulh ty wd vd vs1 vs2) s

def bodyVmin (ty : Ty) (wd : Wd) (vd vs1 vs2 : Reg) : Act Unit :=
  let i := Instr.vmin ty wd vd vs1 vs2
  intLanes i ty wd vd vs1 vs2 fun a b => wrapLane ty (min a b)

def execVmin (ty : Ty) (wd : Wd) (vd vs1 vs2 : Reg) (s : State) : Host.Outcome State Fault Refusal :=
  runSeq (.vmin ty wd vd vs1 vs2) (bodyVmin ty wd vd vs1 vs2) s

def bodyVmax (ty : Ty) (wd : Wd) (vd vs1 vs2 : Reg) : Act Unit :=
  let i := Instr.vmax ty wd vd vs1 vs2
  intLanes i ty wd vd vs1 vs2 fun a b => wrapLane ty (max a b)

def execVmax (ty : Ty) (wd : Wd) (vd vs1 vs2 : Reg) (s : State) : Host.Outcome State Fault Refusal :=
  runSeq (.vmax ty wd vd vs1 vs2) (bodyVmax ty wd vd vs1 vs2) s

def bodyVand (ty : Ty) (wd : Wd) (vd vs1 vs2 : Reg) : Act Unit :=
  let i := Instr.vand ty wd vd vs1 vs2
  lanes3 i ty wd vd vs1 vs2 false fun a b _ => a &&& b

def execVand (ty : Ty) (wd : Wd) (vd vs1 vs2 : Reg) (s : State) : Host.Outcome State Fault Refusal :=
  runSeq (.vand ty wd vd vs1 vs2) (bodyVand ty wd vd vs1 vs2) s

def bodyVor (ty : Ty) (wd : Wd) (vd vs1 vs2 : Reg) : Act Unit :=
  let i := Instr.vor ty wd vd vs1 vs2
  lanes3 i ty wd vd vs1 vs2 false fun a b _ => a ||| b

def execVor (ty : Ty) (wd : Wd) (vd vs1 vs2 : Reg) (s : State) : Host.Outcome State Fault Refusal :=
  runSeq (.vor ty wd vd vs1 vs2) (bodyVor ty wd vd vs1 vs2) s

def bodyVxor (ty : Ty) (wd : Wd) (vd vs1 vs2 : Reg) : Act Unit :=
  let i := Instr.vxor ty wd vd vs1 vs2
  lanes3 i ty wd vd vs1 vs2 false fun a b _ => a ^^^ b

def execVxor (ty : Ty) (wd : Wd) (vd vs1 vs2 : Reg) (s : State) : Host.Outcome State Fault Refusal :=
  runSeq (.vxor ty wd vd vs1 vs2) (bodyVxor ty wd vd vs1 vs2) s

def bodyVshl (ty : Ty) (wd : Wd) (vd vs1 vs2 : Reg) : Act Unit :=
  let i := Instr.vshl ty wd vd vs1 vs2
  lanes3 i ty wd vd vs1 vs2 false fun a b _ => a * 2 ^ (b % laneBits ty)

def execVshl (ty : Ty) (wd : Wd) (vd vs1 vs2 : Reg) (s : State) : Host.Outcome State Fault Refusal :=
  runSeq (.vshl ty wd vd vs1 vs2) (bodyVshl ty wd vd vs1 vs2) s

def bodyVshr (ty : Ty) (wd : Wd) (vd vs1 vs2 : Reg) : Act Unit :=
  let i := Instr.vshr ty wd vd vs1 vs2
  lanes3 i ty wd vd vs1 vs2 false fun a b _ => a / 2 ^ (b % laneBits ty)

def execVshr (ty : Ty) (wd : Wd) (vd vs1 vs2 : Reg) (s : State) : Host.Outcome State Fault Refusal :=
  runSeq (.vshr ty wd vd vs1 vs2) (bodyVshr ty wd vd vs1 vs2) s

/-- A lane shifted right with copies of its top bit entering, whatever the type's sign (R366). -/
def sraLane (ty : Ty) (a c : Nat) : Nat :=
  let v : Int := if 2 ^ (laneBits ty - 1) ≤ a then (a : Int) - 2 ^ laneBits ty else a
  wrapLane ty (v / 2 ^ c)

def bodyVsra (ty : Ty) (wd : Wd) (vd vs1 vs2 : Reg) : Act Unit :=
  let i := Instr.vsra ty wd vd vs1 vs2
  lanes3 i ty wd vd vs1 vs2 false fun a b _ => sraLane ty a (b % laneBits ty)

def execVsra (ty : Ty) (wd : Wd) (vd vs1 vs2 : Reg) (s : State) : Host.Outcome State Fault Refusal :=
  runSeq (.vsra ty wd vd vs1 vs2) (bodyVsra ty wd vd vs1 vs2) s

def bodyVabs (ty : Ty) (wd : Wd) (vd vs1 : Reg) : Act Unit :=
  let i := Instr.vabs ty wd vd vs1
  guardCtx do
    let c ← getCtx
    let w := wd.count
    needReg i (c.hasV vd w && c.hasV vs1 w)
    let vs ← readGroups [(vs1, w)]
    let b := laneBits ty
    writeGroup vd w (ofLanes b ((List.range (laneCount ty wd)).map fun j => wrapLane ty (laneInt ty (lane (vs.getD 0 0) b j)).natAbs))

def execVabs (ty : Ty) (wd : Wd) (vd vs1 : Reg) (s : State) : Host.Outcome State Fault Refusal :=
  runSeq (.vabs ty wd vd vs1) (bodyVabs ty wd vd vs1) s

def bodyVadds (ty : Ty) (wd : Wd) (vd vs1 vs2 : Reg) : Act Unit :=
  let i := Instr.vadds ty wd vd vs1 vs2
  intLanes i ty wd vd vs1 vs2 fun a b => satLane ty (a + b)

def execVadds (ty : Ty) (wd : Wd) (vd vs1 vs2 : Reg) (s : State) : Host.Outcome State Fault Refusal :=
  runSeq (.vadds ty wd vd vs1 vs2) (bodyVadds ty wd vd vs1 vs2) s

def bodyVsubs (ty : Ty) (wd : Wd) (vd vs1 vs2 : Reg) : Act Unit :=
  let i := Instr.vsubs ty wd vd vs1 vs2
  intLanes i ty wd vd vs1 vs2 fun a b => satLane ty (a - b)

def execVsubs (ty : Ty) (wd : Wd) (vd vs1 vs2 : Reg) (s : State) : Host.Outcome State Fault Refusal :=
  runSeq (.vsubs ty wd vd vs1 vs2) (bodyVsubs ty wd vd vs1 vs2) s

def bodyVcmpeq (ty : Ty) (wd : Wd) (vd vs1 vs2 : Reg) : Act Unit :=
  let i := Instr.vcmpeq ty wd vd vs1 vs2
  intLanes i ty wd vd vs1 vs2 fun a b => maskLane ty (decide (a = b))

def execVcmpeq (ty : Ty) (wd : Wd) (vd vs1 vs2 : Reg) (s : State) : Host.Outcome State Fault Refusal :=
  runSeq (.vcmpeq ty wd vd vs1 vs2) (bodyVcmpeq ty wd vd vs1 vs2) s

def bodyVcmplt (ty : Ty) (wd : Wd) (vd vs1 vs2 : Reg) : Act Unit :=
  let i := Instr.vcmplt ty wd vd vs1 vs2
  intLanes i ty wd vd vs1 vs2 fun a b => maskLane ty (decide (a < b))

def execVcmplt (ty : Ty) (wd : Wd) (vd vs1 vs2 : Reg) (s : State) : Host.Outcome State Fault Refusal :=
  runSeq (.vcmplt ty wd vd vs1 vs2) (bodyVcmplt ty wd vd vs1 vs2) s

def bodyVcmple (ty : Ty) (wd : Wd) (vd vs1 vs2 : Reg) : Act Unit :=
  let i := Instr.vcmple ty wd vd vs1 vs2
  intLanes i ty wd vd vs1 vs2 fun a b => maskLane ty (decide (a ≤ b))

def execVcmple (ty : Ty) (wd : Wd) (vd vs1 vs2 : Reg) (s : State) : Host.Outcome State Fault Refusal :=
  runSeq (.vcmple ty wd vd vs1 vs2) (bodyVcmple ty wd vd vs1 vs2) s

def bodyVsel (ty : Ty) (wd : Wd) (vd vs1 vs2 : Reg) : Act Unit :=
  let i := Instr.vsel ty wd vd vs1 vs2
  lanes3 i ty wd vd vs1 vs2 true fun a b d => if d ≠ 0 then a else b

def execVsel (ty : Ty) (wd : Wd) (vd vs1 vs2 : Reg) (s : State) : Host.Outcome State Fault Refusal :=
  runSeq (.vsel ty wd vd vs1 vs2) (bodyVsel ty wd vd vs1 vs2) s

/-! ## Floating-point lanes (R367) -/

def bodyVfadd (ty : Ty) (wd : Wd) (vd vs1 vs2 : Reg) : Act Unit :=
  let i := Instr.vfadd ty wd vd vs1 vs2
  let f := fmtOfTy ty
  floatLanes i ty wd vd vs1 [vs2] fun rm a b _ => f.addV rm (f.decode a) (f.decode b)

def execVfadd (ty : Ty) (wd : Wd) (vd vs1 vs2 : Reg) (s : State) : Host.Outcome State Fault Refusal :=
  runSeq (.vfadd ty wd vd vs1 vs2) (bodyVfadd ty wd vd vs1 vs2) s

def bodyVfsub (ty : Ty) (wd : Wd) (vd vs1 vs2 : Reg) : Act Unit :=
  let i := Instr.vfsub ty wd vd vs1 vs2
  let f := fmtOfTy ty
  floatLanes i ty wd vd vs1 [vs2] fun rm a b _ => f.addV rm (f.decode a) (f.decode b).neg

def execVfsub (ty : Ty) (wd : Wd) (vd vs1 vs2 : Reg) (s : State) : Host.Outcome State Fault Refusal :=
  runSeq (.vfsub ty wd vd vs1 vs2) (bodyVfsub ty wd vd vs1 vs2) s

def bodyVfmul (ty : Ty) (wd : Wd) (vd vs1 vs2 : Reg) : Act Unit :=
  let i := Instr.vfmul ty wd vd vs1 vs2
  let f := fmtOfTy ty
  floatLanes i ty wd vd vs1 [vs2] fun rm a b _ => f.mulV rm (f.decode a) (f.decode b)

def execVfmul (ty : Ty) (wd : Wd) (vd vs1 vs2 : Reg) (s : State) : Host.Outcome State Fault Refusal :=
  runSeq (.vfmul ty wd vd vs1 vs2) (bodyVfmul ty wd vd vs1 vs2) s

def bodyVfma (ty : Ty) (wd : Wd) (vd vs1 vs2 : Reg) : Act Unit :=
  let i := Instr.vfma ty wd vd vs1 vs2
  let f := fmtOfTy ty
  floatLanes i ty wd vd vs1 [vs2, vd] fun rm a b c => f.fmaV rm (f.decode a) (f.decode b) (f.decode c)

def execVfma (ty : Ty) (wd : Wd) (vd vs1 vs2 : Reg) (s : State) : Host.Outcome State Fault Refusal :=
  runSeq (.vfma ty wd vd vs1 vs2) (bodyVfma ty wd vd vs1 vs2) s

def bodyVfnma (ty : Ty) (wd : Wd) (vd vs1 vs2 : Reg) : Act Unit :=
  let i := Instr.vfnma ty wd vd vs1 vs2
  let f := fmtOfTy ty
  floatLanes i ty wd vd vs1 [vs2, vd] fun rm a b c => f.fmaV rm (f.decode a).neg (f.decode b) (f.decode c)

def execVfnma (ty : Ty) (wd : Wd) (vd vs1 vs2 : Reg) (s : State) : Host.Outcome State Fault Refusal :=
  runSeq (.vfnma ty wd vd vs1 vs2) (bodyVfnma ty wd vd vs1 vs2) s

def bodyVfmin (ty : Ty) (wd : Wd) (vd vs1 vs2 : Reg) : Act Unit :=
  let i := Instr.vfmin ty wd vd vs1 vs2
  floatLanes i ty wd vd vs1 [vs2] fun _ a b _ => (fmtOfTy ty).minMax false a b

def execVfmin (ty : Ty) (wd : Wd) (vd vs1 vs2 : Reg) (s : State) : Host.Outcome State Fault Refusal :=
  runSeq (.vfmin ty wd vd vs1 vs2) (bodyVfmin ty wd vd vs1 vs2) s

def bodyVfmax (ty : Ty) (wd : Wd) (vd vs1 vs2 : Reg) : Act Unit :=
  let i := Instr.vfmax ty wd vd vs1 vs2
  floatLanes i ty wd vd vs1 [vs2] fun _ a b _ => (fmtOfTy ty).minMax true a b

def execVfmax (ty : Ty) (wd : Wd) (vd vs1 vs2 : Reg) (s : State) : Host.Outcome State Fault Refusal :=
  runSeq (.vfmax ty wd vd vs1 vs2) (bodyVfmax ty wd vd vs1 vs2) s

def bodyVfdiv (ty : Ty) (wd : Wd) (vd vs1 vs2 : Reg) : Act Unit :=
  let i := Instr.vfdiv ty wd vd vs1 vs2
  let f := fmtOfTy ty
  floatLanes i ty wd vd vs1 [vs2] fun rm a b _ => f.divV rm (f.decode a) (f.decode b)

def execVfdiv (ty : Ty) (wd : Wd) (vd vs1 vs2 : Reg) (s : State) : Host.Outcome State Fault Refusal :=
  runSeq (.vfdiv ty wd vd vs1 vs2) (bodyVfdiv ty wd vd vs1 vs2) s

def bodyVfrsq (ty : Ty) (wd : Wd) (vd vs1 : Reg) : Act Unit :=
  let i := Instr.vfrsq ty wd vd vs1
  let f := fmtOfTy ty
  floatLanes i ty wd vd vs1 [] fun rm a _ _ => f.rsqrtV rm (f.decode a)

def execVfrsq (ty : Ty) (wd : Wd) (vd vs1 : Reg) (s : State) : Host.Outcome State Fault Refusal :=
  runSeq (.vfrsq ty wd vd vs1) (bodyVfrsq ty wd vd vs1) s

def bodyVfexp2 (ty : Ty) (wd : Wd) (vd vs1 : Reg) : Act Unit :=
  let i := Instr.vfexp2 ty wd vd vs1
  let f := fmtOfTy ty
  floatLanes i ty wd vd vs1 [] fun rm a _ _ => f.exp2V rm (f.decode a)

def execVfexp2 (ty : Ty) (wd : Wd) (vd vs1 : Reg) (s : State) : Host.Outcome State Fault Refusal :=
  runSeq (.vfexp2 ty wd vd vs1) (bodyVfexp2 ty wd vd vs1) s

/-- NV of an ordering comparison: any NaN sets it (R367). -/
def orderFlags (a b : FVal) : Flg := if a.isNan || b.isNan then flagNV else 0

def bodyVfcmpeq (ty : Ty) (wd : Wd) (vd vs1 vs2 : Reg) : Act Unit :=
  let i := Instr.vfcmpeq ty wd vd vs1 vs2
  let f := fmtOfTy ty
  floatLanes i ty wd vd vs1 [vs2] fun _ a b _ =>
    (maskLane ty ((f.decode a).eqv (f.decode b)), nanFlags [f.decode a, f.decode b])

def execVfcmpeq (ty : Ty) (wd : Wd) (vd vs1 vs2 : Reg) (s : State) : Host.Outcome State Fault Refusal :=
  runSeq (.vfcmpeq ty wd vd vs1 vs2) (bodyVfcmpeq ty wd vd vs1 vs2) s

def bodyVfcmplt (ty : Ty) (wd : Wd) (vd vs1 vs2 : Reg) : Act Unit :=
  let i := Instr.vfcmplt ty wd vd vs1 vs2
  let f := fmtOfTy ty
  floatLanes i ty wd vd vs1 [vs2] fun _ a b _ =>
    (maskLane ty ((f.decode a).lt (f.decode b)), orderFlags (f.decode a) (f.decode b))

def execVfcmplt (ty : Ty) (wd : Wd) (vd vs1 vs2 : Reg) (s : State) : Host.Outcome State Fault Refusal :=
  runSeq (.vfcmplt ty wd vd vs1 vs2) (bodyVfcmplt ty wd vd vs1 vs2) s

def bodyVfcmple (ty : Ty) (wd : Wd) (vd vs1 vs2 : Reg) : Act Unit :=
  let i := Instr.vfcmple ty wd vd vs1 vs2
  let f := fmtOfTy ty
  floatLanes i ty wd vd vs1 [vs2] fun _ a b _ =>
    (maskLane ty ((f.decode a).lt (f.decode b) || (f.decode a).eqv (f.decode b)), orderFlags (f.decode a) (f.decode b))

def execVfcmple (ty : Ty) (wd : Wd) (vd vs1 vs2 : Reg) (s : State) : Host.Outcome State Fault Refusal :=
  runSeq (.vfcmple ty wd vd vs1 vs2) (bodyVfcmple ty wd vd vs1 vs2) s

/-! ## Lane movement (R368) -/

def bodyVmovx (ty : Ty) (xd vs1 xi : Reg) : Act Unit :=
  let i := Instr.vmovx ty xd vs1 xi
  guardCtx do
    needReg i ((← getCtx).hasV vs1 1)
    let vs ← readGroups [(vs1, 1)]
    let k := (← getX xi).toNat
    let v := lane (vs.getD 0 0) (laneBits ty) k
    setX xd (if 64 / ty.size ≤ k then 0 else BitVec.ofInt 64 (laneInt ty v))

def execVmovx (ty : Ty) (xd vs1 xi : Reg) (s : State) : Host.Outcome State Fault Refusal :=
  runSeq (.vmovx ty xd vs1 xi) (bodyVmovx ty xd vs1 xi) s

def bodyVsplat (ty : Ty) (wd : Wd) (vd xv : Reg) : Act Unit :=
  let i := Instr.vsplat ty wd vd xv
  guardCtx do
    needReg i ((← getCtx).hasV vd wd.count)
    let x := (← getX xv).toNat
    writeGroup vd wd.count (ofLanes (laneBits ty) (List.replicate (laneCount ty wd) x))

def execVsplat (ty : Ty) (wd : Wd) (vd xv : Reg) (s : State) : Host.Outcome State Fault Refusal :=
  runSeq (.vsplat ty wd vd xv) (bodyVsplat ty wd vd xv) s

/-- VINS (R368): it writes one lane of its vd, which is no operand that it reads (deduced, log 137); an index past the lanes changes nothing. -/
def bodyVins (ty : Ty) (vd xv xi : Reg) : Act Unit :=
  let i := Instr.vins ty vd xv xi
  guardCtx do
    let c ← getCtx
    needReg i (c.hasV vd 1)
    let k := (c.getX xi).toNat
    let n := 64 / ty.size
    if k < n then
      writeGroup vd 1 (ofLanes (laneBits ty) ((lanes (c.getGroup vd 1) (laneBits ty) n).zipIdx.map fun (y, j) =>
        if j = k then (c.getX xv).toNat else y))

def execVins (ty : Ty) (vd xv xi : Reg) (s : State) : Host.Outcome State Fault Refusal :=
  runSeq (.vins ty vd xv xi) (bodyVins ty vd xv xi) s

def bodyVperm (ty : Ty) (wd : Wd) (vd vs1 vs2 : Reg) : Act Unit :=
  let i := Instr.vperm ty wd vd vs1 vs2
  guardCtx do
    let c ← getCtx
    let w := wd.count
    needReg i (c.hasV vd w && c.hasV vs1 w && c.hasV vs2 w)
    let vs ← readGroups [(vs1, w), (vs2, w)]
    let b := laneBits ty
    let n := laneCount ty wd
    writeGroup vd w (ofLanes b ((lanes (vs.getD 1 0) b n).map fun j => lane (vs.getD 0 0) b (j % n)))

def execVperm (ty : Ty) (wd : Wd) (vd vs1 vs2 : Reg) (s : State) : Host.Outcome State Fault Refusal :=
  runSeq (.vperm ty wd vd vs1 vs2) (bodyVperm ty wd vd vs1 vs2) s

def bodyVslide (ty : Ty) (wd : Wd) (vd vs1 xa : Reg) : Act Unit :=
  let i := Instr.vslide ty wd vd vs1 xa
  guardCtx do
    let c ← getCtx
    let w := wd.count
    needReg i (c.hasV vd w && c.hasV vs1 w)
    let vs ← readGroups [(vs1, w)]
    let b := laneBits ty
    let n := laneCount ty wd
    let a := (← getX xa).toInt
    writeGroup vd w (ofLanes b ((List.range n).map fun (j : Nat) =>
      let k := (j : Int) + a
      if 0 ≤ k ∧ k < n then lane (vs.getD 0 0) b k.toNat else 0))

def execVslide (ty : Ty) (wd : Wd) (vd vs1 xa : Reg) (s : State) : Host.Outcome State Fault Refusal :=
  runSeq (.vslide ty wd vd vs1 xa) (bodyVslide ty wd vd vs1 xa) s

def bodyVcompr (ty : Ty) (wd : Wd) (vd vs1 vs2 : Reg) : Act Unit :=
  let i := Instr.vcompr ty wd vd vs1 vs2
  guardCtx do
    let c ← getCtx
    let w := wd.count
    needReg i (c.hasV vd w && c.hasV vs1 w && c.hasV vs2 w)
    let vs ← readGroups [(vs1, w), (vs2, w)]
    let b := laneBits ty
    let picked := (List.range (laneCount ty wd)).filter fun j => lane (vs.getD 1 0) b j != 0
    writeGroup vd w (ofLanes b (picked.map (lane (vs.getD 0 0) b)))

def execVcompr (ty : Ty) (wd : Wd) (vd vs1 vs2 : Reg) (s : State) : Host.Outcome State Fault Refusal :=
  runSeq (.vcompr ty wd vd vs1 vs2) (bodyVcompr ty wd vd vs1 vs2) s

def bodyVpopc (ty : Ty) (wd : Wd) (xd vs1 : Reg) : Act Unit :=
  let i := Instr.vpopc ty wd xd vs1
  guardCtx do
    needReg i ((← getCtx).hasV vs1 wd.count)
    let vs ← readGroups [(vs1, wd.count)]
    let set := (lanes (vs.getD 0 0) (laneBits ty) (laneCount ty wd)).filter fun x => x != 0
    setX xd (BitVec.ofNat 64 set.length)

def execVpopc (ty : Ty) (wd : Wd) (xd vs1 : Reg) (s : State) : Host.Outcome State Fault Refusal :=
  runSeq (.vpopc ty wd xd vs1) (bodyVpopc ty wd xd vs1) s

/-! ## Reduction, scan and conversion (R369 to R371) -/

/-- One addition of VRED or VSCAN, with its flags (R369). -/
def addLane (ty : Ty) (rm : Rm) (a b : Nat) : Nat × Flg :=
  if ty.isFloat then (fmtOfTy ty).addV rm ((fmtOfTy ty).decode a) ((fmtOfTy ty).decode b) else ((a + b) % 2 ^ laneBits ty, 0)

/-- One level of VredTree: neighbours added. -/
def redLevel (ty : Ty) (rm : Rm) : List Nat → List Nat × Flg
  | a :: b :: xs =>
    let r := addLane ty rm a b
    let t := redLevel ty rm xs
    (r.1 :: t.1, r.2 ||| t.2)
  | xs => (xs, 0)

/-- VredTree (R56). -/
def redTree (ty : Ty) (rm : Rm) : Nat → List Nat → Nat × Flg
  | 0, xs => (xs.headD 0, 0)
  | k + 1, xs =>
    if xs.length ≤ 1 then (xs.headD 0, 0)
    else
      let l := redLevel ty rm xs
      let r := redTree ty rm k l.1
      (r.1, l.2 ||| r.2)

/-- One step of VscanSteps at distance d. -/
def scanStep (ty : Ty) (rm : Rm) (d : Nat) (ys : List Nat) : List Nat × Flg :=
  let sums := (ys.zip (ys.drop d)).map fun (a, b) => addLane ty rm a b
  (ys.take d ++ sums.map (·.1), sums.foldl (fun f x => f ||| x.2) 0)

/-- VscanSteps (R56) from distance d on. -/
def scanFrom (ty : Ty) (rm : Rm) : Nat → Nat → List Nat → List Nat × Flg
  | 0, _, ys => (ys, 0)
  | k + 1, d, ys =>
    if ys.length ≤ d then (ys, 0)
    else
      let l := scanStep ty rm d ys
      let r := scanFrom ty rm k (2 * d) l.1
      (r.1, l.2 ||| r.2)

def bodyVred (ty : Ty) (wd : Wd) (vd vs1 : Reg) : Act Unit :=
  let i := Instr.vred ty wd vd vs1
  guardCtx do
    let c ← getCtx
    needReg i (c.hasV vd 1 && c.hasV vs1 wd.count)
    let vs ← readGroups [(vs1, wd.count)]
    let r := redTree ty c.rm 10 (lanes (vs.getD 0 0) (laneBits ty) (laneCount ty wd))
    writeGroup vd 1 r.1
    modCtx fun c => c.orFlags r.2

def execVred (ty : Ty) (wd : Wd) (vd vs1 : Reg) (s : State) : Host.Outcome State Fault Refusal :=
  runSeq (.vred ty wd vd vs1) (bodyVred ty wd vd vs1) s

def bodyVscan (ty : Ty) (wd : Wd) (vd vs1 : Reg) : Act Unit :=
  let i := Instr.vscan ty wd vd vs1
  guardCtx do
    let c ← getCtx
    needReg i (c.hasV vd wd.count && c.hasV vs1 wd.count)
    let vs ← readGroups [(vs1, wd.count)]
    let r := scanFrom ty c.rm 10 1 (lanes (vs.getD 0 0) (laneBits ty) (laneCount ty wd))
    writeGroup vd wd.count (ofLanes (laneBits ty) r.1)
    modCtx fun c => c.orFlags r.2

def execVscan (ty : Ty) (wd : Wd) (vd vs1 : Reg) (s : State) : Host.Outcome State Fault Refusal :=
  runSeq (.vscan ty wd vd vs1) (bodyVscan ty wd vd vs1) s

/-- A float lane to an integer type (R370): NaN gives 0, and a value out of range saturates, both with NV. -/
def floatToInt (td : Ty) (rm : Rm) (a : FVal) : Nat × Flg :=
  match a with
  | .nan _ => (0, flagNV)
  | .inf neg => (wrapLane td (if neg then tyMin td else tyMax td), flagNV)
  | .fin neg m e =>
    let (v, ix) := roundInt rm neg m e false
    if v < tyMin td ∨ tyMax td < v then (satLane td v, flagNV) else (wrapLane td v, if ix then flagNX else 0)

/-- One lane of VCVT (R370). -/
def convertLane (ty td : Ty) (rm : Rm) (x : Nat) : Nat × Flg :=
  if ty.isFloat then
    let a := (fmtOfTy ty).decode x
    if td.isFloat then
      if ty = td then (if a.isNan then (fmtOfTy ty).qnan else x, nanFlags [a]) else (fmtOfTy td).convert rm a
    else floatToInt td rm a
  else if td.isFloat then (fmtOfTy td).ofInt rm (laneInt ty x)
  else (satLane td (laneInt ty x), 0)

def bodyVcvt (ty : Ty) (wd : Wd) (vd vs1 : Reg) (td : Ty) : Act Unit :=
  let i := Instr.vcvt ty wd vd vs1 td
  guardCtx do
    let c ← getCtx
    let w := derivedWidth wd.count td.size ty.size
    needReg i (c.hasV vd w && c.hasV vs1 wd.count)
    let vs ← readGroups [(vs1, wd.count)]
    let out := (lanes (vs.getD 0 0) (laneBits ty) (laneCount ty wd)).map (convertLane ty td c.rm)
    writeGroup vd w (ofLanes (laneBits td) (out.map (·.1)))
    modCtx fun c => c.orFlags (out.foldl (fun f x => f ||| x.2) 0)

def execVcvt (ty : Ty) (wd : Wd) (vd vs1 : Reg) (td : Ty) (s : State) : Host.Outcome State Fault Refusal :=
  runSeq (.vcvt ty wd vd vs1 td) (bodyVcvt ty wd vd vs1 td) s

/-- One element of VQNT with scale σ (R371). -/
def quantLane (rm : Rm) (scale x : FVal) : Int × Flg :=
  match scale with
  | .nan _ => (0, flagNV)
  | .inf _ => (0, flagNV)
  | .fin n2 m2 e2 =>
    if n2 ∨ m2 = 0 then (0, flagNV)
    else match x with
      | .nan _ => (0, flagNV)
      | .inf neg => (if neg then -127 else 127, flagNV)
      | .fin n1 m1 e1 =>
        let (t, ix) := quotientInt rm n1 m1 e1 n2 m2 e2
        if t < -127 ∨ 127 < t then (clampInt t (-127) 127, flagNV) else (t, if ix then flagNX else 0)

def bodyVqnt (ty : Ty) (wd : Wd) (vd vs1 vs2 : Reg) : Act Unit :=
  let i := Instr.vqnt ty wd vd vs1 vs2
  guardCtx do
    let c ← getCtx
    let w := derivedWidth wd.count 1 ty.size
    needReg i (c.hasV vd w && c.hasV vs1 wd.count && c.hasV vs2 1)
    let vs ← readGroups [(vs1, wd.count), (vs2, 1)]
    let f := fmtOfTy ty
    let out := (lanes (vs.getD 0 0) (laneBits ty) (laneCount ty wd)).zipIdx.map fun (x, j) =>
      quantLane c.rm (fmtSF.decode (lane (vs.getD 1 0) 32 (j / 64))) (f.decode x)
    writeGroup vd w (ofLanes 8 (out.map fun x => (x.1 % 256).toNat))
    modCtx fun c => c.orFlags (out.foldl (fun f x => f ||| x.2) 0)

def execVqnt (ty : Ty) (wd : Wd) (vd vs1 vs2 : Reg) (s : State) : Host.Outcome State Fault Refusal :=
  runSeq (.vqnt ty wd vd vs1 vs2) (bodyVqnt ty wd vd vs1 vs2) s

end Sys2Proof.Machine
end

