-- ==== Sys2Proof/Machine/Frame.lean ====
section
/-!
DEFINITION. Repeat frames (spec 15 R377 to R381).
-/

namespace Sys2Proof.Machine

/-- What a captured instruction does, or none where it is outside the capture set (R378). -/
def capturedBody (i : Instr) : Option (Act Unit) :=
  match i with
  | .add rd rs1 rs2 => some (bodyAdd rd rs1 rs2)
  | .sub rd rs1 rs2 => some (bodySub rd rs1 rs2)
  | .and rd rs1 rs2 => some (bodyAnd rd rs1 rs2)
  | .or rd rs1 rs2 => some (bodyOr rd rs1 rs2)
  | .xor rd rs1 rs2 => some (bodyXor rd rs1 rs2)
  | .andn rd rs1 rs2 => some (bodyAndn rd rs1 rs2)
  | .orn rd rs1 rs2 => some (bodyOrn rd rs1 rs2)
  | .sll rd rs1 rs2 => some (bodySll rd rs1 rs2)
  | .srl rd rs1 rs2 => some (bodySrl rd rs1 rs2)
  | .sra rd rs1 rs2 => some (bodySra rd rs1 rs2)
  | .slli rd rs1 sh => some (bodySlli rd rs1 sh)
  | .srli rd rs1 sh => some (bodySrli rd rs1 sh)
  | .srai rd rs1 sh => some (bodySrai rd rs1 sh)
  | .slt rd rs1 rs2 => some (bodySlt rd rs1 rs2)
  | .sltu rd rs1 rs2 => some (bodySltu rd rs1 rs2)
  | .min rd rs1 rs2 => some (bodyMin rd rs1 rs2)
  | .max rd rs1 rs2 => some (bodyMax rd rs1 rs2)
  | .minu rd rs1 rs2 => some (bodyMinu rd rs1 rs2)
  | .maxu rd rs1 rs2 => some (bodyMaxu rd rs1 rs2)
  | .mul rd rs1 rs2 => some (bodyMul rd rs1 rs2)
  | .mulh rd rs1 rs2 => some (bodyMulh rd rs1 rs2)
  | .mulhu rd rs1 rs2 => some (bodyMulhu rd rs1 rs2)
  | .div rd rs1 rs2 => some (bodyDiv rd rs1 rs2)
  | .divu rd rs1 rs2 => some (bodyDivu rd rs1 rs2)
  | .rem rd rs1 rs2 => some (bodyRem rd rs1 rs2)
  | .remu rd rs1 rs2 => some (bodyRemu rd rs1 rs2)
  | .clz rd rs1 => some (bodyClz rd rs1)
  | .ctz rd rs1 => some (bodyCtz rd rs1)
  | .popc rd rs1 => some (bodyPopc rd rs1)
  | .sextb rd rs1 => some (bodySextb rd rs1)
  | .sexth rd rs1 => some (bodySexth rd rs1)
  | .sextw rd rs1 => some (bodySextw rd rs1)
  | .zextw rd rs1 => some (bodyZextw rd rs1)
  | .csel rd rs1 rs2 => some (bodyCsel rd rs1 rs2)
  | .ptag rd rs1 rs2 => some (bodyPtag rd rs1 rs2)
  | .pfmt rd rs1 => some (bodyPfmt rd rs1)
  | .pblk rd rs1 => some (bodyPblk rd rs1)
  | .pmesh rd rs1 rs2 => some (bodyPmesh rd rs1 rs2)
  | .addi rd rs1 imm => some (bodyAddi rd rs1 imm)
  | .andi rd rs1 imm => some (bodyAndi rd rs1 imm)
  | .ori rd rs1 imm => some (bodyOri rd rs1 imm)
  | .xori rd rs1 imm => some (bodyXori rd rs1 imm)
  | .slti rd rs1 imm => some (bodySlti rd rs1 imm)
  | .sltiu rd rs1 imm => some (bodySltiu rd rs1 imm)
  | .lui rd imm => some (bodyLui rd imm)
  | .shori rd rs1 imm => some (bodyShori rd rs1 imm)
  | .vadd ty wd vd vs1 vs2 => some (bodyVadd ty wd vd vs1 vs2)
  | .vsub ty wd vd vs1 vs2 => some (bodyVsub ty wd vd vs1 vs2)
  | .vmul ty wd vd vs1 vs2 => some (bodyVmul ty wd vd vs1 vs2)
  | .vmulh ty wd vd vs1 vs2 => some (bodyVmulh ty wd vd vs1 vs2)
  | .vmin ty wd vd vs1 vs2 => some (bodyVmin ty wd vd vs1 vs2)
  | .vmax ty wd vd vs1 vs2 => some (bodyVmax ty wd vd vs1 vs2)
  | .vand ty wd vd vs1 vs2 => some (bodyVand ty wd vd vs1 vs2)
  | .vor ty wd vd vs1 vs2 => some (bodyVor ty wd vd vs1 vs2)
  | .vxor ty wd vd vs1 vs2 => some (bodyVxor ty wd vd vs1 vs2)
  | .vshl ty wd vd vs1 vs2 => some (bodyVshl ty wd vd vs1 vs2)
  | .vshr ty wd vd vs1 vs2 => some (bodyVshr ty wd vd vs1 vs2)
  | .vsra ty wd vd vs1 vs2 => some (bodyVsra ty wd vd vs1 vs2)
  | .vabs ty wd vd vs1 => some (bodyVabs ty wd vd vs1)
  | .vadds ty wd vd vs1 vs2 => some (bodyVadds ty wd vd vs1 vs2)
  | .vsubs ty wd vd vs1 vs2 => some (bodyVsubs ty wd vd vs1 vs2)
  | .vcmpeq ty wd vd vs1 vs2 => some (bodyVcmpeq ty wd vd vs1 vs2)
  | .vcmplt ty wd vd vs1 vs2 => some (bodyVcmplt ty wd vd vs1 vs2)
  | .vcmple ty wd vd vs1 vs2 => some (bodyVcmple ty wd vd vs1 vs2)
  | .vsel ty wd vd vs1 vs2 => some (bodyVsel ty wd vd vs1 vs2)
  | .vfadd ty wd vd vs1 vs2 => some (bodyVfadd ty wd vd vs1 vs2)
  | .vfsub ty wd vd vs1 vs2 => some (bodyVfsub ty wd vd vs1 vs2)
  | .vfmul ty wd vd vs1 vs2 => some (bodyVfmul ty wd vd vs1 vs2)
  | .vfma ty wd vd vs1 vs2 => some (bodyVfma ty wd vd vs1 vs2)
  | .vfnma ty wd vd vs1 vs2 => some (bodyVfnma ty wd vd vs1 vs2)
  | .vfmin ty wd vd vs1 vs2 => some (bodyVfmin ty wd vd vs1 vs2)
  | .vfmax ty wd vd vs1 vs2 => some (bodyVfmax ty wd vd vs1 vs2)
  | .vfdiv ty wd vd vs1 vs2 => some (bodyVfdiv ty wd vd vs1 vs2)
  | .vfrsq ty wd vd vs1 => some (bodyVfrsq ty wd vd vs1)
  | .vfexp2 ty wd vd vs1 => some (bodyVfexp2 ty wd vd vs1)
  | .vfcmpeq ty wd vd vs1 vs2 => some (bodyVfcmpeq ty wd vd vs1 vs2)
  | .vfcmplt ty wd vd vs1 vs2 => some (bodyVfcmplt ty wd vd vs1 vs2)
  | .vfcmple ty wd vd vs1 vs2 => some (bodyVfcmple ty wd vd vs1 vs2)
  | .vmovx ty xd vs1 xi => some (bodyVmovx ty xd vs1 xi)
  | .vsplat ty wd vd xv => some (bodyVsplat ty wd vd xv)
  | .vins ty vd xv xi => some (bodyVins ty vd xv xi)
  | .vperm ty wd vd vs1 vs2 => some (bodyVperm ty wd vd vs1 vs2)
  | .vslide ty wd vd vs1 xa => some (bodyVslide ty wd vd vs1 xa)
  | .vred ty wd vd vs1 => some (bodyVred ty wd vd vs1)
  | .vscan ty wd vd vs1 => some (bodyVscan ty wd vd vs1)
  | .vcvt ty wd vd vs1 td => some (bodyVcvt ty wd vd vs1 td)
  | .vqnt ty wd vd vs1 vs2 => some (bodyVqnt ty wd vd vs1 vs2)
  | .vcompr ty wd vd vs1 vs2 => some (bodyVcompr ty wd vd vs1 vs2)
  | .vpopc ty wd xd vs1 => some (bodyVpopc ty wd xd vs1)
  | .bgen bd vp g len => some (bodyBgen bd vp g len)
  | .band bd bs1 bs2 cor => some (bodyBand bd bs1 bs2 cor)
  | .bxnor bd bs1 bs2 cor => some (bodyBxnor bd bs1 bs2 cor)
  | .bmux bd bs1 bs2 bsel cor => some (bodyBmux bd bs1 bs2 bsel cor)
  | .bnot bd bs => some (bodyBnot bd bs)
  | .bcnt xd bs => some (bodyBcnt xd bs)
  | .bregen bd bs g => some (bodyBregen bd bs g)
  | .bcls xd bs => some (bodyBcls xd bs)
  | .bmov bd bs => some (bodyBmov bd bs)
  | _ => none

/-- Whether a word is in the capture set. -/
def isCaptured (w : IWord) : Bool :=
  match decode w with
  | none => false
  | some i => (capturedBody i).isSome

/-- The lowest bit of the three fields that MASK names, from bit 2 down (R377). -/
def staggerLow (k : Nat) : Nat := if k = 2 then 21 else if k = 1 then 16 else 11

/-- One field of a word moved by a distance, or none where it leaves 0..31 (R379). -/
def staggerField (d : Int) (w : IWord) (k : Nat) : Option IWord :=
  let v := (field w (staggerLow k) 5 : Int) + d
  if 0 ≤ v ∧ v ≤ 31 then
    some ((w &&& ~~~(0x1F#32 <<< staggerLow k)) ||| (BitVec.ofNat 32 v.toNat <<< staggerLow k))
  else none

/-- A captured word as replay r executes it (R379). -/
def staggered (w : IWord) (mask : BitVec 3) (stride : Int) (r : Nat) : Option IWord :=
  [0, 1, 2].foldl (fun acc k => match acc with
    | none => none
    | some w => if mask.getLsbD k then staggerField (r * stride) w k else some w) (some w)

/-- KINFO of FRAME_ILLEGAL: at capture, and at a replay (R238). -/
def frameInfo (replay : Bool) (slot r : Nat) : Word := BitVec.ofNat 64 ((if replay then 2 ^ 63 else 0) + slot * 2 ^ 16 + r)

/-- The words of a frame: those after the REPF, or, at an attached member, those that came with the stream (R378, R381). -/
def captureWords (len : Nat) : Act (List IWord) := do
  let s ← get
  let attached := match s.core.link with
    | none => none
    | some l => if s.core.inStream && s.ctx.gangMode == 2 then s.entryFor l else none
  match attached with
  | some e => modCore fun c => { c with captured := e.frame }
  | none =>
    modCore fun c => { c with captured := [] }
    (List.range len).forM fun i => do
      let w ← liftChk (fetchWord (s.ctx.pc + BitVec.ofNat 64 (4 + 4 * i)))
      modCore fun c => { c with captured := c.captured ++ [w] }
  return (← get).core.captured

/-- The slot of the first word of a frame that is outside the capture set, or that the leader could not fetch (R378, log 10). -/
def badSlot (n : Nat) (words : List IWord) : Option Nat :=
  match words.findIdx? fun w => !isCaptured w with
  | some k => some k
  | none => if words.length < n then some words.length else none

/-- One slot of a replay: a trap in it ends the frame, after which a return continues (R380); a wait keeps what is done. -/
def frameSlot (after : Word) (at' : FrameAt) (word : Option IWord) : Act Unit := fun s =>
  let illegal : EStateM.Result Stop State Unit := .error (.trap cFrameIllegal (frameInfo true at'.slot at'.replay) (.to after)) s
  match word.bind decode with
  | none => illegal
  | some i =>
    match capturedBody i with
    | none => illegal
    | some body =>
      let wait (t : State) : EStateM.Result Stop State Unit :=
        .error (.hold .completes) (t.modCore fun c => { c with frame := some at' })
      if s.interlocked i then wait s
      else match body s with
        | .ok a t => .ok a (t.modCore fun c => { c with arrived := [], passed := [] })
        | .error (.trap n info _) t => .error (.trap n info (.to after)) t
        | .error (.hold _) t => wait t

/-- A leader issues a frame to the stream as it begins: it goes on where the frame ends (R193, R381). -/
def issueFrame (i : Instr) (last : Word) : Act Unit := do
  let s ← get
  match s.core.link with
  | none => return ()
  | some l =>
    if s.core.inStream && s.ctx.gangMode == 1 then
      modify fun s => s.modGang l.gang fun g =>
        g.issue l.pos s.ctx.pc (wordOf i) s.core.captured (({ s.ctx with pc := last } : Ctx).retire .seq).pc false

/-- In a stream, each captured instruction of each replay takes a stream cycle: the core does the next one in its next slot (R381, log 110). While its
gang is being pre-empted, it goes on at once: its PREEMPT is taken when the frame has ended (R380, log 118). -/
def frameCycle (at' : FrameAt) : Act Unit := do
  let s ← get
  match s.core.link with
  | none => return ()
  | some l =>
    if s.core.inStream && !((s.gang? l.gang).any fun g => g.parking) then
      modCore fun c => { c with frame := some at' }
      modify fun s => (s.modGang l.gang fun g => g.modMember l.pos fun m => { m with slotDone := true }).gangTick l.gang
      holdFor .completes

/-- The replays of a frame from one point on: what is left of a replay, then the next (R379). -/
def frameFrom (words : List IWord) (mask : BitVec 3) (stride : Int) (after : Word) (count : Nat) : Nat → Nat → Nat → Act Unit
  | 0, _, _ => return ()
  | fuel + 1, r, slot => do
    if r < count then
      match words[slot]? with
      | none => frameFrom words mask stride after count fuel (r + 1) 0
      | some w =>
        frameSlot after { count := count, replay := r, slot := slot } (staggered w mask stride r)
        if slot + 1 < words.length then frameCycle { count := count, replay := r, slot := slot + 1 }
        else if r + 1 < count then frameCycle { count := count, replay := r + 1, slot := 0 }
        frameFrom words mask stride after count fuel r (slot + 1)

/-- A trap ends a frame: nothing of it goes on (R380). -/
def endsFrame (body : Act Unit) : Act Unit := fun s =>
  match body s with
  | .ok a t => .ok a (t.modCore fun c => { c with frame := none })
  | .error (.trap n info r) t => .error (.trap n info r) (t.modCore fun c => { c with frame := none })
  | .error e t => .error e t

def execRepf (len : BitVec 4) (ci : Bool) (cnt : BitVec 5) (stride : BitVec 4) (mask : BitVec 3) (s : State) :
    Host.Outcome State Fault Refusal :=
  let i := Instr.repf len ci cnt stride mask
  runSeq i (endsFrame do
    let n := len.toNat + 1
    let s ← get
    let last := s.ctx.pc + BitVec.ofNat 64 (4 * n)
    let go ← match s.core.frame with
      | some f => pure f
      | none => do
        let words ← captureWords n
        match badSlot n words with
        | some k => trap cFrameIllegal (frameInfo false k 0)
        | none =>
          let x ← getX cnt
          let count := if ci then cnt.toNat else bits x 0 16
          if 0 < count then issueFrame i last
          pure { count := count, replay := 0, slot := 0 : FrameAt }
    let words := (← get).core.captured
    frameFrom words mask stride.toInt (last + 4) go.count ((go.count - go.replay) * (n + 1) + 1) go.replay go.slot
    modCtx fun c => { c with pc := last }) s

end Sys2Proof.Machine
end

