-- ==== Sys2Proof/Machine/Context.lean ====
section
/-!
DEFINITION. Contexts and their images (spec 03 R59 to R69, R76, R77): what a workspace holds, write-back and activation, and WSWAP (04 R112,
05 R123, R136, 06 R153, 08 R202, R203, 10 R244 to R249, 13 R325).
-/

namespace Sys2Proof.Machine

/-! ## The workspace (R64) and the accumulator storage (R66) -/

/-- KIND's code in a stream descriptor (R138). -/
def kindCode : StreamKind → Nat
  | .denseRead => 0 | .denseWrite => 1 | .line => 2 | .list => 3

def kindOfCode (n : Nat) : StreamKind := if n = 0 then .denseRead else if n = 1 then .denseWrite else if n = 2 then .line else .list

/-- The eight words of a stream descriptor (R138). -/
def StreamDesc.words (d : StreamDesc) : List Word :=
  [d.val, d.coord, d.pos, d.limit, BitVec.ofNat 64 (kindCode d.kind + if d.bound then 4 else 0), 0, 0, 0]

/-- A stream descriptor from its words. -/
def StreamDesc.ofWords (w : Nat → Word) : StreamDesc :=
  { val := w 0, coord := w 1, pos := w 2, limit := w 3, kind := kindOfCode (bits (w 4) 0 2), bound := bit (w 4) 2 }

/-- The metadata halfword of a bit-stream register (R64). -/
def BReg.meta (b : BReg) : Nat := b.mask.toNat + b.len.toNat * 256

/-- The control area (R64). -/
def Ctx.controlWords (c : Ctx) (resume status : Word) : List Word :=
  [resume, status, c.lcount0, c.lstart0, c.lend0, c.lcount1, c.lstart1, c.lend1, c.mtmask.setWidth 64, c.rprog,
    BitVec.ofNat 64 (c.gang.toNat + c.evEn.toNat * 2 ^ 32 + c.evPend.toNat * 2 ^ 40 + c.fstat.toNat * 2 ^ 48),
    c.ppw, c.dealpat, c.tagrdy, c.tagerr, c.wuid, c.mon, c.gptr, c.rrt, c.opd] ++ c.src.toList ++
    (List.range 4).map fun i => BitVec.ofNat 64 (ofLanes 16 ((List.range 4).map fun k => (c.getB (BitVec.ofNat 4 (4 * i + k))).meta))

/-- The bytes of a workspace, in order (R64). -/
def Ctx.workspace (c : Ctx) (resume status : Word) : List Byte :=
  wordBytes ((List.range 32).map fun n => c.getX (BitVec.ofNat 5 n))
    ++ wordBytes (c.controlWords resume status)
    ++ wordBytes ((List.range 4).flatMap fun i => (c.getSd (BitVec.ofNat 2 i)).words)
    ++ List.replicate 256 0
    ++ ((List.range (vregsAllocated c.vregs)).flatMap fun n => leBytes 64 (c.getV n).toNat)
    ++ ((List.range c.bregs).flatMap fun n => leBytes 512 (c.getB (BitVec.ofNat 4 n)).bits.toNat)

/-- The 72-byte slot of a weight tile's column: its block for the tile's plane count, and zero bytes (R66). -/
def Ctx.columnSlot (c : Ctx) (j n : Nat) : List Byte :=
  let block := (leBytes 72 (lane (c.getWt j).toNat 576 n)).take (8 + 8 * c.getWtPlanes j)
  block ++ List.replicate (72 - block.length) 0

/-- The bytes of the tiles (R66): the accumulator tiles, then the weight tiles. -/
def Ctx.tileBytes (c : Ctx) : List Byte :=
  ((List.range (ppwAcn c.ppw)).flatMap fun j => leBytes 16384 (c.getAc j).toNat)
    ++ (List.range (ppwWtn c.ppw)).flatMap fun j => (List.range 64).flatMap (c.columnSlot j)

/-- The offset of the matrix save area in the pool (R244). -/
def saveArea (p : Word) : Nat := ppwAcBase p * 4096 + 16384 * ppwAcn p + 4608 * ppwWtn p

/-- The sixty-four bytes of a saved command (R389). -/
def MtxRecord.bytes (r : MtxRecord) : List Byte := wordBytes [r.word.setWidth 64, r.bval, r.cval, r.state, r.faddr, 0, 0, 0]

/-- Writes the matrix save area, where the context has one (R244, R394). -/
def State.writeSaveArea (s : State) (core : Nat) (c : Ctx) : State :=
  if ppwWtn c.ppw = 0 then s
  else
    let a := poolKey core (saveArea c.ppw)
    let s := s.poke a (leBytes 1 c.mtxSaved.length)
    let s := s.poke (a + 4) c.wtPlanes.toList
    s.poke (a + 64) (c.mtxSaved.flatMap MtxRecord.bytes)

/-- Write-back of a context to its backing image (R68): every byte that R64 and R66 define, and the matrix save area. -/
def State.writeBack (s : State) (core : Nat) (wp : BitVec 19) (c : Ctx) (status : Word) : State :=
  let s := s.poke (poolKey core wp.toNat) (c.workspace c.pc status)
  let s := s.poke (poolKey core (ppwAcBase c.ppw * 4096)) c.tileBytes
  s.writeSaveArea core c

/-- A saved command read from the save area. -/
def MtxRecord.ofBytes (bs : List Byte) : MtxRecord :=
  { word := (wordAt bs 0).setWidth 32, bval := wordAt bs 1, cval := wordAt bs 2, state := wordAt bs 3, faddr := wordAt bs 4 }

/-- The monitor as activation leaves it: armed on its line, and the next MWAIT returns at once (R179). -/
def Ctx.rearm (c : Ctx) : Ctx := { c with monLine := none, monHit := bit c.mon 0 }

/-- GANG as an image holds it: an independent context's reads as R186 says. -/
def imageGang (w : Word) : BitVec 24 := if bits w 12 2 = 0 then gangIndependent else w.setWidth 24

/-- The operator descriptor as an image holds it, without its reserved bits (R405). -/
def imageOpd (w : Word) : Word := w &&& 0x0007FFFF00FF0FFF

/-- What activation reads from a backing image (R64, R66, R68): the context and its status. A reserved rounding mode in it is read as RNE (log
111). -/
def State.readImage (s : State) (core : Nat) (wp : BitVec 19) (vregs bregs : Nat) (lnum : BitVec 12) : Ctx × Word :=
  let at8 (off : Nat) : Word := BitVec.ofNat 64 (s.peekNat (poolKey core (wp.toNat + off)) 8)
  let ctl (i : Nat) : Word := at8 (0x100 + 8 * i)
  let ppw := ctl 11
  let va := vregsAllocated vregs
  let ac := poolKey core (ppwAcBase ppw * 4096)
  let wt := ac + 16384 * ppwAcn ppw
  let area := poolKey core (saveArea ppw)
  let hasArea := ppwWtn ppw != 0
  let saved := if hasArea then min 31 (s.peekNat area 1) else 0
  let halves (n : Nat) : Nat := s.peekNat (poolKey core (wp.toNat + 0x1E0 + 2 * n)) 2
  let breg (n : Nat) : BReg :=
    BReg.of (if n < bregs then s.peekNat (poolKey core (wp.toNat + 0x400 + 64 * va + 512 * n)) 512 else 0)
      (BitVec.ofNat 2 (halves n / 256)) (BitVec.ofNat 8 (halves n))
  let c := Ctx.blank vregs bregs (ppwAcn ppw) (ppwWtn ppw)
  ({ c with
      x := Vector.ofFn fun n => if n.val = 0 then 0 else at8 (8 * n.val)
      v := Vector.ofFn fun n => if n.val < va then BitVec.ofNat 512 (s.peekNat (poolKey core (wp.toNat + 0x400 + 64 * n.val)) 64) else 0
      b := Vector.ofFn fun n => breg n.val
      ac := Vector.ofFn fun n => if n.val < ppwAcn ppw then BitVec.ofNat 131072 (s.peekNat (ac + 16384 * n.val) 16384) else 0
      wt := Vector.ofFn fun n => if n.val < ppwWtn ppw then BitVec.ofNat 36864 (s.peekNat (wt + 4608 * n.val) 4608) else 0
      wtPlanes := Vector.ofFn fun n => if hasArea then BitVec.ofNat 8 (s.peekNat (area + 4 + n.val) 1) else 0
      mtxSaved := (List.range saved).map fun i => MtxRecord.ofBytes (s.peek (area + 64 + 64 * i) 64)
      pc := keepLow (ctl 0) 48
      lcount0 := ctl 2, lstart0 := ctl 3 &&& addrField, lend0 := ctl 4 &&& addrField
      lcount1 := ctl 5, lstart1 := ctl 6 &&& addrField, lend1 := ctl 7 &&& addrField
      mtmask := (ctl 8).setWidth 32
      rprog := ctl 9 &&& csrRw 0x00A
      gang := imageGang (ctl 10)
      evEn := BitVec.ofNat 8 (bits (ctl 10) 32 8), evPend := BitVec.ofNat 8 (bits (ctl 10) 40 8)
      fstat := fstatWrite 0 (BitVec.ofNat 9 (bits (ctl 10) 48 9))
      ppw := ppw
      dealpat := ctl 12 &&& csrRw 0x00B
      tagrdy := ctl 13, tagerr := ctl 14, wuid := ctl 15, mon := ctl 16
      gptr := ctl 17, rrt := ctl 18, opd := imageOpd (ctl 19)
      src := Vector.ofFn fun n => ctl (20 + n.val)
      sd := Vector.ofFn fun n => StreamDesc.ofWords fun i => at8 (0x200 + 64 * n.val + 8 * i)
      lnum := lnum }, ctl 1)

/-! ## Queues and messages of a context that leaves or enters (R123, R153, R248) -/

/-- The queue save block of a context buffer: offset, elements (R123). -/
def queueBlock (base : Nat) : Nat := base + 0x1000

/-- Whether a result queue of a context holds an element. -/
def Ctx.holdsElements (c : Ctx) : Bool := !c.q1.isEmpty || !c.q3.isEmpty || !c.q5.isEmpty || !c.q6.isEmpty

/-- The receive buffer of the active context moves into the context buffer at a base, ahead of what that holds (R248). -/
def State.spillMessages (s : State) (base : Nat) : State :=
  let s := if s.ctx.rbuf.isEmpty then s
    else (s.meetMessages base (s.bufferCount base)).bufferStore base (s.ctx.rbuf ++ s.bufferLoad base)
  s.modCtx fun c => { c with rbuf := [] }

/-- The result queues of the active context move into the queue save block at a context buffer's base (R123). -/
def State.spillQueues (s : State) (base : Nat) : State :=
  let c := s.ctx
  let q := queueBlock base
  let s := if c.holdsElements then
      let s := ((s.poke q (wordBytes c.q1)).poke (q + 0x200) (wordBytes c.q3)).poke (q + 0x280) (wordBytes c.q5)
      let s := s.poke (q + 0x300) (wordBytes c.q6)
      s.poke (q + 0x380) (([c.q1, c.q3, c.q5, c.q6].map fun l => BitVec.ofNat 8 l.length) ++ List.replicate 124 0)
    else s
  s.modCtx fun c => { c with q1 := [], q3 := [], q5 := [], q6 := [] }

/-- The result queues of the active context are refilled from the block that KCTXB names for it, whose counts become zero (R123). -/
def State.refillQueues (s : State) : State :=
  match s.core.bufferOf s.ctx.lnum with
  | none => s
  | some base =>
    let q := queueBlock base
    let count (i most : Nat) : Nat := min most (s.peekNat (q + 0x380 + i) 1)
    let s := s.meetRange q 0x384
    let elems (off n : Nat) : List Word := (List.range n).map fun i => BitVec.ofNat 64 (s.peekNat (q + off + 8 * i) 8)
    let t := s.modCtx fun c => { c with
      q1 := elems 0 (count 0 64), q3 := elems 0x200 (count 1 16), q5 := elems 0x280 (count 2 16), q6 := elems 0x300 (count 3 16) }
    t.poke (q + 0x380) (List.replicate 4 0)

/-! ## WSWAP (R247 to R249, R325) -/

def kscrShadow (k : Word) : Bool := bit k 63
def kscrNew (k : Word) : Bool := bit k 62
def kscrDrop (k : Word) : Bool := bit k 61
def kscrWp (k : Word) : BitVec 19 := BitVec.ofNat 19 (bits k 10 9 * 1024)

/-- A WSWAP to the current WP: the backing image is brought up to date (R68). -/
def State.selfSwitch (s : State) : Bool :=
  let k := s.core.kscr
  !(kscrShadow k) && !(kscrDrop k) && kscrWp k == s.core.wp

/-- Whether the incoming context is the slot's. -/
def State.fromSlot (s : State) : Bool := kscrShadow s.core.kscr && !(kscrNew s.core.kscr)

/-- The record of the context resident at a WP of the core in focus. -/
def State.residentAt (s : State) (wp : BitVec 19) : Option Resident := s.core.residents.find? fun r => r.wp == wp

/-- The declared counts and the launch number of the context that a backing image at a WP holds; where no launch placed one, counts that the
spec leaves open (R247). -/
def State.declaredAt (s : State) (wp : BitVec 19) : Nat × Nat × BitVec 12 :=
  match s.residentAt wp with
  | some r => (r.vregs, r.bregs, r.lnum)
  | none => (Config.unplacedVregs s.fresh % 33, Config.unplacedBregs s.fresh % 17, 0)

/-- The context whose backing image lies at a WP, its status and the WP. -/
def State.imageAt (s : State) (wp : BitVec 19) : Ctx × Word × BitVec 19 :=
  let (v, b, l) := s.declaredAt wp
  let (c, st) := s.readImage s.core.id wp v b l
  (c, st, wp)

/-- The copy of a context's backing image meets what uncorrectable errors lie in it (R68, R253, log 116). -/
def State.meetImage (s : State) (core : Nat) (wp : BitVec 19) (c : Ctx) : State :=
  (s.meetRange (poolKey core wp.toNat) (workspaceBytes c.vregs c.bregs)).meetRange (poolKey core (ppwAcBase c.ppw * 4096))
    (ppwAcCount c.ppw * 4096)

/-- The context in the shadow slot, its status and its WP. -/
def State.slotContext (s : State) : Option (Ctx × Word × BitVec 19) := s.core.shadow.map fun i => (i.ctx, i.status, i.wp)

/-- The incoming context of a WSWAP that has not begun, its status and its WP: the active one, the slot's, or one in a backing image, which
the slot's occupant may have to be written to first (R76). -/
def State.incoming (s : State) : Option (Ctx × Word × BitVec 19) :=
  if s.selfSwitch then some ({ s.ctx with pc := s.core.kretpc }, s.core.kstat, s.core.wp)
  else if s.fromSlot then s.slotContext
  else
    let wp := kscrWp s.core.kscr
    if kscrShadow s.core.kscr && (s.core.shadow.map fun i => i.wp) == some wp then s.slotContext else some (s.imageAt wp)

/-- Whether the core retains the link state of a context's gang (R203). -/
def Core.retains (k : Core) (c : Ctx) : Bool :=
  c.gangMode == 0 || (match k.link with
    | none => false
    | some l => l.gid == BitVec.ofNat 8 (c.gang.toNat / 2 ^ 16) && l.lnum == c.lnum)

/-- Whether WSWAP moves something of the active context to the context buffer: a switch to itself leaves the result queues (R123, R248). -/
def State.movesEntries (s : State) : Bool :=
  !(kscrDrop s.core.kscr) && (!s.ctx.rbuf.isEmpty || (!s.selfSwitch && s.ctx.holdsElements))

/-- The trap of R248: what the active context holds has no context buffer to go to. -/
def entriesCheck : Act Unit := do
  let s ← get
  if s.movesEntries && (s.core.bufferOf s.ctx.lnum).isNone then trap cAccess s.core.kctxb

/-- The traps of WSWAP, in order, before it has any effect (R203, R247, R248, R61, R68). -/
def wswapChecks : Act Unit := do
  let s ← get
  let k := s.core.kscr
  match s.incoming with
  | none => trap cAccess k
  | some (c, _, wp) =>
    entriesCheck
    if !(ppwActivates c.ppw wp c.vregs c.bregs) then trap cAccess c.ppw
    if !(s.core.retains c) then trapGang 10 0

/-- A core that leaves its context stops at once each engine command that has nothing in hand; the others stop when the chunk or row in hand
is done (R112, R136). -/
def State.suspendIdle (s : State) : State :=
  let s := s.core.dma.foldl (fun s j =>
    if j.stage = .idle ∧ j.failed.isNone ∧ (j.next < j.cmd.chunks ∨ j.started = false) then s.stopDma j 1 0 0 else s) s
  (s.dev.eddy.filter fun j => j.core == s.core.id).foldl (fun s j =>
    if j.failed.isNone ∧ (j.next < j.count ∨ j.started = false) then s.stopEddy j 1 0 0 else s) s

/-- What a context waits for before it leaves its core (R249). -/
def State.mayLeave (s : State) : Bool :=
  s.core.unack == 0 && s.core.dma.isEmpty && !(s.dev.eddy.any fun j => j.core == s.core.id) && s.mtxMayLeave && !s.appendsPending
  && !s.resultsPending

/-- Whether the active context was blocked in a RECV on a channel without an entry when its handler was entered (R225). -/
def State.blockedAt (s : State) (pc : Word) : Bool :=
  match runChk (fetchWord pc) s with
  | (.error _, _) => false
  | (.ok w, _) => match decode w with
    | some (.recv _ ch _) => s.ctx.rbuf.all fun m => hdrCh m.hdr != ch
    | _ => false

/-- Whether the active context, which its handler is about to park, is idle (R225). -/
def State.idleToPark (s : State) : Bool := s.blockedAt s.core.kretpc && s.ctx.rbuf.isEmpty && s.core.mtx.isEmpty

/-- A parked context's record. -/
def State.residentOf (s : State) (shadow idle : Bool) : Resident :=
  let c := s.ctx
  { wp := s.core.wp, ppw := c.ppw, vregs := c.vregs, bregs := c.bregs, lnum := c.lnum, wuid := c.wuid, kptb := s.core.kptb
    parked := true, shadow := shadow, idle := idle }

/-- The active context of the core in focus is discarded by DROP; a unit that had not ended has failed (R219, R247). -/
def State.discardActive (s : State) : State :=
  let c := s.ctx
  let s := (s.leaveGang s.core.id).forgetStaged s.core.id c.lnum c.wuid.toNat
  let s := s.modCore fun k => { k with jointSaved := k.jointSaved.filter fun j => !(j.isOf k) }
  match (s.launch? c.lnum).bind fun l => l.unit? c.wuid.toNat s.core.id with
  | none => s
  | some u => s.modLaunch c.lnum fun l => { l with
      failedCount := l.failedCount + 1
      units := l.units.map fun v => if v = u then { v with active := false } else v }

/-- Steps 1 and 2 of WSWAP: the outgoing context has its resume address and status, its commands are saved, and its entries are in the
context buffer, but for a DROP, and but for its result queues in a switch to itself (R123, R154, R247, R248). Where KCTXB names no buffer for it, it
holds none. -/
def State.leaveContext (s : State) (self drop : Bool) : State :=
  let s := s.modCtx fun c => { c with pc := s.core.kretpc, pieces := [], sd := c.sd.map fun d => { d with lineAt := none } }
  let s := if drop then s
    else match s.core.bufferOf s.ctx.lnum with
      | none => s
      | some base => if self then s.spillMessages base else (s.spillMessages base).spillQueues base
  s.saveMatrix

/-- The outgoing context is parked: in the slot or in its backing image (R68, R76). -/
def State.park (s : State) (shadow idle : Bool) : State :=
  let r := s.residentOf shadow idle
  let s := if shadow then s.modCore fun k => { k with shadow := some { ctx := k.ctx, status := k.kstat, wp := k.wp } }
    else s.writeBack s.core.id s.core.wp s.ctx s.core.kstat
  s.modCore fun k => { k with residents := (k.residents.filter fun q => q.wp != r.wp) ++ [r] }

/-- The slot's occupant goes to its backing image (R76). -/
def State.evictSlot (s : State) : State :=
  match s.core.shadow with
  | none => s
  | some i =>
    (s.writeBack s.core.id i.wp i.ctx i.status).modCore fun k => { k with
      shadow := none
      residents := k.residents.map fun r => if r.wp = i.wp then { r with shadow := false } else r }

/-- A context whose saved mode is not independent takes its membership from the link state that the core retains (R203). -/
def State.withMembership (s : State) (c : Ctx) : Ctx :=
  match s.core.link with
  | none => c
  | some l =>
    match s.gang? l.gang with
    | none => c
    | some g => if c.gangMode = 0 then c else { c with gang := gangWord l.gid (g.skew - 2) c.gangMode g.width l.pos }

/-- A context becomes the active one of the core in focus, with its status in KSTAT, and TRET follows (R68, R153, R179, R202, R244, R247,
R403). A unit that starts so has BANKSEL 0 (R218). -/
def State.activate (s : State) (c : Ctx) (status : Word) (wp : BitVec 19) (self : Bool) : State :=
  let kptb := match s.residentAt wp with
    | some r => if r.lnum = 0 then s.core.kptb else r.kptb
    | none => s.core.kptb
  let starts := (s.residentAt wp).any fun r => !r.parked
  let level := Level.ofCode (bits status 2 1)
  let s := s.modCore fun k => { k.unhold with
    ctx := (s.withMembership c).rearm, wp := wp, kptb := kptb, level := level, lost := if self then k.lost else []
    kstat := status &&& 0xF, kretpc := c.pc
    banksel := if starts then 0 else k.banksel, bankcf := Vector.replicate 8 0, expstall := 0
    frame := none, captured := [], ruleRun := none
    residents := k.residents.filter fun r => r.wp != wp
    kip := if self then k.kip else k.kip &&& 0x1D }
  let s := if self then s.replayBuffer else s.refillQueues.replayBuffer
  let s := (s.reenterMatrix level).rebindGrammar
  ((s.modCore Core.leaveK).returnToStream).restartMatrix

/-- The switch of WSWAP, once the outgoing context may leave (R247). -/
def State.switchContext (s : State) (word : IWord) : State :=
  let k := s.core.kscr
  let self := s.selfSwitch
  let s := (s.setPc s.core.kretpc).bookSlot s.core word
  let idle := s.idleToPark
  let s := s.leaveContext self (kscrDrop k)
  if self then
    let s := s.writeBack s.core.id s.core.wp s.ctx s.core.kstat
    s.activate s.ctx s.core.kstat s.core.wp true
  else
    let slot := if s.fromSlot then s.slotContext else none
    let s := if s.fromSlot then s.modCore fun q => { q with shadow := none } else if kscrShadow k then s.evictSlot else s
    let s := if kscrDrop k then s.discardActive else s.park (kscrShadow k) idle
    let (c, status, wp) := slot.getD (s.imageAt (kscrWp k))
    let s := if slot.isNone then s.meetImage s.core.id wp c else s
    let (_, s) := s.takeFresh
    s.activate c status wp false

/-- WSWAP's body: once its wait has begun, it takes no interrupt (R325). A message or an element that has come in the wait, where KCTXB names no buffer
for it, makes it trap as before the wait, with no effect of the switch (R123, R154, R248, log 120). -/
def bodyWswap : Act Unit := do
  needK .wswap
  if (← get).core.hold ≠ .wswap then wswapChecks
  modify State.suspendIdle
  if !(← get).mayLeave then holdFor .wswap
  entriesCheck
  modify fun s => s.switchContext (wordOf .wswap)

def execWswap (s : State) : Host.Outcome State Fault Refusal :=
  match bodyWswap s with
  | .ok _ t => .next t
  | .error e t => .next (s.finish .wswap (.error e t))

end Sys2Proof.Machine
end

