-- ==== Sys2Proof/Machine/Launch.lean ====
section
/-!
DEFINITION. Launches and the distributor (spec 09 R207 to R226, 03 R62, 08 R185, 13 R330): submission, acceptance, wait events, placement,
pre-emption, hand-off, quiescence and completion.
-/

namespace Sys2Proof.Machine

/-! ## The launch parameter block and the kernel header (R209, R210) -/

def Launch.image (l : Launch) : Word := BitVec.ofNat 64 (l.field 0 8)
def Launch.arg (l : Launch) : Word := BitVec.ofNat 64 (l.field 8 8)
def Launch.count (l : Launch) : Nat := l.field 0x10 4
def Launch.first (l : Launch) : Nat := l.field 0x14 4
def Launch.partNo (l : Launch) : Nat := l.field 0x18 1
def Launch.prio (l : Launch) : Nat := l.field 0x19 1
def Launch.gw (l : Launch) : Nat := l.field 0x1A 1
def Launch.idem (l : Launch) : Bool := l.field 0x1B 1 % 2 == 1
def Launch.pre (l : Launch) : Bool := l.field 0x1B 1 / 2 % 2 == 1
def Launch.quiet (l : Launch) : Bool := l.field 0x1B 1 / 4 % 2 == 1
def Launch.ev (l : Launch) (k : Nat) : Word := BitVec.ofNat 64 (l.field (0x20 + 16 * k) 8)
def Launch.target (l : Launch) (k : Nat) : Nat := l.field (0x28 + 16 * k) 4
def Launch.recordPtr (l : Launch) : Word := BitVec.ofNat 64 (l.field 0x40 8)
def Launch.counter (l : Launch) : Word := BitVec.ofNat 64 (l.field 0x48 8)
def Launch.msg (l : Launch) : Nat := l.field 0x50 4
def Launch.attached (l : Launch) : Bool := l.hdrField 9 1 / 2 % 2 == 1

/-- A launch as submitted (R208). -/
def Launch.fresh (lnum : BitVec 12) (b : Submission) : Launch :=
  { lnum := lnum, lpb := b.lpb, hdr := 0, kptb := b.kptb, submitter := b.lnum, state := .waiting, ev0 := false, ev1 := false, tElig := 0
    nextUnit := 0, units := [], restarts := [], clusters := [], retried := 0, noFit := none, starved := false, status := 0, reason := 0
    faultCount := 0, doneCount := 0, failedCount := 0, started := none, fcause := 0, finfo := 0, sweeps := 0, lastSweep := none
    nextSweep := 0, sweep := none }

/-- The distributor as the party of an access for a launch: no core, so that the self alias names none (R208). Its accesses are checked as at K (the
model's choice, log 129). -/
def Launch.who (l : Launch) : Who :=
  { core := none, mgmt := false, part := BitVec.ofNat 6 l.partNo, kptb := l.kptb, level := .k }

/-- A containment field is RETRY. -/
def Launch.anyRetry (l : Launch) : Bool := (List.range 4).any fun k => l.field 0x1C 2 / 16 ^ k % 16 == 1

/-- Check 1 of R213: BAD_LPB. -/
def Launch.badLpb (l : Launch) : Bool :=
  l.field 0x2C 4 != 0 || l.field 0x3C 4 != 0 || l.field 0x54 44 != 0 || l.field 0x1B 1 / 8 != 0 || l.field 0x1F 1 / 16 != 0
  || l.msg / 2 ^ 26 % 32 != 0 || l.msg % 2 ^ 9 != 0
  || decide (7 < l.prio ∨ l.gw = 0 ∨ 48 < l.gw) || ((List.range 4).any fun k => decide (3 < l.field 0x1C 2 / 16 ^ k % 16))
  || (l.anyRetry && (!l.idem || l.field 0x1E 1 == 0))
  || l.recordPtr == 0 || !(alignedTo l.recordPtr 64) || !(alignedTo (l.ev 0) 8) || !(alignedTo (l.ev 1) 8) || !(alignedTo l.counter 8)

/-- The greatest width of a gang in a partition (R148). -/
def partGreatest (p : PartConfig) : Nat :=
  match p.stitch.toNat with
  | 0 => 48
  | 1 => p.width
  | 2 => min 192 (p.dies * p.height * p.width)
  | _ => 6

/-- Check 3 of R213: PARTITION. -/
def State.badPartition (s : State) (l : Launch) : Bool :=
  if 63 < l.partNo then true
  else match s.part? (BitVec.ofNat 6 l.partNo) with
    | none => true
    | some p =>
      let mask := l.field 0x1F 1 % 16
      (mask != 0 && mask / 2 ^ p.stitch.toNat % 2 == 0) || decide (partGreatest p < l.gw) || decide (p.dies * p.height * p.width < l.gw)

/-- Check 4 of R213: RANGE. -/
def Launch.badRange (l : Launch) : Bool := decide (2 ^ 24 < l.count ∨ 2 ^ 24 < l.first + l.count)

/-- Granules of a unit's scratchpad (R62). -/
def Launch.spGranules (l : Launch) : Nat := l.hdrField 8 1 + (l.hdrField 0x14 4 + 4095) / 4096

/-- Granules of a unit's workspace (R62). -/
def Launch.wsGranules (l : Launch) : Nat := (workspaceBytes (l.hdrField 4 1) (l.hdrField 5 1) + 4095) / 4096

/-- The contents of a header that break R210 or R62: part of check 6 of R213. -/
def Launch.badHeader (l : Launch) : Bool :=
  l.hdrField 0 3 != 0x494B5A || l.hdrField 3 1 != 1 || l.hdrField 9 1 / 4 != 0 || l.hdrField 0x0A 2 != 0 || l.hdrField 0x2C 20 != 0
  || decide (32 < l.hdrField 4 1 ∨ 16 < l.hdrField 5 1 ∨ 8 < l.hdrField 6 1 ∨ 4 < l.hdrField 7 1 ∨ 96 < l.hdrField 8 1)
  || decide (96 < l.wsGranules + accGranules (l.hdrField 6 1) (l.hdrField 7 1) + l.spGranules)
  || decide (l.hdrField 8 1 * 4096 < l.hdrField 0x1C 4)
  || l.hdrField 0x0C 4 % 4 != 0 || l.hdrField 0x10 4 % 4 != 0
  || decide (l.hdrField 0x0C 4 < 0x40 ∨ l.hdrField 0x10 4 ≤ l.hdrField 0x0C 4)
  || l.hdrField 0x28 4 % 64 != 0 || decide (0x200000 < l.hdrField 0x28 4 + l.hdrField 0x24 4)

/-- A read by the distributor: its checks, and an uncorrectable error as a load meets it (R212). -/
def distRead (w : Who) (p : Word) (n a : Nat) : Chk (List Byte) := do
  checkScalar p
  let ks ← resolveSpan w .load p n a
  let bs ← ks.mapM fun (k, len) => do
    match (← get).dev.badWord k len with
    | some b =>
      let info ← modifyGet fun s => s.meetError b
      failWith cEccUncorr info
    | none => return (← get).peek k len
  return bs.flatten

/-- The checks of an access of the distributor. -/
def distKey (w : Who) (acc : Acc) (p : Word) (n : Nat) : Chk Nat := do checkScalar p; resolve w acc p n n

/-- The checks of the distributor's access to a launch's record or counter: a mesh address names no core where PART names no partition (R208,
R213). -/
def Launch.signalKey (l : Launch) (acc : Acc) (p : Word) (n : Nat) : Chk Nat := do
  if 63 < l.partNo ∧ isMesh p then failWith cAccess p
  distKey l.who acc p n

/-! ## Wait events (R214) -/

/-- How the read of a wait counter comes out. -/
inductive WaitRead where
  | failed | poisoned | met | waiting
  deriving DecidableEq, Repr

/-- Reads wait counter k of a launch, unless it is unused or satisfied. A counter that holds an uncorrectable error is a read that fails (R80, log
126). -/
def State.readWait (s : State) (l : Launch) (k : Nat) (already : Bool) : WaitRead × State :=
  if already ∨ l.ev k = 0 then (.met, s)
  else match runChk (distRead l.who (l.ev k) 8 8) s with
    | (.error _, t) => (.failed, t)
    | (.ok bytes, t) =>
      let v := wordAt bytes 0
      (if bit v 63 then .poisoned else if l.target k ≤ bits v 0 63 then .met else .waiting, t)

/-- A launch is rejected: it is to be signalled (R213, R214, R226). -/
def Launch.reject (l : Launch) (reason : Byte) (now : Word) : Launch :=
  { l with state := .ending, status := 3, reason := reason, started := some now, restarts := [] }

/-- A launch that waits reads its counters: it is rejected, becomes eligible or waits on (R214). -/
def State.readWaits (s : State) (l : Launch) : Launch × State :=
  let (r0, s) := s.readWait l 0 l.ev0
  let (r1, s) := s.readWait l 1 l.ev1
  if r0 = .poisoned ∨ r1 = .poisoned then (l.reject 6 s.dev.time, s)
  else if r0 = .failed ∨ r1 = .failed then (l.reject 8 s.dev.time, s)
  else
    let l := { l with ev0 := r0 == .met, ev1 := r1 == .met }
    (if l.ev0 ∧ l.ev1 then { l with state := .eligible, tElig := s.dev.cycles } else l, s)

/-- WAIT_EVENT_READ: the distributor reads the wait counters of a launch that waits (R214). -/
def execWaitEventRead (lnum : BitVec 12) (s : State) : Host.Outcome State Fault Refusal :=
  match s.launch? lnum with
  | none => .next s
  | some l =>
    if l.state ≠ .waiting then .next s
    else
      let (l, s) := s.readWaits l
      .next (s.modLaunch lnum fun _ => l)

/-! ## Completion (R222 to R226) -/

/-- The first eight words of a completion record (R226). START of a launch that ended before anything of it was placed is its END (the model's choice,
log 150). -/
def Launch.record (l : Launch) (now : Word) : List Byte :=
  leBytes 1 l.status.toNat ++ leBytes 1 l.reason.toNat ++ leBytes 2 l.lnum.toNat ++ leBytes 4 l.faultCount ++ leBytes 4 l.doneCount
    ++ leBytes 4 l.failedCount ++ leBytes 8 (l.started.getD now).toNat ++ leBytes 8 now.toNat ++ leBytes 8 l.fcause.toNat
    ++ leBytes 8 l.finfo.toNat ++ leBytes 4 l.sweeps ++ List.replicate 12 0

/-- A write of the distributor that cannot be made is logged LOST; the spec does not give the entry's unit and place (R223). -/
def State.logLost (s : State) : State :=
  let (n, s) := s.takeFresh
  let w := Config.freeWord n
  s.log 2 (BitVec.ofNat 6 (bits w 56 6)) (BitVec.ofNat 52 (bits w 0 52))

/-- The completion message (R223). Where its target names no core of the partition none is sent, and nothing is logged (the model's choice, log
138). Its header has no sender's coordinates, and VEC 0 (log 51). -/
def State.sendCompletion (s : State) (l : Launch) (record : List Byte) : State :=
  let m := l.msg
  if m / 2 ^ 31 = 0 ∨ 63 < l.partNo then s
  else match s.coreNamed l.who (m / 2 ^ 21 % 2) (m / 2 ^ 15 % 64) (m / 2 ^ 9 % 64) with
    | none => s
    | some t =>
      let hdr := BitVec.ofNat 64 (l.submitter.toNat * 2 ^ 28 + m / 2 ^ 22 % 16 * 2 ^ 22)
      let payload : VWord := BitVec.ofNat 512 (leNat (record.take 8))
      s.modDev fun d => { d with payloads := d.payloads ++ [{ core := distributorId, target := t, msg := { hdr := hdr, payload := payload }, toBuffer := false }] }

/-- Steps 2 to 4 of R223: the record, the counter, the message. A launch rejected as RECORD writes no record (R213). An add that meets an
uncorrectable error is not performed and is logged (R80, log 126). -/
def State.signal (s : State) (l : Launch) : State :=
  let rec64 := l.record s.dev.time
  let s := if l.status = 3 ∧ l.reason = 7 then s
    else match runChk (l.signalKey .store l.recordPtr 64) s with
      | (.ok k, t) => t.poke k rec64
      | (.error _, t) => t.logLost
  let s := if l.counter = 0 then s
    else match runChk (l.signalKey .rmw l.counter 8) s with
      | (.ok k, t) => match t.dev.opBad k (.amo .add 1) with
        | none => (t.performOp k (.amo .add 1)).2
        | some w => (t.meetError w).2.logLost
      | (.error _, t) => t.logLost
  s.sendCompletion l rec64

/-- Every message that carries a launch's number and is on its way is discarded; its sender's count goes down as if it had arrived (R223, R30). -/
def State.dropMessages (s : State) (lnum : BitVec 12) : State :=
  let mine (p : Payload) : Bool := hdrLnum p.msg.hdr == lnum
  ((s.dev.payloads.filter mine).foldl (fun s p => s.acknowledge p.core) s).modDev fun d => { d with
    payloads := d.payloads.filter fun p => !(mine p) }

/-- Step 1 of R223: every context of a launch and every message that carries its number is discarded. -/
def State.discardLaunch (s : State) (lnum : BitVec 12) : State :=
  let s := s.dropMessages lnum
  let empty (s : State) (c : Core) : State := match c.bufferOf lnum with
    | none => s
    | some b => (s.poke (b + 0x1600) (leBytes 8 0)).poke (queueBlock b + 0x380) (List.replicate 4 0)
  let s := if lnum = 0 then s else s.cores.foldl empty s
  let cut (c : Core) : Core := { c with
    ctx := { c.ctx with rbuf := c.ctx.rbuf.filter fun m => hdrLnum m.hdr != lnum }
    residents := c.residents.filter fun r => r.lnum != lnum
    shadow := match c.shadow with
      | none => none
      | some i => if i.ctx.lnum = lnum then none else some i
    jointSaved := c.jointSaved.filter fun k => k.lnum != lnum
    counts := c.counts.filter fun n => n.lnum != lnum }
  { s with
    core := cut s.core
    rest := s.rest.map cut
    dev := { s.dev with
      resvs := s.dev.resvs.filter fun r => hdrLnum r.hdr != lnum
      preempts := s.dev.preempts.filter fun p => p.lnum != lnum } }

/-- Whether every unit of a launch has been placed. -/
def Launch.allPlaced (l : Launch) : Bool := decide (l.count ≤ l.nextUnit) && l.restarts.isEmpty

/-- Whether a launch has ended: it is ending, it is empty, or each of its units has ended (R222, R223). -/
def Launch.ended (l : Launch) : Bool :=
  l.state == .ending || (l.state == .eligible && (l.count == 0 || (!l.quiet && l.allPlaced && l.activeUnits.isEmpty)))

/-- A core whose context of a launch waits for its hand-off, or that was fenced while accesses of that context were on their way (R219, R224,
R254). -/
def State.handsOff (s : State) (lnum : BitVec 12) (c : Core) : Bool :=
  c.ctx.lnum == lnum && (c.run == .ended || c.run == .dropped ||
    (c.run == .fenced && s.unitBusy { c with mtx := c.mtx.filter fun j => j.state != .faulted }))

/-- Writes of a launch may be still to be performed: a core of it is still to be handed off, or a store that a context of it made to the host
stands acknowledged in the host interface's queue, be the context's unit discarded since (R26, R224). -/
def State.stillWrites (s : State) (l : Launch) : Bool :=
  s.cores.any (s.handsOff l.lnum) || s.dev.flights.any fun f => f.acked && f.lnum == l.lnum

/-- Whether a store that a core made to the host stands acknowledged in the host interface's queue (R26). -/
def Dev.posted (d : Dev) (core : Nat) : Bool := d.flights.any fun f => f.acked && f.core == core

/-- LAUNCH_COMPLETION: a launch that has ended has its messages discarded, for which its cores may wait; it is signalled and its number freed, once
those have been handed off and its writes are performed (R223, R224). -/
def execLaunchCompletion (lnum : BitVec 12) (s : State) : Host.Outcome State Fault Refusal :=
  match s.launch? lnum with
  | none => .next s
  | some l =>
    if !l.ended then .next s
    else if s.stillWrites l then .next (s.dropMessages lnum)
    else .next (((s.discardLaunch lnum).signal l).modDev fun d => { d with launches := d.launches.filter fun k => k.lnum != lnum })

/-! ## Submission and acceptance (R207, R208, R211 to R213, R330) -/

/-- The lowest launch number that no launch holds. -/
def State.freeNumber (s : State) : Option Nat :=
  ((List.range 4095).map fun i => i + 1).find? fun n => !(s.dev.launches.any fun l => l.lnum.toNat == n)

/-- The first failing check of R213, of checks 1 to 4: its reason. -/
def State.firstChecks (s : State) (l : Launch) : Option Byte × State :=
  if l.badLpb then (some 1, s)
  else match runChk (l.signalKey .store l.recordPtr 64) s with
    | (.error _, t) => (some 7, t)
    | (.ok _, t) => (if t.badPartition l then some 2 else if l.badRange then some 3 else none, t)

/-- The distributor's answer to a submission: what LAUNCH writes to rd. A header that holds an uncorrectable error is rejected as BAD_HEADER (R213;
the model's choice, log 130). -/
def State.accept (s : State) (b : Submission) : Word × State :=
  let refuse (r : Byte) : Word := setBit (r.setWidth 64) 63 true
  let number := s.freeNumber
  let l := Launch.fresh (BitVec.ofNat 12 (number.getD 0)) b
  let keep (s : State) (l : Launch) : State := s.modDev fun d => { d with launches := d.launches ++ [l] }
  match s.firstChecks l with
  | (some r, s) =>
    let l := l.reject r s.dev.time
    (refuse r, if number.isSome then keep s l else s.signal l)
  | (none, s) =>
    if number.isNone then (refuse 5, s)
    else match runChk (distRead l.who l.image 64 4096) s with
      | (.error _, s) => (refuse 4, keep s (l.reject 4 s.dev.time))
      | (.ok bytes, s) =>
        let l := { l with hdr := BitVec.ofNat 512 (leNat bytes) }
        if l.badHeader then (refuse 4, keep s (l.reject 4 s.dev.time))
        else
          let (l, s) := s.readWaits l
          (if l.status = 3 then refuse l.reason else l.lnum.setWidth 64, keep s l)

/-- The submission of a core. -/
def State.submission (s : State) (core : Nat) : Option Submission := s.dev.submits.find? fun b => b.core == core

/-- LAUNCH (R330): the block is read and submitted, and the core holds until the distributor answers. -/
def execLaunch (rd rs1 : Reg) (s : State) : Host.Outcome State Fault Refusal :=
  runSeq (.launch rd rs1) (do
    needK (.launch rd rs1)
    let s ← get
    if (s.submission s.core.id).isSome then holdFor .launch
    releaseFence .dev
    let bytes ← readRecord (← getX rs1) 128
    modDev fun d => { d with submits := d.submits ++
      [{ core := s.core.id, word := wordOf (.launch rd rs1), rd := rd, lpb := BitVec.ofNat 1024 (leNat bytes), kptb := s.core.kptb
         lnum := s.ctx.lnum }] }
    holdFor .launch) s

/-- LAUNCH_ACCEPTANCE: the distributor answers the submission of the core in focus, whose LAUNCH then retires (R208, R211). -/
def execLaunchAcceptance (s : State) : Host.Outcome State Fault Refusal :=
  match s.submission s.core.id with
  | none => .next s
  | some b =>
    let (v, t) := (s.modDev fun d => { d with submits := d.submits.filter fun x => x.core != b.core }).accept b
    match s.core.hold, decode b.word with
    | .launch, some i => runSeq i (setX b.rd v) t
    | _, _ => .next t

/-! ## Rank (R215) -/

/-- The effective priority at a cycle (R215). -/
def Launch.ep (l : Launch) (now : Nat) : Nat := min 7 (l.prio + (now - l.tElig) / 65536)

/-- Whether an eligible launch still has units to place. -/
def Launch.wantsPlace (l : Launch) : Bool := l.state == .eligible && !l.allPlaced

/-- Whether one launch ranks before another (R215). -/
def Launch.before (now : Nat) (a b : Launch) : Bool :=
  decide (b.ep now < a.ep now) || (a.ep now == b.ep now &&
    (decide (a.tElig < b.tElig) || (a.tElig == b.tElig && decide (a.lnum.toNat < b.lnum.toNat))))

def insertLaunch (now : Nat) (a : Launch) : List Launch → List Launch
  | [] => [a]
  | b :: bs => if a.before now b then a :: b :: bs else b :: insertLaunch now a bs

/-- The launches of a partition that have units to place, first-ranked first. -/
def State.ranked (s : State) (part : BitVec 6) : List Launch :=
  (s.dev.launches.filter fun l => l.wantsPlace && l.partNo == part.toNat).foldr (insertLaunch s.dev.cycles) []

/-! ## Cores and granules (R62, R216) -/

/-- The PPWs of the contexts resident on a core. -/
def Core.busyPpws (c : Core) : List Word :=
  (if c.run ≠ .free ∧ bit c.ctx.ppw 48 then [c.ctx.ppw] else []) ++ c.residents.map fun r => r.ppw

/-- Whether a granule belongs to a PPW. -/
def granuleIn (g : Nat) (p : Word) : Bool :=
  decide (ppwWsBase p ≤ g ∧ g < ppwWsBase p + ppwWsCount p) || decide (ppwAcBase p ≤ g ∧ g < ppwAcBase p + ppwAcCount p)
  || decide (ppwSpBase p ≤ g ∧ g < ppwSpBase p + ppwSpCount p)

/-- The lowest granule that begins a free run of n (R62). -/
def lowestRun (busy : List Word) (taken : List (Nat × Nat)) (n : Nat) : Option Nat :=
  (List.range (97 - n)).find? fun b => (List.range n).all fun i =>
    !(busy.any (granuleIn (b + i))) && !(taken.any fun t => decide (t.1 ≤ b + i ∧ b + i < t.1 + t.2))

/-- The PPW of a launch's unit on a core, where its granules fit (R62). -/
def Launch.ppwOn (l : Launch) (c : Core) : Option Word :=
  let acn := accGranules (l.hdrField 6 1) (l.hdrField 7 1)
  match lowestRun c.busyPpws [] l.wsGranules with
  | none => none
  | some ws =>
    match lowestRun c.busyPpws [(ws, l.wsGranules)] acn with
    | none => none
    | some ac =>
      match lowestRun c.busyPpws [(ws, l.wsGranules), (ac, acn)] l.spGranules with
      | none => none
      | some sp => some (makePpw ws l.wsGranules ac acn sp l.spGranules (l.hdrField 6 1) (l.hdrField 7 1))

/-- A logic scan of a core is to come: the distributor places nothing on it (R253). -/
def Dev.scanDue (d : Dev) (n : Nat) : Bool := d.tests.any fun t => t.unit == 6 && coordId t.place == n

/-- Whether the context of no launch on the core in focus can be switched out where it stands: nothing is to complete or to trap at its instruction
first, but for an MWAIT, which its return wakes (R179); and its messages and result-queue elements, where its image is kept, have a buffer to go
to (R123, R248, log 37). -/
def State.mayDisplace (s : State) : Bool :=
  let c := s.core
  c.ctx.lnum == 0 && !c.mgmt && c.frame.isNone && (c.hold == .mwait || !s.mustFinish)
  && (!(bit c.ctx.ppw 48) || (c.bufferOf 0).isSome || (c.ctx.rbuf.isEmpty && !c.ctx.holdsElements))

/-- A core with no active work unit: no context is active, or one of no launch, whose own accesses are complete and which can be switched out
(R216, R30, log 37). -/
def State.hasNoUnit (s : State) (c : Core) : Bool :=
  (c.run == .free || (c.run == .running && (s.focus c.id).any State.mayDisplace)) && !(s.unitBusy c)

/-- The unit of a launch placed on a core and not started. -/
def Core.notStarted (c : Core) (lnum : BitVec 12) : Option Resident := c.residents.find? fun r => r.lnum == lnum && !r.parked

/-- Whether a core is kept for a unit that is placed there and has not started (R216, R220). -/
def State.awaits (s : State) (n : Nat) : Bool :=
  s.dev.preempts.any fun p => p.cores.contains n && (match s.coreById n with
    | none => false
    | some c => (c.notStarted p.lnum).isSome)

/-- A free core that the distributor may place on (R216, R253). -/
def State.freeCore (s : State) (n : Nat) : Bool :=
  match s.coreById n with
  | none => false
  | some c => s.hasNoUnit c && !(s.awaits n) && !(s.dev.scanDue n)

/-- Does something at a core as if it were in focus. -/
def State.atCore (s : State) (n : Nat) (f : State → State) : State :=
  match s.focus n with
  | none => s
  | some t => ((f t).focus s.core.id).getD (f t)

/-- The context of no launch in focus leaves its core: what it waits for is withdrawn, and where it has granules it stays resident, switched out
to its backing image, its messages and result-queue elements in the buffer that KCTXB names (R123, R247, R248, log 37). -/
def State.leaveDisplaced (s : State) : State :=
  let s := s.abandon
  if bit s.ctx.ppw 48 = false then s
  else
    let s := match s.core.bufferOf 0 with
      | none => s
      | some b => (s.spillMessages b).spillQueues b
    let c := s.core
    let status : Word := (if c.level = .u then 0 else 4) ||| (if bit c.kstat 0 then 2 else 0)
    (s.writeBack c.id c.wp c.ctx status).modCore fun c => { c with
      residents := c.residents ++ [{ wp := c.wp, ppw := c.ctx.ppw, vregs := c.ctx.vregs, bregs := c.ctx.bregs, lnum := 0, wuid := c.ctx.wuid
                                     kptb := c.kptb, parked := true, shadow := false, idle := false }] }

/-- The context of no launch that is active on a core leaves it. -/
def State.displace (s : State) (core : Nat) : State :=
  match s.coreById core with
  | none => s
  | some c => if c.run = .running then s.atCore core State.leaveDisplaced else s

/-- Whether a unit of a launch fits the granules of a core. -/
def State.fitsOn (s : State) (l : Launch) (n : Nat) : Bool :=
  match s.coreById n with
  | none => false
  | some c => (l.ppwOn c).isSome && !(l.attached && c.link.isSome)

/-- The runs of a width in a partition by the announcer index of their leaders (R157, R216). -/
def partRuns (p : PartConfig) (width : Nat) : List (List Nat) :=
  (List.range (p.dies * p.height * p.width)).filterMap fun k =>
    gangRange p (k / (p.height * p.width)) (k / p.width % p.height) (k % p.width) width

/-- The fitting run of the lowest announcer index. -/
def State.fitRun (s : State) (l : Launch) (p : PartConfig) (width : Nat) : Option (List Nat) :=
  (partRuns p width).find? fun r => r.all fun n => s.freeCore n && s.fitsOn l n

/-! ## Placing units (R212, R218) -/

/-- The next group of a launch: the cores it must take, where it restarts, and its work-unit ids (R216, R251). -/
def Launch.nextGroup (l : Launch) : Option (List Nat) × List Nat :=
  match l.restarts with
  | r :: _ => (some (r.map fun u => u.2), r.map fun u => u.1)
  | [] => (none, (List.range (min l.gw (l.count - l.nextUnit))).map fun i => l.first + l.nextUnit + i)

/-- The launch once its next group is taken. -/
def Launch.takeGroup (l : Launch) : Launch :=
  match l.restarts with
  | _ :: rs => { l with restarts := rs, noFit := none, starved := false }
  | [] => { l with nextUnit := l.nextUnit + min l.gw (l.count - l.nextUnit), noFit := none, starved := false }

/-- The number of a work unit's group (R216). -/
def Launch.groupOf (l : Launch) (wuid : Nat) : Nat := (wuid - l.first) / l.gw

/-- The scalar registers at entry (R62, R185, R218). -/
def Launch.entryX (l : Launch) (ppw : Word) (wuid pos : Nat) (args : List Word) : Vector Word 32 :=
  Vector.ofFn fun n =>
    if n.val = 2 then selfAlias ((ppwSpBase ppw + ppwSpCount ppw) * 4096)
    else if n.val = 4 then BitVec.ofNat 64 wuid
    else if n.val = 5 then l.arg
    else if n.val = 6 then BitVec.ofNat 64 (if l.attached then pos else 0)
    else if 10 ≤ n.val ∧ n.val < 16 then args.getD (n.val - 10) 0
    else 0

/-- The context of a unit at entry (R218). PC holds the low 48 bits of the sum where IMAGE is a mesh pointer too (the model's choice, log 131). -/
def Launch.entryCtx (l : Launch) (ppw : Word) (wuid pos width : Nat) (args : List Word) : Ctx :=
  { Ctx.blank (l.hdrField 4 1) (l.hdrField 5 1) (l.hdrField 6 1) (l.hdrField 7 1) with
    x := l.entryX ppw wuid pos args
    pc := keepLow (l.image + BitVec.ofNat 64 (l.hdrField 0x0C 4)) 48
    gang := if l.attached then gangWord 0 0 (if pos = 0 then 1 else 2) width pos else gangIndependent
    fstat := if l.hdrField 9 1 % 2 = 1 then 0x100 else 0
    ppw := ppw, wuid := BitVec.ofNat 64 wuid, lnum := l.lnum }

/-- A context handed on warm: the vector and bit-stream registers, the tiles and the receive buffer stay (R219). -/
def Ctx.warm (old fresh : Ctx) : Ctx :=
  { fresh with v := old.v, b := old.b, ac := old.ac, wt := old.wt, wtPlanes := old.wtPlanes, rbuf := old.rbuf }

/-- A unit starts on its core: the level, KSTAT, KPTB and WP of R218. -/
def Core.startUnit (c : Core) (ctx : Ctx) (wp : BitVec 19) (kptb : Word) : Core :=
  { c.unhold with
    ctx := ctx, level := .u, run := .running, kstat := 0, kptb := kptb, wp := wp
    banksel := 0, bankcf := Vector.replicate 8 0, expstall := 0
    frame := none, captured := [], ruleRun := none, trapDue := none, lost := [] }

/-- A unit starts on its core, and the messages of its launch in the context buffer there are replayed (R153, R218). -/
def State.startUnit (s : State) (core : Nat) (ctx : Ctx) (wp : BitVec 19) (kptb : Word) : State :=
  (s.modCoreId core fun c => c.startUnit ctx wp kptb).atCore core State.replayBuffer

/-- The .cluster image is in the memory of a core's cluster, copied for the launch's first unit there (R218). -/
def Launch.copyCluster (l : Launch) (core : Nat) : Chk Unit := do
  let cid := clusterOfId core
  let done := ((← get).launch? l.lnum).map fun k => k.clusters.contains cid
  if l.hdrField 0x24 4 ≠ 0 ∧ done ≠ some true then
    let bytes ← distRead l.who (ptrAt l.image (l.hdrField 0x20 4)) (l.hdrField 0x24 4) 1
    modify fun s => (s.poke (clusterKey cid (l.hdrField 0x28 4)) bytes).modLaunch l.lnum fun k => { k with clusters := k.clusters ++ [cid] }

/-- The .pool image is at the start of a scratchpad (R62). -/
def Launch.copyPool (l : Launch) (core : Nat) (ppw : Word) : Chk Unit := do
  if l.hdrField 0x1C 4 ≠ 0 then
    let bytes ← distRead l.who (ptrAt l.image (l.hdrField 0x18 4)) (l.hdrField 0x1C 4) 1
    modify fun s => s.poke (poolKey core (ppwSpBase ppw * 4096)) bytes

/-- The six words at ARG, in which the self alias names the pool of the core (R208). -/
def Launch.readArgs (l : Launch) (core : Nat) : Chk (List Word) := do
  if l.arg = 0 then return List.replicate 6 0
  else
    let bytes ← distRead { l.who with core := some core } l.arg 48 8
    return (List.range 6).map (wordAt bytes)

/-- The images of a unit that is placed afresh, and the words at ARG (R212, R218). -/
def Launch.loadUnit (l : Launch) (core : Nat) (ppw : Word) (warm : Bool) : Chk (List Word) := do
  if !warm then
    l.copyCluster core
    l.copyPool core ppw
  l.readArgs core

/-- How a unit is put on its core: started there, placed beside a context that is to park, or handed on warm. -/
inductive PlaceHow where
  | start | beside | warm
  deriving DecidableEq, Repr

/-- Records that a unit has been placed: for START, FAILED and the sweeps that is when its images are written, also where its group then waits for its
victims to park (R225, R226, R246; the model's choice, log 139). -/
def State.bookUnit (s : State) (l : Launch) (core wuid : Nat) : State :=
  let u : UnitRec := { wuid := wuid, core := core, group := l.groupOf wuid, order := s.dev.placed, active := true }
  (s.modDev fun d => { d with placed := d.placed + 1 }).modLaunch l.lnum fun k => { k with
    units := k.units ++ [u], started := some (k.started.getD s.dev.time) }

/-- A unit whose images or arguments could not be read: its core and id, and the cause and information of the failure (R212). -/
structure PlaceFail where
  core  : Nat
  wuid  : Nat
  cause : Word
  info  : Word
  deriving DecidableEq, Repr

/-- Puts one unit on a core (R218), and says whether a read of its images or arguments failed (R212). Beside a context that is to park, the image
of a unit that failed so gets no PPW, so that no switch activates it (R61, log 125). -/
def State.placeUnit (s : State) (l : Launch) (how : PlaceHow) (core wuid pos width : Nat) : State × Option PlaceFail :=
  match s.coreById core with
  | none => (s, none)
  | some c =>
    let s := if how = .start then s.displace core else s
    let ppw := if how = .warm then c.ctx.ppw else (l.ppwOn c).getD 0
    let wp : BitVec 19 := if how = .warm then c.wp else BitVec.ofNat 19 (ppwWsBase ppw * 4096)
    let s := s.bookUnit l core wuid
    let (r, s) := runChk (l.loadUnit core ppw (how == .warm)) s
    let args := match r with
      | .ok a => a
      | .error _ => []
    let entry := l.entryCtx ppw wuid pos width args
    let ctx := if how = .warm then Ctx.warm c.ctx entry else entry
    let s := match how with
      | .warm => s.startUnit core ctx wp l.kptb
      | .start => (s.writeBack core wp ctx 0).startUnit core ctx wp l.kptb
      | .beside => (s.writeBack core wp ctx 0).modCoreId core fun c => { c with
          residents := c.residents ++ [{ wp := wp, ppw := ppw, vregs := ctx.vregs, bregs := ctx.bregs, lnum := l.lnum, wuid := ctx.wuid
                                         kptb := l.kptb, parked := false, shadow := false, idle := false }] }
    let s := if how = .beside then s.modCoreId core fun c => { c with preemptInfo := BitVec.ofNat 64 (l.lnum.toNat * 2 ^ 20 + wp.toNat) } else s
    match r with
    | .ok _ => (s, none)
    | .error (n, info) =>
      (if how = .beside then s.poke (poolKey core (wp.toNat + 0x158)) (leBytes 8 0) else s,
       some { core := core, wuid := wuid, cause := BitVec.ofNat 64 n, info := info })

/-- The gang of a group that starts attached: each of its cores holds its link from the placement on (R185). -/
def State.linkGroup (s : State) (l : Launch) (cores : List Nat) : State := s.addGang cores 0 0 l.lnum (BitVec.ofNat 6 l.partNo)

/-- Puts the units of a group on its cores, and says which of their reads failed (R212, R218). -/
def State.putUnits (s : State) (l : Launch) (how : PlaceHow) (cores ids : List Nat) : State × List PlaceFail :=
  let s := if l.attached then s.linkGroup l cores else s
  (cores.zip ids).zipIdx.foldl (fun (acc : State × List PlaceFail) ((n, id), pos) =>
    let (s, f) := acc.1.placeUnit l how n id pos ids.length
    (s, acc.2 ++ f.toList)) (s, [])

/-- Containment decides on the units of a group whose reads failed: each such placement is a fault event of its unit, which does not start
(R212). -/
def State.failPlaced (s : State) (l : Launch) (fails : List PlaceFail) : State :=
  fails.foldl (fun s f => s.unitFault l.lnum f.wuid f.core false f.cause f.info) s

/-- Puts the units of a group on its cores, and then lets containment decide on those whose reads failed (R212, R218). -/
def State.placeUnits (s : State) (l : Launch) (how : PlaceHow) (cores ids : List Nat) : State :=
  let (s, fails) := s.putUnits l how cores ids
  s.failPlaced l fails

/-- Places the next group of a launch on a run of cores (R218). -/
def State.placeGroup (s : State) (l : Launch) (how : PlaceHow) (cores ids : List Nat) : State :=
  (s.modLaunch l.lnum Launch.takeGroup).placeUnits l how cores ids

/-! ## Pre-emption (R220) -/

/-- The parties of a gang-issued command: the cores that have a slice of it, saved ones among them, and, once its gang has dissolved, those that
run the units of its other former members (R448). -/
def State.jointParties (s : State) (j : MtxJob) : List Nat :=
  match j.joint with
  | none => []
  | some x =>
    (x.cores.filter fun n => match s.coreById n with
      | none => false
      | some d => d.hasSaved x.id || d.mtx.any fun k => k.isSlice j)
    ++ (x.former.filter fun f => (s.coreById f.1).any fun d => d.run == .running && d.ctx.lnum == f.2.1 && d.ctx.wuid == f.2.2).map Prod.fst

/-- The cores that are pre-empted with a core: those of its context's gang, and the parties of each joint command to which it is one, until that has
completed (R204, R448). An independent unit of a group that formed no gang is a unit of width 1 (R220; the model's choice, log 132). -/
def State.partners (s : State) (c : Core) : List Nat :=
  let gang := match c.link with
    | none => []
    | some l => if c.ctx.gangMode = 0 then [] else match s.gang? l.gang with
      | none => []
      | some g => g.present.map fun m => m.core
  let joint := ((s.cores.flatMap fun d => d.mtx).map s.jointParties).flatMap fun ps => if ps.contains c.id then ps else []
  c.id :: (gang ++ joint)

/-- The placed unit that a core runs. -/
def State.unitOn (s : State) (c : Core) : Option (Launch × UnitRec) :=
  match s.launch? c.ctx.lnum with
  | none => none
  | some l => if c.run = .running then (l.unit? c.ctx.wuid.toNat c.id).map fun u => (l, u) else none

/-- Whether a core of a run may be pre-empted for a launch (R220): not where a logic scan is due, since nothing is placed there (R253). -/
def State.mayPreempt (s : State) (l : Launch) (run : List Nat) (n : Nat) : Bool :=
  match s.coreById n with
  | none => false
  | some c =>
    !(s.awaits n) && !(s.dev.scanDue n) &&
    (match s.unitOn c with
      | none => false
      | some (v, _) => v.pre && decide (v.prio < l.prio) && (s.partners c).all run.contains)

/-- The victims of a run: their highest priority and their latest placement; none where the run does not qualify. -/
def State.victimsOf (s : State) (l : Launch) (run : List Nat) : Option (Nat × Nat × List Nat) :=
  if run.all fun n => s.fitsOn l n && (s.freeCore n || s.mayPreempt l run n) then
    let vs := run.filter fun n => !(s.freeCore n)
    let us := vs.filterMap fun n => (s.coreById n).bind s.unitOn
    if us.isEmpty then none
    else some ((us.map fun u => u.1.prio).foldl max 0, (us.map fun u => u.2.order).foldl max 0, vs)
  else none

/-- The run to pre-empt: lowest highest victim priority, then latest placed, then lowest announcer index (R220). -/
def bestVictims : List (List Nat × Nat × Nat × List Nat) → Option (List Nat × Nat × Nat × List Nat)
  | [] => none
  | a :: rest =>
    match bestVictims rest with
    | none => some a
    | some b => if b.2.1 < a.2.1 ∨ (b.2.1 = a.2.1 ∧ a.2.2.1 < b.2.2.1) then some b else some a

/-- PREEMPT is raised on a core; the gang that its active context is a member of resumes only when every member has taken it and returned
(R204). -/
def State.raisePreempt (s : State) (n : Nat) : State :=
  let s := s.raise n 1
  match s.coreById n with
  | none => s
  | some c => match c.link with
    | none => s
    | some l => if c.ctx.gangMode = 0 then s else s.modGang l.gang fun g => { g with parking := true }

/-- Pre-empts for a launch where a run qualifies: the group's images are placed, and PREEMPT is raised on every victim (R220, R246). The group is
placed only once the victims have parked, and till then the launch waits for its run (R217); its units count as placed for the sweeps, START and
FAILED from here on (log 139). -/
def State.tryPreempt (s : State) (l : Launch) (runs : List (List Nat)) (ids : List Nat) : Option State :=
  let qualified := runs.filterMap fun r => (s.victimsOf l r).map fun v => (r, v)
  match bestVictims qualified with
  | none => none
  | some (run, _, _, victims) =>
    let s := (s.modLaunch l.lnum Launch.takeGroup).modLaunch l.lnum fun k => { k with
      noFit := some (l.noFit.getD s.dev.cycles), starved := l.starved }
    let (s, fails) := s.putUnits l .beside run ids
    let s := (victims.foldl State.raisePreempt s).modDev fun d => { d with preempts := d.preempts ++ [{ lnum := l.lnum, cores := run }] }
    some (s.failPlaced l fails)

/-- A unit that was placed beside other contexts starts on its core, which is free, from its backing image (R68, R403). Where activation does not
accept the PPW that stands there, the unit has a fault event with the cause and information of R61 (log 57). -/
def State.startPlaced (s : State) (n : Nat) (r : Resident) : State :=
  let (ctx, _) := s.readImage n r.wp r.vregs r.bregs r.lnum
  if ppwActivates ctx.ppw r.wp r.vregs r.bregs then
    let s := (s.displace n).meetImage n r.wp ctx
    let s := s.modCoreId n fun c => { c with residents := c.residents.filter fun q => q.wp != r.wp }
    (s.startUnit n ctx r.wp r.kptb).atCore n State.rebindGrammar
  else s.unitFault r.lnum r.wuid.toNat n false (BitVec.ofNat 64 cAccess) ctx.ppw

/-- A group whose victims have all parked starts on the rest of its run (R220). -/
def State.settlePreempt (s : State) (p : Preempting) : State :=
  let s' := s.modDev fun d => { d with preempts := d.preempts.filter fun q => q != p }
  let done (n : Nat) : Bool := match s.coreById n with
    | none => true
    | some c => (c.notStarted p.lnum).isNone || s'.freeCore n
  if p.cores.all done then
    p.cores.foldl (fun s n => match s.coreById n with
      | none => s
      | some c => match c.notStarted p.lnum with
        | none => s
        | some r => s.startPlaced n r) (s'.modLaunch p.lnum fun k => { k with noFit := none, starved := false })
  else s

/-! ## The placement step (R216, R217) -/

/-- Tries to place or to pre-empt for one launch. -/
def State.tryPlace (s : State) (l : Launch) (p : PartConfig) : Option State :=
  if s.dev.preempts.any fun q => q.lnum == l.lnum then none
  else
    let (fixed, ids) := l.nextGroup
    match fixed with
    | some cores => if cores.all fun n => s.freeCore n && s.fitsOn l n then some (s.placeGroup l .start cores ids) else none
    | none =>
      match s.fitRun l p ids.length with
      | some run => some (s.placeGroup l .start run ids)
      | none => s.tryPreempt l (partRuns p ids.length) ids

/-- The first of some launches for which something can be done. -/
def State.placeFirst (s : State) (p : PartConfig) : List Launch → Option State
  | [] => none
  | l :: ls =>
    match s.tryPlace l p with
    | some t => some t
    | none => s.placeFirst p ls

/-- Whether a launch has waited the starvation bound for a fitting run (R217). -/
def Launch.isStarved (l : Launch) (now : Nat) : Bool := l.starved || (match l.noFit with
  | none => false
  | some t => decide (t + 65536 ≤ now))

/-- A group of a launch waits for its victims to park (R220). -/
def State.preempting (s : State) (lnum : BitVec 12) : Bool := s.dev.preempts.any fun q => q.lnum == lnum

/-- Whether a launch ranks below one that has waited the starvation bound and whose group still waits for its victims (R217). -/
def State.starvedOut (s : State) (m : Launch) : Bool :=
  s.dev.launches.any fun k => k.partNo == m.partNo && s.preempting k.lnum && k.isStarved s.dev.cycles && k.before s.dev.cycles m

/-- PLACEMENT_STEP: groups whose victims have parked start; then the first-ranked launch's next group is placed, or pre-emption is tried for
it, or the next launch is considered (R216, R217). -/
def execPlacementStep (part : BitVec 6) (s : State) : Host.Outcome State Fault Refusal :=
  match s.part? part with
  | none => .next s
  | some p =>
    let s := s.dev.preempts.foldl State.settlePreempt s
    if s.dev.rebuilds.contains part then .next s
    else match s.ranked part with
    | [] => .next s
    | l :: ls =>
      let s := s.modDev fun d => { d with launches := d.launches.map fun k =>
        if k.partNo = part.toNat ∧ k.lnum ≠ l.lnum ∧ s.preempting k.lnum = false then { k with noFit := none, starved := false } else k }
      if s.starvedOut l then .next s
      else match s.tryPlace l p with
        | some t => .next t
        | none =>
          let s := s.modLaunch l.lnum fun k => { k with noFit := some (k.noFit.getD s.dev.cycles) }
          if l.isStarved s.dev.cycles then .next s else .next ((s.placeFirst p (ls.filter fun m => !(s.starvedOut m))).getD s)

/-- STARVATION_BOUND: the first-ranked launch that has found no fitting run for 65,536 cycles keeps lower-ranked ones from being placed
(R217). -/
def execStarvationBound (part : BitVec 6) (s : State) : Host.Outcome State Fault Refusal :=
  match s.ranked part with
  | [] => .next s
  | l :: _ => if l.isStarved s.dev.cycles then .next (s.modLaunch l.lnum fun k => { k with starved := true }) else .next s

/-! ## Hand-off (R219, R221) -/

/-- A core's ended context is discarded and its granules are freed (R219). -/
def Core.discardEnded (c : Core) : Core :=
  { c with
    run := .free, hold := .none, issued := none, record := [], arrived := [], passed := [], listing := none, trapDue := none, lost := [], frame := none, captured := []
    ruleRun := none, kip := c.kip &&& 0x1D
    ctx := { c.ctx with ppw := 0, lnum := 0, gang := gangIndependent, rbuf := [], q1 := [], q3 := [], q5 := [], q6 := [], pieces := [] } }

/-- Whether one launch ranks before another by base priority, then as R215 breaks ties. -/
def Launch.baseBefore (a b : Launch) : Bool :=
  decide (b.prio < a.prio) || (a.prio == b.prio &&
    (decide (a.tElig < b.tElig) || (a.tElig == b.tElig && decide (a.lnum.toNat < b.lnum.toNat))))

/-- The parked context of a launch that a core's hand-off prefers, and its launch (R215, R219): of two of one launch, that which the core has had
longer among its residents (the model's choice, log 150). -/
def State.parkedChoice (s : State) (c : Core) : Option (Resident × Launch) :=
  (c.residents.filter fun r => r.parked).foldl (fun best r =>
    match s.launch? r.lnum with
    | none => best
    | some l => match best with
      | none => some (r, l)
      | some b => if l.baseBefore b.2 then some (r, l) else best) none

/-- A core is handed to a parked context (R219, R221, R246): the halted context takes PREEMPT after its HALT; where no halted context is
left, the distributor activates it itself, and a context whose PPW activation does not accept has a fault event with the cause and information of
R61 (log 57). -/
def State.resumeParked (s : State) (r : Resident) : State :=
  if s.core.run = .ended then
    let kind := if r.shadow then 1 else 2
    (s.modCore fun c => { c.unhold with
      run := .running
      preemptInfo := BitVec.ofNat 64 (r.lnum.toNat * 2 ^ 20 + (if r.shadow then 0 else r.wp.toNat) + kind) }).raise s.core.id 1
  else
    let s := s.modCore Core.discardEnded
    let slot := if r.shadow then s.slotContext else none
    let s := if r.shadow then s.modCore fun c => { c with shadow := none } else s
    let (c, status, wp) := slot.getD (s.imageAt r.wp)
    if !(ppwActivates c.ppw wp c.vregs c.bregs) then s.unitFault r.lnum r.wuid.toNat s.core.id false (BitVec.ofNat 64 cAccess) c.ppw
    else if s.core.retains c then
      let s := if slot.isNone then s.meetImage s.core.id wp c else s
      (s.activate c status wp false).modCore fun c => { c with run := .running }
    else s.unitFault r.lnum r.wuid.toNat s.core.id false (BitVec.ofNat 64 cGangState) (putBits 0 56 8 10)

/-- The cores of a group, in the order of its work-unit ids, which is the order of its run (R216): one that restarted stands there too. -/
def Launch.groupCores (l : Launch) (group : Nat) : List Nat :=
  (List.range l.gw).filterMap fun i => (l.units.find? fun u => u.group == group && u.wuid == l.first + group * l.gw + i).map fun u => u.core

/-- Whether a core has ended a unit of a launch by HALT and waits. -/
def State.endedOn (s : State) (lnum : BitVec 12) (n : Nat) : Bool :=
  match s.coreById n with
  | none => false
  | some c => c.run == .ended && c.ctx.lnum == lnum

/-- The warm hand-off to the next group of the halted unit's own launch (R219): none while a member of the group still runs or a logic
scan of one of its cores is to come (R253). Where a member ended failed,
the next group is not handed off warm, and the halted members are discarded (the model's choice, log 140). -/
def State.warmHandoff (s : State) (l : Launch) : State :=
  let group := l.groupOf s.ctx.wuid.toNat
  let cores := l.groupCores group
  if l.activeUnits.any (fun u => u.group == group) || cores.any s.dev.scanDue then s
  else if cores.all (s.endedOn l.lnum) ∧ cores.contains s.core.id then
    let (_, ids) := { l with restarts := [] }.nextGroup
    let use := cores.take ids.length
    let s := (cores.drop ids.length).foldl (fun s n => s.modCoreId n Core.discardEnded) s
    (s.modLaunch l.lnum fun k => { k with nextUnit := k.nextUnit + ids.length, noFit := none, starved := false }).placeUnits l .warm use ids
  else s.modCore Core.discardEnded

/-- CORE_HANDOFF: the core in focus, whose unit has left it, is handed to the next choice once its writes and commands are complete and no logic
scan of it is to come (R219, R224, R253); the starvation bound of a launch whose group waits for its victims keeps lower-ranked ones from it, but
no parked context (R217). A matrix command that a fault stopped goes with the unit that pushed it. -/
def execCoreHandoff (s : State) : Host.Outcome State Fault Refusal :=
  if s.core.run ≠ .ended ∧ s.core.run ≠ .dropped then .next s
  else
    let s := if s.core.run = .dropped then s.modCore fun c => { c with mtx := c.mtx.filter fun j => j.state != .faulted } else s
    if s.unitBusy s.core ∨ s.dev.posted s.core.id ∨ s.dev.scanDue s.core.id then .next s
    else
      let s := if s.core.run = .ended then s.countDone s.core else s
      let best := if s.dev.rebuilds.contains s.core.part then none else (s.ranked s.core.part).head?.filter fun l => !(s.starvedOut l)
      let parked := s.parkedChoice s.core
      if s.awaits s.core.id then .next (s.modCore Core.discardEnded)
      else match parked, best with
        | some (r, k), some l => if l.ep s.dev.cycles ≤ k.prio then .next (s.resumeParked r)
            else if l.lnum = s.ctx.lnum ∧ s.core.run = .ended ∧ l.nextUnit < l.count then .next (s.warmHandoff l)
            else .next (s.modCore Core.discardEnded)
        | some (r, _), none => .next (s.resumeParked r)
        | none, some l => if l.lnum = s.ctx.lnum ∧ s.core.run = .ended ∧ l.nextUnit < l.count then .next (s.warmHandoff l)
            else .next (s.modCore Core.discardEnded)
        | none, none => .next (s.modCore Core.discardEnded)

/-! ## Quiescence (R225) -/

/-- Messages that a core's context buffer holds for a launch. -/
def State.buffered (s : State) (c : Core) (lnum : BitVec 12) : Nat :=
  match c.bufferOf lnum with
  | none => 0
  | some b => s.bufferCount b

/-- Whether a core's contexts of a launch are idle (R225). -/
def State.idleOn (s : State) (c : Core) (lnum : BitVec 12) : Bool :=
  let active := c.ctx.lnum == lnum && c.run != .free && c.run != .fenced
  let blocked := c.run == .ended || (match c.hold with
    | .recv _ => true
    | _ => false)
  (!active || (blocked && !(s.unitBusy c) && c.ctx.rbuf.all fun m => hdrLnum m.hdr != lnum))
  && (c.residents.filter fun r => r.lnum == lnum).all (fun r => r.idle) && s.buffered c lnum == 0

/-- The counts of a launch at a core's message interface. -/
def Core.countOf (c : Core) (lnum : BitVec 12) : Nat × Nat :=
  match c.counts.find? fun n => n.lnum == lnum with
  | none => (0, 0)
  | some n => (n.sent, n.received)

/-- A launch is quiescent: units still blocked are ended and count as done (R223, R225). -/
def State.quiesce (s : State) (l : Launch) : State :=
  (l.activeUnits.foldl (fun s u => s.dropUnit l.lnum u.wuid u.core) s).modLaunch l.lnum fun k => { k with
    state := .ending, doneCount := k.doneCount + k.activeUnits.length
    units := k.units.map fun u => { u with active := false } }

/-- QUIESCENCE_SWEEP: a sweep starts, or reaches the next core, or ends (R225). -/
def execQuiescenceSweep (lnum : BitVec 12) (s : State) : Host.Outcome State Fault Refusal :=
  match s.launch? lnum with
  | none => .next s
  | some l =>
    if !(l.quiet && l.state == .eligible && l.allPlaced && l.count != 0) then .next s
    else match l.sweep with
      | none =>
        if s.dev.cycles < l.nextSweep then .next s
        else
          let here := (s.cores.filter fun c => c.part.toNat == l.partNo && !c.mgmt).map fun c => c.id
          .next (s.modLaunch lnum fun k => { k with
            nextSweep := s.dev.cycles + 1024, sweep := some { todo := here, idle := true, sent := 0, received := 0 } })
      | some w =>
        match w.todo with
        | n :: rest =>
          let s := s.meetCount n lnum
          let idle := match s.coreById n with
            | none => true
            | some c => s.idleOn c lnum
          let (sent, received) := match s.coreById n with
            | none => (0, 0)
            | some c => c.countOf lnum
          .next (s.modLaunch lnum fun k => { k with
            sweep := some { todo := rest, idle := w.idle && idle, sent := w.sent + sent, received := w.received + received } })
        | [] =>
          let good := w.idle && w.sent == w.received
          let declared := good && l.lastSweep == some w.sent
          let s := s.modLaunch lnum fun k => { k with
            sweep := none, sweeps := k.sweeps + 1, lastSweep := if good then some w.sent else none }
          if declared then .next (s.quiesce l) else .next s

end Sys2Proof.Machine
end

