-- ==== Sys2Proof/Machine/Host.lean ====
section
/-!
DEFINITION. The host, the scale-up ports, power, boot, measurements and the partition manager (spec 24 R461 to R472, 01 R24).
-/

namespace Sys2Proof.Machine

/-! ## SHA-256 (log 38) -/

/-- The greatest r below 2^b, above a start, with r^k at most x: one bit of it after the other. -/
def rootFrom (k x : Nat) : Nat → Nat → Nat
  | 0, r => r
  | b + 1, r => rootFrom k x b (if (r + 2 ^ b) ^ k ≤ x then r + 2 ^ b else r)

/-- The first 32 bits of the fractional part of the k-th root of p. -/
def rootBits (k p : Nat) : BitVec 32 := BitVec.ofNat 32 (rootFrom k (p * 2 ^ (32 * k)) 37 0)

/-- The first 64 primes: a composite number below 312 has a divisor below 18. -/
def shaPrimes : List Nat :=
  (List.range 312).filter fun n => 2 ≤ n && (List.range 18).all fun d => decide (d < 2 ∨ n < d * d) || n % d != 0

/-- The constants of the rounds, and the initial value. -/
def shaConsts : List (BitVec 32) := shaPrimes.map (rootBits 3)
def shaInit : List (BitVec 32) := (shaPrimes.take 8).map (rootBits 2)

/-- The exclusive or of the rotations of a word by some distances to the right. -/
def rotations (w : BitVec 32) (ns : List Nat) : BitVec 32 := ns.foldl (fun x n => x ^^^ w.rotateRight n) 0

/-- The word that follows some words of a schedule of which it is number t. -/
def shaNext (ws : List (BitVec 32)) (t : Nat) : BitVec 32 :=
  let back (k : Nat) : BitVec 32 := ws.getD (t - k) 0
  (back 2 |> fun w => rotations w [17, 19] ^^^ w >>> 10) + back 7 + (back 15 |> fun w => rotations w [7, 18] ^^^ w >>> 3) + back 16

/-- The schedule of a block: its 16 words and 48 more. -/
def shaSchedule (block : List (BitVec 32)) : List (BitVec 32) :=
  (List.range 48).foldl (fun ws i => ws ++ [shaNext ws (16 + i)]) block

/-- Each bit of f where e has a one, else of g; and each bit that two of three words have. -/
def chosen (e f g : BitVec 32) : BitVec 32 := g ^^^ (e &&& (f ^^^ g))
def majority (a b c : BitVec 32) : BitVec 32 := (a &&& (b ||| c)) ||| (b &&& c)

/-- One round: the working words move on by one place, and two of the places take sums. -/
def shaRound (h : List (BitVec 32)) (kw : BitVec 32) : List (BitVec 32) :=
  match h with
  | [a, b, c, d, e, f, g, l] =>
    let t := l + kw + rotations e [6, 11, 25] + chosen e f g
    [t + rotations a [2, 13, 22] + majority a b c, a, b, c, d + t, e, f, g]
  | _ => h

/-- A big-endian word of four bytes. -/
def beWord (bs : List Byte) (i : Nat) : BitVec 32 := BitVec.ofNat 32 (leNat ((bs.drop (4 * i)).take 4).reverse)

/-- One block of 64 bytes. -/
def shaBlock (h : List (BitVec 32)) (block : List Byte) : List (BitVec 32) :=
  let ws := shaSchedule ((List.range 16).map (beWord block))
  List.zipWith (· + ·) h ((List.zipWith (· + ·) shaConsts ws).foldl shaRound h)

/-- Blocks one after another; the fuel is their number. -/
def shaBlocks : Nat → List (BitVec 32) → List Byte → List (BitVec 32)
  | 0, h, _ => h
  | n + 1, h, bs => shaBlocks n (shaBlock h (bs.take 64)) (bs.drop 64)

/-- SHA-256 of some bytes. -/
def sha256 (bs : List Byte) : List Byte :=
  let zeros := (119 - bs.length % 64) % 64
  let padded := bs ++ [0x80] ++ List.replicate zeros 0 ++ (leBytes 8 (8 * bs.length)).reverse
  (shaBlocks (padded.length / 64) shaInit padded).flatMap fun w => (leBytes 4 w.toNat).reverse

/-- A measurement register extended with a digest (R467). -/
def extendMeas (m d : BitVec 256) : BitVec 256 := BitVec.ofNat 256 (leNat (sha256 (leBytes 32 m.toNat ++ leBytes 32 d.toNat)))

/-! ## The host link (R461 to R463) -/

/-- Bytes that a BAR2 access spans. -/
def bar2Span : Bar2Access → Nat
  | .write data => data.length
  | .read n => n
  | .fetchAdd _ => 8
  | .swap _ => 8
  | .cas _ _ => 8

/-- Bytes that the spec leaves open. -/
def State.freeBytes (s : State) : Nat → List Byte × State
  | 0 => ([], s)
  | n + 1 =>
    let (bs, s) := s.freeBytes n
    let (k, s) := s.takeFresh
    ((Config.freeWord k).setWidth 8 :: bs, s)

/-- A host read of device memory at its home: where a word of it has an uncorrectable error, the bytes that the host gets are left open (log 47).
-/
def State.hostReads (s : State) (key n : Nat) : State :=
  match s.dev.badWord key n with
  | none => s.modDev fun d => { d with hostRead := s.peek key n }
  | some w =>
    let (bs, s) := (s.meetError w).2.freeBytes n
    s.modDev fun d => { d with hostRead := bs }

/-- An AtomicOp of the host at its home: the old value goes back to it (R461). One that is not aligned does not reach the device (log 47). -/
def State.hostAtomic (s : State) (key : Nat) (op : FlightOp) : State :=
  if key % 8 ≠ 0 then s
  else
    let (old, s) := s.performOp key op
    s.modDev fun d => { d with hostRead := leBytes 8 old.toNat }

/-- HOST_BAR2_ACCESS: the host writes or reads local device memory, or performs an atomic on it; an access beyond the BAR's end does not reach the
device (R461). -/
def execHostBar2Access (off : BitVec 39) (acc : Bar2Access) (s : State) : Host.Outcome State Fault Refusal :=
  if localBytes < off.toNat + bar2Span acc then .next s
  else match acc with
    | .write data => .next (s.poke off.toNat data)
    | .read n => .next (s.hostReads off.toNat n)
    | .fetchAdd v => .next (s.hostAtomic off.toNat (.amo .add v))
    | .swap v => .next (s.hostAtomic off.toNat (.amo .swap v))
    | .cas c v => .next (s.hostAtomic off.toNat (.cas c v))

/-- A doorbell (R463). -/
def State.doorbell (s : State) (slot : Nat) : State :=
  let pending := s.dev.mbbase.toNat + 0x4000
  let s := if pending + 8 ≤ localBytes then (s.performOp pending (.amo .or (1#64 <<< slot))).2 else s
  let target := coordId (s.dev.mbtgt.setWidth 52)
  (s.modCoreId target fun c => { c with hostInfo := BitVec.ofNat 64 slot }).raise target 4

/-- MBDOOR (R463). -/
def execMbdoor (slot : BitVec 6) (s : State) : Host.Outcome State Fault Refusal := .next (s.doorbell slot.toNat)

/-! ## Power and clock (R465, R470) -/

/-- A write of PWRCAP. -/
def State.writePwrcap (s : State) (v : Word) : State :=
  let w := bits v 0 11
  if 300 ≤ w ∧ w ≤ 1500 then
    s.modDev fun d => { d with pwrcap := BitVec.ofNat 11 w, clock := min nominalClock (Config.cappedClock w) }
  else s

/-- PWRCAP (R465, R470). -/
def execPwrcap (watts : BitVec 64) (s : State) : Host.Outcome State Fault Refusal := .next (s.writePwrcap watts)

/-- CLOCK_THROTTLE: the main clock runs at a frequency, at most its nominal one (R465). -/
def execClockThrottle (hz : Nat) (s : State) : Host.Outcome State Fault Refusal :=
  if hz = 0 then .next s else .next (s.modDev fun d => { d with clock := min nominalClock hz })

/-! ## Management registers (R470, R471) -/

def State.clearLog (s : State) : State := s.modDev fun d => { d with errlog := [], ovf := false }

/-- BOOTSTAT as it reads (R471). -/
def Dev.bootstat (d : Dev) : Word :=
  BitVec.ofNat 64 (d.bootState.toNat + (if d.hostImg then 2 ^ 6 else 0) + (if d.goBit then 2 ^ 7 else 0) + d.errlog.length * 2 ^ 8
    + (if d.ovf then 2 ^ 18 else 0))

/-- LOGCLR (R471). -/
def execLogclr (s : State) : Host.Outcome State Fault Refusal := .next s.clearLog

/-- OVF_CLEAR (R471). -/
def execOvfClear (s : State) : Host.Outcome State Fault Refusal := .next (s.modDev fun d => { d with ovf := false })

/-- GO (R469, R471). -/
def execGo (s : State) : Host.Outcome State Fault Refusal := .next (s.modDev fun d => { d with goBit := true })

/-- A write of BOOTSTAT: OVF by ones, LOGCLR, and the bits GO and HOSTIMG (R471). -/
def State.writeBootstat (s : State) (v : Word) : State :=
  let s := if bit v 18 then s.modDev fun d => { d with ovf := false } else s
  let s := if bit v 19 then s.clearLog else s
  s.modDev fun d => { d with goBit := bit v 7, hostImg := bit v 6 }

/-- A part of POD replaced: word k of its five, the last of 32 bits (R470). -/
def podWrite (pod : BitVec 288) (k : Nat) (v : Word) : BitVec 288 :=
  let n := if k = 4 then 32 else 64
  let old := pod.toNat
  BitVec.ofNat 288 (old - old / 2 ^ (64 * k) % 2 ^ n * 2 ^ (64 * k) + v.toNat % 2 ^ n * 2 ^ (64 * k))

/-- MGMT_REGISTER_WRITE: the host writes a 64-bit register of BAR0 (R470). Registers that are not assigned or read only are left. -/
def execMgmtRegisterWrite (off : BitVec 16) (value : Word) (s : State) : Host.Outcome State Fault Refusal :=
  match off.toNat with
  | 0x0000 => .next (s.writeBootstat value)
  | 0x0008 => .next (s.modDev fun d => if value.toNat < 288 then { d with podidx := value.setWidth 9 } else d)
  | 0x0010 => .next (s.modDev fun d => { d with mbbase := value &&& 0x000FFFFFFFFFC000#64 })
  | 0x0018 => .next (s.doorbell (bits value 0 6))
  | 0x0020 => .next (s.writePwrcap value)
  | 0x0030 => .next (s.modDev fun d => { d with pod := podWrite d.pod 0 value })
  | 0x0038 => .next (s.modDev fun d => { d with pod := podWrite d.pod 1 value })
  | 0x0040 => .next (s.modDev fun d => { d with pod := podWrite d.pod 2 value })
  | 0x0048 => .next (s.modDev fun d => { d with pod := podWrite d.pod 3 value })
  | 0x0050 => .next (s.modDev fun d => { d with pod := podWrite d.pod 4 value })
  | _ => .next s

/-- A register of BAR0 as the host reads it (R470). -/
def Dev.mgmtRead (d : Dev) (off : Nat) : Word :=
  if off = 0 then d.bootstat
  else if off = 0x8 then d.podidx.setWidth 64
  else if off = 0x10 then d.mbbase
  else if off = 0x20 then d.pwrcap.setWidth 64
  else if off = 0x28 then d.mbtgt
  else if 0x30 ≤ off ∧ off < 0x58 then BitVec.ofNat 64 (d.pod.toNat / 2 ^ (8 * (off - 0x30)))
  else if 0x100 ≤ off ∧ off < 0x180 then
    let m := [d.meas0, d.meas1, d.meas2, d.meas3].getD ((off - 0x100) / 32) 0
    BitVec.ofNat 64 (m.toNat / 2 ^ (8 * ((off - 0x100) % 32)))
  else if 0x1000 ≤ off ∧ off < 0x2000 then d.errlog.getD ((off - 0x1000) / 8) 0
  else 0

/-! ## Scale-up ports (R464) -/

/-- PORT_FAILURE: a port goes down (R464). -/
def execPortFailure (port : BitVec 4) (s : State) : Host.Outcome State Fault Refusal :=
  .next (s.modDev fun d => { d with portDown := d.portDown ||| (1#16 <<< port.toNat) })

/-- Whether an address is a peer's through a port. -/
def throughPort (port : BitVec 4) (key : Nat) : Bool := regionOf key == .peerMem && portOf key == port.toNat

/-- An access in flight fails with a port: an atomic is an uncorrectable error of its physical address at the cores that made it; of a store the
UNACK count is released, and it is logged LOST (R464). -/
def State.failFlight (s : State) (port : BitVec 4) (f : Flight) : State :=
  if f.op.isAtomic then s.loseFlight f (BitVec.ofNat 64 f.home)
  else
    let s := s.modDev fun d => { d with flights := d.flights.filter fun g => g.id != f.id }
    (s.acknowledge f.core).log 2 7 (port.setWidth 52)

/-- A quantum atomic whose home lies behind a port fails with it (R175, R346, R464). -/
def State.failBcast (s : State) (port : BitVec 4) (b : Bcast) : State :=
  match b.op with
  | .quantum home _ _ => if throughPort port home then s.loseBcast b (BitVec.ofNat 64 home) else s
  | .mcast _ _ _ => s

/-- PORT_FAIL_TIMEOUT: a millisecond after a port failed, what had left for it fails (R464). -/
def execPortFailTimeout (port : BitVec 4) (s : State) : Host.Outcome State Fault Refusal :=
  if s.dev.portDown.getLsbD port.toNat = false then .next s
  else
    let fail (c : Core) : Core := match c.out with
      | some o => if throughPort port o.home ∧ o.value.isNone then { c with out := some { o with failed := true } } else c
      | none => c
    let s := { s with core := fail s.core, rest := s.rest.map fail }
    let lost := s.dev.flights.filter fun f => !f.done && throughPort port f.home
    let s := lost.foldl (fun s f => s.failFlight port f) s
    .next (s.dev.bcasts.foldl (fun s b => s.failBcast port b) s)

/-! ## Boot and measurements (R466, R467) -/

/-- A management core that the boot starts at the image's entry. -/
def bootedCore (entry : BitVec 48) (i : Nat) : Core :=
  let c := Core.released (mgmtId i) true bootRom Ctx.boot
  { c with ctx := { c.ctx with pc := entry.setWidth 64 } }

/-- The digest of the image that a boot reads: the host's, where HOSTIMG is set, else the module flash's (R466). -/
def bootDigest (boot : BootImage) : BitVec 256 :=
  match boot.host with
  | none => boot.digest
  | some image => BitVec.ofNat 256 (leNat (sha256 image))

/-- POWER_ON: the machine is reset, but for what the boot ROM holds, and the boot runs. It reads the image from the module flash, or, where the host
has set HOSTIMG, from local device memory, where the host has written it; the image's signature is verified, its digest extends MEAS0, and
management cores 1 to 3 start at its entry; or the boot stops (R466). -/
def execPowerOn (boot : BootImage) (s : State) : Host.Outcome State Fault Refusal :=
  let rom := s.dev.mem.filter fun c => decide (romKeys ≤ c.1)
  let t : State := { State.reset with
    dev := { Dev.powerOn with mem := rom, seq := s.dev.seq, gangCount := s.dev.gangCount, hostImg := boot.host.isSome }
    agenda := s.agenda, fresh := s.fresh }
  let t := match boot.host with
    | none => t
    | some image => t.poke 0 (image.take localBytes)
  if boot.verified then
    .next { t with
      rest := [1, 2, 3].map (bootedCore boot.entry)
      dev := { t.dev with meas0 := extendMeas 0 (bootDigest boot), bootState := 1 } }
  else .next (t.modDev fun d => { d with bootState := 3 })

/-- The 168-byte attestation message (R467). -/
def Dev.attestMessage (d : Dev) (nonce : List Byte) : List Byte :=
  leBytes 32 d.meas0.toNat ++ leBytes 32 d.meas1.toNat ++ leBytes 32 d.meas2.toNat ++ leBytes 32 d.meas3.toNat ++ nonce
    ++ leBytes 8 d.podidx.toNat

/-- The attestation buffer (R468). -/
def attestBuffer (msg : List Byte) : List Byte :=
  leBytes 4 1 ++ leBytes 4 7856 ++ leBytes 32 Config.identityKey.toNat ++ msg
    ++ leBytes 7856 (Config.signature (BitVec.ofNat 1344 (leNat msg))).toNat ++ List.replicate 128 0

/-- ATTEST (R467): the result, and the buffer written. -/
def State.attest (s : State) (slot : Nat) : Word × State :=
  let s := s.meetRange (slot + 0x10) 0x28
  let sigbuf := s.peekNat (slot + 0x30) 8
  if sigbuf = 0 ∨ sigbuf % 64 ≠ 0 ∨ localBytes < sigbuf + 0x2000 then (0x8000000000000001, s)
  else if s.dev.bootState = 0 ∨ s.dev.bootState = 3 then (0x8000000000000002, s)
  else (0, s.poke sigbuf (attestBuffer (s.dev.attestMessage (s.peek (slot + 0x10) 32))))

/-- The firmware serves an FCALL that the core in focus has taken to F: code 1 extends MEAS3 with the digest at x10, code 2 attests the slot at
x10; then it returns (R467). What it reads meets the uncorrectable errors that lie there (R253, log 116). -/
def State.serveFcall (s : State) : State :=
  if s.core.level = .f ∧ s.core.fcause = 12 then
    let p := (s.ctx.getX 10).toNat
    match decode (s.core.finfo.setWidth 32) with
    | some (.fcall code) =>
      if code = 1 then
        let s := s.meetRange p 32
        (s.modDev fun d => { d with meas3 := extendMeas d.meas3 (BitVec.ofNat 256 (s.peekNat p 32)) }).tret
      else if code = 2 then
        let (r, s) := s.attest p
        (s.setX 10 r).tret
      else s
    | _ => s
  else s

/-- What the firmware and the management complex do beside instructions (R463, R467, R470). -/
def State.firmware (s : State) (a : FirmwareAct) : State :=
  match a with
  | .serve n => ((s.focus n).map State.serveFcall).getD s
  | .target place => s.modDev fun d => { d with mbtgt := place &&& 0x13F3F#64 }
  | .measure digest => s.modDev fun d => { d with meas1 := extendMeas d.meas1 digest }
  | .signal slot => s.modDev fun d => { d with msix := d.msix ||| (1#64 <<< slot.toNat) }

/-! ## Partitions (R24, R146, R469) -/

/-- The cores of a partition. -/
def partCores (p : PartConfig) : List (Nat × Nat × Nat × Nat) :=
  (List.range (p.dies * p.height * p.width)).filterMap fun k =>
    let die := k / (p.height * p.width)
    let row := k / p.width % p.height
    let col := k % p.width
    (partCoreAt p die row col).map fun n => (n, die, row, col)

/-- The cluster rows that a partition's maps expose: each with its die (R24). -/
def rowsUsed (p : PartConfig) : List (Nat × Nat) :=
  p.rows0.map (fun r => (p.die0, r)) ++ (if p.dies = 1 then [] else p.rows1.map fun r => (p.die0 + 1, r))

/-- The digest of a partition configuration: its row maps, column origin, extents and stitch mode (R467, log 112). -/
def configDigest (p : PartConfig) : BitVec 256 :=
  BitVec.ofNat 256 (leNat (sha256 (Config.configBytes
    ([p.dies, p.die0, p.width, p.height, p.col0, p.stitch.toNat] ++ (p.rows0.length :: p.rows0) ++ (p.rows1.length :: p.rows1)))))

/-- A row map of a die: one of the 13 cluster rows for each logical one, none twice (R24). -/
def rowMapOk (height : Nat) (rows : List Nat) : Bool :=
  rows.length == height / 4 && rows.all (fun r => decide (r < 13)) && decide rows.Nodup

/-- What the partition manager can build: extents of R146, a map of R24 without a fenced row, no core of another partition, and of each die at most
12 of its 13 cluster rows exposed, one held as a spare (R1). -/
def State.partOk (s : State) (p : PartConfig) : Bool :=
  let mine := (partCores p).map fun c => c.1
  let others := s.dev.parts.filter fun q => q.number != p.number
  let exposed := rowsUsed p ++ others.flatMap rowsUsed
  decide (1 ≤ p.dies ∧ p.die0 + p.dies ≤ 2 ∧ p.width % 4 = 0 ∧ p.height % 4 = 0 ∧ 0 < p.width ∧ 0 < p.height ∧ p.height ≤ 48
    ∧ p.col0 % 4 = 0 ∧ p.col0 + p.width ≤ 48)
  && rowMapOk p.height p.rows0 && (p.dies == 1 || rowMapOk p.height p.rows1)
  && !((rowsUsed p).any s.dev.fencedRows.contains)
  && ((List.range 2).all fun die => decide (((List.range 13).filter fun r => exposed.contains (die, r)).length ≤ 12))
  && others.all fun q => (partCores q).all fun c => !(mine.contains c.1)

/-- Whether a launch runs: a unit of it is placed, is to restart or has still to leave its core, or more of it is to be placed after a first. -/
def State.launchRuns (s : State) (l : Launch) : Bool :=
  !l.activeUnits.isEmpty || !l.restarts.isEmpty || (l.state == .eligible && l.started.isSome) || s.cores.any (s.handsOff l.lnum)

/-- Whether a launch of a partition runs, or the partition holds a placed work unit (R24, R146). -/
def State.partBusy (s : State) (number : BitVec 6) : Bool :=
  s.dev.launches.any fun l => l.partNo == number.toNat && s.launchRuns l

/-- A core as a partition's: released at F at its FVEC, unless it is fenced (R254). One that a rebuild held keeps its registers and its CYCLE
(R469); its receive buffer and its result queues are empty (the model's choice, log 142). -/
def Core.enroll (c : Core) (p : PartConfig) (die row col : Nat) (fenced : Bool) : Core :=
  { c.discardEnded with
    part := p.number, die := BitVec.ofNat 1 die, row := BitVec.ofNat 6 row, col := BitVec.ofNat 6 col
    run := if fenced then .fenced else .running, level := .f, fvec := p.fvec &&& addrField, fdeleg := p.fdeleg &&& csrRw 0x306
    residents := [], shadow := none, link := none, heldAt := none, jointSaved := []
    ctx := { c.discardEnded.ctx with pc := p.fvec &&& addrField } }

/-- Whether an address lies in the pool of one of some cores or in the memory of one of their clusters. -/
def inPools (cores : List Nat) (key : Nat) : Bool :=
  match regionOf key with
  | .pool n => cores.contains n
  | .cluster k => cores.any fun n => clusterOfId n == k
  | _ => false

/-- Clears the pools of some cores and the memories of their clusters, as writes of whole words do: no word there holds an uncorrectable error
afterwards (R116, R469). -/
def Dev.clearPools (d : Dev) (cores : List Nat) : Dev :=
  { d with
    mem := d.mem.filter fun c => !(inPools cores c.1)
    bad := d.bad.filter fun w => !(inPools cores (w * 8)) }

/-- Adds a core of a partition, or takes it up again: what a context there had posted is withdrawn (R151, R349). The context of
LNUM 0 that it is released with is not activated: no message that a context buffer holds is replayed (R153; the model's choice, log 142). -/
def State.enroll (s : State) (p : PartConfig) (c : Nat × Nat × Nat × Nat) : State :=
  let (n, die, row, col) := c
  let fenced := s.dev.fencedCores.contains n
  match s.coreById n with
  | some _ => (s.withdraw n).modCoreId n fun k => k.enroll p die row col fenced
  | none => { s with rest := s.rest ++ [(Core.released n false (p.fvec &&& addrField) Ctx.boot).enroll p die row col fenced] }

/-- Whether the cores of a partition, and those that it is to have, have completed what they issued (R26, R469). -/
def State.coresQuiet (s : State) (number : BitVec 6) (mine : List Nat) : Bool :=
  s.cores.all fun c => c.mgmt || (c.part != number && !(mine.contains c.id)) || !(s.unitBusy c)

/-- PARTITION_BUILD: the partition manager builds or rebuilds a partition, once GO is set, the firmware is verified, no launch of the partition runs
and its cores are quiet (R24, R146, R466, R469). -/
def execPartitionBuild (cfg : PartConfig) (s : State) : Host.Outcome State Fault Refusal :=
  let cores := partCores cfg
  let mine := cores.map fun c => c.1
  if s.dev.goBit ∧ (s.dev.bootState = 1 ∨ s.dev.bootState = 2) ∧ s.partOk cfg ∧ s.partBusy cfg.number = false
      ∧ s.coresQuiet cfg.number mine then
    let leave (c : Core) : Core :=
      if c.mgmt = false ∧ c.part = cfg.number ∧ mine.contains c.id = false ∧ c.run ≠ .fenced then { c with run := .heldForRebuild } else c
    let s := { s with core := leave s.core, rest := s.rest.map leave }
    let s := s.modDev fun d => { d.clearPools mine with
      parts := (d.parts.filter fun q => q.number != cfg.number) ++ [cfg], meas2 := extendMeas d.meas2 (configDigest cfg), bootState := 2
      rebuilds := d.rebuilds.filter fun n => n != cfg.number }
    .next (cores.foldl (fun s c => s.enroll cfg c) s)
  else .next s

end Sys2Proof.Machine
end

