-- ==== Sys2Proof/Machine/Dispatch.lean ====
section
/-!
DEFINITION. One arm for each instruction: the call of its meaning.
-/

namespace Sys2Proof.Machine

def exec (i : Instr) (s : State) : Host.Outcome State Fault Refusal :=
  match i with
  | .add rd rs1 rs2 => Sys2Proof.Machine.execAdd rd rs1 rs2 s
  | .sub rd rs1 rs2 => Sys2Proof.Machine.execSub rd rs1 rs2 s
  | .and rd rs1 rs2 => Sys2Proof.Machine.execAnd rd rs1 rs2 s
  | .or rd rs1 rs2 => Sys2Proof.Machine.execOr rd rs1 rs2 s
  | .xor rd rs1 rs2 => Sys2Proof.Machine.execXor rd rs1 rs2 s
  | .andn rd rs1 rs2 => Sys2Proof.Machine.execAndn rd rs1 rs2 s
  | .orn rd rs1 rs2 => Sys2Proof.Machine.execOrn rd rs1 rs2 s
  | .sll rd rs1 rs2 => Sys2Proof.Machine.execSll rd rs1 rs2 s
  | .srl rd rs1 rs2 => Sys2Proof.Machine.execSrl rd rs1 rs2 s
  | .sra rd rs1 rs2 => Sys2Proof.Machine.execSra rd rs1 rs2 s
  | .slli rd rs1 sh => Sys2Proof.Machine.execSlli rd rs1 sh s
  | .srli rd rs1 sh => Sys2Proof.Machine.execSrli rd rs1 sh s
  | .srai rd rs1 sh => Sys2Proof.Machine.execSrai rd rs1 sh s
  | .slt rd rs1 rs2 => Sys2Proof.Machine.execSlt rd rs1 rs2 s
  | .sltu rd rs1 rs2 => Sys2Proof.Machine.execSltu rd rs1 rs2 s
  | .min rd rs1 rs2 => Sys2Proof.Machine.execMin rd rs1 rs2 s
  | .max rd rs1 rs2 => Sys2Proof.Machine.execMax rd rs1 rs2 s
  | .minu rd rs1 rs2 => Sys2Proof.Machine.execMinu rd rs1 rs2 s
  | .maxu rd rs1 rs2 => Sys2Proof.Machine.execMaxu rd rs1 rs2 s
  | .mul rd rs1 rs2 => Sys2Proof.Machine.execMul rd rs1 rs2 s
  | .mulh rd rs1 rs2 => Sys2Proof.Machine.execMulh rd rs1 rs2 s
  | .mulhu rd rs1 rs2 => Sys2Proof.Machine.execMulhu rd rs1 rs2 s
  | .div rd rs1 rs2 => Sys2Proof.Machine.execDiv rd rs1 rs2 s
  | .divu rd rs1 rs2 => Sys2Proof.Machine.execDivu rd rs1 rs2 s
  | .rem rd rs1 rs2 => Sys2Proof.Machine.execRem rd rs1 rs2 s
  | .remu rd rs1 rs2 => Sys2Proof.Machine.execRemu rd rs1 rs2 s
  | .clz rd rs1 => Sys2Proof.Machine.execClz rd rs1 s
  | .ctz rd rs1 => Sys2Proof.Machine.execCtz rd rs1 s
  | .popc rd rs1 => Sys2Proof.Machine.execPopc rd rs1 s
  | .sextb rd rs1 => Sys2Proof.Machine.execSextb rd rs1 s
  | .sexth rd rs1 => Sys2Proof.Machine.execSexth rd rs1 s
  | .sextw rd rs1 => Sys2Proof.Machine.execSextw rd rs1 s
  | .zextw rd rs1 => Sys2Proof.Machine.execZextw rd rs1 s
  | .csel rd rs1 rs2 => Sys2Proof.Machine.execCsel rd rs1 rs2 s
  | .ptag rd rs1 rs2 => Sys2Proof.Machine.execPtag rd rs1 rs2 s
  | .pfmt rd rs1 => Sys2Proof.Machine.execPfmt rd rs1 s
  | .pblk rd rs1 => Sys2Proof.Machine.execPblk rd rs1 s
  | .pmesh rd rs1 rs2 => Sys2Proof.Machine.execPmesh rd rs1 rs2 s
  | .addi rd rs1 imm => Sys2Proof.Machine.execAddi rd rs1 imm s
  | .andi rd rs1 imm => Sys2Proof.Machine.execAndi rd rs1 imm s
  | .ori rd rs1 imm => Sys2Proof.Machine.execOri rd rs1 imm s
  | .xori rd rs1 imm => Sys2Proof.Machine.execXori rd rs1 imm s
  | .slti rd rs1 imm => Sys2Proof.Machine.execSlti rd rs1 imm s
  | .sltiu rd rs1 imm => Sys2Proof.Machine.execSltiu rd rs1 imm s
  | .lui rd imm => Sys2Proof.Machine.execLui rd imm s
  | .auipc rd imm => Sys2Proof.Machine.execAuipc rd imm s
  | .shori rd rs1 imm => Sys2Proof.Machine.execShori rd rs1 imm s
  | .lb rd rs1 imm => Sys2Proof.Machine.execLb rd rs1 imm s
  | .lbu rd rs1 imm => Sys2Proof.Machine.execLbu rd rs1 imm s
  | .lh rd rs1 imm => Sys2Proof.Machine.execLh rd rs1 imm s
  | .lhu rd rs1 imm => Sys2Proof.Machine.execLhu rd rs1 imm s
  | .lw rd rs1 imm => Sys2Proof.Machine.execLw rd rs1 imm s
  | .lwu rd rs1 imm => Sys2Proof.Machine.execLwu rd rs1 imm s
  | .ld rd rs1 imm => Sys2Proof.Machine.execLd rd rs1 imm s
  | .sb rs2 rs1 imm => Sys2Proof.Machine.execSb rs2 rs1 imm s
  | .sh rs2 rs1 imm => Sys2Proof.Machine.execSh rs2 rs1 imm s
  | .sw rs2 rs1 imm => Sys2Proof.Machine.execSw rs2 rs1 imm s
  | .sd rs2 rs1 imm => Sys2Proof.Machine.execSd rs2 rs1 imm s
  | .beq rs1 rs2 off => Sys2Proof.Machine.execBeq rs1 rs2 off s
  | .bne rs1 rs2 off => Sys2Proof.Machine.execBne rs1 rs2 off s
  | .blt rs1 rs2 off => Sys2Proof.Machine.execBlt rs1 rs2 off s
  | .bge rs1 rs2 off => Sys2Proof.Machine.execBge rs1 rs2 off s
  | .bltu rs1 rs2 off => Sys2Proof.Machine.execBltu rs1 rs2 off s
  | .bgeu rs1 rs2 off => Sys2Proof.Machine.execBgeu rs1 rs2 off s
  | .jal rd off => Sys2Proof.Machine.execJal rd off s
  | .jalr rd rs1 imm => Sys2Proof.Machine.execJalr rd rs1 imm s
  | .loop lvl rs1 off => Sys2Proof.Machine.execLoop lvl rs1 off s
  | .csrr rd csr => Sys2Proof.Machine.execCsrr rd csr s
  | .csrw csr rs1 => Sys2Proof.Machine.execCsrw csr rs1 s
  | .csrs csr rs1 => Sys2Proof.Machine.execCsrs csr rs1 s
  | .csrc csr rs1 => Sys2Proof.Machine.execCsrc csr rs1 s
  | .kcall code => Sys2Proof.Machine.execKcall code s
  | .fcall code => Sys2Proof.Machine.execFcall code s
  | .brk code => Sys2Proof.Machine.execBrk code s
  | .tlbinv rs1 mode => Sys2Proof.Machine.execTlbinv rs1 mode s
  | .launch rd rs1 => Sys2Proof.Machine.execLaunch rd rs1 s
  | .fence kind scope => Sys2Proof.Machine.execFence kind scope s
  | .mon rs1 => Sys2Proof.Machine.execMon rs1 s
  | .evsig rs1 ev => Sys2Proof.Machine.execEvsig rs1 ev s
  | .evwait ev => Sys2Proof.Machine.execEvwait ev s
  | .send data rs1 ch vec => Sys2Proof.Machine.execSend data rs1 ch vec s
  | .recv rd ch vec => Sys2Proof.Machine.execRecv rd ch vec s
  | .recvnb rd ch vec => Sys2Proof.Machine.execRecvnb rd ch vec s
  | .mcast data rs1 rs2 => Sys2Proof.Machine.execMcast data rs1 rs2 s
  | .amo op ord rd rs1 rs2 => Sys2Proof.Machine.execAmo op ord rd rs1 rs2 s
  | .cas ord rd rs1 rs2 => Sys2Proof.Machine.execCas ord rd rs1 rs2 s
  | .lda scope rd rs1 => Sys2Proof.Machine.execLda scope rd rs1 s
  | .str scope rs1 rs2 => Sys2Proof.Machine.execStr scope rs1 rs2 s
  | .cinit rs1 rs2 => Sys2Proof.Machine.execCinit rs1 rs2 s
  | .cst rs1 rs2 => Sys2Proof.Machine.execCst rs1 rs2 s
  | .cld rd rs1 rs2 => Sys2Proof.Machine.execCld rd rs1 rs2 s
  | .crcl rs1 rs2 => Sys2Proof.Machine.execCrcl rs1 rs2 s
  | .cver rd rs1 => Sys2Proof.Machine.execCver rd rs1 s
  | .dma dest src len tag => Sys2Proof.Machine.execDma dest src len tag s
  | .dmad dest src len tag => Sys2Proof.Machine.execDmad dest src len tag s
  | .dmares rs => Sys2Proof.Machine.execDmares rs s
  | .waitany rs => Sys2Proof.Machine.execWaitany rs s
  | .waitall rs => Sys2Proof.Machine.execWaitall rs s
  | .ffrdy rd => Sys2Proof.Machine.execFfrdy rd s
  | .tagclr rs => Sys2Proof.Machine.execTagclr rs s
  | .qpush q rs => Sys2Proof.Machine.execQpush q rs s
  | .qpop rd q => Sys2Proof.Machine.execQpop rd q s
  | .qtry rd q => Sys2Proof.Machine.execQtry rd q s
  | .qcnt rd q => Sys2Proof.Machine.execQcnt rd q s
  | .iceg rs => Sys2Proof.Machine.execIceg rs s
  | .ices rs => Sys2Proof.Machine.execIces rs s
  | .iceres rs => Sys2Proof.Machine.execIceres rs s
  | .vld wd vd xb off pc => Sys2Proof.Machine.execVld wd vd xb off pc s
  | .vlds wd vd xb xs => Sys2Proof.Machine.execVlds wd vd xb xs s
  | .vldx wd vd xb vi => Sys2Proof.Machine.execVldx wd vd xb vi s
  | .vst wd vd xb off pc => Sys2Proof.Machine.execVst wd vd xb off pc s
  | .vsts wd vd xb xs => Sys2Proof.Machine.execVsts wd vd xb xs s
  | .vstx wd vd xb vi => Sys2Proof.Machine.execVstx wd vd xb vi s
  | .vadd ty wd vd vs1 vs2 => Sys2Proof.Machine.execVadd ty wd vd vs1 vs2 s
  | .vsub ty wd vd vs1 vs2 => Sys2Proof.Machine.execVsub ty wd vd vs1 vs2 s
  | .vmul ty wd vd vs1 vs2 => Sys2Proof.Machine.execVmul ty wd vd vs1 vs2 s
  | .vmulh ty wd vd vs1 vs2 => Sys2Proof.Machine.execVmulh ty wd vd vs1 vs2 s
  | .vmin ty wd vd vs1 vs2 => Sys2Proof.Machine.execVmin ty wd vd vs1 vs2 s
  | .vmax ty wd vd vs1 vs2 => Sys2Proof.Machine.execVmax ty wd vd vs1 vs2 s
  | .vand ty wd vd vs1 vs2 => Sys2Proof.Machine.execVand ty wd vd vs1 vs2 s
  | .vor ty wd vd vs1 vs2 => Sys2Proof.Machine.execVor ty wd vd vs1 vs2 s
  | .vxor ty wd vd vs1 vs2 => Sys2Proof.Machine.execVxor ty wd vd vs1 vs2 s
  | .vshl ty wd vd vs1 vs2 => Sys2Proof.Machine.execVshl ty wd vd vs1 vs2 s
  | .vshr ty wd vd vs1 vs2 => Sys2Proof.Machine.execVshr ty wd vd vs1 vs2 s
  | .vsra ty wd vd vs1 vs2 => Sys2Proof.Machine.execVsra ty wd vd vs1 vs2 s
  | .vabs ty wd vd vs1 => Sys2Proof.Machine.execVabs ty wd vd vs1 s
  | .vadds ty wd vd vs1 vs2 => Sys2Proof.Machine.execVadds ty wd vd vs1 vs2 s
  | .vsubs ty wd vd vs1 vs2 => Sys2Proof.Machine.execVsubs ty wd vd vs1 vs2 s
  | .vcmpeq ty wd vd vs1 vs2 => Sys2Proof.Machine.execVcmpeq ty wd vd vs1 vs2 s
  | .vcmplt ty wd vd vs1 vs2 => Sys2Proof.Machine.execVcmplt ty wd vd vs1 vs2 s
  | .vcmple ty wd vd vs1 vs2 => Sys2Proof.Machine.execVcmple ty wd vd vs1 vs2 s
  | .vsel ty wd vd vs1 vs2 => Sys2Proof.Machine.execVsel ty wd vd vs1 vs2 s
  | .vfadd ty wd vd vs1 vs2 => Sys2Proof.Machine.execVfadd ty wd vd vs1 vs2 s
  | .vfsub ty wd vd vs1 vs2 => Sys2Proof.Machine.execVfsub ty wd vd vs1 vs2 s
  | .vfmul ty wd vd vs1 vs2 => Sys2Proof.Machine.execVfmul ty wd vd vs1 vs2 s
  | .vfma ty wd vd vs1 vs2 => Sys2Proof.Machine.execVfma ty wd vd vs1 vs2 s
  | .vfnma ty wd vd vs1 vs2 => Sys2Proof.Machine.execVfnma ty wd vd vs1 vs2 s
  | .vfmin ty wd vd vs1 vs2 => Sys2Proof.Machine.execVfmin ty wd vd vs1 vs2 s
  | .vfmax ty wd vd vs1 vs2 => Sys2Proof.Machine.execVfmax ty wd vd vs1 vs2 s
  | .vfdiv ty wd vd vs1 vs2 => Sys2Proof.Machine.execVfdiv ty wd vd vs1 vs2 s
  | .vfrsq ty wd vd vs1 => Sys2Proof.Machine.execVfrsq ty wd vd vs1 s
  | .vfexp2 ty wd vd vs1 => Sys2Proof.Machine.execVfexp2 ty wd vd vs1 s
  | .vfcmpeq ty wd vd vs1 vs2 => Sys2Proof.Machine.execVfcmpeq ty wd vd vs1 vs2 s
  | .vfcmplt ty wd vd vs1 vs2 => Sys2Proof.Machine.execVfcmplt ty wd vd vs1 vs2 s
  | .vfcmple ty wd vd vs1 vs2 => Sys2Proof.Machine.execVfcmple ty wd vd vs1 vs2 s
  | .vmovx ty xd vs1 xi => Sys2Proof.Machine.execVmovx ty xd vs1 xi s
  | .vsplat ty wd vd xv => Sys2Proof.Machine.execVsplat ty wd vd xv s
  | .vins ty vd xv xi => Sys2Proof.Machine.execVins ty vd xv xi s
  | .vperm ty wd vd vs1 vs2 => Sys2Proof.Machine.execVperm ty wd vd vs1 vs2 s
  | .vslide ty wd vd vs1 xa => Sys2Proof.Machine.execVslide ty wd vd vs1 xa s
  | .vred ty wd vd vs1 => Sys2Proof.Machine.execVred ty wd vd vs1 s
  | .vscan ty wd vd vs1 => Sys2Proof.Machine.execVscan ty wd vd vs1 s
  | .vcvt ty wd vd vs1 td => Sys2Proof.Machine.execVcvt ty wd vd vs1 td s
  | .vqnt ty wd vd vs1 vs2 => Sys2Proof.Machine.execVqnt ty wd vd vs1 vs2 s
  | .vnz ty wd xd vs1 xp => Sys2Proof.Machine.execVnz ty wd xd vs1 xp s
  | .vcompr ty wd vd vs1 vs2 => Sys2Proof.Machine.execVcompr ty wd vd vs1 vs2 s
  | .vpopc ty wd xd vs1 => Sys2Proof.Machine.execVpopc ty wd xd vs1 s
  | .sopen sd xv xl kind xc => Sys2Proof.Machine.execSopen sd xv xl kind xc s
  | .sadv sd xn => Sys2Proof.Machine.execSadv sd xn s
  | .stend sd off => Sys2Proof.Machine.execStend sd off s
  | .sclose sd => Sys2Proof.Machine.execSclose sd s
  | .smerge vn uni => Sys2Proof.Machine.execSmerge vn uni s
  | .spos xd sd => Sys2Proof.Machine.execSpos xd sd s
  | .streamPrefetch sd => Sys2Proof.Machine.execStreamPrefetch sd s
  | .repf len ci cnt stride mask => Sys2Proof.Machine.execRepf len ci cnt stride mask s
  | .gform rs => Sys2Proof.Machine.execGform rs s
  | .gjoin rs => Sys2Proof.Machine.execGjoin rs s
  | .gleave rs => Sys2Proof.Machine.execGleave rs s
  | .gdet rs => Sys2Proof.Machine.execGdet rs s
  | .gatt id => Sys2Proof.Machine.execGatt id s
  | .rjp id => Sys2Proof.Machine.execRjp id s
  | .xsh wd vd vs west => Sys2Proof.Machine.execXsh wd vd vs west s
  | .xwrap wd vd vs west => Sys2Proof.Machine.execXwrap wd vd vs west s
  | .xshArrival k => Sys2Proof.Machine.execXshArrival k s
  | .mldw wt xs pri tag => Sys2Proof.Machine.execMldw wt xs pri tag s
  | .mzero ac pri tag => Sys2Proof.Machine.execMzero ac pri tag s
  | .mma ac wt oct rows vs planes pri tag => Sys2Proof.Machine.execMma ac wt oct rows vs planes pri tag s
  | .mmas ac ks xb rows planes pri tag => Sys2Proof.Machine.execMmas ac ks xb rows planes pri tag s
  | .msta ac xd rows pri tag => Sys2Proof.Machine.execMsta ac xd rows pri tag s
  | .mstv ac vq xr pri tag => Sys2Proof.Machine.execMstv ac vq xr pri tag s
  | .rgopen xg xr => Sys2Proof.Machine.execRgopen xg xr s
  | .rlift xd => Sys2Proof.Machine.execRlift xd s
  | .reval xf xn => Sys2Proof.Machine.execReval xf xn s
  | .rspine xo xs xe => Sys2Proof.Machine.execRspine xo xs xe s
  | .rscan xo xs xe all => Sys2Proof.Machine.execRscan xo xs xe all s
  | .rseek xn xi => Sys2Proof.Machine.execRseek xn xi s
  | .rmv xy xx xw => Sys2Proof.Machine.execRmv xy xx xw s
  | .rget xd xi sel => Sys2Proof.Machine.execRget xd xi sel s
  | .bsrc g xs => Sys2Proof.Machine.execBsrc g xs s
  | .bgen bd vp g len => Sys2Proof.Machine.execBgen bd vp g len s
  | .band bd bs1 bs2 cor => Sys2Proof.Machine.execBand bd bs1 bs2 cor s
  | .bxnor bd bs1 bs2 cor => Sys2Proof.Machine.execBxnor bd bs1 bs2 cor s
  | .bmux bd bs1 bs2 bsel cor => Sys2Proof.Machine.execBmux bd bs1 bs2 bsel cor s
  | .bnot bd bs => Sys2Proof.Machine.execBnot bd bs s
  | .bcnt xd bs => Sys2Proof.Machine.execBcnt xd bs s
  | .bregen bd bs g => Sys2Proof.Machine.execBregen bd bs g s
  | .bcls xd bs => Sys2Proof.Machine.execBcls xd bs s
  | .bmov bd bs => Sys2Proof.Machine.execBmov bd bs s
  | .homePerformAccess k => Sys2Proof.Machine.execHomePerformAccess k s
  | .storeAck k => Sys2Proof.Machine.execStoreAck k s
  | .atomicResultReturn k => Sys2Proof.Machine.execAtomicResultReturn k s
  | .commutativeMerge j k => Sys2Proof.Machine.execCommutativeMerge j k s
  | .linkCrcError link => Sys2Proof.Machine.execLinkCrcError link s
  | .selfTestComplete pass => Sys2Proof.Machine.execSelfTestComplete pass s
  | .reservationRequest k => Sys2Proof.Machine.execReservationRequest k s
  | .reservationGrant k => Sys2Proof.Machine.execReservationGrant k s
  | .messageArrival k => Sys2Proof.Machine.execMessageArrival k s
  | .eventSignalLand k => Sys2Proof.Machine.execEventSignalLand k s
  | .broadcastApply k => Sys2Proof.Machine.execBroadcastApply k s
  | .dmaByteCopy tag => Sys2Proof.Machine.execDmaByteCopy tag s
  | .codebookExpansion tag => Sys2Proof.Machine.execCodebookExpansion tag s
  | .entropyExpansion tag => Sys2Proof.Machine.execEntropyExpansion tag s
  | .bitPlaneEncoding tag => Sys2Proof.Machine.execBitPlaneEncoding tag s
  | .blockCyclicDeal tag => Sys2Proof.Machine.execBlockCyclicDeal tag s
  | .dmaChunkComplete tag => Sys2Proof.Machine.execDmaChunkComplete tag s
  | .dmaCommandComplete tag => Sys2Proof.Machine.execDmaCommandComplete tag s
  | .eddyGather k => Sys2Proof.Machine.execEddyGather k s
  | .eddyScatter k => Sys2Proof.Machine.execEddyScatter k s
  | .eddyComplete k => Sys2Proof.Machine.execEddyComplete k s
  | .waitEventRead lnum => Sys2Proof.Machine.execWaitEventRead lnum s
  | .placementStep part => Sys2Proof.Machine.execPlacementStep part s
  | .starvationBound part => Sys2Proof.Machine.execStarvationBound part s
  | .quiescenceSweep lnum => Sys2Proof.Machine.execQuiescenceSweep lnum s
  | .launchCompletion lnum => Sys2Proof.Machine.execLaunchCompletion lnum s
  | .hostBar2Access off acc => Sys2Proof.Machine.execHostBar2Access off acc s
  | .mbdoor slot => Sys2Proof.Machine.execMbdoor slot s
  | .pwrcap watts => Sys2Proof.Machine.execPwrcap watts s
  | .mgmtRegisterWrite off value => Sys2Proof.Machine.execMgmtRegisterWrite off value s
  | .clockThrottle hz => Sys2Proof.Machine.execClockThrottle hz s
  | .portFailure port => Sys2Proof.Machine.execPortFailure port s
  | .portFailTimeout port => Sys2Proof.Machine.execPortFailTimeout port s
  | .powerOn boot => Sys2Proof.Machine.execPowerOn boot s
  | .illegalEncoding word => Sys2Proof.Machine.execIllegalEncoding word s
  | .partitionBuild cfg => Sys2Proof.Machine.execPartitionBuild cfg s
  | .softwareInterrupt target => Sys2Proof.Machine.execSoftwareInterrupt target s
  | .tret => Sys2Proof.Machine.execTret s
  | .wfi => Sys2Proof.Machine.execWfi s
  | .wswap => Sys2Proof.Machine.execWswap s
  | .iflush => Sys2Proof.Machine.execIflush s
  | .halt => Sys2Proof.Machine.execHalt s
  | .rfence => Sys2Proof.Machine.execRfence s
  | .mwait => Sys2Proof.Machine.execMwait s
  | .cellAbandon => Sys2Proof.Machine.execCellAbandon s
  | .gsplit => Sys2Proof.Machine.execGsplit s
  | .gbar => Sys2Proof.Machine.execGbar s
  | .matrixCommandStart => Sys2Proof.Machine.execMatrixCommandStart s
  | .microTileComplete => Sys2Proof.Machine.execMicroTileComplete s
  | .matrixCommandComplete => Sys2Proof.Machine.execMatrixCommandComplete s
  | .takeInterrupt => Sys2Proof.Machine.execTakeInterrupt s
  | .timerExpire => Sys2Proof.Machine.execTimerExpire s
  | .loadReturn => Sys2Proof.Machine.execLoadReturn s
  | .pageWalk => Sys2Proof.Machine.execPageWalk s
  | .contextBufferDrain => Sys2Proof.Machine.execContextBufferDrain s
  | .weirWindowClose => Sys2Proof.Machine.execWeirWindowClose s
  | .launchAcceptance => Sys2Proof.Machine.execLaunchAcceptance s
  | .coreHandoff => Sys2Proof.Machine.execCoreHandoff s
  | .logclr => Sys2Proof.Machine.execLogclr s
  | .ovfClear => Sys2Proof.Machine.execOvfClear s
  | .go => Sys2Proof.Machine.execGo s
  | .fetchFailure => Sys2Proof.Machine.execFetchFailure s
  | .mwaitSpuriousReturn => Sys2Proof.Machine.execMwaitSpuriousReturn s

end Sys2Proof.Machine
end

