-- ==== Sys2Proof/Machine/Turn.lean ====
section
/-!
DEFINITION. Turns: which party moves next, what a core's turn is (a wait, an interrupt, a trap of the fetch, a slot of a stream or an
instruction), and what the environment's turns do (spec 08 R193 to R202, 10 R235, 12 R279).
-/

namespace Sys2Proof.Machine

/-- What a turn comes to: an instruction or event to execute, or a state in which nothing more happens. -/
inductive Plan where
  | run (i : Instr) (s : State)
  | rest (s : State)
  deriving DecidableEq, Repr

/-- The next turn: the head of the agenda, else the core in focus. -/
def State.nextTurn (s : State) : Turn × State :=
  match s.agenda with
  | [] => (.core s.core.id, s)
  | t :: ts => (t, { s with agenda := ts })

/-- A word that the core in focus is to execute: no instruction (R279), one that holds at issue (R172, R393), or one to run. -/
def State.planWord (s : State) (w : IWord) : Plan :=
  match decode w with
  | none => .run (.illegalEncoding w) s
  | some i => if s.interlocked i then .rest (s.holdAt .retry w) else .run i s

/-- A core's turn at its pc, on its own fetch (R279). An instruction that holds the core has been fetched: the core goes on with it, and issues no
further access for it (R189, R330, R411). -/
def State.planFetch (s : State) : Plan :=
  match if s.core.hold = .none then none else s.core.issued with
  | some w => s.planWord w
  | none =>
    match runChk (fetchWord s.ctx.pc) s with
    | (.error _, _) => .run .fetchFailure s
    | (.ok w, t) => t.planWord w

/-- A member has nothing to execute in this stream cycle (R193 to R195). -/
def State.passSlot (s : State) (l : GangLink) : State :=
  (s.modGang l.gang fun g => g.modMember l.pos fun m => { m with slotDone := true }).gangTick l.gang

/-- The leader in an issue hold: it issues nothing; where a member has failed, the wait traps BARRIER_POISON once (R195, R251). -/
def State.issueHold (s : State) (l : GangLink) : State :=
  match (s.memberAt l).bind fun m => m.poison with
  | none => s.passSlot l
  | some p =>
    (s.modGang l.gang fun g => g.modMember l.pos fun m => { m with poison := none }).trapNow cBarrierPoison (p.setWidth 64) none

/-- The stream instruction that is due at an attached member (R193). -/
def State.dueEntry (s : State) (g : Gang) (l : GangLink) : Option Entry :=
  match s.entryFor l with
  | none => none
  | some e => if e.t + l.pos * g.skew ≤ g.now then some e else none

/-- Whether a core has in hand what it completes before an interrupt: a frame, or another instruction that has begun (R29, R235, R380). -/
def State.inHand (s : State) : Bool := s.core.hold != .none && (s.core.frame.isSome || s.completesInHand)

/-- A turn of a leader or attached member in its slot of the stream (R193 to R196): nothing where the gang is frozen (R194, R202, R204), but that a
member of a gang that is being pre-empted ends what it must complete before it takes its PREEMPT (R29, R235, R380, log 118). -/
def State.planStream (s : State) (l : GangLink) (g : Gang) : Plan :=
  if s.frozen g then (if g.parking ∧ s.inHand then s.planFetch else .rest s)
  else match s.nextArrival g with
  | some k => .run (.xshArrival k) s
  | none =>
    if (g.member? l.pos).any fun m => m.slotDone then .rest (s.gangTick l.gang)
    else if s.ctx.gangMode = 1 then
      if g.hold ≠ .none then .rest (s.issueHold l) else s.planFetch
    else match s.dueEntry g l with
      | none => .rest (s.passSlot l)
      | some e => (s.setPc e.pc).planWord e.word

/-- The gang in whose stream the core in focus takes its turns. -/
def State.streamGang (s : State) : Option (GangLink × Gang) :=
  if s.core.inStream then s.core.link.bind fun l => (s.gang? l.gang).map fun g => (l, g) else none

/-- The trap that the core in focus is to take can be taken, once its own earlier accesses are complete: that of an instruction at its address, and
that of an access that was lost at the instruction that is not started (R29, R237, R464). -/
def State.dueTrap (s : State) : Option State :=
  match s.core.trapDue with
  | none =>
    match s.core.lost.find? fun a => a.level == s.core.level with
    | none => none
    | some a =>
      if s.completesFirst then none
      else
        let t := (s.modCore fun c => { c with lost := c.lost.erase a }).atSlot.abandon
        some (t.takeTrap false cEccUncorr a.info t.ctx.pc none)
  | some d =>
    if s.resultsPending then some s else some (s.takeTrap false d.cause d.info d.ret d.word)

/-- A core's turn. An interrupt that can be taken comes before the instruction that is held, so that a core whose wait never ends is regained
(R235, R256). Where a result of an atomic comes before it, the core starts no word meanwhile, and goes on with what it has in hand (R29, R172,
R279). -/
def State.planCore (s : State) : Plan :=
  if s.core.run ≠ .running ∨ s.core.out.isSome then .rest s
  else match s.dueTrap with
    | some t => .rest t
    | none =>
      if s.takeable.isSome ∧ s.mustFinish = false then .run .takeInterrupt s
      else if s.takeable.isSome ∧ s.inHand = false then .rest s
      else match s.streamGang with
        | none => s.planFetch
        | some (l, g) => s.planStream l g

/-- Cells as runs of bytes at rising addresses: what stands at successive addresses is one write, and so is a whole word (R116). -/
def cellRuns (cells : List Host.Cell) : List (Nat × List Byte) :=
  cells.foldr (fun c runs => match runs with
    | (a, bs) :: rest => if c.1 + 1 = a then (c.1, c.2 :: bs) :: rest else (c.1, [c.2]) :: runs
    | [] => [(c.1, [c.2])]) []

/-- Cells of device, host or peer memory that a party outside the device writes (R16, R17). -/
def State.outsideWrites (s : State) (cells : List Host.Cell) : State :=
  let mine := cells.filter fun c => decide (c.1 < localBytes) || (decide (2 ^ 50 ≤ c.1) && decide (c.1 < poolKeys))
  (cellRuns mine).foldl (fun s r => s.poke r.1 r.2) s

/-- A corrected error in an access of the unit that a core runs: a fault event and a self-test of the unit that reports it, a cluster's or the
memory side's. Its cause and information are left open (R250, R253). -/
def State.correctedError (s : State) (core : Nat) (test : SelfTest) : State :=
  let (n, s) := s.takeFresh
  let (m, s) := s.takeFresh
  (s.faultEvent core true (Config.freeWord n) (Config.freeWord m)).modDev fun d => { d with tests := d.tests ++ [test] }

/-- A device fatal error: an uncorrectable error in the management complex, the bridge or a whole stack. It is logged as FATAL, and every
launch of every partition ends with STATUS FAULT (R250, R472). -/
def State.fatalError (s : State) (unit : BitVec 6) (place : BitVec 52) : State :=
  s.dev.launches.foldl (fun s l => s.endLaunch l.lnum 1) (s.log 3 unit place)

/-- A word of memory takes an uncorrectable error: what it holds from then on is left open (R80, log 116). -/
def State.corruptWord (s : State) (word : Nat) : State :=
  if canFail (word * 8) then
    let (n, s) := s.takeFresh
    s.modDev fun d => { d with
      mem := Memory.writeBytes d.mem (word * 8) (leBytes 8 (Config.freeWord n).toNat)
      bad := word :: d.bad.filter fun w => w != word }
  else s

/-- A scalar register of a core's active context takes an uncorrectable error: what it holds is left open, and a logic scan of the core is to come
(R253, log 116). -/
def State.registerError (s : State) (core : Nat) (r : Reg) : State :=
  match s.coreById core with
  | none => s
  | some _ =>
    let (n, s) := s.takeFresh
    (s.modCtxId core fun c => c.setX r (Config.freeWord n)).startTest 6 (physCoord core)

/-- A register or tile of a core's mirrors takes an uncorrectable error: what it holds is left open, and the mirror's self-test begins (R253, log
116). -/
def State.mirrorError (s : State) (core : Nat) (part : MirrorPart) : State :=
  match s.coreById core with
  | none => s
  | some _ =>
    let (n, s) := s.takeFresh
    let t := Config.freeTile n
    (s.modCtxId core fun c => match part with
      | .vreg r => c.setV r.toNat (t.setWidth 512)
      | .breg r => c.setB r (BReg.of (t.setWidth 4096).toNat (c.getB r).len (c.getB r).mask)
      | .ac j => c.setAc j.toNat t
      | .wt j => c.setWt j.toNat (t.setWidth 36864) (c.getWtPlanes j.toNat)).startTest 1 (physCoord core)

/-- TIME some nanoseconds on: it never goes backwards, so at its greatest value it stays (R320, log 8). -/
def laterTime (t : Word) (ns : Nat) : Word := BitVec.ofNat 64 (min (t.toNat + ns) (2 ^ 64 - 1))

/-- What happens in a turn of the environment: time passes, a translation, a walker's entry, a fetched word or a prefetched piece is
dropped (R86, R140, R328), a party outside writes, a word of memory, a pool or a cluster's memory takes an uncorrectable error (R80), an error is corrected or is fatal, a link carries a flit, or the firmware acts. -/
def State.environment (s : State) (t : Turn) : State :=
  match t with
  | .core _ => s
  | .event _ _ => s
  | .tick cycles ns =>
    let more (c : Core) : Core := { c with cycle := c.cycle + BitVec.ofNat 64 cycles }
    { s with
      core := more s.core
      rest := s.rest.map more
      dev := { s.dev with cycles := s.dev.cycles + cycles, time := laterTime s.dev.time ns } }
  | .dropTlb core k => s.modCoreId core fun c => { c with tlb := c.tlb.eraseIdx k }
  | .dropClusterTlb cluster k =>
    s.modDev fun d => { d with clusters := d.clusters.map fun c => if c.id = cluster then { c with tlb := c.tlb.eraseIdx k } else c }
  | .dropFetched cluster =>
    s.modDev fun d => { d with clusters := d.clusters.map fun c => if c.id = cluster then { c with words := [] } else c }
  | .dropPiece core k => s.modCtxId core fun c => c.dropPiece k
  | .dropWalk k => s.modDev fun d => { d with walkCache := d.walkCache.eraseIdx k }
  | .outside cells => s.outsideWrites cells
  | .corrupt word => s.corruptWord word
  | .registerError core r => s.registerError core r
  | .mirrorError core part => s.mirrorError core part
  | .corrected core unit place memSide => s.correctedError core { unit := unit, place := place, memSide := memSide }
  | .fatal unit place => s.fatalError unit place
  | .replayed link => s.linkPasses link
  | .firmware act => s.firmware act

/-- The plan of a turn: a core's, an event of the opcode table, or the environment's; none where the core is in reset. -/
def State.planTurn (s : State) (t : Turn) : Option Plan :=
  match t with
  | .core n => (s.focus n).map State.planCore
  | .event n i => (s.focus n).map fun s => if (encode i).isSome then .rest s else .run i s
  | _ => some (.rest (s.environment t))

/-- A core's counts over the n-th step of some cycles: what the spec leaves open of reads lost to an MMA of its own, which reads the mirror, and of
cycles in which an MLDW of its matrix engine waits for the expander, is at most one a cycle (R71, R72, R118, log 3, log 94). -/
def Core.elapse (c : Core) (n more : Nat) : Core :=
  let k := n * 8192 + c.id
  let reads := c.mtx.any fun j => mtxFn j.word == 2 && j.state == .running
  let expands := c.mtx.any fun j => mtxFn j.word == 0
  { c with
    cycle := c.cycle + BitVec.ofNat 64 more
    bankcf := if reads then c.bankcf.mapFinIdx fun i v _h => v + BitVec.ofNat 48 (min more (Config.bankLosses k (BitVec.ofNat 3 i))) else c.bankcf
    expstall := if expands then c.expstall + BitVec.ofNat 48 (min more (Config.expanderStall k)) else c.expstall }

/-- Time passes (R320, log 8). -/
def State.elapse (s : State) : State :=
  let (n, s) := s.takeFresh
  let more := 1 + Config.stepCycles n
  { s with
    core := s.core.elapse n more
    rest := s.rest.map fun c => c.elapse n more
    dev := { s.dev with cycles := s.dev.cycles + more, time := laterTime s.dev.time (Config.stepTime n) } }

/-- The bytes of a word, little-endian, from the numbering of the opcode table: n bytes. -/
def tableBytes (w : Nat) : List Byte := leBytes 4 w

/-- The key that the focused core's next fetch reads, where its checks pass. -/
def State.fetchKey (s : State) : Option Nat :=
  match runChk (resolve s.who .fetch (keepLow s.ctx.pc 48) 4 4) s with
  | (.ok k, _) => some k
  | (.error _, _) => none

/-- The machine with an instruction's word stored where the next step fetches it, and that step the focused core's own. -/
def State.placeWord (s : State) (w : Nat) : State :=
  let s := { s with agenda := [] }
  let s := s.modCore fun c => { c with run := .running, hold := .none, issued := none, out := none, arrived := [], passed := [], trapDue := none, lost := [] }
  match s.fetchKey with
  | none => s
  | some k =>
    let s := s.setMem (Memory.writeBytes s.dev.mem k (tableBytes w))
    s.modDev fun d => { d with clusters := d.clusters.map fun c => { c with words := c.words.filter fun x => x.1 != k } }

end Sys2Proof.Machine
end

