-- ==== Sys2Proof/Machine/Step.lean ====
section
/-!
DEFINITION. One step of the machine: the next turn of the agenda, or of the core in focus, and the time it takes.
-/

namespace Sys2Proof.Machine

/-- What a plan comes to. -/
def Plan.go : Plan → Host.Outcome State Fault Refusal
  | .rest s => .next s.elapse
  | .run i s =>
    match exec i s with
    | .next t => .next t.elapse
    | .fault r => .fault r
    | .refused r => .refused r

/-- One step. -/
def step (s : State) : Host.Outcome State Fault Refusal :=
  match s.nextTurn.2.planTurn s.nextTurn.1 with
  | some p => p.go
  | none =>
    match s.nextTurn.1 with
    | .core n => .fault (.noSuchCore n)
    | .event n _ => .fault (.noSuchCore n)
    | _ => .next s.nextTurn.2

/-- The state with an instruction of the opcode table stored where step fetches its next one (log 9). -/
def State.withFetchWord (s : State) (_nbits w : Nat) : State := s.placeWord w

end Sys2Proof.Machine
end

