-- ==== Sys2Proof/Safety.lean ====
section
/-!
DEFINITION. What counts as a safe run, and the terms in which the statements speak of one instruction: how it completes, where it traps or
waits, and when an access of its operands is admitted.
-/

namespace Sys2Proof.Machine

/-- The device's memory is in its canonical form. -/
def State.memOk (s : State) : Prop := Memory.wf s.dev.mem = true

/-- One byte of memory, by its key. -/
def State.byte (s : State) (a : Nat) : Byte := Memory.read s.dev.mem a

/-- What retiring makes of t, the state that the effect of instruction i left from s: the pc moves as f says, and a core of a stream books
its slot (R300, R315, R193). -/
def State.retired (s : State) (i : Instr) (f : Flow) (t : State) : State :=
  (t.modCore fun c => { c.unhold with ctx := c.ctx.retire f }).bookSlot s.core (wordOf i)

/-- Instruction i completes at s: t is the effect it has, and f the way the pc goes. -/
def State.completes (s : State) (i : Instr) (f : Flow) (t : State) : Prop := exec i s = .next (s.retired i f t)

/-- Instruction i completes in sequence, and writing v to rd is all its effect. -/
def State.computes (s : State) (i : Instr) (rd : Reg) (v : Word) : Prop := s.completes i .seq (s.setX rd v)

/-- Instruction i traps at s, taking cause n with its information; ret is the address that the trap returns to, and t the state the
instruction left. -/
def State.traps (s : State) (i : Instr) (n : Nat) (info ret : Word) (t : State) : Prop :=
  exec i s = .next (t.takeTrap false n info ret (some (wordOf i)))

/-- Instruction i holds its core at s: the core keeps it, and goes on with it or completes it later. -/
def State.waits (s : State) (i : Instr) (h : Hold) (t : State) : Prop := exec i s = .next (t.holdAt h (wordOf i))

/-- A scalar access of n bytes through pointer p passes its checks: key is the byte it names and t the state they leave (R9, R25). -/
def State.admits (s : State) (acc : Acc) (p : Word) (n key : Nat) (t : State) : Prop :=
  runChk (do checkScalar p; resolve s.who acc p n n) s = (.ok key, t)

/-- A load of n bytes at a key on the device, after the core's own earlier accesses to those lines: no word of it is bad (R80, R162). -/
def State.reads (t : State) (key n : Nat) (u : State) : Prop :=
  (regionOf key).offDevice = false ∧ t.quantumOn key n = false ∧ u = t.drainLines t.core.id key n t.dev.seq ∧ u.dev.badWord key n = none

/-- A little-endian value of n bytes at a key. -/
def State.value (s : State) (key n : Nat) : Nat := leNat (s.peek key n)

/-- Pointer addition at work in an address: the effective address, where it stays in the pointer's space (R10, R308). -/
def addressOf (a : Word) (imm : BitVec 16) : Option Word :=
  let r := ptrArith false a (imm.signExtend 64)
  if r.2 then none else some r.1

/-- Core c where core d executes: with d's pc and loop counts, its place in a gang's stream and what a barrier or a rejoin there does to it, what it
holds, and the matrix commands that entered its queue through the stream (R193, R199, R200, R205, R315). -/
def Core.placedAs (c d : Core) : Core :=
  { c with
    hold := d.hold, issued := d.issued, record := d.record, arrived := d.arrived, passed := d.passed, listing := d.listing, mtx := d.mtx
    ctx := { c.ctx with pc := d.ctx.pc, lcount0 := d.ctx.lcount0, lcount1 := d.ctx.lcount1, gang := d.ctx.gang, pieces := d.ctx.pieces } }

/-- Every core but that in focus is as before, but for where it executes. -/
def State.othersKept (s t : State) : Prop :=
  ∀ (n : Nat) (c : Core), n ≠ s.core.id → s.coreById n = some c → ∃ d, t.coreById n = some d ∧ d = c.placedAs d

/-- The page-table entry for an address in a table at a level of the walk (R82). -/
def State.pteAt (s : State) (table level va : Nat) : Word :=
  BitVec.ofNat 64 (leNat (s.peek (table + 8 * (va / 2 ^ (12 + 9 * level) % 512)) 8))

/-- The access of a scalar load or store: its kind, its address operands and its width in bytes (R308). -/
def scalarAccess : Instr → Option (Acc × Reg × BitVec 16 × Nat)
  | .lb _ rs1 imm => some (.load, rs1, imm, 1)
  | .lbu _ rs1 imm => some (.load, rs1, imm, 1)
  | .lh _ rs1 imm => some (.load, rs1, imm, 2)
  | .lhu _ rs1 imm => some (.load, rs1, imm, 2)
  | .lw _ rs1 imm => some (.load, rs1, imm, 4)
  | .lwu _ rs1 imm => some (.load, rs1, imm, 4)
  | .ld _ rs1 imm => some (.load, rs1, imm, 8)
  | .sb _ rs1 imm => some (.store, rs1, imm, 1)
  | .sh _ rs1 imm => some (.store, rs1, imm, 2)
  | .sw _ rs1 imm => some (.store, rs1, imm, 4)
  | .sd _ rs1 imm => some (.store, rs1, imm, 8)
  | _ => none

/-- The destination of an instruction that works on scalar registers alone (R300 to R307); none of any other. -/
def registerTarget : Instr → Option Reg
  | .add rd _ _ => some rd
  | .sub rd _ _ => some rd
  | .addi rd _ _ => some rd
  | .and rd _ _ => some rd
  | .or rd _ _ => some rd
  | .xor rd _ _ => some rd
  | .andn rd _ _ => some rd
  | .orn rd _ _ => some rd
  | .sll rd _ _ => some rd
  | .srl rd _ _ => some rd
  | .sra rd _ _ => some rd
  | .slt rd _ _ => some rd
  | .sltu rd _ _ => some rd
  | .min rd _ _ => some rd
  | .max rd _ _ => some rd
  | .minu rd _ _ => some rd
  | .maxu rd _ _ => some rd
  | .mul rd _ _ => some rd
  | .mulh rd _ _ => some rd
  | .mulhu rd _ _ => some rd
  | .div rd _ _ => some rd
  | .divu rd _ _ => some rd
  | .rem rd _ _ => some rd
  | .remu rd _ _ => some rd
  | .csel rd _ _ => some rd
  | .ptag rd _ _ => some rd
  | .pmesh rd _ _ => some rd
  | .slli rd _ _ => some rd
  | .srli rd _ _ => some rd
  | .srai rd _ _ => some rd
  | .andi rd _ _ => some rd
  | .ori rd _ _ => some rd
  | .xori rd _ _ => some rd
  | .slti rd _ _ => some rd
  | .sltiu rd _ _ => some rd
  | .shori rd _ _ => some rd
  | .clz rd _ => some rd
  | .ctz rd _ => some rd
  | .popc rd _ => some rd
  | .sextb rd _ => some rd
  | .sexth rd _ => some rd
  | .sextw rd _ => some rd
  | .zextw rd _ => some rd
  | .pfmt rd _ => some rd
  | .pblk rd _ => some rd
  | .lui rd _ => some rd
  | .auipc rd _ => some rd
  | _ => none

/-- Whether such an instruction adds to a pointer, and so may trap (R10). -/
def addsPointer : Instr → Bool
  | .add _ _ _ => true
  | .sub _ _ _ => true
  | .addi _ _ _ => true
  | _ => false

/-- A scalar store: its data register, its address operands and its width (R308). -/
def scalarStoreOf : Instr → Option (Reg × Reg × BitVec 16 × Nat)
  | .sb rs2 rs1 imm => some (rs2, rs1, imm, 1)
  | .sh rs2 rs1 imm => some (rs2, rs1, imm, 2)
  | .sw rs2 rs1 imm => some (rs2, rs1, imm, 4)
  | .sd rs2 rs1 imm => some (rs2, rs1, imm, 8)
  | _ => none

/-- Low 48 bits of a word, as an address register keeps them (R227). -/
def low48 (a : Word) : Word := BitVec.ofNat 64 (a.toNat % 2 ^ 48)

/-- The end in force of a hardware loop (R314). -/
def endInForce (lend lcount : Word) : Word := lend + 4 * (BitVec.ofInt 64 (lcount.extractLsb' 32 32).toInt)

/-- A loop's iterations left (R314). -/
def countOf (lcount : Word) : Nat := lcount.toNat % 2 ^ 32

/-- The end-of-body test of one loop applies to an instruction at a (R315). -/
def testApplies (lend lcount a : Word) : Prop := countOf lcount ≠ 0 ∧ a = endInForce lend lcount

/-- A pointer to a versioned cell passes its checks and names the cell at key (R348). -/
def State.cellNamed (s : State) (p : Word) (key : Nat) : Prop :=
  p.toNat / 2 ^ 59 < 10 ∧ p.toNat % 64 = 0 ∧ p.getLsbD 55 = true ∧ p.toNat / 2 ^ 53 % 4 < 2 ∧ s.meshKey s.who p 64 = some key

/-- A coordinate word names a core for the core in focus (R331). -/
def State.names (s : State) (v : Word) (target : Nat) : Prop := runChk (coordCore s.who v) s = (.ok target, s)

/-- A part of an instruction's body neither traps nor waits at s: it answers a and leaves t. -/
def State.gives {α : Type} (s : State) (act : Act α) (a : α) (t : State) : Prop := act s = .ok a t

/-- An engine's part of its work comes out at s with a, and leaves t. -/
def State.engineGives {α : Type} (s : State) (act : Eng α) (a : α) (t : State) : Prop := act s = .ok a t

/-- A DMA command passes the checks of a push in their order, and the queue has room for it: t is the state the checks leave, op its
operation, and ms the cores of the gang that a deal is made to (R91, R95, R101). -/
def State.dmaPasses (s : State) (c : DmaCmd) (op : DmaOp) (ms : List Nat) (t : State) : Prop :=
  s.core.dmaTags.getLsbD c.tag.toNat = false ∧ c.ctl.toNat / 2 ^ 10 = 0 ∧ c.kind < 2 ∧ (c.toff = 0 ∨ hasTable c.src = true) ∧
  (c.isDeal = true → c.dest.toNat % 2 ^ 56 = 0) ∧ dmaOp c.src c.dest = some op ∧
  (∃ a b d,
    (if c.isDeal then a = s else s.gives (firstByte .store c.dest (startAlign (fmtOf c.dest))) () a) ∧
    a.gives (firstByte .load c.src (startAlign (fmtOf c.src))) () b ∧
    (if hasTable c.src then b.gives (firstByte .load (ptrAt c.src c.toff) (if fmtOf c.src ≠ 21 ∧ c.toff % 16 = 0 then 16 else 1)) () d
      else d = b) ∧
    (if c.ctl.getLsbD 8 then ∃ key e, d.gives (scalarKey .store c.arrive 8) key e ∧
        (if c.isDeal then e.gives (dealChecks c) ms t else ms = [] ∧ t = e)
      else if c.isDeal then d.gives (dealChecks c) ms t else ms = [] ∧ t = d)) ∧
  c.len32 % dmaUnit op c.src c.dest = 0 ∧ c.toff % 16 = 0 ∧
  (c.isDeal = true → ¬(t.ctx.gangMode = 2 ∧ t.core.inStream = true)) ∧ t.core.q0Waiting < 16

/-- A DMA command enters q0: it will begin at chunk next, its tag's two bits are clear, and its tag is in flight (R91, R95, R113). -/
def State.queueDma (t : State) (c : DmaCmd) (next : Nat) (ms : List Nat) : State :=
  ((t.modDev fun d => { d with seq := d.seq + 1 }).modCtx fun x => { x with
      tagrdy := setBit x.tagrdy c.tag.toNat false, tagerr := setBit x.tagerr c.tag.toNat false }).modCore fun k => { k with
    dmaTags := setBit k.dmaTags c.tag.toNat true
    dma := k.dma ++ [{ cmd := c, started := false, next := next, stage := .idle, failed := none, seq := t.dev.seq, narm := t.ctx.narm
                       kptb := t.core.kptb, level := t.core.level, members := ms }] }

/-- An eddy command of four words passes the checks of a push, its tag is free or is that of the command to be resumed, and its queue has
room: t is the state the checks leave (R126, R135). -/
def State.eddyPasses (s : State) (idx base w10 w18 : Word) (scatter resumed : Bool) (t : State) : Prop :=
  s.dev.eddyBusy s.core.id (w18.toNat / 2 ^ 32 % 16) = false ∧
  (resumed = false → s.core.eddyTags.getLsbD (w18.toNat / 2 ^ 32 % 16) = false) ∧
  s.gives (eddyChecks idx base w10 w18 scatter) () t ∧ t.dev.q4Waiting t.core.id < 4

/-- An eddy command enters q4, to begin at row next, and its tag is in use (R126, R135). -/
def State.queueEddy (t : State) (idx base w10 w18 : Word) (scatter : Bool) (next : Nat) : State :=
  (t.modDev fun d => { d with
    seq := d.seq + 1
    eddy := d.eddy ++ [{ core := t.core.id, idx := idx, base := base, w10 := w10, w18 := w18, scatter := scatter, started := false, next := next
                         failed := none, seq := t.dev.seq, kptb := t.core.kptb, level := t.core.level }] }).modCore fun k => { k with
    eddyTags := k.eddyTags ||| (1#16 <<< (w18.toNat / 2 ^ 32 % 16)) }

/-- Reading groups as operands gives these values and leaves this state: every stream bound to one of their registers has popped (R359). -/
def State.givesGroups (s : State) (gs : List (Reg × Nat)) (vs : List Nat) (t : State) : Prop := readGroups gs s = .ok vs t

/-- Writing a group leaves this state: every write stream bound to one of its registers has its append on the way (R139, R359). -/
def State.takesGroup (s : State) (r : Reg) (n v : Nat) (t : State) : Prop := writeGroup r n v s = .ok () t

/-- The number that a finite datum stands for. -/
def FVal.number : FVal → ℚ
  | .fin neg m e => (if neg then -1 else 1) * m * 2 ^ e
  | .inf _ => 0
  | .nan _ => 0

/-- A result is that of rounding an exact number, which is not zero, once. -/
def Fmt.rounds (f : Fmt) (rm : Rm) (v : ℚ) (r : Nat × Flg) : Prop :=
  ∃ (m : Nat) (e : Int), m ≠ 0 ∧ (m : ℚ) * 2 ^ e = |v| ∧ r = f.round rm (decide (v < 0)) m e false

/-- A result is that of rounding once a magnitude that is known by the numbers that do not exceed it and by which number it is, from its leading
bits and whether it has more. -/
def Fmt.roundsBits (f : Fmt) (rm : Rm) (neg : Bool) (reaches is : ℚ → Prop) (r : Nat × Flg) : Prop :=
  ∃ (q : Nat) (k : Int) (sticky : Bool), 2 ^ (f.fb + 2) ≤ q ∧ reaches (q * 2 ^ k) ∧ ¬reaches ((q + 1) * 2 ^ k) ∧
    (sticky = true ↔ ¬is (q * 2 ^ k)) ∧ r = f.round rm neg q k sticky

/-- An integer is a number rounded to an integer under a rounding mode. -/
def Rm.picks (rm : Rm) (v : ℚ) (t : Int) : Prop :=
  match rm with
  | .rne => |v - t| ≤ 1 / 2 ∧ (|v - t| = 1 / 2 → t % 2 = 0)
  | .rtz => |(t : ℚ)| ≤ |v| ∧ |v - t| < 1
  | .rup => v ≤ t ∧ t < v + 1
  | .rdn => t ≤ v ∧ v < t + 1

/-! ## Expansion of an entropy-coded chunk, as R105 to R107 put it -/

/-- The code word of a symbol, of the lengths that a code-length table gives the symbols: codes rise by length, and within a length by symbol (R105). -/
def codeWord (lens : List Nat) (sym : Nat) : Nat :=
  (((List.range 273).filter fun t => lens.getD t 0 ≠ 0 ∧ (lens.getD t 0 < lens.getD sym 0 ∨ lens.getD t 0 = lens.getD sym 0 ∧ t < sym)).map
    fun t => 2 ^ (lens.getD sym 0 - lens.getD t 0)).sum

/-- The bits of a stream of total bits from k on spell the code word of a symbol, most significant bit first (R106). -/
def Spells (slot : List Byte) (total : Nat) (lens : List Nat) (k sym : Nat) : Prop :=
  let n := lens.getD sym 0
  sym < 273 ∧ n ≠ 0 ∧ k + n ≤ total ∧ ∀ i, i < n → ((codeWord lens sym).testBit (n - 1 - i) = true ↔ streamBit slot (k + i) = 1)

/-- A match's copy of n bytes from d back, which may overlap what it writes (R107). -/
def copyAhead (d : Nat) : Nat → List Byte → List Byte
  | 0, out => out
  | n + 1, out => copyAhead d n (out ++ [out.getD (out.length - d) 0])

/-- From bit k, with some bytes out already, the loop of R107 comes to an end with these bytes, this status and this sub-code. -/
inductive Expands (slot : List Byte) (total d : Nat) (lens : List Nat) : Nat → List Byte → List Byte × Nat × Nat → Prop where
  | noCode {k out} : (∀ sym, ¬Spells slot total lens k sym) → Expands slot total d lens k out (out, 1, if total < k + 15 then 5 else 2)
  | early {k out} : Spells slot total lens k 256 → out.length < d → Expands slot total d lens k out (out, 1, 3)
  | finish {k out} : Spells slot total lens k 256 → d ≤ out.length → Expands slot total d lens k out (out, 0, 0)
  | full {k out sym} : sym < 256 → Spells slot total lens k sym → out.length = d → Expands slot total d lens k out (out, 1, 4)
  | literal {k out sym r} : sym < 256 → Spells slot total lens k sym → out.length < d →
      Expands slot total d lens (k + lens.getD sym 0) (out ++ [BitVec.ofNat 8 sym]) r → Expands slot total d lens k out r
  | cut {k out sym} : 256 < sym → Spells slot total lens k sym → total < k + lens.getD sym 0 + 12 → Expands slot total d lens k out (out, 1, 5)
  | reach {k out sym} (dist : Nat) : 256 < sym → Spells slot total lens k sym → k + lens.getD sym 0 + 12 ≤ total →
      dist = readBits slot (k + lens.getD sym 0) 12 + 1 → out.length < dist → Expands slot total d lens k out (out, 1, 1)
  | over {k out sym} (dist : Nat) : 256 < sym → Spells slot total lens k sym → k + lens.getD sym 0 + 12 ≤ total →
      dist = readBits slot (k + lens.getD sym 0) 12 + 1 → dist ≤ out.length → out.length ≤ d → d < out.length + (sym - 254) →
      Expands slot total d lens k out (copyAhead dist (d - out.length) out, 1, 4)
  | repeated {k out sym r} (dist : Nat) : 256 < sym → Spells slot total lens k sym → k + lens.getD sym 0 + 12 ≤ total →
      dist = readBits slot (k + lens.getD sym 0) 12 + 1 → dist ≤ out.length → out.length + (sym - 254) ≤ d →
      Expands slot total d lens (k + lens.getD sym 0 + 12) (copyAhead dist (sym - 254) out) r → Expands slot total d lens k out r

end Sys2Proof.Machine
end

