-- ==== Sys2Proof/Certificates/Slice0/Obligations.lean ====
section
/-!
DEFINITION. What is claimed of the machine, for the provers: one statement for each definition, and the rules it formalises.
-/

open Sys2Proof Sys2Proof.Machine

/-- Every well-formed instruction that has a word decodes from it (R281 to R297). -/
def Obligations.DecodeOfEncode : Prop :=
  ∀ i : Instr, i.wf = true → i.encoded = true → ∃ w, encode i = some w ∧ decode w = some i

/-- A word that decodes is the encoding of the well-formed instruction it decodes to: no bit of it is ignored (R275, R278). -/
def Obligations.EncodeOfDecode : Prop :=
  ∀ (w : IWord) (i : Instr), decode w = some i → i.wf = true ∧ i.encoded = true ∧ encode i = some w

/-- Words written out from the encodings of R281 to R297 decode to what they stand for. -/
def Obligations.SampleWordsDecode : Prop :=
  decode 0b000001_00011_00100_00101_00_000000001#32 = some (.sub 3 4 5) ∧
  decode 0b000001_00011_00100_111111_0_000001100#32 = some (.srai 3 4 63) ∧
  decode 0b000010_00011_00100_1111111111111111#32 = some (.addi 3 4 0xFFFF) ∧
  decode 0b010001_00011_00100_0000000000001000#32 = some (.ld 3 4 8) ∧
  decode 0b010111_00001_00010_1111111111111110#32 = some (.bne 1 2 0xFFFE) ∧
  decode 0b011110_1_00101_00000000000000000100#32 = some (.loop 1 5 4) ∧
  decode 0b011111_00000_00110_001100000100_0010#32 = some (.csrs 0x304 6) ∧
  decode 0b100000_00000_00000_0000000_11_101_0000#32 = some (.fence .full .sys) ∧
  decode 0b100001_00001_00010_00011_00_1000_11_100#32 = some (.amo .swap (.acqrel .dev) 1 2 3) ∧
  decode 0b100010_00001_00010_00011_00000000_010#32 = some (.cld 1 2 3) ∧
  decode 0b100011_00001_00010_00011_111111_00001#32 = some (.dmad 1 2 3 63) ∧
  decode 0b100100_00100_00010_11111_10_0011_00_000#32 = some (.vld .w4 4 2 0b11111 (.planes 2)) ∧
  decode 0b100101_00010_00100_00110_01_010_000000#32 = some (.vadd .sw .w2 2 4 6) ∧
  decode 0b100110_00001_00010_00011_00_111_000011#32 = some (.vfma .sf .w1 1 2 3) ∧
  decode 0b100111_00001_00010_00011_00_001_000000#32 = some (.vmovx .sh 1 2 3) ∧
  decode 0b101000_11110_00000_1111111111111_010#32 = some (.stend 2 0b1111111111111) ∧
  decode 0b101001_0111_1_00011_0010_101_000000000#32 = some (.repf 7 true 3 2 5) ∧
  decode 0b101010_00100_00010_00000000_01_1_0_1001#32 = some (.xwrap .w2 4 2 true) ∧
  decode 0b101011_101_10_01_111_00011_110_11_101_010#32 = some (.mma 5 2 1 7 3 6 3 5) ∧
  decode 0b101100_00001_00010_00011_000000_01_100#32 = some (.rscan 1 2 3 true) ∧
  decode 0b101101_00001_00010_00011_1010_00_1_0100#32 = some (.bmux 1 2 3 10 true)

/-- A step is the exec of the instruction that decodes, and time passes: at a core of no stream, the one whose word it fetches; at the
leader of a stream that is in no issue hold, likewise; at an attached member, the stream instruction due in its slot. An instruction that holds the core is the one it goes on with, and is not fetched again. A
turn of an event of the opcode table is that event's exec (R189, R193, R279, R330). The turns before it are those that neither an interrupt, a due
trap, a pending result, a freeze of the gang, a shift's arrival nor an issue interlock takes. -/
def Obligations.StepRunsDecodedInstruction : Prop :=
  ∀ (s t : State) (w : IWord) (i : Instr),
    let runs (u : State) : Prop := step s = (match exec i u with
      | .next v => .next v.elapse
      | .fault f => .fault f
      | .refused r => .refused r)
    (s.agenda = [] → s.core.run = .running → s.core.out = none → s.core.trapDue = none → s.core.lost = [] → s.takeable = none →
      (s.core.inStream = false → s.core.hold ≠ .none → s.core.issued = some w → decode w = some i → s.interlocked i = false → runs s) ∧
      (s.core.inStream = false → s.core.hold = .none → runChk (fetchWord s.ctx.pc) s = (.ok w, t) → decode w = some i → t.interlocked i = false → runs t) ∧
      (∀ (l : GangLink) (g : Gang), s.core.inStream = true → s.core.link = some l → s.gang? l.gang = some g → s.frozen g = false → s.nextArrival g = none →
        (∀ m, g.member? l.pos = some m → m.slotDone = false) →
        (s.ctx.gangMode = 1 → g.hold = .none → s.core.hold = .none → runChk (fetchWord s.ctx.pc) s = (.ok w, t) → decode w = some i → t.interlocked i = false →
          runs t) ∧
        (∀ e, s.ctx.gangMode ≠ 1 → s.entryFor l = some e → e.t + l.pos * g.skew ≤ g.now → decode e.word = some i →
          (s.setPc e.pc).interlocked i = false → runs (s.setPc e.pc)))) ∧
    (∀ n ts, s.agenda = .event n i :: ts → encode i = none → ({ s with agenda := ts } : State).focus n = some t → runs t)

/-- The register values that the spec states for reset, on the one core that runs after power-on (R231 to R241, R320, R466, R470). -/
def Obligations.ResetRegisters : Prop :=
  State.reset.core.level = .f ∧ State.reset.ctx.pc = 0x0000_FFFF_0000_0000 ∧ State.reset.core.fvec = 0x0000_FFFF_0000_0000 ∧
  State.reset.core.mgmt = true ∧ State.reset.rest = [] ∧ State.reset.core.kvec = 0 ∧ State.reset.core.kptb = 0 ∧
  State.reset.core.kie = 2 ∧ State.reset.core.kip = 0 ∧ State.reset.core.ktcmp = 0xFFFF_FFFF_FFFF_FFFF ∧ State.reset.core.fdeleg = 0 ∧
  State.reset.core.fstatus = 8 ∧ State.reset.core.kstat = 0 ∧ State.reset.core.unack = 0 ∧ State.reset.dev.time = 0 ∧
  State.reset.dev.errlog = [] ∧ State.reset.dev.bootState = 0 ∧ State.reset.dev.pwrcap = 1500

/-- The reset machine's memory is in canonical form. -/
def Obligations.ResetMemoryCanonical : Prop := State.reset.memOk

/-- Every step keeps the canonical form of memory. -/
def Obligations.StepKeepsMemoryCanonical : Prop := ∀ s t : State, s.memOk → step s = .next t → t.memOk

/-- Bytes written read back, every other byte reads as before, and memory stays in canonical form (the store of R308 at its home). -/
def Obligations.MemoryReadAfterWrite : Prop :=
  ∀ (m : List Host.Cell) (a b : Nat) (bs : List Byte), Memory.wf m = true →
    Memory.wf (Memory.writeBytes m a bs) = true ∧
    Memory.read (Memory.writeBytes m a bs) b = (if a ≤ b ∧ b < a + bs.length then bs.getD (b - a) 0 else Memory.read m b)

/-- x0 reads as zero and ignores writes (R182). -/
def Obligations.ZeroRegisterHardwired : Prop :=
  ∀ (c : Ctx) (r q : Reg) (v : Word), c.getX 0 = 0 ∧ c.setX 0 v = c ∧ (r ≠ 0 → (c.setX r v).getX q = if q = r then v else c.getX q)

/-- Results of the three-register instructions that compute on bits, compare or multiply, and of the shift-immediates, which act as the shifts
by sh (R301, R302). -/
def Obligations.ThreeRegisterResults : Prop :=
  (∀ (s : State) (rd rs1 rs2 : Reg) (sh : BitVec 6),
      let a := s.ctx.getX rs1
      let b := s.ctx.getX rs2
      s.computes (.and rd rs1 rs2) rd (a &&& b) ∧ s.computes (.or rd rs1 rs2) rd (a ||| b) ∧
      s.computes (.xor rd rs1 rs2) rd (a ^^^ b) ∧ s.computes (.andn rd rs1 rs2) rd (a &&& ~~~b) ∧
      s.computes (.orn rd rs1 rs2) rd (a ||| ~~~b) ∧
      s.computes (.sll rd rs1 rs2) rd (BitVec.ofNat 64 (a.toNat * 2 ^ (b.toNat % 64))) ∧
      s.computes (.srl rd rs1 rs2) rd (BitVec.ofNat 64 (a.toNat / 2 ^ (b.toNat % 64))) ∧
      s.computes (.sra rd rs1 rs2) rd (BitVec.ofInt 64 (a.toInt / 2 ^ (b.toNat % 64))) ∧
      s.computes (.slli rd rs1 sh) rd (BitVec.ofNat 64 (a.toNat * 2 ^ sh.toNat)) ∧
      s.computes (.srli rd rs1 sh) rd (BitVec.ofNat 64 (a.toNat / 2 ^ sh.toNat)) ∧
      s.computes (.srai rd rs1 sh) rd (BitVec.ofInt 64 (a.toInt / 2 ^ sh.toNat))) ∧
  (∀ (s : State) (rd rs1 rs2 : Reg),
      let a := s.ctx.getX rs1
      let b := s.ctx.getX rs2
      s.computes (.slt rd rs1 rs2) rd (if a.toInt < b.toInt then 1 else 0) ∧
      s.computes (.sltu rd rs1 rs2) rd (if a.toNat < b.toNat then 1 else 0) ∧
      s.computes (.min rd rs1 rs2) rd (if a.toInt ≤ b.toInt then a else b) ∧
      s.computes (.max rd rs1 rs2) rd (if a.toInt ≤ b.toInt then b else a) ∧
      s.computes (.minu rd rs1 rs2) rd (if a.toNat ≤ b.toNat then a else b) ∧
      s.computes (.maxu rd rs1 rs2) rd (if a.toNat ≤ b.toNat then b else a) ∧
      s.computes (.mul rd rs1 rs2) rd (BitVec.ofNat 64 (a.toNat * b.toNat)) ∧
      s.computes (.mulh rd rs1 rs2) rd (BitVec.ofInt 64 (a.toInt * b.toInt / 2 ^ 64)) ∧
      s.computes (.mulhu rd rs1 rs2) rd (BitVec.ofNat 64 (a.toNat * b.toNat / 2 ^ 64)))

/-- Results of the divisions, with division by zero and N ÷ -1 (R34). -/
def Obligations.DivisionResults : Prop :=
  ∀ (s : State) (rd rs1 rs2 : Reg),
    let a := s.ctx.getX rs1
    let b := s.ctx.getX rs2
    let n : Word := 0x8000_0000_0000_0000
    (b = 0 →
      s.computes (.div rd rs1 rs2) rd 0xFFFF_FFFF_FFFF_FFFF ∧ s.computes (.divu rd rs1 rs2) rd 0xFFFF_FFFF_FFFF_FFFF ∧
      s.computes (.rem rd rs1 rs2) rd a ∧ s.computes (.remu rd rs1 rs2) rd a) ∧
    (a = n ∧ b = 0xFFFF_FFFF_FFFF_FFFF → s.computes (.div rd rs1 rs2) rd n ∧ s.computes (.rem rd rs1 rs2) rd 0) ∧
    (b ≠ 0 ∧ ¬(a = n ∧ b = 0xFFFF_FFFF_FFFF_FFFF) →
      ∃ q r : Word, q.toInt = a.toInt.tdiv b.toInt ∧ r.toInt = a.toInt - b.toInt * q.toInt ∧
        s.computes (.div rd rs1 rs2) rd q ∧ s.computes (.rem rd rs1 rs2) rd r) ∧
    (b ≠ 0 → ∃ q r : Word, q.toNat = a.toNat / b.toNat ∧ r.toNat = a.toNat - b.toNat * q.toNat ∧
        s.computes (.divu rd rs1 rs2) rd q ∧ s.computes (.remu rd rs1 rs2) rd r)

/-- Results of the unary instructions, of the immediate instructions that no tag concerns, of CSEL and of the pointer helpers (R303 to R307). -/
def Obligations.UnaryImmediateAndFieldResults : Prop :=
  (∀ (s : State) (rd rs1 : Reg) (imm : BitVec 16),
      let a := s.ctx.getX rs1
      (∃ n, n ≤ 64 ∧ (∀ i, i < n → a.getLsbD (63 - i) = false) ∧ (n < 64 → a.getLsbD (63 - n) = true) ∧
        s.computes (.clz rd rs1) rd (BitVec.ofNat 64 n)) ∧
      (∃ n, n ≤ 64 ∧ (∀ i, i < n → a.getLsbD i = false) ∧ (n < 64 → a.getLsbD n = true) ∧
        s.computes (.ctz rd rs1) rd (BitVec.ofNat 64 n)) ∧
      s.computes (.popc rd rs1) rd (BitVec.ofNat 64 (((List.range 64).filter fun i => a.getLsbD i).length)) ∧
      s.computes (.sextb rd rs1) rd (BitVec.ofInt 64 (a.setWidth 8).toInt) ∧
      s.computes (.sexth rd rs1) rd (BitVec.ofInt 64 (a.setWidth 16).toInt) ∧
      s.computes (.sextw rd rs1) rd (BitVec.ofInt 64 (a.setWidth 32).toInt) ∧
      s.computes (.zextw rd rs1) rd (BitVec.ofNat 64 (a.toNat % 2 ^ 32)) ∧
      s.computes (.andi rd rs1 imm) rd (a &&& BitVec.ofNat 64 imm.toNat) ∧
      s.computes (.ori rd rs1 imm) rd (a ||| BitVec.ofNat 64 imm.toNat) ∧
      s.computes (.xori rd rs1 imm) rd (a ^^^ BitVec.ofNat 64 imm.toNat) ∧
      s.computes (.slti rd rs1 imm) rd (if a.toInt < imm.toInt then 1 else 0) ∧
      s.computes (.sltiu rd rs1 imm) rd (if a.toNat < (BitVec.ofInt 64 imm.toInt).toNat then 1 else 0) ∧
      s.computes (.lui rd imm) rd (BitVec.ofInt 64 (imm.toInt * 2 ^ 16)) ∧
      s.computes (.auipc rd imm) rd (BitVec.ofInt 64 ((s.ctx.pc.toNat % 2 ^ 48 : Nat) + imm.toInt * 2 ^ 16)) ∧
      s.computes (.shori rd rs1 imm) rd (BitVec.ofNat 64 (a.toNat * 2 ^ 16) ||| BitVec.ofNat 64 imm.toNat)) ∧
  (∀ (s : State) (rd rs1 rs2 : Reg),
      let a := s.ctx.getX rs1
      let b := s.ctx.getX rs2
      (a ≠ 0 → s.computes (.csel rd rs1 rs2) rd b) ∧ (a = 0 → s.completes (.csel rd rs1 rs2) .seq s) ∧
      s.computes (.ptag rd rs1 rs2) rd (b.extractLsb' 0 8 ++ a.extractLsb' 0 56) ∧
      s.computes (.pfmt rd rs1) rd (BitVec.ofNat 64 (a.extractLsb' 59 5).toNat) ∧
      s.computes (.pblk rd rs1) rd (BitVec.ofNat 64 (a.extractLsb' 56 3).toNat) ∧
      s.computes (.pmesh rd rs1 rs2) rd
        (b.extractLsb' 56 8 ++ 1#1 ++ a.extractLsb' 24 2 ++ a.extractLsb' 16 1 ++ a.extractLsb' 8 6 ++ a.extractLsb' 0 6 ++ b.extractLsb' 0 40))

/-- ADD, SUB and ADDI: plain sums without a tag, and with one the tag kept and the space checked, or PTR_RANGE with rd unchanged (R10). -/
def Obligations.PointerArithmetic : Prop :=
  ∀ (s : State) (rd rs1 rs2 : Reg) (imm : BitVec 16) (i : Instr) (sum : Word),
    let a := s.ctx.getX rs1
    let r := (a &&& 0xFF00_0000_0000_0000) ||| (sum &&& 0x00FF_FFFF_FFFF_FFFF)
    (i = .add rd rs1 rs2 ∧ sum = a + s.ctx.getX rs2 ∨ i = .sub rd rs1 rs2 ∧ sum = a - s.ctx.getX rs2 ∨
      i = .addi rd rs1 imm ∧ sum = a + imm.signExtend 64) →
    (a.toNat / 2 ^ 56 = 0 → s.computes i rd sum) ∧
    (a.toNat / 2 ^ 56 ≠ 0 ∧ r.getLsbD 55 = a.getLsbD 55 → s.computes i rd r) ∧
    (a.toNat / 2 ^ 56 ≠ 0 ∧ r.getLsbD 55 ≠ a.getLsbD 55 → s.resultsPending = false → s.traps i 9 r s.ctx.pc s)


/-- An instruction that retires in sequence leaves the pc 4 on, and the end-of-body tests are made, level 1 first; a jump makes none (R300,
R315). -/
def Obligations.RetirementAndHardwareLoops : Prop :=
  ∀ c : Ctx,
    let one := testApplies c.lend1 c.lcount1 c.pc
    let zero := testApplies c.lend0 c.lcount0 c.pc
    (¬one ∧ ¬zero → c.retire .seq = { c with pc := c.pc + 4 }) ∧
    (one ∧ 1 < countOf c.lcount1 →
      c.retire .seq = { c with pc := c.lstart1, lcount1 := BitVec.ofNat 64 (countOf c.lcount1 - 1) }) ∧
    (one ∧ countOf c.lcount1 = 1 ∧ ¬zero → c.retire .seq = { c with pc := c.pc + 4, lcount1 := 0 }) ∧
    (one ∧ countOf c.lcount1 = 1 ∧ zero ∧ 1 < countOf c.lcount0 →
      c.retire .seq = { c with pc := c.lstart0, lcount1 := 0, lcount0 := BitVec.ofNat 64 (countOf c.lcount0 - 1) }) ∧
    (one ∧ countOf c.lcount1 = 1 ∧ zero ∧ countOf c.lcount0 = 1 →
      c.retire .seq = { c with pc := c.pc + 4, lcount1 := 0, lcount0 := 0 }) ∧
    (¬one ∧ zero ∧ 1 < countOf c.lcount0 →
      c.retire .seq = { c with pc := c.lstart0, lcount0 := BitVec.ofNat 64 (countOf c.lcount0 - 1) }) ∧
    (¬one ∧ zero ∧ countOf c.lcount0 = 1 → c.retire .seq = { c with pc := c.pc + 4, lcount0 := 0 }) ∧
    (∀ t : Word, c.retire (.jump t) = { c with pc := t })

/-- A scalar load on the device writes the extended little-endian value at its address to rd (R308). -/
def Obligations.ScalarLoadResults : Prop :=
  ∀ (s t u : State) (rd rs1 : Reg) (imm : BitVec 16) (ea : Word) (key n : Nat),
    addressOf (s.ctx.getX rs1) imm = some ea → s.admits .load ea n key t → t.reads key n u →
    let v := u.value key n
    (n = 1 → s.completes (.lb rd rs1 imm) .seq (u.setX rd (BitVec.ofInt 64 (BitVec.ofNat 8 v).toInt)) ∧
      s.completes (.lbu rd rs1 imm) .seq (u.setX rd (BitVec.ofNat 64 v))) ∧
    (n = 2 → s.completes (.lh rd rs1 imm) .seq (u.setX rd (BitVec.ofInt 64 (BitVec.ofNat 16 v).toInt)) ∧
      s.completes (.lhu rd rs1 imm) .seq (u.setX rd (BitVec.ofNat 64 v))) ∧
    (n = 4 → s.completes (.lw rd rs1 imm) .seq (u.setX rd (BitVec.ofInt 64 (BitVec.ofNat 32 v).toInt)) ∧
      s.completes (.lwu rd rs1 imm) .seq (u.setX rd (BitVec.ofNat 64 v))) ∧
    (n = 8 → s.completes (.ld rd rs1 imm) .seq (u.setX rd (BitVec.ofNat 64 v)))

/-- A scalar store (sb, sh, sw or sd) puts the low bytes of rs2 at its address: at once in the core's own pool, behind the core's earlier accesses to the line,
else on their way, counted in UNACK (R26, R161, R308). One to the own pool waits for the core's quantum atomic to the line (R163; the model's choice,
log 45). -/
def Obligations.ScalarStoreResults : Prop :=
  ∀ (s t : State) (i : Instr) (rs2 rs1 : Reg) (imm : BitVec 16) (ea : Word) (key n : Nat),
    scalarStoreOf i = some (rs2, rs1, imm, n) → addressOf (s.ctx.getX rs1) imm = some ea → s.admits .store ea n key t →
    key % 128 + n ≤ 128 →
    let bytes := leBytes n (s.ctx.getX rs2).toNat
    (regionOf key = .pool t.core.id ∧ t.quantumOn key n = false → s.completes i .seq (t.pokeOwn key bytes)) ∧
    (regionOf key = .pool t.core.id ∧ t.quantumOn key n = true → s.waits i .retry t) ∧
    (regionOf key ≠ .pool t.core.id ∧ t.core.unack < 256 →
      s.completes i .seq (t.launchFlight key (.store bytes) false false none)) ∧
    (regionOf key ≠ .pool t.core.id ∧ 256 ≤ t.core.unack → s.waits i .retry t)

/-- A scalar store changes no byte outside those it stores, but in versioned cells with a CLD or CST waiting: a store into the core's own pool is
performed behind the core's own accesses to the line that are in flight, any other is not performed yet. Of the core it changes no register, tile,
queue, stream, tag, loop bound, engine command, message or trap register: only its pc and loop counts, its place in a gang's stream, UNACK and
the wakening of its monitor; of every other core, those alone; and of the device only memory, the accesses in flight, cells, gangs and the tests and
order numbers that these take (R26, R28, R161, R177, R179, R308; log 96). -/
def Obligations.ScalarStoreFrame : Prop :=
  ∀ (s t u : State) (i : Instr) (rs2 rs1 : Reg) (imm : BitVec 16) (ea : Word) (key n : Nat),
    scalarStoreOf i = some (rs2, rs1, imm, n) → addressOf (s.ctx.getX rs1) imm = some ea → s.admits .store ea n key t →
    (regionOf key = .pool t.core.id → t.quantumOn key n = false) → key % 128 + n ≤ 128 → t.memOk → exec i s = .next u →
    let own := regionOf key = .pool t.core.id
    let before := t.drainLines t.core.id key n t.dev.seq
    (own → ∀ a, (a < key ∨ key + n ≤ a) → (∀ w ∈ t.dev.cells, a < w.home ∨ w.home + 64 ≤ a) → u.byte a = before.byte a) ∧
    (own → (∀ f ∈ t.dev.flights, f.by t.core.id = true → f.done = false → lineOf f.home ≠ lineOf key) → before = t) ∧
    (¬own → ∀ a, u.byte a = t.byte a) ∧
    (own → t.dev.cells = [] → u.value key n = (s.ctx.getX rs2).toNat % 2 ^ (8 * n)) ∧
    (let c := t.core.placedAs u.core
     u.core = { c with unack := u.core.unack, ctx := { c.ctx with monHit := u.ctx.monHit } }) ∧
    (t.core.link = none → u.ctx.gang = t.ctx.gang ∧ u.ctx.pieces = t.ctx.pieces ∧ u.core.mtx = t.core.mtx) ∧
    (∀ n c, n ≠ t.core.id → t.coreById n = some c → ∃ d, u.coreById n = some d ∧
      d = { c.placedAs d with unack := d.unack, ctx := { (c.placedAs d).ctx with monHit := d.ctx.monHit } }) ∧
    u.dev = { t.dev with mem := u.dev.mem, bad := u.dev.bad, flights := u.dev.flights, cells := u.dev.cells, gangs := u.dev.gangs
                         tests := u.dev.tests, seq := u.dev.seq } ∧
    (∀ r, u.ctx.getX r = t.ctx.getX r) ∧ u.ctx.v = t.ctx.v ∧ u.ctx.fstat = t.ctx.fstat ∧ u.core.kstat = t.core.kstat

/-- The checks of a scalar access in order: PTR_RANGE, then FORMAT for a format code of 10 or more, NONCANON, MISALIGNED, in mesh space ACCESS for
a place that names no byte, and in device virtual memory what its translation fails with, LOAD_PAGE or STORE_PAGE of the walk or ACCESS of the
permissions, then ACCESS for a physical address that names no byte. The walk: at each level an entry that is not valid faults with MAL = 0, one
that is malformed with MAL = 1, a table's entry is followed and kept, and a leaf gives its translation, with A set in it and D by a store; one of 16 GiB has a
group of 16 entries that agree. The bytes that a mesh address names: of the pool, or of the cluster's memory, of the core at its coordinates, which a
management core gives as physical ones, or, by the self alias, of the issuing core, and at U those of a scratchpad, that of a parked context among
them (the model's reading, log 108); and what a physical address names (R9, R15, R16, R18 to R25, R82 to R86, R239, R308). -/
def Obligations.ScalarAccessChecks : Prop :=
  (∀ (s : State) (i : Instr) (acc : Acc) (rs1 : Reg) (imm : BitVec 16) (n : Nat),
    scalarAccess i = some (acc, rs1, imm, n) → s.resultsPending = false →
    let r := ptrArith false (s.ctx.getX rs1) (imm.signExtend 64)
    (r.2 = true → s.traps i 9 r.1 s.ctx.pc s) ∧
    (∀ ea, addressOf (s.ctx.getX rs1) imm = some ea →
      let mesh := ea.getLsbD 55
      (10 ≤ ea.toNat / 2 ^ 59 → s.traps i 23 ea s.ctx.pc s) ∧
      (ea.toNat / 2 ^ 59 < 10 ∧ mesh = false ∧ ea.extractLsb' 48 7 ≠ 0 → s.traps i 10 ea s.ctx.pc s) ∧
      (ea.toNat / 2 ^ 59 < 10 ∧ (mesh = true ∨ ea.extractLsb' 48 7 = 0) ∧ ea.toNat % n ≠ 0 → s.traps i 4 ea s.ctx.pc s) ∧
      (ea.toNat / 2 ^ 59 < 10 ∧ ea.toNat % n = 0 →
        (mesh = true ∧ s.meshKey s.who ea n = none → s.traps i 8 ea s.ctx.pc s) ∧
        (mesh = false ∧ ea.extractLsb' 48 7 = 0 →
          (∀ cause info t, runChk (translate s.who acc ea) s = (.error (cause, info), t) → t.resultsPending = false →
            s.traps i cause info s.ctx.pc t) ∧
          (∀ pa t, runChk (translate s.who acc ea) s = (.ok (.inl pa), t) → t.dev.paKey pa = none → t.resultsPending = false →
            s.traps i 8 ea s.ctx.pc t))))) ∧
  (∀ (s : State) (acc : Acc),
    (∀ (w : Who) (p : Word), ¬(w.mgmt = true ∧ w.kptb = 0) →
      let va := p.toNat % 2 ^ 48
      let tag := if acc = .fetch then 0 else p.toNat / 2 ^ 56
      (∀ e, s.tlbFind w va acc.stores = some e →
        runChk (translate w acc p) s = (if permits e.perm w.level acc then .ok (.inl (e.pa + (va - e.base))) else .error (8, p), s)) ∧
      (∀ e t, s.tlbFind w va acc.stores = none → runChk (pageWalk w acc tag va) s = (.ok e, t) →
        runChk (translate w acc p) s = (if permits e.perm w.level acc then .ok (.inl (e.pa + (va - e.base))) else .error (8, p), t)) ∧
      (∀ cause info t, s.tlbFind w va acc.stores = none → runChk (pageWalk w acc tag va) s = (.error (cause, info), t) →
        runChk (translate w acc p) s = (.error (cause, info), t)) ∧
      (∀ e, s.tlbFind w va true = some e → e.perm.getLsbD 6 = true)) ∧
    (∀ (perm : BitVec 7) (level : Level),
      let user : Prop := level = .u → perm.getLsbD 3 = true
      (permits perm level .load = true ↔ perm.getLsbD 0 = true ∧ user) ∧ (permits perm level .store = true ↔ perm.getLsbD 1 = true ∧ user) ∧
      (permits perm level .rmw = true ↔ perm.getLsbD 0 = true ∧ perm.getLsbD 1 = true ∧ user) ∧
      (permits perm level .fetch = true ↔ perm.getLsbD 2 = true ∧ user) ∧
      Acc.load.pageCause = 5 ∧ Acc.store.pageCause = 6 ∧ Acc.rmw.pageCause = 6 ∧ Acc.fetch.pageCause = 7) ∧
    (∀ (w : Who) (tag va : Nat),
      let root := w.kptb.toNat % 2 ^ 40 * 4096
      (2 ^ 39 ≤ root → runChk (pageWalk w acc tag va) s = (.error (acc.pageCause, pageInfo tag 3 true va), s)) ∧
      (∀ e t, root < 2 ^ 39 → runChk (walkFrom acc (w.kptb.extractLsb' 48 16) tag va 3 root) s = (.ok e, t) →
        runChk (pageWalk w acc tag va) s = (.ok e, t.tlbFill w e)) ∧
      (∀ f t, root < 2 ^ 39 → runChk (walkFrom acc (w.kptb.extractLsb' 48 16) tag va 3 root) s = (.error f, t) →
        runChk (pageWalk w acc tag va) s = (.error f, t))) ∧
    (∀ (asid : BitVec 16) (tag va level table : Nat),
      let ea := table + 8 * (va / 2 ^ (12 + 9 * level) % 512)
      let e := s.pteAt table level va
      let next := e.toNat / 2 ^ 12 % 2 ^ 40 * 4096
      let size := 2 ^ (12 + 9 * level)
      let new := e ||| 0x40 ||| (if acc.stores then 0x80 else 0)
      let walk := runChk (walkFrom acc asid tag va level table) s
      let fault (mal : Bool) : Prop := walk = (.error (acc.pageCause, pageInfo tag level mal va), s)
      (∀ c ∈ s.dev.walkCache, c.1 ≠ ea) ∧ s.dev.badWord ea 8 = none →
        (e.getLsbD 0 = false → fault false) ∧
        (e.getLsbD 0 = true →
          (e.extractLsb' 52 12 ≠ 0 ∨ e.extractLsb' 10 2 ≠ 0 → fault true) ∧
          (e.extractLsb' 52 12 = 0 ∧ e.extractLsb' 10 2 = 0 →
            (e.getLsbD 8 = false ∧ (e.extractLsb' 1 9 ≠ 0 ∨ 2 ^ 39 ≤ next ∨ level = 0) → fault true) ∧
            (∀ below, e.getLsbD 8 = false ∧ e.extractLsb' 1 9 = 0 ∧ next < 2 ^ 39 ∧ level = below + 1 →
              walk = runChk (walkFrom acc asid tag va below next) (s.modDev fun d => { d with walkCache := (ea, e) :: d.walkCache })) ∧
            (e.getLsbD 8 = true ∧ (level = 3 ∨ e.getLsbD 9 = true ∧ level ≠ 2) → fault true) ∧
            (e.getLsbD 8 = true ∧ e.getLsbD 9 = false ∧ level < 3 ∧ next % size ≠ 0 → fault true) ∧
            (e.getLsbD 8 = true ∧ e.getLsbD 9 = false ∧ level < 3 ∧ next % size = 0 →
              walk = (.ok { asid := asid, global := e.getLsbD 5, base := va / size * size, size := size, pa := next
                            perm := new.extractLsb' 1 7 },
                if new = e then s else s.poke ea (leBytes 8 new.toNat))) ∧
            (let at16 (i : Nat) : Nat := table + 8 * (va / 2 ^ 34 % 32 * 16 + i)
             let same : Prop := ∀ i, i < 16 → (BitVec.ofNat 64 (s.value (at16 i) 8) ^^^ e) &&& 0xFFFF_FFFF_FFFF_FF3F = 0
             e.getLsbD 8 = true ∧ e.getLsbD 9 = true ∧ level = 2 →
              (next % 2 ^ 34 ≠ 0 → fault true) ∧
              (next % 2 ^ 34 = 0 ∧ (∀ i, i < 16 → s.dev.badWord (at16 i) 8 = none) →
                (¬same → fault true) ∧
                (same → walk = (.ok { asid := asid, global := e.getLsbD 5, base := va / 2 ^ 34 * 2 ^ 34, size := 2 ^ 34, pa := next
                                      perm := new.extractLsb' 1 7 },
                  if new = e then s else s.poke ea (leBytes 8 new.toNat))))))))) ∧
  (∀ (s : State) (w : Who) (p : Word) (n t : Nat), n ≠ 0 →
    let kind := p.toNat / 2 ^ 53 % 2 ^ 2
    let die := p.toNat / 2 ^ 52 % 2
    let row := p.toNat / 2 ^ 46 % 2 ^ 6
    let col := p.toNat / 2 ^ 40 % 2 ^ 6
    let off := p.toNat % 2 ^ 40
    let names (t : Nat) : Prop := w.mgmt = true ∧ row ≤ 51 ∧ col ≤ 47 ∧ t = die * 2496 + row * 48 + col ∨ w.mgmt = false ∧ (row = 63 ∧ col = 63 ∧ w.core = some t ∨
      row ≠ 63 ∧ col ≠ 63 ∧ ∃ q r, s.part? w.part = some q ∧ die < q.dies ∧ row < q.height ∧ col < q.width ∧
        (if die = 0 then q.rows0 else q.rows1)[row / 4]? = some r ∧
        t = (q.die0 + die) * 2496 + (r * 4 + row % 4) * 48 + q.col0 + col)
    let reaches : Prop := w.level = .u → ∀ b, off ≤ b → b < off + n → s.isScratch t (b / 4096) = true
    let scratch (p : Word) (g : Nat) : Prop := p.toNat / 2 ^ 32 % 2 ^ 8 ≤ g ∧ g < p.toNat / 2 ^ 32 % 2 ^ 8 + p.toNat / 2 ^ 40 % 2 ^ 8
    (∀ g, s.isScratch t g = true ↔
      ∃ c, s.coreById t = some c ∧ (scratch c.ctx.ppw g ∨ ∃ r ∈ c.residents, r.parked = true ∧ scratch r.ppw g)) ∧
    ((∀ t, ¬names t) → s.meshKey w p n = none) ∧
    (names t →
      (kind = 0 ∧ off + n ≤ 0x60000 → (reaches → s.meshKey w p n = some (poolKey t off)) ∧ (¬reaches → s.meshKey w p n = none)) ∧
      (kind = 1 ∧ off + n ≤ 0x200000 ∧ t < 4992 → s.meshKey w p n = some (clusterKey (clusterOfId t) off)) ∧
      (kind = 0 ∧ 0x60000 < off + n ∨ kind = 1 ∧ 0x200000 < off + n ∨ 2 ≤ kind → s.meshKey w p n = none))) ∧
  (∀ d r c x y o z : Nat,
    (r < 52 ∧ c < 48 → clusterOfId (d * 2496 + r * 48 + c) = d * 156 + r / 4 * 12 + c / 4) ∧
    (x < 4992 + 4 ∧ o < 0x60000 → regionOf (poolKey x o) = .pool x ∧ (z < 0x60000 → poolKey x o = poolKey y z → x = y ∧ o = z)) ∧
    (x < 312 ∧ o < 0x200000 → regionOf (clusterKey x o) = .cluster x ∧ (z < 0x200000 → clusterKey x o = clusterKey y z → x = y ∧ o = z))) ∧
  (∀ (d : Dev) (pa : Nat),
    let index := pa / 2 ^ 40 % 2 ^ 11
    let off := pa % 2 ^ 40
    (pa < 2 ^ 39 → d.paKey pa = some pa) ∧ (2 ^ 39 ≤ pa ∧ pa < 2 ^ 50 → d.paKey pa = none) ∧
    (2 ^ 50 ≤ pa ∧ pa < 2 ^ 51 → d.paKey pa = if pa % 2 ^ 50 < 2 ^ 48 then some pa else none) ∧
    (2 ^ 51 ≤ pa →
      (288 ≤ index ∨ 2 ^ 39 ≤ off → d.paKey pa = none) ∧
      (index < 288 ∧ off < 2 ^ 39 →
        (index = d.podidx.toNat → d.paKey pa = some off) ∧
        (index ≠ d.podidx.toNat →
          d.paKey pa = if d.pod.getLsbD index = true ∧ d.portDown.getLsbD (pa / 2 ^ 7 % 16) = false then some pa else none))))

/-- The conditional branches; JAL and JALR, which form the target before they write the link; and LOOP, which sets its level's start, end and
count and skips the body where the count is 0 (R310, R311, R313). -/
def Obligations.ControlTransferResults : Prop :=
  ∀ (s : State) (rd rs1 rs2 : Reg) (off : BitVec 16) (far : BitVec 21) (imm : BitVec 16) (body : BitVec 20),
    let a := s.ctx.getX rs1
    let b := s.ctx.getX rs2
    let t : Word := BitVec.ofInt 64 (s.ctx.pc.toInt + 4 * off.toInt)
    let goes (c : Prop) (i : Instr) : Prop := (c → s.completes i (.jump t) s) ∧ (¬c → s.completes i .seq s)
    let link := low48 (s.ctx.pc + 4)
    let n : Word := BitVec.ofNat 64 (a.toNat % 2 ^ 32)
    let last := s.ctx.pc + BitVec.ofNat 64 (4 * body.toNat)
    let field (a : Word) : Word := BitVec.ofNat 64 (a.toNat % 2 ^ 48 / 4 * 4)
    let way : Flow := if n = 0 then .jump (last + 4) else .seq
    goes (a = b) (.beq rs1 rs2 off) ∧ goes (a ≠ b) (.bne rs1 rs2 off) ∧
    goes (a.toInt < b.toInt) (.blt rs1 rs2 off) ∧ goes (b.toInt ≤ a.toInt) (.bge rs1 rs2 off) ∧
    goes (a.toNat < b.toNat) (.bltu rs1 rs2 off) ∧ goes (b.toNat ≤ a.toNat) (.bgeu rs1 rs2 off) ∧
    s.completes (.jal rd far) (.jump (BitVec.ofInt 64 (s.ctx.pc.toInt + 4 * far.toInt))) (s.setX rd link) ∧
    s.completes (.jalr rd rs1 imm)
      (.jump (BitVec.ofNat 64 ((BitVec.ofInt 64 (a.toInt + imm.toInt)).toNat % 2 ^ 56 / 4 * 4))) (s.setX rd link) ∧
    s.completes (.loop 0 rs1 body) way (s.modCtx fun c => { c with lstart0 := field (c.pc + 4), lend0 := field last, lcount0 := n }) ∧
    s.completes (.loop 1 rs1 body) way (s.modCtx fun c => { c with lstart1 := field (c.pc + 4), lend1 := field last, lcount1 := n })

/-- A CSR instruction at a level that reaches an assigned number acts by the access codes of its fields, which for each register are the masks listed; one
on FSTAT or FSTATUS whose result has a reserved rounding mode, or PPL = 0b11, keeps that field and takes effect in the others. A write that would put
KCTXB or KEFR in use outside local device memory, and one of LEND of an active loop whose DELTA would not fit, traps ACCESS (R5, R36, R152, R230, R241,
R298, R316, R319). KINFO of the latter is the operand of the instruction for each of the three, as R316 says of the value written (log 78). -/
def Obligations.CsrInstructionResults : Prop :=
  (let address : Word := 0x0000_FFFF_FFFF_FFFC
   let all : Word := 0xFFFF_FFFF_FFFF_FFFF
   let writable : List (Nat × Word) := [(0x005, 0x1FF), (0x009, 0xFFFF_FFFF), (0x00A, 0x7_FFFF_FFFF), (0x00B, 0x0007_FFFF_FFFF_000F), (0x00C, all),
     (0x00D, address), (0x00E, address), (0x00F, all), (0x010, address), (0x011, address), (0x012, 0xFFFF), (0x013, 0x0007_0000_0000_0000),
     (0x100, address), (0x101, 0x8000_0000_0000_003F), (0x102, all), (0x103, 0x0000_FFFF_FFFF_FFFF), (0x104, 0xF), (0x105, all),
     (0x107, 0xFFFF_00FF_FFFF_FFFF), (0x108, 0x1D), (0x109, 0x08), (0x10A, 0xFFFF_FFFF_FFFF_F001), (0x10B, all), (0x10C, 0x000F_FFFF_FFFF_E001),
     (0x300, address), (0x301, 0x8000_0000_0000_003F), (0x302, all), (0x303, 0x0000_FFFF_FFFF_FFFF), (0x304, 0x3F), (0x305, all),
     (0x306, 0x0000_001F_03FF_EFFE)]
   (∀ r ∈ writable, csrRw r.1 = r.2) ∧ (∀ n, (∀ r ∈ writable, r.1 ≠ n) → csrRw n = 0) ∧ (∀ n, csrW1c n = if n = 0x109 then 0x13 else 0)) ∧
  ∀ (s : State) (rd rs1 : Reg) (csr : BitVec 12) (old : Word),
    let n := csr.toNat
    let v := s.ctx.getX rs1
    let reached : Prop := s.core.level = .f ∨ s.core.level = .k ∧ n < 0x300 ∨ n < 0x100
    let plain (new : Word) : Prop :=
      ¬((n = 0x10A ∨ n = 0x10C) ∧ badArea new) ∧ (n = 0x00E → (lendDelta s.ctx.lcount0 s.ctx.lend0 new).isSome) ∧
      (n = 0x011 → (lendDelta s.ctx.lcount1 s.ctx.lend1 new).isSome)
    let put (new : Word) (i : Instr) : Prop := plain new → s.completes i .seq (s.csrPut n new)
    let outside (new : Word) : Prop := new.getLsbD 0 = true ∧ 2 ^ 39 ≤ new.toNat / 2 ^ 12 % 2 ^ 40 * 4096
    let overflows (count old new : Word) : Prop :=
      let d : Int := (BitVec.ofNat 32 (count.toNat / 2 ^ 32)).toInt + ((old.toNat : Int) - new.toNat) / 4
      count.toNat % 2 ^ 32 ≠ 0 ∧ (d < -2 ^ 31 ∨ 2 ^ 31 ≤ d)
    let refuses (new : Word) (i : Instr) : Prop :=
      ((n = 0x10A ∨ n = 0x10C) ∧ outside new → s.traps i 8 new s.ctx.pc s) ∧
      (n = 0x00E ∧ overflows s.ctx.lcount0 s.ctx.lend0 new → s.traps i 8 v s.ctx.pc s) ∧
      (n = 0x011 ∧ overflows s.ctx.lcount1 s.ctx.lend1 new → s.traps i 8 v s.ctx.pc s)
    reached → s.csrGet n = some old →
      (s.resultsPending = false →
        refuses (csrValue .write n old v) (.csrw csr rs1) ∧ refuses (csrValue .set n old v) (.csrs csr rs1) ∧
        refuses (csrValue .clear n old v) (.csrc csr rs1)) ∧
      s.computes (.csrr rd csr) rd old ∧
      put (((old &&& ~~~csrRw n) ||| (v &&& csrRw n)) &&& ~~~(v &&& csrW1c n)) (.csrw csr rs1) ∧
      put ((old ||| (v &&& csrRw n)) &&& ~~~(v &&& csrW1c n)) (.csrs csr rs1) ∧
      put (old &&& ~~~(v &&& csrRw n)) (.csrc csr rs1) ∧
      (n = 0x005 → 4 ≤ v.toNat / 2 ^ 5 % 2 ^ 3 → s.completes (.csrw csr rs1) .seq
        (s.modCtx fun c => { c with fstat := BitVec.ofNat 9 (v.toNat % 2 ^ 5 + s.ctx.fstat.toNat / 2 ^ 5 % 2 ^ 3 * 2 ^ 5 + v.toNat / 2 ^ 8 % 2 * 2 ^ 8) })) ∧
      (n = 0x304 → v.toNat / 2 ^ 2 % 2 ^ 2 = 3 → old.toNat < 2 ^ 6 → s.completes (.csrw csr rs1) .seq
        (s.modCore fun k => { k with
          fstatus := BitVec.ofNat 64 (v.toNat % 2 ^ 2 + old.toNat / 2 ^ 2 % 2 ^ 2 * 2 ^ 2 + v.toNat / 2 ^ 4 % 2 ^ 2 * 2 ^ 4) }))

/-- A CSR number above the current level traps PRIV with the number, an unassigned one traps ILLEGAL_INSTR with the word, and the privileged
instructions trap PRIV with the word at U (R183, R279, R298). -/
def Obligations.PrivilegeAndCsrTraps : Prop :=
  ∀ (s : State) (i : Instr) (rd rs1 : Reg) (csr : BitVec 12) (m : TlbMode), s.resultsPending = false →
    let n := csr.toNat
    let reached : Prop := s.core.level = .f ∨ s.core.level = .k ∧ n < 0x300 ∨ n < 0x100
    ((i = .csrr rd csr ∨ i = .csrw csr rs1 ∨ i = .csrs csr rs1 ∨ i = .csrc csr rs1) →
      (¬reached → s.traps i 3 (BitVec.ofNat 64 n) s.ctx.pc s) ∧
      (reached ∧ s.csrGet n = none → s.traps i 1 (BitVec.ofNat 64 (wordOf i).toNat) s.ctx.pc s)) ∧
    ((i = .tret ∨ i = .wfi ∨ i = .wswap ∨ i = .tlbinv rs1 m ∨ i = .iflush ∨ i = .launch rd rs1) → s.core.level = .u →
      s.traps i 3 (BitVec.ofNat 64 (wordOf i).toNat) s.ctx.pc s)

/-- What a write stores in a CSR reads back, for every register all of whose readable fields a write may set. A write of FSTAT that would leave a
reserved rounding mode leaves RM as it was, and one of FSTATUS with PPL = 0b11 leaves PPL as it was; the other fields of both take effect. One of LEND
reads back too, and moves DELTA of an active loop so that the end in force stays (R5, R36, R230, R299, R314, R316, R319). -/
def Obligations.CsrReadsBackWhatWasWritten : Prop :=
  ∀ s : State,
    (let ends (n m : Nat) (count lend : Word) : Prop := ∀ (v : Word) (op : CsrOp),
       let new := csrValue op n lend v
       let d : Int := (BitVec.ofNat 32 (count.toNat / 2 ^ 32)).toInt + ((lend.toNat : Int) - new.toNat) / 4
       let t := s.csrPut n new
       t.csrGet n = some new ∧ (∀ k, k ≠ n → k ≠ m → t.csrGet k = s.csrGet k) ∧
       (count.toNat % 2 ^ 32 = 0 → t.csrGet m = some count) ∧
       (count.toNat % 2 ^ 32 ≠ 0 ∧ -2 ^ 31 ≤ d ∧ d < 2 ^ 31 →
         t.csrGet m = some (BitVec.ofNat 64 (count.toNat % 2 ^ 32 + (BitVec.ofInt 32 d).toNat * 2 ^ 32)))
     ends 0x00E 0x00C s.ctx.lcount0 s.ctx.lend0 ∧ ends 0x011 0x00F s.ctx.lcount1 s.ctx.lend1) ∧
    (∀ (n : Nat) (old v : Word), n ∈ [0x009, 0x00A, 0x00B, 0x00C, 0x00D, 0x00F, 0x010, 0x012, 0x100, 0x101, 0x102, 0x103, 0x104, 0x105, 0x107, 0x10A, 0x10B,
      0x10C, 0x300, 0x301, 0x302, 0x303, 0x305, 0x306] →
    s.csrGet n = some old → old &&& ~~~csrRw n = 0 →
    (s.csrPut n (csrValue .write n old v)).csrGet n = some (v &&& csrRw n) ∧
    (∀ m, m ≠ n → (s.csrPut n (csrValue .write n old v)).csrGet m = s.csrGet m ∨ n = 0x10B ∧ m = 0x109)) ∧
    (∀ (v : Word) (op : CsrOp),
      let new := csrValue op 0x005 (s.ctx.fstat.setWidth 64) v
      let t := s.csrPut 0x005 new
      let rm := new.toNat / 2 ^ 5 % 2 ^ 3
      t = (s.modCtx fun c => { c with fstat := t.ctx.fstat }) ∧
      t.ctx.fstat.toNat / 2 ^ 5 % 2 ^ 3 = (if rm < 4 then rm else s.ctx.fstat.toNat / 2 ^ 5 % 2 ^ 3) ∧
      t.ctx.fstat.toNat % 2 ^ 5 = new.toNat % 2 ^ 5 ∧ t.ctx.fstat.getLsbD 8 = new.getLsbD 8) ∧
    (∀ (v : Word) (op : CsrOp),
      let new := csrValue op 0x304 s.core.fstatus v
      let t := s.csrPut 0x304 new
      let ppl := new.toNat / 2 ^ 2 % 2 ^ 2
      t = (s.modCore fun k => { k with fstatus := t.core.fstatus }) ∧
      t.core.fstatus.toNat / 2 ^ 2 % 2 ^ 2 = (if ppl < 3 then ppl else s.core.fstatus.toNat / 2 ^ 2 % 2 ^ 2) ∧
      t.core.fstatus.toNat % 2 ^ 2 = new.toNat % 2 ^ 2 ∧ t.core.fstatus.toNat / 2 ^ 4 = new.toNat / 2 ^ 4)

/-- Taking a synchronous trap to K: the K registers save it, the core holds for nothing any more, and nothing else of the machine changes, but that a
leader or attached member that was not held becomes held at its instruction (R202, R233; log 85). -/
def Obligations.TrapEntersK : Prop :=
  ∀ (s : State) (n : Nat) (info ret : Word) (w : Option IWord),
    s.core.level ≠ .f → s.core.fdeleg.getLsbD n = true → s.core.kstat.getLsbD 3 = false → n < 32 →
    let t := s.takeTrap false n info ret w
    t.core.kcause = BitVec.ofNat 64 n ∧ t.core.kinfo = info ∧ t.core.kretpc = low48 ret ∧ t.core.level = .k ∧ t.ctx.pc = s.core.kvec ∧
    t.core.kstat = BitVec.ofNat 64 (8 + (if s.core.level = .k then 4 else 0) + (if s.core.kstat.getLsbD 0 then 2 else 0)) ∧
    t.core = { s.core with kcause := t.core.kcause, kinfo := info, kretpc := t.core.kretpc, kstat := t.core.kstat, level := .k
                           ctx := { s.ctx with pc := s.core.kvec }, hold := .none, issued := none, record := [], arrived := [], passed := [], listing := none
                           trapDue := none, heldAt := t.core.heldAt } ∧
    (s.core.link = none → t.core.heldAt = s.core.heldAt) ∧
    (∀ l, s.core.link = some l → s.core.inStream = true →
      t.core.heldAt = some { k := s.slotOf l, pc := s.ctx.pc, word := w, stream := true, depth := 0 }) ∧
    t.rest = s.rest ∧ t.dev = s.dev ∧ t.agenda = s.agenda ∧ t.fresh = s.fresh

/-- Taking a synchronous trap to F: directly, where the cause is not delegated or the core is at F, or as a double trap of K; with
FSTATUS.TK set it is fatal to the core's unit too: a fault event and a logic scan come before, and the F registers then take it (R6, R202, R233,
R250, R253; log 13). -/
def Obligations.TrapEntersF : Prop :=
  ∀ (s : State) (n : Nat) (info ret : Word) (w : Option IWord),
    let twice : Prop := s.core.level ≠ .f ∧ s.core.fdeleg.getLsbD n = true ∧ s.core.kstat.getLsbD 3 = true
    let t := s.takeTrap false n info ret w
    let cur := match s.core.level with
      | .u => 0
      | .k => 1
      | .f => 2
    n < 32 → (s.core.level = .f ∨ s.core.fdeleg.getLsbD n = false ∨ twice) →
    (s.core.fstatus.getLsbD 4 = false →
      t.core.fcause = BitVec.ofNat 64 n ∧ t.core.finfo = info ∧ t.core.fretpc = low48 ret ∧ t.core.level = .f ∧ t.ctx.pc = s.core.fvec ∧
      (twice → t.core.fstatus = BitVec.ofNat 64 (32 + 16 + 4 * cur + (if s.core.fstatus.getLsbD 0 then 2 else 0))) ∧
      (¬twice → t.core.fstatus = BitVec.ofNat 64 (16 + 4 * cur + (if s.core.fstatus.getLsbD 0 then 2 else 0))) ∧
      t.core = { s.core with fcause := t.core.fcause, finfo := info, fretpc := t.core.fretpc, fstatus := t.core.fstatus, level := .f
                             ctx := { s.ctx with pc := s.core.fvec }, hold := .none, issued := none, record := [], arrived := [], passed := [], listing := none
                             trapDue := none, heldAt := t.core.heldAt } ∧
      (s.core.link = none → t.core.heldAt = s.core.heldAt) ∧ t.rest = s.rest ∧ t.dev = s.dev ∧ t.agenda = s.agenda) ∧
    (s.core.fstatus.getLsbD 4 = true →
      let u := (s.faultEvent s.core.id false (BitVec.ofNat 64 n) info).startTest 6 (physCoord s.core.id)
      t.core.fcause = BitVec.ofNat 64 n ∧ t.core.finfo = info ∧ t.core.fretpc = low48 ret ∧ t.core.level = .f ∧ t.ctx.pc = s.core.fvec ∧
      t.core.kcause = s.core.kcause ∧ t.core.kstat = s.core.kstat ∧ t.ctx.x = s.ctx.x ∧ t.core.run = u.core.run ∧ t.rest = u.rest ∧ t.dev = u.dev)

/-- KCALL, FCALL and BRK take their traps: KINFO holds the word, and the return goes to the next instruction or, for BRK, to itself. TRET on a
core that no gang holds restores the level, the interrupt enable and the pc from the level's registers; at U it traps PRIV (R234, R322). The model's choice
(log 57): the active context counts as restored, and TRET as activating it, where its PPW is not 0; a PPW that is not such as an activation accepts then
traps ACCESS at the TRET with that PPW (R61, R323). -/
def Obligations.CallsAndTrapReturn : Prop :=
  (∀ (s : State) (code : BitVec 12), s.resultsPending = false →
      s.traps (.kcall code) 11 (BitVec.ofNat 64 (0x7C00_0004 + 16 * code.toNat)) (s.ctx.pc + 4) s ∧
      s.traps (.fcall code) 12 (BitVec.ofNat 64 (0x7C00_0005 + 16 * code.toNat)) (s.ctx.pc + 4) s ∧
      s.traps (.brk code) 13 (BitVec.ofNat 64 (0x7C00_0006 + 16 * code.toNat)) s.ctx.pc s) ∧
  (∀ s : State,
      let activates : Prop := s.ctx.ppw = 0 ∨
        ppwWellFormed s.ctx.ppw = true ∧ workspaceFits s.ctx.ppw s.core.wp s.ctx.vregs s.ctx.bregs = true
      (s.core.level ≠ .u ∧ ¬activates ∧ s.resultsPending = false → s.traps .tret 8 s.ctx.ppw s.ctx.pc s) ∧
      (s.core.level = .k ∧ s.core.link = none ∧ activates → ∃ t, exec .tret s = .next t ∧
        t.core.level = (if s.core.kstat.getLsbD 2 then .k else .u) ∧ t.ctx.pc = s.core.kretpc ∧
        t.core.kstat.getLsbD 0 = s.core.kstat.getLsbD 1 ∧ t.core.kstat.getLsbD 3 = false ∧
        t.ctx.x = s.ctx.x ∧ t.core.fstatus = s.core.fstatus ∧ t.dev = s.dev) ∧
      (s.core.level = .f ∧ s.core.link = none ∧ activates → ∃ t, exec .tret s = .next t ∧
        t.core.level = (if s.core.fstatus.extractLsb' 2 2 = 0#2 then .u else if s.core.fstatus.extractLsb' 2 2 = 1#2 then .k else .f) ∧
        t.ctx.pc = s.core.fretpc ∧ t.core.fstatus.getLsbD 0 = s.core.fstatus.getLsbD 1 ∧ t.core.fstatus.getLsbD 4 = false ∧
        t.ctx.x = s.ctx.x ∧ t.core.kstat = s.core.kstat ∧ t.dev = s.dev) ∧
      (s.core.level = .u ∧ s.resultsPending = false → s.traps .tret 3 0x7C00_0007 s.ctx.pc s))

/-- WFI retires once an interrupt is pending, and holds the core until then; HALT does the same in a context of launch number 0. HALT at U in
a unit of a launch: out of a stream, with nothing outstanding, the unit ends and its core awaits the hand-off; with stores or engine commands
outstanding it waits; in the stream it splits the gang, and the core keeps it in hand, out of the stream, to end its unit with; at K or F the unit ends
as a fault event (R190, R219, R324, R326). -/
def Obligations.WaitAndHaltResults : Prop :=
  ∀ s : State,
    let pending : Prop := s.kip &&& s.core.kieRead ≠ 0
    (s.core.level ≠ .u ∧ pending → s.completes .wfi .seq s) ∧ (s.core.level ≠ .u ∧ ¬pending → s.waits .wfi .completes s) ∧
    (s.ctx.lnum = 0 ∧ pending → s.completes .halt .seq s) ∧ (s.ctx.lnum = 0 ∧ ¬pending → s.waits .halt .completes s) ∧
    (s.ctx.lnum ≠ 0 →
      (s.core.level = .u ∧ s.core.inStream = false ∧ s.unitBusy s.core = false →
        s.completes .halt (.jump (s.ctx.pc + 4))
          ((s.leaveGang s.core.id).modCore fun c => { c with run := .ended, kip := c.kip &&& 0b11101 })) ∧
      (s.core.level = .u ∧ s.core.inStream = false ∧ s.unitBusy s.core = true → s.waits .halt .retry s) ∧
      (s.core.level = .u ∧ s.core.inStream = true → s.waits .halt .retry (s.splitGang.bookSlot s.core (wordOf .halt))) ∧
      (s.core.level = .k → s.completes .halt .stay (s.faultEvent s.core.id false s.core.kcause s.core.kinfo)) ∧
      (s.core.level = .f → s.completes .halt .stay (s.faultEvent s.core.id false s.core.fcause s.core.finfo)))

/-- TLBINV, once its release is met and no access is under way, leaves no entry that it names in any TLB and no walk-cache entry; IFLUSH
leaves no cached instruction word (R327, R328). -/
def Obligations.InvalidationsLeaveNothing : Prop :=
  ∀ (s : State) (rs1 : Reg) (m : TlbMode), s.core.level ≠ .u →
    (s.releaseMet .dev = true ∧ s.accessesInFlight = false → ∃ t, s.completes (.tlbinv rs1 m) .seq t ∧ t.dev.walkCache = [] ∧
      t.ctx = s.ctx ∧ t.dev.mem = s.dev.mem ∧
      (∀ e, ((∃ c ∈ t.cores, e ∈ c.tlb) ∨ ∃ c ∈ t.dev.clusters, e ∈ c.tlb) →
        m ≠ .all ∧ (m = .asid → ¬(e.global = false ∧ e.asid = (s.ctx.getX rs1).setWidth 16)) ∧
        (m = .va → ¬((e.global = true ∨ e.asid = s.core.kptb.extractLsb' 48 16) ∧
          e.base ≤ (s.ctx.getX rs1).toNat % 2 ^ 48 ∧ (s.ctx.getX rs1).toNat % 2 ^ 48 < e.base + e.size)))) ∧
    (s.releaseMet .dev = true ∧ s.commPending s.core.id = false → ∃ t, s.completes .iflush .seq t ∧
      (∀ c ∈ t.dev.clusters, c.words = []) ∧ t.ctx = s.ctx ∧ t.dev.mem = s.dev.mem)

/-- Which interrupts a core can take, by its level and the target's enable; and one that can be taken is taken, at the instruction that is not
started, on a core that executes and has no access to complete first: the highest in the order PREEMPT, EFAULT, HOST, TIMER, SOFT, by the entry of
R233 with the cause's INT bit set (R29, R202, R235). -/
def Obligations.InterruptsAdmittedAndTaken : Prop :=
  ∀ s : State,
    let go (i : Nat) (t : State) : Prop := exec .takeInterrupt s = .next (t.takeTrap true (32 + i) (s.interruptInfo i) t.ctx.pc none)
    (∀ i, i < 5 →
      (s.canTake i = true ↔
        s.kip.getLsbD i = true ∧ (i = 1 ∨ s.core.kie.getLsbD i = true) ∧
        (s.core.fdeleg.getLsbD (32 + i) = true ∧ s.core.level ≠ .f →
          s.core.level = .u ∨ s.core.kstat.getLsbD 0 = true ∧ s.core.kstat.getLsbD 3 = false) ∧
        (s.core.level = .f → s.core.fstatus.getLsbD 0 = true ∧ s.core.fstatus.getLsbD 4 = false)) ∧
      (i ≠ 2 → s.kip.getLsbD i = s.core.kip.getLsbD i)) ∧
    (s.kip.getLsbD 2 = true ↔ s.core.ktcmp.toNat ≤ s.dev.time.toNat) ∧
    (s.core.run ≠ .running → exec .takeInterrupt s = .next s) ∧
    (s.core.run = .running → s.mustFinish = false →
      let t := s.atSlot.abandon
      (s.core.link = none → s.atSlot = s) ∧
      (s.canTake 1 = true → go 1 t) ∧
      (s.canTake 1 = false ∧ s.canTake 0 = true → go 0 (t.modCore fun c => { c with faults := c.faults.drop 1, lostRec := none })) ∧
      (s.canTake 1 = false ∧ s.canTake 0 = false ∧ s.canTake 4 = true → go 4 t) ∧
      (s.canTake 1 = false ∧ s.canTake 0 = false ∧ s.canTake 4 = false ∧ s.canTake 2 = true → go 2 t) ∧
      (s.canTake 1 = false ∧ s.canTake 0 = false ∧ s.canTake 4 = false ∧ s.canTake 2 = false ∧ s.canTake 3 = true → go 3 t))

/-- TIMER_EXPIRE makes TIMER pending, SOFTWARE_INTERRUPT sets SOFT on its target; a fetch that fails and a word that is no instruction trap; the
eighth failure in a row of a link's replay starts a self-test of it; a self-test that ends is logged, and one that fails in a core's unit fences
the core, in a cluster's or a link the cluster, and elsewhere nothing; a logic scan waits until its core executes no context (R14, R84, R145, R235,
R236, R250, R253, R254, R278, R279; logs 27, 29, 32). -/
def Obligations.TimerFetchAndHardwareEvents : Prop :=
  (∀ (s t : State) (n : Nat) (info : Word) (target : Nat) (w : IWord),
      (∃ u, exec .timerExpire s = .next u ∧ u.kip.getLsbD 2 = true ∧ u.core = s.core ∧ u.dev.mem = s.dev.mem) ∧
      exec (.softwareInterrupt target) s = .next (s.modCoreId target fun c => { c with kip := c.kip ||| 0b01000 }) ∧
      (runChk (fetchWord s.ctx.pc) s = (.error (n, info), t) → t.resultsPending = false →
        exec .fetchFailure s = .next (t.takeTrap false n info t.ctx.pc none)) ∧
      (s.resultsPending = false →
        (s.ctx.pc.getLsbD 55 = true → exec .fetchFailure s = .next (s.takeTrap false 8 s.ctx.pc s.ctx.pc none)) ∧
        (s.ctx.pc.getLsbD 55 = false ∧ s.ctx.pc.extractLsb' 48 7 ≠ 0 →
          exec .fetchFailure s = .next (s.takeTrap false 10 s.ctx.pc s.ctx.pc none))) ∧
      (s.ctx.pc.toNat < 2 ^ 48 ∧ s.ctx.pc.toNat % 4 = 0 ∧ runChk (translate s.who .fetch s.ctx.pc) s = (.error (n, info), t) ∧
          t.resultsPending = false →
        exec .fetchFailure s = .next (t.takeTrap false n info t.ctx.pc none)) ∧
      (s.resultsPending = false → exec (.illegalEncoding w) s = .next (s.takeTrap false 1 (BitVec.ofNat 64 w.toNat) s.ctx.pc (some w)))) ∧
  (∀ (s : State) (n : Nat) (info : Word) (c : Core), s.coreById n = some c →
      ∃ d, (s.fenceCore n info).coreById n = some d ∧ d.run = .fenced ∧ d.residents = [] ∧ d.shadow = none ∧
        n ∈ (s.fenceCore n info).dev.fencedCores) ∧
  (∀ (s : State) (link n : Nat) (test : SelfTest) (before later : List SelfTest),
      let waits (x : SelfTest) : Prop := x.unit = 6 ∧ ∃ c, s.coreById (coordId x.place) = some c ∧ c.run = .running
      ((∀ x ∈ s.dev.tests, waits x) →
        ∀ pass, exec (.selfTestComplete pass) s = .next s) ∧
      ((∀ x ∈ s.dev.linkErrs, x.1 ≠ link) →
        exec (.linkCrcError link) s = .next (s.modDev fun d => { d with linkErrs := (link, 1) :: d.linkErrs.filter fun x => x.1 != link })) ∧
      ((s.dev.linkErrs.find? fun x => x.1 == link) = some (link, n) ∧ 7 ≤ n →
        exec (.linkCrcError link) s = .next
          ((s.modDev fun d => { d with linkErrs := d.linkErrs.filter fun x => x.1 != link }).startTest 5 (physCoord (link / 4)))) ∧
      (s.dev.tests = before ++ test :: later ∧ (∀ x ∈ before, waits x) ∧ ¬waits test →
        let logged (kind : Nat) := (s.modDev fun d => { d with tests := before ++ later }).log kind test.unit test.place
        let info := logWord 1 test.unit test.place
        exec (.selfTestComplete true) s = .next (logged 0) ∧
        (test.unit = 0 ∨ test.unit = 1 ∨ test.unit = 6 → exec (.selfTestComplete false) s = .next ((logged 1).fenceCore (coordId test.place) info)) ∧
        (test.unit = 2 ∨ test.unit = 5 ∨ test.unit = 3 ∧ test.memSide = false →
          exec (.selfTestComplete false) s = .next ((logged 1).fenceCluster (coordId test.place) info)) ∧
        (test.unit = 3 ∧ test.memSide = true ∨ test.unit = 4 → exec (.selfTestComplete false) s = .next (logged 1))))


/-- The fences wait for what they order and then retire, and an acquire drops the prefetched stream pieces; MON arms the monitor, MWAIT returns
once it has a reason to, or for none, and disarms; EVSIG sends its event, EVENT_SIGNAL_LAND sets the pending bit and acknowledges, EVWAIT takes
it (R164, R165, R179, R333 to R338; log 18). -/
def Obligations.SynchronisationResults : Prop :=
  (∀ (s : State) (scope : Scope),
      let released : Prop := s.releaseMet scope = true ∧ s.commPending s.core.id = false
      let acquired : Prop := s.resultsPending = false
      let fresh := s.modCtx fun c => { c with pieces := [] }
      (acquired → s.completes (.fence .acq scope) .seq fresh) ∧ (released → s.completes (.fence .rel scope) .seq s) ∧
      (released ∧ acquired → s.completes (.fence .full scope) .seq fresh) ∧
      (¬acquired → s.waits (.fence .acq scope) .retry s) ∧
      (¬released → s.waits (.fence .rel scope) .retry s ∧ s.waits (.fence .full scope) .retry s) ∧
      (scope = .sys → (s.releaseMet scope = true ↔ s.core.unack = 0)) ∧
      (s.core.unack = 0 → s.completes .rfence .seq s) ∧ (s.core.unack ≠ 0 → s.waits .rfence .retry s)) ∧
  (∀ (s t u : State) (rs1 : Reg) (key : Nat),
      let p := s.ctx.getX rs1
      let reason : Prop := s.ctx.mon.getLsbD 0 = false ∨ s.ctx.monHit = true ∨ s.ctx.evPend &&& s.ctx.evEn ≠ 0 ∨ s.kip &&& s.core.kieRead ≠ 0
      let disarmed := s.modCtx fun c => { c with mon := c.mon &&& 0xFFFF_FFFF_FFFF_FFFE, monLine := none, monHit := false }
      (s.admits .load p 1 key t ∧ t.reads key 1 u →
        s.completes (.mon rs1) .seq (u.modCtx fun c =>
          { c with mon := (p &&& 0x00FF_FFFF_FFFF_FF80) ||| 1, monLine := some (key / 128), monHit := false })) ∧
      (s.admits .load p 1 key t ∧ (regionOf key).offDevice = true ∧ t.resultsPending = false → s.traps (.mon rs1) 8 p s.ctx.pc t) ∧
      (reason → s.completes .mwait .seq disarmed) ∧ (¬reason → s.waits .mwait .mwait s) ∧
      (s.core.hold = .mwait → exec .mwaitSpuriousReturn s = .next (s.retired .mwait .seq disarmed))) ∧
  (∀ (s : State) (rs1 : Reg) (ev : BitVec 3) (target k : Nat) (e : EvSignal),
      (s.names (s.ctx.getX rs1) target ∧ s.core.unack < 256 →
        s.completes (.evsig rs1 ev) .seq
          ((s.modDev fun d => { d with signals := d.signals ++ [{ core := s.core.id, target := target, ev := ev }] }).modCore
            fun c => { c with unack := c.unack + 1 })) ∧
      (s.dev.signals[k]? = some e ∧ (∀ f ∈ s.dev.signals.take k, f.core ≠ e.core ∨ f.target ≠ e.target) →
        exec (.eventSignalLand k) s = .next
          (((s.modDev fun d => { d with signals := d.signals.eraseIdx k }).modCtxId e.target
            fun c => { c with evPend := c.evPend ||| BitVec.ofNat 8 (2 ^ e.ev.toNat) }).acknowledge e.core)) ∧
      (s.ctx.evPend.getLsbD ev.toNat = true →
        s.completes (.evwait ev) .seq (s.modCtx fun c => { c with evPend := c.evPend &&& ~~~(BitVec.ofNat 8 (2 ^ ev.toNat)) })) ∧
      (s.ctx.evPend.getLsbD ev.toNat = false → s.waits (.evwait ev) .retry s))

/-- SEND posts one reservation and holds; a target's grant reaches it by RESERVATION_REQUEST; RESERVATION_GRANT retires it as its payload
leaves; MESSAGE_ARRIVAL delivers it to the receive buffer of the running context that it is for, or to the context buffer of one that is not there,
and acknowledges (R149 to R153, R339, R340; logs 49, 50, 51). That a granted message reaches a context that has ended by HALT till its hand-off, and
is discarded where its context is gone, is the model's choice (log 117), and so is that the interface reads the count of the buffer that KCTXB names
whenever it looks at a reservation or a message, where a self-test begins for each bad word (R253, log 116). -/
def Obligations.MessageSendingResults : Prop :=
  ∀ (s t : State) (data rs1 : Reg) (ch : BitVec 4) (vec : Bool) (target k : Nat) (r : Reservation) (place : Bool) (payload : VWord) (p : Payload),
    let i := Instr.send data rs1 ch vec
    ((vec = false ∨ data.toNat + 1 ≤ s.ctx.vregs) ∧ (∀ q ∈ s.dev.resvs, q.core ≠ s.core.id) ∧ s.names (s.ctx.getX rs1) target ∧
        s.core.unack < 256 →
      s.waits i .send (s.modDev fun d => { d with resvs := d.resvs ++ [{ core := s.core.id, target := target, hdr := s.msgHeader ch vec
                                                                         reached := false, granted := false, toBuffer := false
                                                                         word := wordOf i }] })) ∧
    (s.dev.resvs[k]? = some r ∧ r.granted = false ∧ r.reached = true ∧ s.grantAt r.target (hdrLnum r.hdr) = some place ∧
        ((s.dev.resvs.filter fun q => q.target == r.target && q.reached && !q.granted).find?
          fun q => (s.grantAt q.target (hdrLnum q.hdr)).isSome) = some r →
      exec (.reservationRequest k) s = .next ((s.meetCount r.target (hdrLnum r.hdr)).modDev fun d => { d with
        resvs := d.resvs.map fun q => if q.core = r.core then { q with granted := true, toBuffer := place } else q })) ∧
    (s.dev.resvs[k]? = some r ∧ r.granted = true ∧ r.core = s.core.id ∧ s.core.hold = .send ∧ decode r.word = some i ∧
        sendPayload data vec (s.modDev fun d => { d with resvs := d.resvs.filter fun q => q.core != r.core }) = .ok payload t →
      exec (.reservationGrant k) s = .next (s.retired i .seq
        ((t.modDev fun d => { d with
          payloads := d.payloads ++ [{ core := r.core, target := r.target, msg := { hdr := r.hdr, payload := payload }, toBuffer := r.toBuffer }]
          }).modCore fun c => { c.countMsg (hdrLnum r.hdr) 1 0 with unack := c.unack + 1 }))) ∧
    (s.dev.payloads[k]? = some p ∧ (∀ q ∈ s.dev.payloads.take k, q.core ≠ p.core ∨ q.target ≠ p.target) ∧
        (s.meetCount p.target (hdrLnum p.msg.hdr)).deliver p.core p.target p.msg = some t →
      exec (.messageArrival k) s = .next
        (((t.modDev fun d => { d with payloads := d.payloads.eraseIdx k }).modCoreId p.target
          fun c => c.countMsg (hdrLnum p.msg.hdr) 0 1).acknowledge p.core)) ∧
    (∀ n l, s.meetCount n l = s.modDev fun d => { d with tests := d.tests ++ (match (s.coreById n).bind fun c => c.bufferOf l with
      | none => []
      | some b => (d.bad.filter fun w => decide ((b + 0x1600) / 8 ≤ w ∧ w * 8 < b + 0x1600 + 8)).map fun w => testOf (w * 8)) }) ∧
    (∀ (c : Core) (m : Msg) (b : Nat), s.coreById target = some c →
      let lnum : BitVec 12 := m.hdr.extractLsb' 28 12
      let here : Prop := c.run = .running ∧ c.ctx.lnum = lnum
      let named : Prop := c.kctxb.getLsbD 0 = true ∧ c.kctxb.extractLsb' 52 12 = lnum ∧ b = c.kctxb.toNat / 2 ^ 12 % 2 ^ 40 * 4096
      let n := s.value (b + 0x1600) 8 % 128
      let stored := (((s.poke (b + 64 * n) (leBytes 64 m.payload.toNat)).poke (b + 0x1400 + 8 * n) (leBytes 8 m.hdr.toNat)).poke (b + 0x1600)
        (leBytes 8 (n + 1)))
      let received := s.modCtxId target fun x => { x with rbuf := x.rbuf ++ [m] }
      (r.core ≠ distributorId →
        (here ∧ (c.kctxb.getLsbD 0 = false ∨ c.kctxb.extractLsb' 52 12 ≠ lnum) ∧ c.ctx.rbuf.length < 32 →
          s.deliver r.core target m = some received) ∧
        (here ∧ named ∧ n = 0 ∧ c.ctx.rbuf.length < 32 → s.deliver r.core target m = some received) ∧
        (¬here ∧ named ∧ n < 64 → s.deliver r.core target m = some stored) ∧
        (¬here ∧ (c.kctxb.getLsbD 0 = false ∨ c.kctxb.extractLsb' 52 12 ≠ lnum) →
          ((c.run = .heldForRebuild ∧ c.ctx.lnum = lnum ∨ ∃ q ∈ c.residents, q.lnum = lnum) → s.deliver r.core target m = none) ∧
          ((∀ q ∈ c.residents, q.lnum ≠ lnum) →
            (c.run = .ended ∧ c.ctx.lnum = lnum → s.deliver r.core target m = some received) ∧
            (c.ctx.lnum ≠ lnum → s.deliver r.core target m = some s)))) ∧
      (here ∧ (c.kctxb.getLsbD 0 = false ∨ c.kctxb.extractLsb' 52 12 ≠ lnum) →
        s.grantAt target lnum = if c.ctx.rbuf.length + s.dev.reservedAt target false < 32 then some false else none) ∧
      (¬here ∧ named → s.grantAt target lnum = if n + s.dev.reservedAt target true < 32 then some true else none) ∧
      (¬here ∧ (c.kctxb.getLsbD 0 = false ∨ c.kctxb.extractLsb' 52 12 ≠ lnum) → s.grantAt target lnum = none))

/-- RECV and RECVNB take the oldest message of their channel; an empty channel holds RECV and gives RECVNB zero; a message of the other
narrow mode traps NARM_MISMATCH; messages move on from the context buffer, oldest first, as far as entries are free and not reserved, and the rest
move up in it (R152 to R154, R341). That an entry that is reserved counts as taken (log 105), and that the messages that stay take the slots from 0
again (log 87), are the model's choices; the words that the move reads are tested where they are bad (log 116). -/
def Obligations.MessageReceivingResults : Prop :=
  ∀ (s : State) (rd : Reg) (ch : BitVec 4) (k : Nat) (m : Msg),
    let rest := s.modCtx fun c => { c with rbuf := c.rbuf.eraseIdx k }
    (s.ctx.rbuf[k]? = some m ∧ (∀ q ∈ s.ctx.rbuf.take k, q.hdr.extractLsb' 22 4 ≠ ch) ∧ m.hdr.extractLsb' 22 4 = ch →
      (m.hdr.getLsbD 27 = s.ctx.fstat.getLsbD 8 →
        s.completes (.recv rd ch false) .seq (rest.setX rd (m.payload.setWidth 64)) ∧
        s.completes (.recvnb rd ch false) .seq (rest.setX rd (m.payload.setWidth 64)) ∧
        (∀ t, rd.toNat + 1 ≤ s.ctx.vregs → rest.takesGroup rd 1 (if m.hdr.getLsbD 26 then m.payload.toNat else m.payload.toNat % 2 ^ 64) t →
          s.completes (.recv rd ch true) .seq t ∧ s.completes (.recvnb rd ch true) .seq t)) ∧
      (m.hdr.getLsbD 27 ≠ s.ctx.fstat.getLsbD 8 ∧ s.resultsPending = false →
        s.traps (.recv rd ch false) 14 m.hdr s.ctx.pc s ∧ s.traps (.recvnb rd ch false) 14 m.hdr s.ctx.pc s ∧
        (rd.toNat + 1 ≤ s.ctx.vregs → s.traps (.recv rd ch true) 14 m.hdr s.ctx.pc s ∧ s.traps (.recvnb rd ch true) 14 m.hdr s.ctx.pc s))) ∧
    ((∀ q ∈ s.ctx.rbuf, q.hdr.extractLsb' 22 4 ≠ ch) →
      s.waits (.recv rd ch false) (.recv ch) s ∧ s.computes (.recvnb rd ch false) rd 0 ∧
      (rd.toNat + 1 ≤ s.ctx.vregs → s.waits (.recv rd ch true) (.recv ch) s ∧
        (∀ t, s.takesGroup rd 1 0 t → s.completes (.recvnb rd ch true) .seq t))) ∧
    (s.core.run = .running → exec .contextBufferDrain s = .next s.replayBuffer) ∧
    (s.core.run ≠ .running → exec .contextBufferDrain s = .next s) ∧
    (s.core.kctxb.getLsbD 0 = false ∨ s.core.kctxb.extractLsb' 52 12 ≠ s.ctx.lnum → s.replayBuffer = s) ∧
    (s.core.kctxb.getLsbD 0 = true ∧ s.core.kctxb.extractLsb' 52 12 = s.ctx.lnum →
      let b := s.core.kctxb.toNat / 2 ^ 12 % 2 ^ 40 * 4096
      let slot (i : Nat) : Msg := { hdr := BitVec.ofNat 64 (s.value (b + 0x1400 + 8 * i) 8), payload := BitVec.ofNat 512 (s.value (b + 64 * i) 64) }
      let ms := (List.range (s.value (b + 0x1600) 8 % 128)).map slot
      let n := min ms.length (32 - (s.ctx.rbuf.length + s.dev.reservedAt s.core.id false))
      let t := s.replayBuffer
      let met (k : Nat) : State := ((s.meetRange (b + 0x1600) 8).meetRange b (64 * k)).meetRange (b + 0x1400) (8 * k)
      (n = 0 → t = met 0) ∧
      (n ≠ 0 → t = ((((ms.drop n).zipIdx).foldl (fun s x => (s.poke (b + 64 * x.2) (leBytes 64 x.1.payload.toNat)).poke (b + 0x1400 + 8 * x.2)
        (leBytes 8 x.1.hdr.toNat)) ((met ms.length).modCtx fun c => { c with rbuf := c.rbuf ++ ms.take n })).poke (b + 0x1600) (leBytes 8 (ms.length - n)))) ∧
      (n ≠ 0 → t.ctx.rbuf = s.ctx.rbuf ++ ms.take n ∧ t.ctx.x = s.ctx.x ∧ t.ctx.v = s.ctx.v ∧ t.core.unack = s.core.unack))

/-- MCAST hands its store to the interface; WEIR_WINDOW_CLOSE, once the window's 32 cycles are over, announces up to four of each interface's
broadcasts that have retired by then; BROADCAST_APPLY makes the store at a target that is to take it, or performs a quantum atomic at its home; one
that meets an uncorrectable error there is lost, and its core is to trap, and one whose home lies behind a failed port is not performed (R80, R155 to
R158, R175, R342, R343, R464; logs 31, 102). -/
def Obligations.BroadcastResults : Prop :=
  ∀ (s : State) (data rs1 rs2 : Reg) (ts : List Nat) (k t off : Nat) (b : Bcast) (datum : Word) (all : List Nat),
    let p := s.ctx.getX rs1
    let set := s.ctx.getX rs2
    (p.toNat / 2 ^ 59 < 10 ∧ set &&& targetReserved = 0 ∧ p.toNat % 8 = 0 ∧ p.getLsbD 55 = true ∧ p.extractLsb' 53 2 = 0#2 ∧
        p.toNat % 2 ^ 40 < 0x60000 ∧ s.targetSet s.who set = some ts →
      (s.core.bq.length < 16 ∧ s.core.unack < 256 →
        s.completes (.mcast data rs1 rs2) .seq (s.broadcast (.mcast (p.toNat % 2 ^ 40) (s.ctx.getX data) ts) ts)) ∧
      (16 ≤ s.core.bq.length → s.waits (.mcast data rs1 rs2) .retry s)) ∧
    ((s.dev.window + 1) * 32 ≤ s.dev.cycles →
      let goes (c : Core) : List Nat :=
        (c.bq.takeWhile fun n => s.dev.bcasts.any fun b => b.id == n && decide (b.retired ≤ s.dev.window)).take 4
      ∃ u, exec .weirWindowClose s = .next u ∧ u.dev.window = s.dev.window + 1 ∧ u.core.bq = s.core.bq.drop (goes s.core).length ∧
        u.ctx = s.ctx ∧ u.dev.mem = s.dev.mem ∧
        (∀ x ∈ u.dev.bcasts, (∃ c ∈ s.cores, x.id ∈ goes c) → x.window = some (s.dev.window + 1))) ∧
    (s.dev.cycles < (s.dev.window + 1) * 32 → exec .weirWindowClose s = .next s) ∧
    (∀ home op rd, s.dev.applications[k]? = some (b, t) ∧ s.dev.earlierPending b t = false ∧ b.op = .quantum home op rd ∧
        s.dev.cutOff home = true → exec (.broadcastApply k) s = .next s) ∧
    (∀ home op rd, s.dev.applications[k]? = some (b, t) ∧ s.dev.earlierPending b t = false ∧ b.op = .quantum home op rd ∧
        s.dev.cutOff home = false →
      let u := s.drainLines b.core home 8 b.id
      let v := (u.performOp home op).2
      (u.dev.opBad home op = none → exec (.broadcastApply k) s = .next ((v.modDev fun d => { d with
        bcasts := d.bcasts.filter fun x => x.id != b.id
        flights := d.flights ++ [{ id := b.id, core := b.core, lnum := b.lnum, home := home, op := op, comm := false, append := false, rd := some rd, done := true
                                   acked := false, old := (u.performOp home op).1, merged := [] }] }).acknowledge b.core)) ∧
      (∀ w, u.dev.opBad home op = some w ∧ b.core = s.core.id ∧ s.core.run = .running →
        ∃ x, exec (.broadcastApply k) s = .next x ∧ x.dev.mem = u.dev.mem ∧ (∀ y ∈ x.dev.bcasts, y.id ≠ b.id) ∧ x.core.unack = u.core.unack - 1 ∧
          x.core.lost = u.core.lost ++ [{ level := u.core.outerLevel, info := (u.meetError w).1 }])) ∧
    (s.dev.applications[k]? = some (b, t) ∧ s.dev.earlierPending b t = false ∧ b.op = .mcast off datum all ∧ 1 < b.todo.length →
      exec (.broadcastApply k) s = .next
        ((if b.lnum = 0 ∨ s.holdsScratch t b.lnum off then s.poke (poolKey t off) (leBytes 8 datum.toNat) else s).modDev fun d => { d with
          bcasts := (d.bcasts.map fun x => if x.id = b.id then { x with todo := b.todo.erase t } else x).filter
            fun x => !(x.id == b.id && (b.todo.erase t).isEmpty) })) ∧
    (s.dev.applications[k]? = some (b, t) ∧ s.dev.earlierPending b t = false ∧ b.op = .mcast off datum all ∧ b.todo = [t] →
      exec (.broadcastApply k) s = .next
        (((if b.lnum = 0 ∨ s.holdsScratch t b.lnum off then s.poke (poolKey t off) (leBytes 8 datum.toNat) else s).modDev fun d => { d with
          bcasts := (d.bcasts.map fun x => if x.id = b.id then { x with todo := [] } else x).filter
            fun x => !(x.id == b.id && true) }).acknowledge b.core))

/-- The nine operations of AMO; and AMO and CAS by their ordering and use: those that hold the core return the old value of a cell on the
device, once a release is met and an acquire's earlier results are in; the others leave the core, or trap ECC_UNCORR where their word is bad when they
are issued and no quantum atomic of the core is on its way to the line; a speculative one returns 1 where it was performed,
and 0 where it failed or was declined, and after a TLB miss it starts a walk, whose page fault the next one to the page takes (R171 to R175, R345,
R346; logs 31, 40). -/
def Obligations.AtomicResults : Prop :=
  ∀ (s t u : State) (rd rs1 rs2 : Reg) (key : Nat) (op : AmoOp),
    let p := s.ctx.getX rs1
    let old : Word := BitVec.ofNat 64 (u.value key 8)
    let stores (v : Word) := u.poke key (leBytes 8 v.toNat)
    let changed := amoApply op old (s.ctx.getX rs2)
    let swapped := if old = s.ctx.getX rd then stores (s.ctx.getX rs2) else u
    let amo := FlightOp.amo op (s.ctx.getX rs2)
    let cas := FlightOp.cas (s.ctx.getX rd) (s.ctx.getX rs2)
    (∀ x v : Word,
      amoApply .add x v = BitVec.ofNat 64 (x.toNat + v.toNat) ∧ amoApply .and x v = x &&& v ∧ amoApply .or x v = x ||| v ∧
      amoApply .xor x v = x ^^^ v ∧ amoApply .swap x v = v ∧
      amoApply .min x v = (if x.toInt ≤ v.toInt then x else v) ∧ amoApply .max x v = (if v.toInt ≤ x.toInt then x else v) ∧
      amoApply .minu x v = (if x.toNat ≤ v.toNat then x else v) ∧ amoApply .maxu x v = (if v.toNat ≤ x.toNat then x else v)) ∧
    (s.admits .rmw p 8 key t → (regionOf key).offDevice = false →
    (t.reads key 8 u →
      s.completes (.amo op (.relaxed .nord) rd rs1 rs2) .seq ((stores changed).setX rd old) ∧
      s.completes (.cas (.relaxed .nord) rd rs1 rs2) .seq (swapped.setX rd old) ∧
      (∀ scope, (t.releaseMet scope = true ∧ t.commPending t.core.id = false →
          s.completes (.amo op (.rel scope) rd rs1 rs2) .seq ((stores changed).setX rd old) ∧
          s.completes (.cas (.rel scope) rd rs1 rs2) .seq (swapped.setX rd old)) ∧
        ((stores changed).resultsPending = false →
          let done := ((stores changed).modCtx fun c => { c with pieces := [] }).setX rd old
          s.completes (.amo op (.acq scope) rd rs1 rs2) .seq done ∧
          (t.releaseMet scope = true ∧ t.commPending t.core.id = false → s.completes (.amo op (.acqrel scope) rd rs1 rs2) .seq done)) ∧
        (swapped.resultsPending = false →
          let done := (swapped.modCtx fun c => { c with pieces := [] }).setX rd old
          s.completes (.cas (.acq scope) rd rs1 rs2) .seq done ∧
          (t.releaseMet scope = true ∧ t.commPending t.core.id = false → s.completes (.cas (.acqrel scope) rd rs1 rs2) .seq done)) ∧
        ((stores changed).resultsPending = true →
          s.waits (.amo op (.acq scope) rd rs1 rs2) .load ((stores changed).modCore fun c => { c with
            out := some { word := some (wordOf (.amo op (.acq scope) rd rs1 rs2)), home := key, width := 8, value := some old, failed := false } })) ∧
        (t.releaseMet scope = false ∨ t.commPending t.core.id = true →
          s.waits (.amo op (.rel scope) rd rs1 rs2) .retry t ∧ s.waits (.amo op (.acqrel scope) rd rs1 rs2) .retry t ∧
          s.waits (.cas (.rel scope) rd rs1 rs2) .retry t ∧ s.waits (.cas (.acqrel scope) rd rs1 rs2) .retry t))) ∧
    (s.missesTlb p = false →
      let next := { t with fresh := t.fresh + 1 }
      (t.quantumOn key 8 = true ∨ Config.specDeclined t.fresh = true →
        s.completes (.amo op (.relaxed .spec) rd rs1 rs2) .seq (next.setX rd 0) ∧
        s.completes (.cas (.relaxed .spec) rd rs1 rs2) .seq (next.setX rd 0)) ∧
      (Config.specDeclined t.fresh = false → next.reads key 8 u →
        s.completes (.amo op (.relaxed .spec) rd rs1 rs2) .seq ((stores changed).setX rd 1) ∧
        s.completes (.cas (.relaxed .spec) rd rs1 rs2) .seq (swapped.setX rd (if old = s.ctx.getX rd then 1 else 0)))) ∧
    ((t.dev.badWord key 8 = none ∨ t.quantumOn key 8 = true) ∧ t.core.unack < 256 →
      s.completes (.amo op (.relaxed .unp) rd rs1 rs2) .seq (t.launchFlight key amo false false (some rd)) ∧
      s.completes (.cas (.relaxed .unp) rd rs1 rs2) .seq (t.launchFlight key cas false false (some rd)) ∧
      s.completes (.amo op (.relaxed .comm) rd rs1 rs2) .seq (t.launchFlight key amo true false none)) ∧
    (∀ w, t.quantumOn key 8 = false ∧ (t.dev.badWord key 8).isSome = true ∧ u = t.drainLines t.core.id key 8 t.dev.seq ∧
        u.dev.badWord key 8 = some w ∧ (u.meetError w).2.resultsPending = false →
      ∀ i, i = .amo op (.relaxed .unp) rd rs1 rs2 ∨ i = .cas (.relaxed .unp) rd rs1 rs2 ∨ i = .amo op (.relaxed .comm) rd rs1 rs2 ∨
          i = .amo op (.relaxed .quant) rd rs1 rs2 ∨ i = .cas (.relaxed .quant) rd rs1 rs2 →
        s.traps i 24 (u.meetError w).1 s.ctx.pc (u.meetError w).2) ∧
    ((t.dev.badWord key 8 = none ∨ t.quantumOn key 8 = true) ∧ t.core.bq.length < 16 ∧ t.core.unack < 256 →
      s.completes (.amo op (.relaxed .quant) rd rs1 rs2) .seq (t.broadcast (.quantum key amo rd) [0]) ∧
      s.completes (.cas (.relaxed .quant) rd rs1 rs2) .seq (t.broadcast (.quantum key cas rd) [0]))) ∧
    (∀ i, i = .amo op (.relaxed .spec) rd rs1 rs2 ∨ i = .cas (.relaxed .spec) rd rs1 rs2 →
      p.toNat / 2 ^ 59 < 10 ∧ p.getLsbD 55 = false ∧ p.extractLsb' 48 7 = 0 ∧ p.toNat % 8 = 0 ∧ s.missesTlb p = true →
      let here (g : SpecFault) : Bool := g.kptb == s.core.kptb && g.page == p.toNat / 2 ^ 12 % 2 ^ 36
      ((∀ g ∈ s.core.specFault, here g = false) →
        s.completes i .seq ((s.endSpecWalk.modCore fun c => { c with specWalk := some (s.core.kptb, p) }).setX rd 0)) ∧
      (∀ g, s.core.specFault.find? here = some g → s.resultsPending = false →
        s.traps i g.cause g.info s.ctx.pc (s.modCore fun c => { c with specFault := c.specFault.filter fun x => !(here x) })))

/-- LDA loads and acquires, STR releases and stores; an access to the host or a peer leaves the core and LOAD_RETURN ends it: a scalar load writes
its register, and each line that a longer load needs comes by itself, to the instruction that holds for it; through a failed port neither returns, and
what has failed traps ECC_UNCORR with its home (R26, R163, R165, R347, R464; logs 45, 136). -/
def Obligations.AcquireReleaseAndRemoteLoads : Prop :=
  ∀ (s t u : State) (scope : Scope) (rd rs1 rs2 : Reg) (imm : BitVec 16) (ea : Word) (key : Nat) (o : Outstanding),
    (s.admits .load (s.ctx.getX rs1) 8 key t ∧ t.reads key 8 u ∧ u.resultsPending = false →
      s.completes (.lda scope rd rs1) .seq ((u.modCtx fun c => { c with pieces := [] }).setX rd (BitVec.ofNat 64 (u.value key 8)))) ∧
    (s.releaseMet scope = true ∧ s.commPending s.core.id = false ∧ s.admits .store (s.ctx.getX rs1) 8 key t ∧ key % 128 + 8 ≤ 128 →
      (regionOf key = .pool t.core.id ∧ t.quantumOn key 8 = true → s.waits (.str scope rs1 rs2) .retry t) ∧
      (regionOf key = .pool t.core.id ∧ t.quantumOn key 8 = false → s.completes (.str scope rs1 rs2) .seq (t.pokeOwn key (leBytes 8 (s.ctx.getX rs2).toNat))) ∧
      (regionOf key ≠ .pool t.core.id ∧ t.core.unack < 256 →
        s.completes (.str scope rs1 rs2) .seq (t.launchFlight key (.store (leBytes 8 (s.ctx.getX rs2).toNat)) false false none))) ∧
    (addressOf (s.ctx.getX rs1) imm = some ea ∧ s.admits .load ea 8 key t ∧ (regionOf key).offDevice = true →
      s.waits (.ld rd rs1 imm) .load (t.modCore fun c => { c with out := some { word := some (wordOf (.ld rd rs1 imm)), home := key, width := 8
                                                                                value := none, failed := false } })) ∧
    (s.core.out = some o →
      let back := s.modCore fun c => { c with out := none }
      let open' : Prop := s.quantumOn o.home o.width = false ∧ s.dev.cutOff o.home = false
      let came (v : State) (a : Arrived) : State := v.modCore fun c => { c with out := none, arrived := c.arrived ++ [a] }
      (o.value = none ∧ o.failed = false ∧ ¬open' → exec .loadReturn s = .next s) ∧
      (s.core.run = .running →
        (∀ w, o.word = some w ∧ decode w = some (.ld rd rs1 imm) →
          (o.value = none ∧ o.failed = false ∧ o.width = 8 ∧ open' ∧
              u = back.drainLines s.core.id o.home 8 s.dev.seq ∧ u.dev.badWord o.home 8 = none →
            exec .loadReturn s = .next (s.retired (.ld rd rs1 imm) .seq (u.setX rd (BitVec.ofNat 64 (u.value o.home 8))))) ∧
          (o.failed = true ∧ s.resultsPending = false →
            exec .loadReturn s = .next (back.takeTrap false 24 (BitVec.ofNat 64 o.home) s.ctx.pc (some (wordOf (.ld rd rs1 imm)))))) ∧
        (o.word = none →
          (o.value = none ∧ o.failed = false ∧ open' ∧ u = s.drainLines s.core.id o.home o.width s.dev.seq ∧ u.dev.badWord o.home o.width = none →
            exec .loadReturn s = .next (came u { key := o.home, bytes := u.peek o.home o.width, error := none })) ∧
          (o.failed = true →
            exec .loadReturn s = .next (came s { key := o.home, bytes := List.replicate o.width 0, error := some (BitVec.ofNat 64 o.home) }))))) ∧
    (∀ n, (regionOf key).offDevice = true ∧ 0 < n ∧ key % 128 + n ≤ 128 →
      let came := s.core.arrived.find? fun a => a.key == key && a.bytes.length == n
      (came = none → coreRead key n s = .error (.hold .completes) (s.modCore fun c => { c with
        out := some { word := none, home := key, width := n, value := none, failed := false } })) ∧
      (∀ a, came = some a ∧ a.error = none → s.gives (coreRead key n) a.bytes s) ∧
      (∀ a info, came = some a ∧ a.error = some info → coreRead key n s = .error (.trap 24 info .here) s))

/-- An access in flight is performed at its home in order: a store writes its bytes, an atomic of a sound word returns the old value and writes its
result, CINIT and CRCL write their cell; an atomic is then acknowledged, with all that were merged into it, and one without a return is over. A store
is acknowledged once it is performed, or stands in the posted queue of the host; a value is returned to its register; two commutative atomics of one
operation and address may merge; a speculative atomic's walk ends: its translation enters the TLBs, a page fault is kept, and other failures are
forgotten; an operation that meets an uncorrectable error in what it reads at its home writes nothing, and its core is to trap; and one whose home
lies behind a failed port is not performed (R17, R26 to R28, R80, R84, R86, R116, R159, R161, R172 to R174, R177, R346, R464; logs 31, 40, 145). -/
def Obligations.AccessesInFlight : Prop :=
  (∀ (s : State) (k : Nat) (f : Flight) (rd : Reg), s.dev.flights[k]? = some f →
    (f.done = false ∧ s.dev.behind f = false ∧ s.dev.cutOff f.home = false ∧ s.dev.opBad f.home f.op = none →
      let u := (s.performOp f.home f.op).2
      let ended : Bool := (f.op.isAtomic && f.rd.isNone) || f.acked
      let v := u.modDev fun d => { d with
        flights := (d.flights.map fun g => if g.id = f.id then { g with done := true, old := (s.performOp f.home f.op).1 } else g).filter
          fun g => !(g.id == f.id && ended) }
      exec (.homePerformAccess k) s = .next
        (if f.op.isAtomic then (f.core :: f.merged.map fun p => p.1).foldl State.acknowledge v else v)) ∧
    (f.done = false ∧ (s.dev.behind f = true ∨ s.dev.cutOff f.home = true) → exec (.homePerformAccess k) s = .next s) ∧
    (∀ w, f.done = false ∧ s.dev.behind f = false ∧ s.dev.cutOff f.home = false ∧ s.dev.opBad f.home f.op = some w ∧ f.merged = [] ∧ f.core = s.core.id ∧
        s.core.run = .running →
      ∃ t, exec (.homePerformAccess k) s = .next t ∧ t.dev.mem = s.dev.mem ∧ t.dev.flights = (s.dev.flights.filter fun g => g.id != f.id) ∧
        t.core.unack = s.core.unack - 1 ∧ t.core.pendReg = (s.core.pendReg.filter fun p => p.1 != f.id) ∧ t.ctx = s.ctx ∧
        t.core.lost = s.core.lost ++ [{ level := s.core.outerLevel, info := (s.meetError w).1 }]) ∧
    (f.done = true ∧ f.op.isAtomic = false →
      exec (.storeAck k) s = .next ((s.modDev fun d => { d with flights := d.flights.eraseIdx k }).acknowledge f.core)) ∧
    (f.done = false ∧ f.acked = false ∧ f.op.isAtomic = false ∧ regionOf f.home = .hostMem ∧
        (∀ g ∈ s.dev.flights, g.ahead f = true → g.acked = true ∨ g.op.isAtomic = true) →
      exec (.storeAck k) s = .next ((s.modDev fun d => { d with
        flights := (d.flights.filter fun g => g.acked) ++ { f with acked := true } :: d.flights.filter fun g => !g.acked && g.id != f.id
        }).acknowledge f.core)) ∧
    (f.done = true ∧ f.rd = some rd →
      exec (.atomicResultReturn k) s = .next ((s.modDev fun d => { d with flights := d.flights.eraseIdx k }).modCoreId f.core
        fun c => { c with ctx := c.ctx.setX rd f.old, pendReg := c.pendReg.filter fun p => p.1 != f.id }))) ∧
  (∀ (s : State) (home : Nat) (bs : List Byte) (op : AmoOp) (x y : Word),
    let old : Word := BitVec.ofNat 64 (s.value home 8)
    let tail := s.value (home + 0x28) 8
    let head := s.value (home + 0x20) 8
    s.performOp home (.store bs) = (0, s.poke home bs) ∧
    (s.dev.badWord home 8 = none →
      s.performOp home (.amo op x) = (old, s.poke home (leBytes 8 (amoApply op old x).toNat)) ∧
      s.performOp home (.cas x y) = (old, if old = x then s.poke home (leBytes 8 y.toNat) else s)) ∧
    s.performOp home (.cinit x) = (0, s.poke home (leBytes 8 x.toNat ++ List.replicate 40 0)) ∧
    (s.dev.badWord (home + 0x20) 16 = none →
      s.performOp home (.crcl x) = (0, s.poke (home + 0x28) (leBytes 8 (max tail (min x.toNat head + 1))))) ∧
    (s.dev.bad = [] ∧ s.dev.cells = [] →
      (s.poke home bs).dev = { s.dev with mem := Memory.writeBytes s.dev.mem home bs } ∧ (s.poke home bs).ctx.x = s.ctx.x)) ∧
  (∀ (s : State) (j k : Nat) (f g : Flight) (op : AmoOp) (x y : Word),
    s.dev.flights[j]? = some f ∧ s.dev.flights[k]? = some g ∧ j < k ∧ f.comm = true ∧ g.comm = true ∧ f.done = false ∧ g.done = false ∧
        f.home = g.home ∧ f.op = .amo op x ∧ g.op = .amo op y ∧
        s.dev.behindQuantum f = false ∧ s.dev.behindQuantum g = false ∧ (∀ h ∈ (s.dev.flights.take k).drop (j + 1), h.done = false → f.ahead h = false) →
      exec (.commutativeMerge j k) s = .next (s.modDev fun d => { d with
        flights := (d.flights.filter fun h => h.id != f.id).map fun h =>
          if h.id = g.id then { h with op := .amo op (amoApply op x y), merged := h.merged ++ (f.core, f.id) :: f.merged } else h })) ∧
  (∀ (s t : State) (kptb p : Word) (e : TlbEntry) (n : Nat) (info : Word),
    (s.core.specWalk = none → exec .pageWalk s = .next s) ∧
    (s.core.specWalk = some (kptb, p) →
      let before := s.modCore fun c => { c with specWalk := none }
      let walk := runChk (pageWalk { s.who with kptb := kptb } .rmw (p.toNat / 2 ^ 56) (p.toNat % 2 ^ 48)) before
      let kept : SpecFault := { kptb := kptb, page := p.toNat / 2 ^ 12 % 2 ^ 36, cause := 6, info := info }
      (walk = (.ok e, t) → exec .pageWalk s = .next t ∧ t.core.tlb.head? = some e ∧ t.core.specWalk = none ∧ t.ctx.x = s.ctx.x) ∧
      (walk = (.error (6, info), t) → exec .pageWalk s = .next (t.modCore fun c => { c with
        specFault := (c.specFault.filter fun g => !(g.kptb == kptb && g.page == p.toNat / 2 ^ 12 % 2 ^ 36)) ++ [kept] })) ∧
      (walk = (.error (n, info), t) ∧ n ≠ 6 → exec .pageWalk s = .next t)))

/-- The versioned cells: CINIT and CRCL write a cell, CVER reads its head, CST and CLD act once their condition holds and else wait at the
home, or trap where what they read there is bad; CELL_ABANDON withdraws one that waits (R80, R116, R163, R176 to R178, R348, R349). A write of a cell in
the core's own pool waits for the core's quantum atomic to the line (the model's choice, log 45), and of several that wait at a cell the one posted first
is performed first (the model's choice, log 143). -/
def Obligations.VersionedCellResults : Prop :=
  ∀ (s t u : State) (rd rs1 rs2 : Reg) (key : Nat) (w : CellWait) (v : Word),
    let n := s.ctx.getX rs2
    let own : Prop := regionOf key = .pool s.core.id
    let other : Prop := ¬own ∧ s.core.unack < 256
    let free : Prop := s.quantumOn key 64 = false ∧ t = s.drainLines s.core.id key 64 s.dev.seq ∧ t.cellOf t.core.id = none
    (s.cellNamed (s.ctx.getX rs1) key →
      (s.releaseMet .dev = true ∧ s.commPending s.core.id = false →
        (other → s.completes (.cinit rs1 rs2) .seq (s.launchFlight key (.cinit n) false false none)) ∧
        (own ∧ s.quantumOn key 8 = false → s.completes (.cinit rs1 rs2) .seq ((s.drainLines s.core.id key 64 s.dev.seq).performOp key (.cinit n)).2) ∧
        (own ∧ s.quantumOn key 8 = true → s.waits (.cinit rs1 rs2) .retry s)) ∧
      (other ∧ (s.dev.badWord (key + 0x20) 16 = none ∨ s.quantumOn key 8 = true) →
        s.completes (.crcl rs1 rs2) .seq (s.launchFlight key (.crcl n) false false none)) ∧
      (own ∧ s.quantumOn key 8 = false ∧ s.dev.badWord (key + 0x20) 16 = none →
        s.completes (.crcl rs1 rs2) .seq ((s.drainLines s.core.id key 64 s.dev.seq).performOp key (.crcl n)).2) ∧
      (own ∧ s.quantumOn key 8 = true → s.waits (.crcl rs1 rs2) .retry s) ∧
      (s.reads (key + 0x20) 8 u → s.completes (.cver rd rs1) .seq (u.setX rd (BitVec.ofNat 64 (u.value (key + 0x20) 8)))) ∧
      (s.cellOf s.core.id = none ∧ s.releaseMet .dev = true ∧ s.commPending s.core.id = false ∧ free →
        let w : CellWait := { core := s.core.id, home := key, store := true, arg := n, rd := 0, result := none }
        (∀ b, t.dev.badWord (key + 0x20) 16 = some b ∧ t.dev.cells = [] ∧ t.resultsPending = false →
          ∃ x, s.traps (.cst rs1 rs2) 24 (t.meetError b).1 s.ctx.pc x ∧ x.dev.mem = t.dev.mem ∧ x.ctx = t.ctx) ∧
        (t.dev.badWord (key + 0x20) 16 = none ∧ t.cellHead key < t.cellTail key + 3 →
          let head := (t.cellHead key + 1) % 2 ^ 64
          let x := (t.pokeRaw (key + 8 * (head % 4)) (leBytes 8 n.toNat)).pokeRaw (key + 0x20) (leBytes 8 head)
          let y := x.settleCells x.dev.cells.length
          s.completes (.cst rs1 rs2) .seq (y.modDev fun d => { d with cells := d.cells.filter fun w => w.core != y.core.id })) ∧
        (t.dev.badWord (key + 0x20) 16 = none ∧ t.cellTail key + 3 ≤ t.cellHead key → s.waits (.cst rs1 rs2) .cell (t.modDev fun d => { d with cells := d.cells ++ [w] }))) ∧
      (s.cellOf s.core.id = none ∧ free ∧ t.resultsPending = false ∧ t.dev.cells = [] ∧ t.dev.badWord (key + 0x20) 16 = none →
        (∀ b, t.cellTail key ≤ n.toNat ∧ n.toNat ≤ t.cellHead key ∧ t.dev.badWord (key + 8 * (n.toNat % 4)) 8 = some b →
          ∃ x, s.traps (.cld rd rs1 rs2) 24 (t.meetError b).1 s.ctx.pc x ∧ x.dev.mem = t.dev.mem ∧ x.ctx = t.ctx) ∧
        (t.cellTail key ≤ n.toNat ∧ n.toNat ≤ t.cellHead key ∧ t.dev.badWord (key + 8 * (n.toNat % 4)) 8 = none →
          s.completes (.cld rd rs1 rs2) .seq ((t.modCtx fun c => { c with pieces := [] }).setX rd (BitVec.ofNat 64 (t.value (key + 8 * (n.toNat % 4)) 8)))) ∧
        (n.toNat ≤ t.cellHead key ∧ n.toNat < t.cellTail key → s.traps (.cld rd rs1 rs2) 19 n s.ctx.pc t) ∧
        (t.cellHead key < n.toNat → ∃ y, s.waits (.cld rd rs1 rs2) .cell y ∧ y.dev.mem = t.dev.mem))) ∧
    (s.cellOf s.core.id = some w ∧ w.result = none → exec .cellAbandon s = .next s.abandon) ∧
    (s.cellOf s.core.id = some w ∧ w.result = some (.value v) → exec .cellAbandon s = .next s)


/-- DMA, DMAD, DMARES and QPUSH of q0 put their command on the queue, once its checks pass: the fields of the registers and DEALPAT, or of
the record; and a push whose tag is in use waits (R90, R91, R95, R113, R350, R351, R354). -/
def Obligations.DmaPushResults : Prop :=
  ∀ (s t u : State) (dest src len rs : Reg) (tag : BitVec 6) (op : DmaOp) (ms : List Nat) (bytes : List Byte),
    let w (i : Nat) : Word := wordAt bytes i
    let plain : DmaCmd :=
      { dest := s.ctx.getX dest, src := s.ctx.getX src, len := s.ctx.getX len, ctl := BitVec.ofNat 64 tag.toNat, arrive := 0, deal := 0 }
    let deal : DmaCmd :=
      { dest := s.ctx.getX dest, src := s.ctx.getX src, len := s.ctx.getX len, ctl := BitVec.ofNat 64 (tag.toNat + 64), arrive := 0
        deal := s.ctx.dealpat }
    let kept : DmaCmd := { dest := w 0, src := w 1, len := w 2, ctl := w 3, arrive := w 4, deal := w 5 }
    (s.dmaPasses plain op ms t → s.completes (.dma dest src len tag) .seq (t.queueDma plain 0 ms)) ∧
    (s.dmaPasses deal op ms t → s.completes (.dmad dest src len tag) .seq (t.queueDma deal 0 ms)) ∧
    (s.core.dmaTags.getLsbD tag.toNat = true →
      s.waits (.dma dest src len tag) .retry s ∧ s.waits (.dmad dest src len tag) .retry s) ∧
    (s.gives (readRecord (s.ctx.getX rs) 64) bytes u →
      ((w 6).toNat / 2 ^ 40 = 1 ∨ (w 6).toNat / 2 ^ 40 = 2 → u.dmaPasses kept op ms t →
        s.completes (.dmares rs) .seq (t.queueDma kept ((w 6).toNat % 2 ^ 32) ms)) ∧
      (w 6 = 0 → u.dmaPasses kept op ms t → s.completes (.qpush 0 rs) .seq (t.queueDma kept 0 ms)))

/-- The tag waits, FFRDY and TAGCLR; and QPOP, QTRY and QCNT on the result queues and the command queues (R95, R96, R119, R120, R352 to
R354). -/
def Obligations.TagAndQueueResults : Prop :=
  ∀ (s : State) (rd rs : Reg) (e : Word) (es : List Word),
    let x := s.ctx.getX rs
    let bad := s.ctx.tagrdy &&& x &&& s.ctx.tagerr
    let popped (q : BitVec 3) (t : State) : Prop :=
      q = 1 ∧ s.ctx.q1 = e :: es ∧ t = s.modCtx (fun c => { c with q1 := es }) ∨
      q = 3 ∧ s.ctx.q3 = e :: es ∧ t = s.modCtx (fun c => { c with q3 := es }) ∨
      q = 5 ∧ s.ctx.q5 = e :: es ∧ t = s.modCtx (fun c => { c with q5 := es }) ∨
      q = 6 ∧ s.ctx.q6 = e :: es ∧ t = s.modCtx (fun c => { c with q6 := es })
    let empty (q : BitVec 3) : Prop := q = 1 ∧ s.ctx.q1 = [] ∨ q = 3 ∧ s.ctx.q3 = [] ∨ q = 5 ∧ s.ctx.q5 = [] ∨ q = 6 ∧ s.ctx.q6 = []
    ((x = 0 ∨ s.ctx.tagrdy &&& x ≠ 0) → bad = 0 → s.completes (.waitany rs) .seq s) ∧
    (x ≠ 0 ∧ s.ctx.tagrdy &&& x = 0 → s.waits (.waitany rs) .retry s) ∧
    (s.ctx.tagrdy &&& x = x → bad = 0 → s.completes (.waitall rs) .seq s) ∧
    (s.ctx.tagrdy &&& x ≠ x → s.waits (.waitall rs) .retry s) ∧
    (bad ≠ 0 → s.resultsPending = false →
      s.traps (.waitany rs) 22 bad (s.ctx.pc + 4) s ∧ (s.ctx.tagrdy &&& x = x → s.traps (.waitall rs) 22 bad (s.ctx.pc + 4) s)) ∧
    (s.ctx.tagrdy = 0 → s.computes (.ffrdy rd) rd 0xFFFF_FFFF_FFFF_FFFF) ∧
    (∀ n, n < 64 → s.ctx.tagrdy.getLsbD n = true → (∀ m, m < n → s.ctx.tagrdy.getLsbD m = false) →
      s.computes (.ffrdy rd) rd (BitVec.ofNat 64 n)) ∧
    (∃ t, s.completes (.tagclr rs) .seq t ∧ t.ctx = { s.ctx with tagrdy := s.ctx.tagrdy &&& ~~~x, tagerr := s.ctx.tagerr &&& ~~~x } ∧
      t.dev = s.dev ∧ t.core.dma = s.core.dma) ∧
    (∀ q t, popped q t → s.completes (.qpop rd q) .seq (t.setX rd e) ∧ s.completes (.qtry rd q) .seq (t.setX rd e) ∧
      s.computes (.qcnt rd q) rd (BitVec.ofNat 64 (es.length + 1))) ∧
    (∀ q, empty q → s.waits (.qpop rd q) .retry s ∧ s.computes (.qtry rd q) rd 0xFFFF_FFFF_FFFF_FFFF ∧ s.computes (.qcnt rd q) rd 0) ∧
    s.computes (.qcnt rd 0) rd (BitVec.ofNat 64 (s.core.dma.filter fun j => !j.started).length) ∧
    s.computes (.qcnt rd 2) rd (BitVec.ofNat 64 ((s.core.mtx ++ s.dev.gangs.flatMap fun g =>
      (g.staged.filter fun x => x.core == s.core.id && x.lnum == s.ctx.lnum && x.wuid == s.ctx.wuid).map fun x => x.job).filter
        fun j => !j.started).length) ∧
    s.computes (.qcnt rd 4) rd (BitVec.ofNat 64 (s.dev.eddy.filter fun j => j.core == s.core.id && !j.started).length)

/-- The DMA engine turns a chunk's source into its output by the command's operation, deals it to the members' pools or writes it at the
destination, and goes on to the next chunk. An entropy-coded chunk is read by its descriptor, which must be sound, and expands by the loop of R107 over
the canonical code of its code-length table; what it has put out by then is written where it fails. A command that meets an engine fault leaves its
record, and one with uncorrectable data is a data error; a command whose chunks are done makes its arrival, gives its status element and sets its tag.
The model's choices: a read that meets an uncorrectable word is that data error and no fault (log 104), and the element of a command all of whose chunks
are written and whose arrival counter alone is bad names the number of chunks (log 133); that DEALPAT, the engine's order and its records are as the
model has them rests on logs 35, 91, 98 (R46, R47, R92, R95, R97 to R100, R102 to R109, R111, R115 to R117). -/
def Obligations.DmaEngineEvents : Prop :=
  (∀ (s t u : State) (tag : BitVec 6) (j : DmaJob) (out block table : List Byte) (st sub : Nat),
      let c := j.cmd
      let p := j.party s.core.id
      let n := j.next
      let s0 := s.modCore fun k => { k with dma := k.dma.map fun q => if q.seq ≤ j.seq then { q with started := true } else q }
      let reads (x : State) (out : List Byte) (st sub : Nat) : State := x.modDma tag fun k => { k with stage := .read out st sub }
      (s.dmaJob tag = some j ∧ j.stage = .idle ∧ j.failed = none ∧ j.next < c.chunks ∧ s.dmaMayRun j = true ∧ s.leaving s.core.id = false) →
      (c.op = .copy → s0.engineGives (engRead p (ptrAt c.src (4096 * n)) (min 4096 (c.len32 - 4096 * n))) out t →
        exec (.dmaByteCopy tag) s = .next (reads t out 0 0)) ∧
      (c.op = .codebook → s0.engineGives (engRead p (ptrAt c.src (n * codebookStride c.src)) (codebookStride c.src)) block t →
        t.engineGives (engRead p (ptrAt c.src (c.toff + n * (2 * 2 ^ indexBits c.src))) (2 * 2 ^ indexBits c.src)) table u →
        table.length = 2 * 2 ^ indexBits c.src → out.length = 2 * blockLen c.src →
        (∀ i, i < blockLen c.src → (out.drop (2 * i)).take 2 =
          (table.drop (2 * (leNat block / 2 ^ (indexBits c.src * i) % 2 ^ indexBits c.src))).take 2) →
        exec (.codebookExpansion tag) s = .next (reads u out 0 0)) ∧
      (c.op = .entropy → ∀ (desc slot : List Byte) (lens : List Nat) (v : State),
        let C := 2 ^ (c.src.toNat / 2 ^ 56 % 2 ^ 3 + 9)
        let D := min C (c.len32 - n * C)
        let tab := ptrAt c.src c.toff
        let at' (o k : Nat) : Nat := leNat ((desc.drop o).take k)
        let sound : Prop := at' 0 2 = 0x4C52 ∧ at' 2 1 ≤ 16 ∧ at' 3 1 ≤ 1 ∧ (at' 3 1 = 0 → at' 4 4 % 16 = 0) ∧ at' 8 4 ≤ D ∧
          (at' 3 1 = 1 → at' 8 4 = D) ∧ (c.dest.toNat / 2 ^ 59 = 0 ∨ at' 2 1 = c.dest.toNat / 2 ^ 59)
        let ends (x : State) (out : List Byte) (st sub : Nat) : Prop := exec (.entropyExpansion tag) s = .next (reads x out st sub)
        let verify (x : State) (out : List Byte) : Prop :=
          (crc32c out = at' 12 4 → ends x out 0 0) ∧ (crc32c out ≠ at' 12 4 → ends x out 2 0)
        s0.engineGives (engRead p (ptrAt tab (16 * n)) 16) desc t →
        (¬sound → ends t [] 3 0) ∧
        (sound → t.engineGives (engRead p (ptrAt c.src (n * C)) (at' 8 4)) slot u →
          (at' 3 1 = 1 → verify u (slot.take D)) ∧
          (at' 3 1 = 0 → u.engineGives (engRead p (ptrAt tab (at' 4 4)) 144) table v → lens.length = 273 →
            (∀ y, y < 273 → lens.getD y 0 = (table.getD (y / 2) 0).toNat / 16 ^ (y % 2) % 16) →
            let codable : Prop := (lens.map fun y => if y = 0 then 0 else 2 ^ (15 - y)).sum ≤ 2 ^ 15 ∧ lens.getD 256 0 ≠ 0
            (¬codable → ends v [] 1 2) ∧
            (codable → Expands slot (8 * at' 8 4) D lens 0 [] (out, st, sub) →
              (st = 0 → verify v out) ∧ (st ≠ 0 → ends v out st sub))))) ∧
      (c.op = .encode → s0.engineGives (engRead p (ptrAt c.src (n * blockLen c.dest * plainSize (fmtOf c.src)))
          (blockLen c.dest * plainSize (fmtOf c.src))) block t →
        let e := plainSize (fmtOf c.src)
        let f := if fmtOf c.src = 7 then fmtHF else if fmtOf c.src = 8 then fmtBF else fmtSF
        let xs := (List.range (blockLen c.dest)).map fun i => f.decode (leNat ((block.drop (e * i)).take e))
        exec (.bitPlaneEncoding tag) s = .next (reads t (encodeBlock xs (planesOf (fmtOf c.dest)) j.narm) 0 0)) ∧
      (∀ i cause ptr, (c.op = .copy ∧ i = .dmaByteCopy tag ∨ c.op = .codebook ∧ i = .codebookExpansion tag ∨
          c.op = .entropy ∧ i = .entropyExpansion tag ∨ c.op = .encode ∧ i = .bitPlaneEncoding tag) →
        (readChunk p j s0 = .error (.fault cause ptr) t → exec i s = .next (t.stopDma j 2 cause ptr)) ∧
        (readChunk p j s0 = .error .ecc t → exec i s = .next (reads t [] 4 0)))) ∧
  (∀ (s : State) (j : DmaJob) (state sub : Nat) (faddr : Word) (a : Nat), s.core.recordArea = some a → s.dev.bad = [] → s.dev.cells = [] →
      let prog : Word := BitVec.ofNat 64 (j.next % 2 ^ 32 + sub * 2 ^ 32 + state * 2 ^ 40)
      let t := s.stopDma j state sub faddr
      t.dev.mem = Memory.writeBytes s.dev.mem (a + 64 * (j.cmd.ctl.toNat % 64))
        ([j.cmd.dest, j.cmd.src, j.cmd.len, j.cmd.ctl, j.cmd.arrive, j.cmd.deal, prog, faddr].flatMap fun w => leBytes 8 w.toNat) ∧
      t.core.dma = s.core.dma.filter (fun k => k.cmd.tag != j.cmd.tag) ∧ t.core.dmaTags.getLsbD (j.cmd.ctl.toNat % 64) = false ∧
      (state = 2 → t.core.kip.getLsbD 0 = true ∧ t.core.faults = s.core.faults ++ [(0, j.cmd.tag)]) ∧
      t.ctx.x = s.ctx.x ∧ t.ctx.q1 = s.ctx.q1) ∧
  (∀ (s t : State) (tag : BitVec 6) (j : DmaJob) (out : List Byte) (cells : List (Nat × List Byte)) (st sub : Nat),
      let after (x : State) (st sub : Nat) : State := x.modDma tag fun k =>
        if st = 0 then { k with stage := .idle, next := k.next + 1 } else { k with stage := .idle, failed := some (st, sub) }
      s.dmaJob tag = some j →
      (j.stage = .read out st sub → j.cmd.isDeal = true →
        let blocks := dealBlocks j.cmd.deal (out.length + 1) (j.cmd.outOff j.next) out
        let core (pos : Nat) : Nat := j.members.getD pos 0
        (∀ b ∈ blocks, (s.poolRange j.level (core b.1) b.2.1 b.2.2.length).isSome = true) →
        exec (.blockCyclicDeal tag) s = .next (s.modDma tag fun k => { k with
          stage := .placed (blocks.map fun b => ((s.poolRange j.level (core b.1) b.2.1 b.2.2.length).getD 0, b.2.2)) st sub })) ∧
      (j.stage = .read out st sub → j.cmd.isDeal = false →
        s.engineGives (engWrite (j.party s.core.id) (ptrAt j.cmd.dest (j.cmd.outOff j.next)) out) () t →
        exec (.dmaChunkComplete tag) s = .next (after t st sub)) ∧
      (j.stage = .placed cells st sub →
        exec (.dmaChunkComplete tag) s = .next (after (cells.foldl (fun x c => x.pokePieces [(c.1, c.2.length)] c.2) s) st sub)) ∧
      (j.stage = .idle ∧ s.dmaMayRun j = true ∧ s.leaving s.core.id = false →
        let s0 := s.modCore fun k => { k with dma := k.dma.map fun q => if q.seq ≤ j.seq then { q with started := true } else q }
        let gone := t.modCore fun c => { c with dma := c.dma.filter fun k => k.cmd.tag != tag }
        let pushed (x : State) (chunk st sub : Nat) : State := x.modCtx fun c => { c with
          q1 := putElement 0x3F c.q1 (BitVec.ofNat 64 (chunk % 2 ^ 32 * 2 ^ 16 + sub * 2 ^ 12 + st * 2 ^ 8 + tag.toNat)) }
        (s0.engineGives (dmaArrival (j.party s.core.id) j) () t →
          (j.failed = none ∧ j.cmd.chunks ≤ j.next ∧ j.cmd.ctl.getLsbD 9 = false →
            exec (.dmaCommandComplete tag) s = .next (gone.tagDone t.core.id tag.toNat false)) ∧
          (j.failed = none ∧ j.cmd.chunks ≤ j.next ∧ j.cmd.ctl.getLsbD 9 = true →
            exec (.dmaCommandComplete tag) s = .next ((pushed gone j.cmd.chunks 0 0).tagDone t.core.id tag.toNat false)) ∧
          (j.failed = some (st, sub) ∧ st ≠ 0 →
            exec (.dmaCommandComplete tag) s = .next ((pushed gone j.next st sub).tagDone t.core.id tag.toNat true))) ∧
        (dmaArrival (j.party s.core.id) j s0 = .error .ecc t ∧ j.failed = none ∧ j.cmd.chunks ≤ j.next →
          exec (.dmaCommandComplete tag) s = .next ((pushed gone j.cmd.chunks 4 0).tagDone t.core.id tag.toNat true))))

/-- ICEG, ICES, ICERES and QPUSH of q4 put their command on the queue; the eddy moves one row at a time, and a command whose rows are moved
gives its element, frees its tag and signals its event. A 4-byte index of 2^31 or more is a data error of status RANGE, and a read that meets an
uncorrectable word one of status ECC: the command gives its element with the rows before it, and signals its event (R124 to R130, R133, R135, R354,
R355; that ECC is no engine fault is log 104). The model's choice (log 124): bytes 0x30 to 0x3F of an ICERES record are not looked at, so the
instruction completes whatever they hold. -/
def Obligations.EddyResults : Prop :=
  ∀ (s t u x : State) (rs : Reg) (bytes row : List Byte) (k : Nat) (j : EddyJob) (p : Word),
    let w (i : Nat) : Word := wordAt bytes i
    let packed := clusterKey (clusterOfId j.core) (j.dstOff + j.next * j.rowLen)
    let size := if j.idx.toNat / 2 ^ 59 = 6 then 2 else 4
    let here := s.dev.eddy[k]? = some j ∧ j.failed = none ∧ j.next < j.count ∧ s.dev.eddyMayRun j = true ∧ s.leaving j.core = false
    let s0 := s.modDev fun d => { d with
      eddy := d.eddy.map fun q => if clusterOfId q.core = clusterOfId j.core ∧ q.seq ≤ j.seq then { q with started := true } else q }
    let index := s0.engineGives (engRead j.party (ptrAt j.idx (j.next * size)) size) row t ∧ ¬(size = 4 ∧ 2 ^ 31 ≤ leNat row) ∧
      j.base.toNat % 2 ^ 55 + leNat row * j.rowLen < 2 ^ 55 ∧
      p = (j.base &&& 0xFF80000000000000#64) ||| BitVec.ofNat 64 (j.base.toNat % 2 ^ 55 + leNat row * j.rowLen)
    let moved (y : State) : State := y.modEddy j fun q => { q with next := q.next + 1 }
    (s.gives (readRecord (s.ctx.getX rs) 32) bytes u →
      (u.eddyPasses (w 0) (w 1) (w 2) (w 3) false false t →
        s.completes (.iceg rs) .seq (t.queueEddy (w 0) (w 1) (w 2) (w 3) false 0) ∧
        s.completes (.qpush 4 rs) .seq (t.queueEddy (w 0) (w 1) (w 2) (w 3) false 0)) ∧
      (u.eddyPasses (w 0) (w 1) (w 2) (w 3) true false t →
        s.completes (.ices rs) .seq (t.queueEddy (w 0) (w 1) (w 2) (w 3) true 0))) ∧
    (s.gives (readRecord (s.ctx.getX rs) 64) bytes u →
      ((w 4).toNat / 2 ^ 40 % 2 ^ 8 = 1 ∨ (w 4).toNat / 2 ^ 40 % 2 ^ 8 = 2) ∧ (w 4).toNat / 2 ^ 49 = 0 →
      u.eddyPasses (w 0) (w 1) (w 2) (w 3) ((w 4).getLsbD 48) true t →
      s.completes (.iceres rs) .seq (t.queueEddy (w 0) (w 1) (w 2) (w 3) ((w 4).getLsbD 48) ((w 4).toNat % 2 ^ 32))) ∧
    (here ∧ index ∧ j.scatter = false ∧ t.engineGives (engRead j.party p j.rowLen) bytes u →
      exec (.eddyGather k) s = .next (moved (u.pokePieces [(packed, j.rowLen)] bytes))) ∧
    (here ∧ index ∧ j.scatter = true ∧ t.engineGives (engPeek j.party packed j.rowLen) bytes u ∧
        u.engineGives (engWrite j.party p bytes) () x →
      exec (.eddyScatter k) s = .next (moved x)) ∧
    (let step := if j.scatter then Instr.eddyScatter k else Instr.eddyGather k
     let fails (y : State) (status : Nat) : State := y.modEddy j fun q => { q with failed := some status }
     here →
      (s0.engineGives (engRead j.party (ptrAt j.idx (j.next * size)) size) row t ∧ size = 4 ∧ 2 ^ 31 ≤ leNat row →
        exec step s = .next (fails t 5)) ∧
      (engRead j.party (ptrAt j.idx (j.next * size)) size s0 = .error .ecc t → exec step s = .next (fails t 4)) ∧
      (index ∧ j.scatter = false ∧ engRead j.party p j.rowLen t = .error .ecc u → exec step s = .next (fails u 4)) ∧
      (index ∧ j.scatter = true ∧ engPeek j.party packed j.rowLen t = .error .ecc u → exec step s = .next (fails u 4))) ∧
    (s.dev.eddy[k]? = some j ∧ s.dev.eddyMayRun j = true ∧ s.leaving j.core = false →
      let gives (rows status : Nat) : Prop :=
        exec (.eddyComplete k) s = .next ((s0.modDev fun d => { d with eddy := d.eddy.eraseIdx k }).modCoreId j.core fun c => { c with
          eddyTags := c.eddyTags &&& ~~~(1#16 <<< j.tag)
          ctx := { c.ctx with
            q5 := putElement 0xF c.ctx.q5 (BitVec.ofNat 64 (rows * 2 ^ 24 + j.listId * 2 ^ 16 + status * 2 ^ 12 + j.tag))
            evPend := c.ctx.evPend ||| (1#8 <<< j.event) } })
      (j.failed = none ∧ j.count ≤ j.next → gives j.count 0) ∧ (∀ status, j.failed = some status → gives j.next status))


/-- The vector loads and stores: the groups they write are the little-endian bytes at their addresses or the values of a bit-plane array, and the
stores put each register's bytes at its own address, or each block as EncodeBlock makes it, once their checks have passed and the group has been read.
A lane of a plane load is its block's scale times the signed code that the planes read spell, rounded to nearest; an encoded block spells back the
codes of its elements, each the nearest multiple of the scale that its planes hold (R40 to R44, R93, R360 to R365). The model's choices: the FORMAT
traps come before any address is formed, so whatever the addresses are (log 44); and a store waits for room for all the pieces that leave the core
before the first leaves (log 45). -/
def Obligations.VectorMemoryResults : Prop :=
  (∀ (s t u x y a : State) (wd : Wd) (vd xb xs vi : Reg) (off : BitVec 5) (k : BitVec 3) (ps : List Word) (keys : List (List (Nat × Nat)))
      (bytes : List (List Byte)) (v c : Nat),
    let w := wd.count
    let p := s.ctx.getX xb
    let e := copySize (fmtOf p)
    let plain := p.toNat / 2 ^ 59 < 10
    let planes := 10 ≤ p.toNat / 2 ^ 59 ∧ p.toNat / 2 ^ 59 ≤ 16
    let P := p.toNat / 2 ^ 59 - 8
    let b := 2 ^ (p.toNat / 2 ^ 56 % 8 + 4)
    let narm := s.ctx.fstat.getLsbD 8
    let whole := leNat bytes.flatten
    let stores (a : State) (run : Nat → List Byte) (z : State) : Prop :=
      let lines := (keys.zip ((List.range keys.length).map run)).flatMap fun q => spanLines q.1 q.2
      (∀ l ∈ lines, regionOf l.1 = .pool a.core.id → a.quantumOn l.1 l.2.length = false) ∧
      a.core.unack + (lines.filter fun l => regionOf l.1 != .pool a.core.id).length ≤ 256 ∧
      z = lines.foldl (fun (q : State) l => if regionOf l.1 = .pool q.core.id then q.pokeOwn l.1 l.2
        else q.launchFlight l.1 (.store l.2) false false none) a
    vd.toNat + w ≤ s.ctx.vregs →
      (plain → s.gives (copyAddresses p off w) ps t → t.gives (checkAll .load ps 64 e) keys u → u.gives (checkAppends vd keys.length) () a →
        a.gives (keys.mapM coreReadSpan) bytes x → x.takesGroup vd keys.length whole y → s.completes (.vld wd vd xb off .stored) .seq y) ∧
      (∀ pc K (blocks : List (List Byte)) (r : Nat) (fl : Flg), (pc = .stored ∧ K = P ∨ pc = .planes k ∧ K = k.toNat + 1) → planes →
        s.gives (blockPointers p P b (off.toInt * (16 * w)) (16 * w)) ps t → t.gives (checkAll .load ps (8 + P * b / 8) 8) keys u →
        u.gives (checkAppends vd w) () a → a.gives (keys.mapM fun ks => fetchBlock ks P b K narm) blocks x →
        let value (i : Nat) : Nat × Flg :=
          let at' : Int := off.toInt * (16 * w) % b + i
          planeLane (blocks.getD (at' / b).toNat []) P b K narm (at' % b).toNat
        r < 2 ^ (512 * w) → (∀ i, i < 16 * w → r / 2 ^ (32 * i) % 2 ^ 32 = (value i).1 % 2 ^ 32) →
        (∀ n, fl.getLsbD n = true ↔ ∃ i, i < 16 * w ∧ (value i).2.getLsbD n = true) → x.takesGroup vd w r y →
        s.completes (.vld wd vd xb off pc) .seq (y.modCtx fun z => { z with fstat := z.fstat ||| fl.setWidth 9 })) ∧
      (plain → s.gives (strideAddresses p (s.ctx.getX xs) w) ps t → t.gives (checkAll .load ps 64 e) keys u →
        u.gives (checkAppends vd keys.length) () a → a.gives (keys.mapM coreReadSpan) bytes x → x.takesGroup vd keys.length whole y →
        s.completes (.vlds wd vd xb xs) .seq y) ∧
      (plain → s.gives (copyAddresses p off w) ps t → t.gives (checkAll .store ps 64 e) keys u → u.givesGroups [(vd, w)] [v] x →
        stores x (fun i => leBytes 64 (v / 2 ^ (512 * i))) y → s.completes (.vst wd vd xb off .stored) .seq y) ∧
      (∀ pc, (pc = .stored ∨ pc = .planes k ∧ k.toNat + 1 = P) → planes ∧ b ≤ 16 * w →
        s.gives (blockPointers p P b (off.toInt * (16 * w)) (16 * w)) ps t →
        t.gives (checkAll .store ps ((8 + P * b / 8 + 7) / 8 * 8) 8) keys u → u.givesGroups [(vd, w)] [v] x →
        let xs := (List.range (16 * w)).map fun i => fmtSF.decode (v / 2 ^ (32 * i) % 2 ^ 32)
        stores x (fun i => encodeBlock ((xs.drop (b * i)).take b) P narm) y → s.completes (.vst wd vd xb off pc) .seq y) ∧
      (planes ∧ s.resultsPending = false →
        (k.toNat + 1 ≠ P → s.traps (.vst wd vd xb off (.planes k)) 23 p s.ctx.pc s) ∧
        (16 * w < b → s.traps (.vst wd vd xb off .stored) 23 p s.ctx.pc s)) ∧
      (plain → s.gives (strideAddresses p (s.ctx.getX xs) w) ps t → t.gives (checkAll .store ps 64 e) keys u → u.givesGroups [(vd, w)] [v] x →
        stores x (fun i => leBytes 64 (v / 2 ^ (512 * i))) y → s.completes (.vsts wd vd xb xs) .seq y) ∧
      (vi.toNat + 1 ≤ s.ctx.vregs →
        (plain → s.givesGroups [(vi, 1)] [c] t → t.gives (indexAddresses p c w e) ps u → u.gives (checkAll .load ps e e) keys x →
          ∀ z, x.gives (checkAppends vd w) () a → a.gives (keys.mapM coreReadSpan) bytes z → z.takesGroup vd w whole y → s.completes (.vldx wd vd xb vi) .seq y) ∧
        (let vs := (List.range w).map fun i => vd.toNat + i
         let first := vi.toNat :: vs.filter fun r => (s.ctx.popWrites [r]).contains vi.toNat
         plain → s.gives (popOperands first) () t → t.gives (indexAddresses p (t.ctx.getV vi.toNat).toNat w e) ps u →
          u.gives (checkAll .store ps e e) keys x → x.gives (popOperands (vs.filter fun r => !(first.contains r))) () a →
          ∀ z, a.gives (countReads [groupReads vd w, groupReads vi 1]) () z →
          stores z (fun i => leBytes e (z.ctx.getGroup vd w / 2 ^ (8 * e * i) % 2 ^ (8 * e))) y →
          s.completes (.vstx wd vd xb vi) .seq y))) ∧
  (∀ (s t : State) (vd : Reg) (n : Nat), (∀ i : Fin 4, (s.ctx.getSd (BitVec.ofNat 2 i)).bound = false) →
    s.gives (checkAppends vd n) () s ∧ (s.gives (popOperands ((List.range n).map fun i => vd.toNat + i)) () t → t = s)) ∧
  (∀ w e : Nat, indexCount w e = min 16 (64 * w / e)) ∧
  (∀ (s : State) (ks : List (Nat × Nat)) (P b K : Nat), fetchBlock ks P b K false s = coreReadSpan (headPieces (8 + min P K * b / 8) ks) s) ∧
  (∀ (block : List Byte) (P b K i : Nat) (narm : Bool), 2 ≤ P ∧ P ≤ 8 →
    let q := planeCode block P b i
    let v := readPlanes q P K narm
    let scale := fmtBF.decode (leNat (block.take 2))
    q < 2 ^ (P - 1) ∧ -2 ^ (P - 1) ≤ q ∧
    (∀ n, n < P → (q / 2 ^ n % 2 = 1 ↔ (block.getD (8 + (P - 1 - n) * (b / 8) + i / 8) 0).getLsbD (i % 8) = true)) ∧
    (narm = true ∧ q = -2 ^ (P - 1) → v = none ∧ planeLane block P b K narm i = (0x7FC00000, 0)) ∧
    (¬(narm = true ∧ q = -2 ^ (P - 1)) →
      (∀ z, v = some z → planeLane block P b K narm i = fmtSF.mulV .rne scale (.fin (decide (z < 0)) z.natAbs 0)) ∧
      (P ≤ K → v = some q) ∧
      (1 ≤ K ∧ K < P ∧ narm = false → v = some (q / 2 ^ (P - K) * 2 ^ (P - K) + 2 ^ (P - K - 1))) ∧
      (2 ≤ K ∧ K < P ∧ narm = true →
        let top := q / 2 ^ (P - K)
        v = some ((if top = -2 ^ (K - 1) then top + 1 else top) * 2 ^ (P - K) + 2 ^ (P - K - 1))) ∧
      (K = 1 ∧ narm = true → v = readPlanes q P 2 true))) ∧
  (∀ (xs : List FVal) (P i : Nat) (narm : Bool) (x : FVal), 2 ≤ P ∧ P ≤ 8 → xs.length % 8 = 0 → xs[i]? = some x →
    let out := encodeBlock xs P narm
    let scale := fmtBF.decode (leNat (out.take 2))
    let q := planeCode out P xs.length i
    let lo : Int := if narm then 1 - 2 ^ (P - 1) else -2 ^ (P - 1)
    let hi : Int := 2 ^ (P - 1) - 1
    out.length = (8 + P * xs.length / 8 + 7) / 8 * 8 ∧ (∀ n, 2 ≤ n → n < 8 → out.getD n 0 = 0) ∧
    (∃ (m : Nat) (e : Int), (∀ (n : Bool) (m' : Nat) (e' : Int), .fin n m' e' ∈ xs → (m' * 2 ^ e' : ℚ) ≤ m * 2 ^ e) ∧ (m = 0 ∨ ∃ n, .fin n m e ∈ xs) ∧
      leNat (out.take 2) = (fmtBF.divV .rne (.fin false m e) (.fin false (2 ^ (P - 1) - 1) 0)).1) ∧
    (∀ n, x = .nan n → q = if narm then -2 ^ (P - 1) else 0) ∧
    (∀ n m e, scale = .fin n m e →
      ((∀ a, x ≠ .nan a) ∧ m = 0 → q = 0) ∧
      (∀ neg, x = .inf neg ∧ m ≠ 0 → q = if neg then lo else hi) ∧
      (∀ (neg : Bool) (m' : Nat) (e' : Int), x = .fin neg m' e' ∧ m ≠ 0 → ∃ z : Int,
        let a : ℚ := if neg then -(m' * 2 ^ e' : ℚ) else m' * 2 ^ e'
        let d : ℚ := a / (m * 2 ^ e)
        q = max lo (min z hi) ∧ 2 * |d - z| ≤ 1 ∧ (2 * |d - z| = 1 → z % 2 = 0))))

/-- The integer lanes: each lane of the destination is its function of the sources' lanes, wrapped to the type (R366). -/
def Obligations.VectorIntegerResults : Prop :=
  ∀ (s t : State) (ty : Ty) (wd : Wd) (vd vs1 vs2 : Reg) (a b d : Nat),
    let w := wd.count
    let size := 8 * ty.size
    let n := 64 * w / ty.size
    let x (j : Nat) : Nat := a / 2 ^ (size * j) % 2 ^ size
    let y (j : Nat) : Nat := b / 2 ^ (size * j) % 2 ^ size
    let value (v : Nat) : Int := if ty.isSigned = true ∧ 2 ^ (size - 1) ≤ v then (v : Int) - 2 ^ size else v
    let p (j : Nat) : Int := value (x j)
    let q (j : Nat) : Int := value (y j)
    let top (v : Nat) : Int := if 2 ^ (size - 1) ≤ v then (v : Int) - 2 ^ size else v
    let low : Int := if ty.isSigned then -2 ^ (size - 1) else 0
    let high : Int := if ty.isSigned then 2 ^ (size - 1) - 1 else 2 ^ size - 1
    let sat (v : Int) : Int := if v < low then low else if high < v then high else v
    let mask (c : Prop) [Decidable c] : Int := if c then -1 else 0
    let makes (i : Instr) (f : Nat → Int) : Prop := ∀ r u,
      r < 2 ^ (512 * w) → (∀ j, j < n → ((r / 2 ^ (size * j) % 2 ^ size : Nat) : Int) = f j % 2 ^ size) →
      t.takesGroup vd w r u → s.completes i .seq u
    vd.toNat + w ≤ s.ctx.vregs ∧ vs1.toNat + w ≤ s.ctx.vregs →
    (s.givesGroups [(vs1, w)] [a] t → makes (.vabs ty wd vd vs1) (fun j => |p j|)) ∧
    (vs2.toNat + w ≤ s.ctx.vregs →
      (s.givesGroups [(vs1, w), (vs2, w)] [a, b] t →
        makes (.vadd ty wd vd vs1 vs2) (fun j => p j + q j) ∧ makes (.vsub ty wd vd vs1 vs2) (fun j => p j - q j) ∧
        makes (.vmul ty wd vd vs1 vs2) (fun j => p j * q j) ∧ makes (.vmulh ty wd vd vs1 vs2) (fun j => p j * q j / 2 ^ size) ∧
        makes (.vmin ty wd vd vs1 vs2) (fun j => if p j ≤ q j then p j else q j) ∧
        makes (.vmax ty wd vd vs1 vs2) (fun j => if p j ≤ q j then q j else p j) ∧
        makes (.vand ty wd vd vs1 vs2) (fun j => ((x j &&& y j : Nat) : Int)) ∧
        makes (.vor ty wd vd vs1 vs2) (fun j => ((x j ||| y j : Nat) : Int)) ∧
        makes (.vxor ty wd vd vs1 vs2) (fun j => ((x j ^^^ y j : Nat) : Int)) ∧
        makes (.vshl ty wd vd vs1 vs2) (fun j => (x j : Int) * 2 ^ (y j % size)) ∧
        makes (.vshr ty wd vd vs1 vs2) (fun j => (x j : Int) / 2 ^ (y j % size)) ∧
        makes (.vsra ty wd vd vs1 vs2) (fun j => top (x j) / 2 ^ (y j % size)) ∧
        makes (.vadds ty wd vd vs1 vs2) (fun j => sat (p j + q j)) ∧ makes (.vsubs ty wd vd vs1 vs2) (fun j => sat (p j - q j)) ∧
        makes (.vcmpeq ty wd vd vs1 vs2) (fun j => mask (p j = q j)) ∧ makes (.vcmplt ty wd vd vs1 vs2) (fun j => mask (p j < q j)) ∧
        makes (.vcmple ty wd vd vs1 vs2) (fun j => mask (p j ≤ q j))) ∧
      (s.givesGroups [(vs1, w), (vs2, w), (vd, w)] [a, b, d] t →
        makes (.vsel ty wd vd vs1 vs2) (fun j => if d / 2 ^ (size * j) % 2 ^ size = 0 then (y j : Int) else (x j : Int))))

/-- The floating-point lanes: each is its operation on the sources' lanes, rounded by FSTAT.RM, and FSTAT gains every lane's flags. A sum, a
difference, a product and a fused product and sum are the exact number rounded once, and so are a quotient and a reciprocal root; a zero result, an
infinity and a NaN come as IEEE 754-2019 and the table of R367 have them; a power of two is exact where its exponent is an integer, and else the rounding
of the fixed-point value of its fraction (log 21); a comparison is that of the numbers (R36 to R39, R367). -/
def Obligations.VectorFloatResults : Prop :=
  (∀ (s t : State) (ty : Ty) (wd : Wd) (vd vs1 vs2 : Reg) (a b c : Nat),
    let w := wd.count
    let size := 8 * ty.size
    let n := 64 * w / ty.size
    let f := fmtOfTy ty
    let rm := s.ctx.rm
    let p (j : Nat) : Nat := a / 2 ^ (size * j) % 2 ^ size
    let q (j : Nat) : Nat := b / 2 ^ (size * j) % 2 ^ size
    let x (j : Nat) : FVal := f.decode (p j)
    let y (j : Nat) : FVal := f.decode (q j)
    let z (j : Nat) : FVal := f.decode (c / 2 ^ (size * j) % 2 ^ size)
    let mask (v : Bool) : Nat := if v then 2 ^ size - 1 else 0
    let quiet (j : Nat) : Flg := if x j = .nan true ∨ y j = .nan true then 16 else 0
    let order (j : Nat) : Flg := if (x j).isNan = true ∨ (y j).isNan = true then 16 else 0
    let makes (i : Instr) (g : Nat → Nat × Flg) : Prop := ∀ (r : Nat) (fl : Flg) (u : State),
      r < 2 ^ (512 * w) → (∀ j, j < n → r / 2 ^ (size * j) % 2 ^ size = (g j).1 % 2 ^ size) →
      (∀ k, fl.getLsbD k = true ↔ ∃ j, j < n ∧ (g j).2.getLsbD k = true) →
      t.takesGroup vd w r u → s.completes i .seq (u.modCtx fun c => { c with fstat := c.fstat ||| fl.setWidth 9 })
    vd.toNat + w ≤ s.ctx.vregs ∧ vs1.toNat + w ≤ s.ctx.vregs →
    (s.givesGroups [(vs1, w)] [a] t →
      makes (.vfrsq ty wd vd vs1) (fun j => f.rsqrtV rm (x j)) ∧ makes (.vfexp2 ty wd vd vs1) (fun j => f.exp2V rm (x j))) ∧
    (vs2.toNat + w ≤ s.ctx.vregs →
      (s.givesGroups [(vs1, w), (vs2, w)] [a, b] t →
        makes (.vfadd ty wd vd vs1 vs2) (fun j => f.addV rm (x j) (y j)) ∧
        makes (.vfsub ty wd vd vs1 vs2) (fun j => f.addV rm (x j) (y j).neg) ∧
        makes (.vfmul ty wd vd vs1 vs2) (fun j => f.mulV rm (x j) (y j)) ∧
        makes (.vfdiv ty wd vd vs1 vs2) (fun j => f.divV rm (x j) (y j)) ∧
        makes (.vfmin ty wd vd vs1 vs2) (fun j => f.minMax false (p j) (q j)) ∧
        makes (.vfmax ty wd vd vs1 vs2) (fun j => f.minMax true (p j) (q j)) ∧
        makes (.vfcmpeq ty wd vd vs1 vs2) (fun j => (mask ((x j).eqv (y j)), quiet j)) ∧
        makes (.vfcmplt ty wd vd vs1 vs2) (fun j => (mask ((x j).lt (y j)), order j)) ∧
        makes (.vfcmple ty wd vd vs1 vs2) (fun j => (mask ((x j).lt (y j) || (x j).eqv (y j)), order j))) ∧
      (s.givesGroups [(vs1, w), (vs2, w), (vd, w)] [a, b, c] t →
        makes (.vfma ty wd vd vs1 vs2) (fun j => f.fmaV rm (x j) (y j) (z j)) ∧
        makes (.vfnma ty wd vd vs1 vs2) (fun j => f.fmaV rm (x j).neg (y j) (z j))))) ∧
  (∀ (f : Fmt) (rm : Rm) (x y z : FVal) (a b c : Bool) (m n k : Nat) (d e g : Int), f ∈ [fmtHF, fmtBF, fmtSF] →
    let v := x.number
    let w := y.number
    let invalid (vs : List FVal) : Flg := if FVal.nan true ∈ vs then 16 else 0
    let zero (like : Bool) (p q : Bool) : Nat × Flg := (f.sign (if p = q then like else rm == .rdn), 0)
    (x = .fin a m d ∧ y = .fin b n e →
      (v + w ≠ 0 → f.rounds rm (v + w) (f.addV rm x y)) ∧ (v + w = 0 → f.addV rm x y = zero a a b) ∧
      (v * w ≠ 0 → f.rounds rm (v * w) (f.mulV rm x y)) ∧ (v * w = 0 → f.mulV rm x y = (f.sign (a ^^ b), 0)) ∧
      (m ≠ 0 ∧ n ≠ 0 → f.roundsBits rm (a ^^ b) (fun q => q ≤ |v / w|) (fun q => q = |v / w|) (f.divV rm x y)) ∧
      (m = 0 ∧ n ≠ 0 → f.divV rm x y = (f.sign (a ^^ b), 0)) ∧ (m ≠ 0 ∧ n = 0 → f.divV rm x y = (f.infinity (a ^^ b), 8)) ∧
      (m = 0 ∧ n = 0 → f.divV rm x y = (f.qnan, 16)) ∧
      (z = .fin c k g →
        (v * w + z.number ≠ 0 → f.rounds rm (v * w + z.number) (f.fmaV rm x y z)) ∧
        (v * w + z.number = 0 → f.fmaV rm x y z = zero c (a ^^ b) c)) ∧
      (z = .inf c → f.fmaV rm x y z = (f.infinity c, 0)) ∧ (x.lt y = true ↔ v < w) ∧ (x.eqv y = true ↔ v = w)) ∧
    (x = .inf a ∧ y = .fin b n e ∨ x = .fin a n e ∧ y = .inf b →
      f.addV rm x y = (f.infinity (if x = .inf a then a else b), 0) ∧
      f.mulV rm x y = (if n = 0 then (f.qnan, 16) else (f.infinity (a ^^ b), 0)) ∧
      f.divV rm x y = (if x = .inf a then (f.infinity (a ^^ b), 0) else (f.sign (a ^^ b), 0)) ∧ (n = 0 → f.fmaV rm x y z = (f.qnan, 16)) ∧
      (n ≠ 0 → (z = .fin c k g → f.fmaV rm x y z = (f.infinity (a ^^ b), 0)) ∧
        (z = .inf c → f.fmaV rm x y z = if c = (a ^^ b) then (f.infinity c, 0) else (f.qnan, 16))) ∧
      (x.lt y = true ↔ (x = .inf a ∧ a = true ∨ y = .inf b ∧ b = false)) ∧ x.eqv y = false) ∧
    (x = .inf a ∧ y = .inf b →
      f.addV rm x y = (if a = b then (f.infinity a, 0) else (f.qnan, 16)) ∧ f.mulV rm x y = (f.infinity (a ^^ b), 0) ∧
      f.divV rm x y = (f.qnan, 16) ∧ (z = .fin c k g → f.fmaV rm x y z = (f.infinity (a ^^ b), 0)) ∧
      (z = .inf c → f.fmaV rm x y z = if c = (a ^^ b) then (f.infinity c, 0) else (f.qnan, 16)) ∧
      (x.lt y = true ↔ a = true ∧ b = false) ∧ (x.eqv y = true ↔ a = b)) ∧
    (x.isNan = true ∨ y.isNan = true →
      f.addV rm x y = (f.qnan, invalid [x, y]) ∧ f.mulV rm x y = (f.qnan, invalid [x, y]) ∧ f.divV rm x y = (f.qnan, invalid [x, y]) ∧
      f.fmaV rm x y z = (f.qnan, invalid [x, y, z]) ∧ x.lt y = false ∧ x.eqv y = false) ∧
    (z.isNan = true ∧ (∀ a b e, ¬(x = .inf a ∧ y = .fin b 0 e) ∧ ¬(x = .fin a 0 e ∧ y = .inf b)) → f.fmaV rm x y z = (f.qnan, invalid [x, y, z])) ∧
    (x = .fin a m d →
      (0 < v → f.roundsBits rm false (fun q => q ^ 2 * v ≤ 1) (fun q => q ^ 2 * v = 1) (f.rsqrtV rm x)) ∧
      (v < 0 → f.rsqrtV rm x = (f.qnan, 16)) ∧ (v = 0 → f.rsqrtV rm x = (f.infinity a, 8)) ∧
      (∀ i : Int, v = i ∧ |i| < 2 ^ 12 → f.exp2V rm x = f.round rm false 1 i false) ∧
      (|v| < 2 ^ 12 ∧ (∀ i : Int, v ≠ i) → ∃ (i : Int) (r p : Nat), v = i + r / 2 ^ p ∧ 0 < r ∧ r < 2 ^ p ∧
        f.exp2V rm x = f.round rm false (exp2Fixed r p) (i - 200) true) ∧
      (2 ^ 12 ≤ v → f.exp2V rm x = (f.overflow rm false, 5)) ∧ (v ≤ -2 ^ 12 → f.exp2V rm x = (if rm = .rup then 1 else 0, 3))) ∧
    (x = .inf a → f.rsqrtV rm x = (if a then (f.qnan, 16) else (0, 0)) ∧ f.exp2V rm x = (if a then 0 else f.infinity false, 0)) ∧
    (x.isNan = true → f.rsqrtV rm x = (f.qnan, invalid [x]) ∧ f.exp2V rm x = (f.qnan, invalid [x])) ∧
    (∀ (p q : Nat), x = f.decode p → y = f.decode q →
      let first : Prop := x.lt y = true ∨ x.eqv y = true ∧ x.isNeg = true ∧ y.isNeg = false
      let gives (max : Bool) (r : Nat) : Prop := f.minMax max p q = (r, invalid [x, y])
      (x.isNan = true → (y.isNan = true → gives false f.qnan ∧ gives true f.qnan) ∧ (y.isNan = false → gives false q ∧ gives true q)) ∧
      (x.isNan = false ∧ y.isNan = true → gives false p ∧ gives true p) ∧
      (x.isNan = false ∧ y.isNan = false → (first → gives false p ∧ gives true q) ∧ (¬first → gives false q ∧ gives true p))))

/-- Rounding: to nearest, a finite result is as near to the exact value as any value of the format, and of two that are equally near the one with an
even last bit; under the directed modes it is the nearest on their side. NX is set just where the result differs from the exact value, and at an
overflow; UF just where the result is inexact and tiny after rounding. Overflow is set to nearest from half an ulp above the largest finite value
on and gives infinity; away from zero from above that value on and gives infinity; towards zero from the next binade on and gives the largest. A number
of which only leading bits are given, two more than the format keeps, and that it has more, rounds as one half a unit of them above (R35, R36, R39). -/
def Obligations.RoundingToNearest : Prop :=
  ∀ (f : Fmt) (neg : Bool) (m : Nat) (e : Int), f ∈ [fmtHF, fmtBF, fmtSF] → m ≠ 0 →
    let exact : ℚ := m * 2 ^ e
    let limit : ℚ := (2 ^ (f.fb + 2) - 1) * 2 ^ ((f.bias : Int) - f.fb - 1)
    let largest : ℚ := (2 ^ (f.fb + 1) - 1) * 2 ^ ((f.bias : Int) - f.fb)
    let emin : Int := 1 - f.bias
    (∀ rm, 2 ^ (f.fb + 2) ≤ m → f.round rm neg m e true = f.round rm neg (2 * m + 1) (e - 1) false) ∧
    (let r := f.round .rne neg m e false
     (r.2.getLsbD 2 = true ↔ limit ≤ exact) ∧
     (r.2.getLsbD 2 = true → r.1 = f.infinity neg ∧ r.2 = 5) ∧
     (r.2.getLsbD 1 = true ↔ r.2.getLsbD 0 = true ∧ exact < (2 ^ (f.fb + 2) - 1) * 2 ^ (emin - f.fb - 2)) ∧
     (r.2.getLsbD 2 = false → ∃ (n : Nat) (k : Int), f.decode r.1 = .fin neg n k ∧
       (r.2.getLsbD 0 = true ↔ (n * 2 ^ k : ℚ) ≠ exact) ∧
       (∀ (v n' : Nat) (k' : Int), v < 2 ^ f.width → f.decode v = .fin neg n' k' →
         |(n * 2 ^ k : ℚ) - exact| ≤ |(n' * 2 ^ k' : ℚ) - exact| ∧
         (|(n * 2 ^ k : ℚ) - exact| = |(n' * 2 ^ k' : ℚ) - exact| ∧ (n' * 2 ^ k' : ℚ) ≠ n * 2 ^ k → r.1 % 2 = 0)))) ∧
    (∀ rm, rm ≠ .rne →
      let r := f.round rm neg m e false
      let away : Prop := rm = .rup ∧ neg = false ∨ rm = .rdn ∧ neg = true
      r.2.getLsbD 3 = false ∧ r.2.getLsbD 4 = false ∧
      (¬away → (2 ^ (f.bias + 1) ≤ exact → r = (f.largest neg, 5)) ∧
        (exact < 2 ^ (f.bias + 1) → r.2.getLsbD 2 = false ∧ (r.2.getLsbD 1 = true ↔ r.2.getLsbD 0 = true ∧ exact < 2 ^ emin) ∧
          ∃ (n : Nat) (k : Int), f.decode r.1 = .fin neg n k ∧ (r.2.getLsbD 0 = true ↔ (n * 2 ^ k : ℚ) ≠ exact) ∧ (n * 2 ^ k : ℚ) ≤ exact ∧
            ∀ (v n' : Nat) (k' : Int), v < 2 ^ f.width → f.decode v = .fin neg n' k' → (n' * 2 ^ k' : ℚ) ≤ exact →
              (n' * 2 ^ k' : ℚ) ≤ n * 2 ^ k)) ∧
      (away → (largest < exact → r = (f.infinity neg, 5)) ∧
        (exact ≤ largest → r.2.getLsbD 2 = false ∧
          (r.2.getLsbD 1 = true ↔ r.2.getLsbD 0 = true ∧ exact ≤ (2 ^ (f.fb + 1) - 1) * 2 ^ (emin - f.fb - 1)) ∧
          ∃ (n : Nat) (k : Int), f.decode r.1 = .fin neg n k ∧ (r.2.getLsbD 0 = true ↔ (n * 2 ^ k : ℚ) ≠ exact) ∧ exact ≤ (n * 2 ^ k : ℚ) ∧
            ∀ (v n' : Nat) (k' : Int), v < 2 ^ f.width → f.decode v = .fin neg n' k' → exact ≤ (n' * 2 ^ k' : ℚ) →
              (n * 2 ^ k : ℚ) ≤ n' * 2 ^ k')))

/-- Lane movement and conversion: VMOVX, VSPLAT, VINS, VPERM, VSLIDE, VCOMPR, VPOPC, VRED, VSCAN, VCVT, VQNT and VNZ; VRED adds neighbours level by
level and VSCAN lanes at distances 1, 2, 4 and on, each addition rounded; a converted and a quantised lane is the exact number rounded once, saturated
where it does not fit; VNZ stores its list element by element, and goes on with the stores that are left where it held between them (R33, R36, R56, R137,
R368 to R372; log 119). VINS writes one lane of its vd and reads no operand there, and with an index past the lanes it changes nothing: that its vd, bound
for reading, is not popped is the model's deduction (log 137). -/
def Obligations.VectorMovementResults : Prop :=
  (∀ (s t u : State) (ty td : Ty) (wd : Wd) (vd vs1 vs2 xd xi : Reg) (a b : Nat),
    let w := wd.count
    let size := 8 * ty.size
    let n := 64 * w / ty.size
    let x (j : Nat) : Nat := a / 2 ^ (size * j) % 2 ^ size
    let y (j : Nat) : Nat := b / 2 ^ (size * j) % 2 ^ size
    let has (r : Reg) (n : Nat) : Prop := r.toNat + n ≤ s.ctx.vregs
    let laid (bits : Nat) (vs : List Nat) (r : Nat) : Prop :=
      r < 2 ^ (bits * vs.length) ∧ ∀ j, j < vs.length → r / 2 ^ (bits * j) % 2 ^ bits = vs.getD j 0 % 2 ^ bits
    let flagged (u : State) (fl : Flg) : State := u.modCtx fun c => { c with fstat := c.fstat ||| fl.setWidth 9 }
    let total (vs : List (Nat × Flg)) : Flg := vs.foldl (fun g v => g ||| v.2) 0
    (has vs1 1 → s.givesGroups [(vs1, 1)] [a] t →
      let k := (t.ctx.getX xi).toNat
      let v : Int := if ty.isSigned = true ∧ 2 ^ (size - 1) ≤ x k then (x k : Int) - 2 ^ size else x k
      s.completes (.vmovx ty xd vs1 xi) .seq (t.setX xd (if 64 / ty.size ≤ k then 0 else BitVec.ofInt 64 v))) ∧
    (has vd w → ∀ r, laid size (List.replicate n (s.ctx.getX xi).toNat) r → s.takesGroup vd w r u →
      s.completes (.vsplat ty wd vd xi) .seq u) ∧
    (has vd 1 →
      let k := (s.ctx.getX xi).toNat
      let kept (j : Nat) : Nat := s.ctx.getGroup vd 1 / 2 ^ (size * j) % 2 ^ size
      (64 / ty.size ≤ k → s.completes (.vins ty vd vs1 xi) .seq s) ∧
      (k < 64 / ty.size → ∀ r, laid size ((List.range (64 / ty.size)).map fun j => if j = k then (s.ctx.getX vs1).toNat else kept j) r →
        s.takesGroup vd 1 r u → s.completes (.vins ty vd vs1 xi) .seq u)) ∧
    (has vd w ∧ has vs1 w ∧ has vs2 w → s.givesGroups [(vs1, w), (vs2, w)] [a, b] t → ∀ r,
      (laid size ((List.range n).map fun j => x (y j % n)) r → t.takesGroup vd w r u → s.completes (.vperm ty wd vd vs1 vs2) .seq u) ∧
      (laid size (((List.range n).filter fun j => y j != 0).map x) r → t.takesGroup vd w r u →
        s.completes (.vcompr ty wd vd vs1 vs2) .seq u)) ∧
    (has vd w ∧ has vs1 w → s.givesGroups [(vs1, w)] [a] t → ∀ r,
      (laid size ((List.range n).map fun (j : Nat) =>
          let k := (j : Int) + (t.ctx.getX xi).toInt
          if 0 ≤ k ∧ k < n then x k.toNat else 0) r → t.takesGroup vd w r u → s.completes (.vslide ty wd vd vs1 xi) .seq u) ∧
      (ty.isFloat = false → laid size ((List.range n).map fun j => ((List.range (j + 1)).map x).sum) r → t.takesGroup vd w r u →
        s.completes (.vscan ty wd vd vs1) .seq (flagged u 0)) ∧
      (ty.isFloat = true → laid size (scanFrom ty s.ctx.rm 10 1 ((List.range n).map x)).1 r → t.takesGroup vd w r u →
        s.completes (.vscan ty wd vd vs1) .seq (flagged u (scanFrom ty s.ctx.rm 10 1 ((List.range n).map x)).2))) ∧
    (has vs1 w → s.givesGroups [(vs1, w)] [a] t →
      s.completes (.vpopc ty wd xd vs1) .seq (t.setX xd (BitVec.ofNat 64 (((List.range n).filter fun j => x j != 0).length))) ∧
      (has vd 1 ∧ ty.isFloat = false → t.takesGroup vd 1 (((List.range n).map x).sum % 2 ^ size) u →
        s.completes (.vred ty wd vd vs1) .seq (flagged u 0)) ∧
      (has vd 1 ∧ ty.isFloat = true → t.takesGroup vd 1 (redTree ty s.ctx.rm 10 ((List.range n).map x)).1 u →
        s.completes (.vred ty wd vd vs1) .seq (flagged u (redTree ty s.ctx.rm 10 ((List.range n).map x)).2)) ∧
      (has vd (derivedWidth w td.size ty.size) → ∀ r, laid (8 * td.size) ((List.range n).map fun j => (convertLane ty td s.ctx.rm (x j)).1) r →
        t.takesGroup vd (derivedWidth w td.size ty.size) r u →
        s.completes (.vcvt ty wd vd vs1 td) .seq (flagged u (total ((List.range n).map fun j => convertLane ty td s.ctx.rm (x j)))))) ∧
    (has vd (derivedWidth w 1 ty.size) ∧ has vs1 w ∧ has vs2 1 → s.givesGroups [(vs1, w), (vs2, 1)] [a, b] t →
      let q (j : Nat) : Int × Flg :=
        quantLane s.ctx.rm (fmtSF.decode (b / 2 ^ (32 * (j / 64)) % 2 ^ 32)) ((fmtOfTy ty).decode (x j))
      ∀ r, laid 8 ((List.range n).map fun j => ((q j).1 % 256).toNat) r → t.takesGroup vd (derivedWidth w 1 ty.size) r u →
      s.completes (.vqnt ty wd vd vs1 vs2) .seq (flagged u (((List.range n).map q).foldl (fun g v => g ||| v.2) 0))) ∧
    (∀ (left : List (Nat × List Byte)) (first keys : List (Nat × Nat)) (s1 s2 s3 s4 : State),
      let p := s.ctx.getX xi
      let e := copySize (fmtOf p)
      let listOf (v : Nat) : List Nat := (List.range n).filter fun j =>
        let l := v / 2 ^ (size * j) % 2 ^ size
        if ty.isFloat then l % 2 ^ (size - 1) != 0 else l != 0
      let endsOf (list : List Nat) (v : State) : State :=
        let summary := list.length * 2 ^ 32 + (list.head?.getD 0xFFFF) * 2 ^ 16 + list.getLast?.getD 0xFFFF
        (v.setX xd (BitVec.ofNat 64 list.length)).modCtx fun c => { c with
          q6 := if 16 ≤ c.q6.length then c.q6.drop 1 ++ [BitVec.ofNat 64 summary] else c.q6 ++ [BitVec.ofNat 64 summary] }
      let list := listOf a
      let ends := endsOf list
      (s.core.listing = some left →
        (s.gives (storesInTurn left) () s4 → s.completes (.vnz ty wd xd vs1 xi) .seq (endsOf (listOf (s.ctx.getGroup vs1 w)) s4)) ∧
        (storesInTurn left s = .error (.hold .completes) s4 → s.waits (.vnz ty wd xd vs1 xi) .completes s4)) ∧
      (has vs1 w ∧ s.core.listing = none ∧ (fmtOf p = 6 ∨ fmtOf p = 3) → s.givesGroups [(vs1, w)] [a] t → t.gives (spanKeys .store p 1 e) first s1 →
      (list = [] → s.completes (.vnz ty wd xd vs1 xi) .seq (ends s1)) ∧
      (list ≠ [] → (∃ more, s1.gives (spanKeys .store (ptrAt p (list.length * e - 1)) 1 1) more s2) →
        s2.gives (spanKeys .store p (list.length * e) e) keys s3 →
        let stores := (keys.flatMap (elementKeys e)).zip (list.map (leBytes e))
        (s3.gives (storesInTurn stores) () s4 → s.completes (.vnz ty wd xd vs1 xi) .seq (ends s4)) ∧
        (storesInTurn stores s3 = .error (.hold .completes) s4 → s.waits (.vnz ty wd xd vs1 xi) .completes s4))))) ∧
  (∀ (s t : State) (key size n : Nat) (bs : List Byte) (ps : List (Nat × List Byte)),
    elementKeys size (key, size * n) = (if size = 0 then [] else (List.range n).map fun i => key + size * i) ∧ s.gives (storesInTurn []) () s ∧
    (bs.length = size ∧ 0 < size ∧ key % 128 + size ≤ 128 →
      let own : Prop := regionOf key = .pool s.core.id
      (own ∧ s.quantumOn key size = false → (s.pokeOwn key bs).gives (storesInTurn ps) () t → s.gives (storesInTurn ((key, bs) :: ps)) () t) ∧
      (¬own ∧ s.core.unack < 256 → (s.launchFlight key (.store bs) false false none).gives (storesInTurn ps) () t →
        s.gives (storesInTurn ((key, bs) :: ps)) () t) ∧
      (own ∧ s.quantumOn key size = true ∨ ¬own ∧ 256 ≤ s.core.unack →
        storesInTurn ((key, bs) :: ps) s = .error (.hold .completes) (s.modCore fun c => { c with listing := some ((key, bs) :: ps) })))) ∧
  (∀ (ty td : Ty) (rm : Rm) (x d h k : Nat) (xs : List Nat) (σ a : FVal) (neg : Bool) (m : Nat) (e : Int),
    let bits := 8 * td.size
    let int (ty : Ty) (x : Nat) : Int := if ty.isSigned = true ∧ 2 ^ (8 * ty.size - 1) ≤ x then (x : Int) - 2 ^ (8 * ty.size) else x
    let lo : Int := if td.isSigned then -2 ^ (bits - 1) else 0
    let hi : Int := if td.isSigned then 2 ^ (bits - 1) - 1 else 2 ^ bits - 1
    let pattern (v : Int) : Nat := (v % 2 ^ bits).toNat
    let value := (fmtOfTy ty).decode x
    let dst := fmtOfTy td
    let invalid (a : FVal) : Flg := if a = .nan true then 16 else 0
    let add (i j : Nat) : Nat × Flg := addLane ty rm (xs.getD i 0) (xs.getD j 0)
    (ty.isFloat = true → addLane ty rm x d = (fmtOfTy ty).addV rm value ((fmtOfTy ty).decode d)) ∧
    redTree ty rm k [x] = (x, 0) ∧
    (xs.length = 2 * h ∧ 0 < h →
      let sums := (List.range h).map fun i => add (2 * i) (2 * i + 1)
      (redTree ty rm (k + 1) xs).1 = (redTree ty rm k (sums.map fun r => r.1)).1 ∧
      (∀ b, (redTree ty rm (k + 1) xs).2.getLsbD b = true ↔
        (∃ r ∈ sums, r.2.getLsbD b = true) ∨ (redTree ty rm k (sums.map fun r => r.1)).2.getLsbD b = true)) ∧
    (xs.length ≤ d → scanFrom ty rm k d xs = (xs, 0)) ∧
    (d < xs.length →
      let next := (List.range xs.length).map fun i => if i < d then (xs.getD i 0, 0) else add (i - d) i
      (scanFrom ty rm (k + 1) d xs).1 = (scanFrom ty rm k (2 * d) (next.map fun r => r.1)).1 ∧
      (∀ b, (scanFrom ty rm (k + 1) d xs).2.getLsbD b = true ↔
        (∃ r ∈ next, r.2.getLsbD b = true) ∨ (scanFrom ty rm k (2 * d) (next.map fun r => r.1)).2.getLsbD b = true)) ∧
    (ty.isFloat = false ∧ td.isFloat = false → convertLane ty td rm x = (pattern (max lo (min hi (int ty x))), 0)) ∧
    (ty.isFloat = false ∧ td.isFloat = true →
      (int ty x ≠ 0 → dst.rounds rm (int ty x) (convertLane ty td rm x)) ∧ (int ty x = 0 → convertLane ty td rm x = (0, 0))) ∧
    (ty.isFloat = true ∧ td.isFloat = true →
      (value.isNan = true → convertLane ty td rm x = (dst.qnan, invalid value)) ∧
      (value.isNan = false → (ty = td → convertLane ty td rm x = (x, 0)) ∧
        (ty ≠ td → (value = .inf neg → convertLane ty td rm x = (dst.infinity neg, 0)) ∧
          (value = .fin neg m e → (m = 0 → convertLane ty td rm x = (dst.sign neg, 0)) ∧
            (m ≠ 0 → dst.rounds rm value.number (convertLane ty td rm x)))))) ∧
    (ty.isFloat = true ∧ td.isFloat = false →
      (value.isNan = true → convertLane ty td rm x = (0, 16)) ∧
      (value = .inf neg → convertLane ty td rm x = (pattern (if neg then lo else hi), 16)) ∧
      (value = .fin neg m e → ∃ t : Int, rm.picks value.number t ∧
        (t < lo → convertLane ty td rm x = (pattern lo, 16)) ∧ (hi < t → convertLane ty td rm x = (pattern hi, 16)) ∧
        (lo ≤ t ∧ t ≤ hi → convertLane ty td rm x = (pattern t, if (t : ℚ) = value.number then 0 else 1)))) ∧
    ((σ.isNan = true ∨ σ = .inf neg ∨ σ = .fin true m e ∨ σ = .fin neg 0 e) ∨ a.isNan = true → quantLane rm σ a = (0, 16)) ∧
    (σ = .fin false m e ∧ m ≠ 0 →
      (a = .inf neg → quantLane rm σ a = (if neg then -127 else 127, 16)) ∧
      (∀ n k, a = .fin neg n k → ∃ t : Int, rm.picks (a.number / σ.number) t ∧
        quantLane rm σ a = (if t < -127 then (-127, 16) else if 127 < t then (127, 16)
          else (t, if (t : ℚ) = a.number / σ.number then 0 else 1)))))


/-- The stream instructions, the pop of a dense read stream and STREAM_PREFETCH: SOPEN closes its descriptor, where that is open for itself, after
its checks, the strict one of a fibre's second descriptor among them; SMERGE merges until its output is full, an input ends or one does not rise,
which traps FIBRE_ORDER (R138 to R141, R373 to R376). The model's choices: the fields of a claimed second descriptor (log 127), that a fibre's checks come before the close (log 30), and that input 0
is named where both inputs fall in one step (log 128), and which pieces a stream keeps as it moves, with the line of a line fibre that it has popped in
part (log 135). -/
def Obligations.StreamResults : Prop :=
  ∀ (s t u v x : State) (sd : BitVec 2) (xv xl xc xn xd vn : Reg) (kind : StreamKind) (off : BitVec 13) (uni : Bool)
      (m : MergeEnd) (h0 h1 : Option FibreEntry) (es : List FibreEntry) (at1 : Nat × Nat) (m0 k0 : Nat) (ks : List (Nat × Nat)) (bytes : List Byte),
    let own := s.ctx.getSd sd
    let val := s.ctx.getX xv
    let coord := if kind = .list then s.ctx.getX xc else 0
    let opened : StreamDesc := { val := val, coord := coord, pos := 0, limit := s.ctx.getX xl, kind := kind, bound := true }
    let acc : Acc := if kind = .denseWrite then .store else .load
    let named : Prop := own.bound = true ∧ ¬(sd.toNat % 2 = 1 ∧ own.kind.isFibre = true)
    let line : Prop := own.kind = .line
    let n := (s.ctx.getX xn).toNat
    let target : Word := BitVec.ofInt 64 (s.ctx.pc.toInt + 4 * off.toInt)
    let movedFrom (t : State) (first pos : Nat) (at' : Option (Nat × Nat)) : State := t.modCtx fun c =>
      ({ c with pieces := c.pieces.filter fun x => x.stream != sd || decide (first ≤ x.index) } : Ctx).setSd sd
        { own with pos := BitVec.ofNat 64 pos, lineAt := at' }
    let moved (t : State) (pos : Nat) : State := movedFrom t pos pos none
    let held := (s.ctx.pieces.filter fun p => p.stream == sd).length
    let fetched (t : State) (m : Nat) (p : Word) : State := t.modCtx fun c => { c with
      pieces := c.pieces ++ [{ stream := sd, index := m, ptr := p, bytes := bytes }] }
    ((kind.isFibre = false ∧ 28 + sd.toNat < s.ctx.vregs ∨
        kind.isFibre = true ∧ 29 + sd.toNat < s.ctx.vregs ∧ sd.toNat % 2 = 0 ∧ (s.ctx.getSd (sd + 1)).bound = false) ∧
        kindAccepts kind (fmtOf val) = true ∧ (kind = .list → fmtOf coord = 3 ∧ coord.toNat % 4 = 0) ∧
        s.gives (spanKeys acc val 1 1) ks t ∧ (if kind = .list then ∃ k, t.gives (spanKeys .load coord 1 1) k u else u = t) ∧
        alignedTo val (kindAlign kind opened) = true ∧ (named → u.gives (closeStream sd) () v) ∧ (¬named → v = u) →
      s.completes (.sopen sd xv xl kind xc) .seq (v.modCtx fun c =>
        let c := (c.dropPieces sd).setSd sd opened
        if kind.isFibre then c.setSd (sd + 1) { StreamDesc.zero with kind := kind, bound := true } else c)) ∧
    (s.resultsPending = false →
      let i := Instr.sopen sd xv xl kind xc
      (s.ctx.vregs ≤ 28 + sd.toNat ∨ kind.isFibre = true ∧ (sd.toNat % 2 = 1 ∨ s.ctx.vregs ≤ 29 + sd.toNat ∨
          (s.ctx.getSd (sd + 1)).bound = true) →
        s.traps i 2 (BitVec.ofNat 64 (wordOf i).toNat) s.ctx.pc s) ∧
      (kind.isFibre = false ∧ 28 + sd.toNat < s.ctx.vregs ∧ kindAccepts kind (fmtOf val) = false → s.traps i 23 val s.ctx.pc s)) ∧
    (named ∧ ¬line →
      s.completes (.sadv sd xn) .seq (moved s (max own.pos.toNat (min (own.pos.toNat + n) own.limit.toNat))) ∧
      (own.limit.toNat ≤ own.pos.toNat → s.completes (.stend sd off) (.jump target) s) ∧
      (own.pos.toNat < own.limit.toNat → s.completes (.stend sd off) .seq s)) ∧
    (named ∧ line →
      (s.gives (lineNext sd own n) (es, at1) t ∧ t.gives (moveTo sd own (own.pos.toNat + es.length)) () u → s.completes (.sadv sd xn) .seq u) ∧
      (s.gives (lineNext sd own 1) (es, at1) t →
        (es = [] → s.completes (.stend sd off) (.jump target) t) ∧ (es ≠ [] → s.completes (.stend sd off) .seq t))) ∧
    (∀ pos, (¬line → s.gives (moveTo sd own pos) () (moved s pos)) ∧
      (line ∧ s.gives (lineNext sd own (pos - own.pos.toNat)) (es, (m0, k0)) t →
        (k0 = 0 → s.gives (moveTo sd own pos) () (movedFrom t m0 pos (some (m0, 0)))) ∧
        (k0 ≠ 0 ∧ t.gives (streamRead sd (ptrAt own.val (128 * m0)) 128 128) bytes u →
          let has : Bool := u.ctx.pieces.any fun x => x.stream == sd && x.ptr == ptrAt own.val (128 * m0)
          let keeps := u.modCtx fun c => if has then c else { c with
            pieces := { stream := sd, index := m0, ptr := ptrAt own.val (128 * m0), bytes := bytes } :: c.pieces }
          s.gives (moveTo sd own pos) () (movedFrom keeps m0 pos (some (m0, k0)))))) ∧
    (let total := own.limit.toNat
     (own.lineAt = some (m0, k0) → lineNext sd own n s = lineFrom sd own (total - m0) m0 k0 n s) ∧
     (own.lineAt = none ∧ s.gives (lineSkip sd own total 0 own.pos.toNat) (m0, k0) t →
       lineNext sd own n s = lineFrom sd own (total - m0) m0 k0 n t) ∧
     (∀ left m k want, s.gives (lineFrom sd own 0 m k want) ([], (m, k)) s ∧ s.gives (lineFrom sd own (left + 1) m k 0) ([], (m, k)) s ∧
       s.gives (lineSkip sd own (left + 1) m 0) (m, 0) s ∧
       (0 < want ∧ s.gives (lineEntries sd own m) es t →
         (k + want < es.length → s.gives (lineFrom sd own (left + 1) m k want) ((es.drop k).take want, (m, k + want)) t) ∧
         (es.length ≤ k + want → ∀ more, t.gives (lineFrom sd own left (m + 1) 0 (want - (es.length - k))) (more, at1) u →
           s.gives (lineFrom sd own (left + 1) m k want) (es.drop k ++ more, at1) u)) ∧
       (0 < k ∧ s.gives (lineEntries sd own m) es t →
         (k < es.length → s.gives (lineSkip sd own (left + 1) m k) (m, k) t) ∧
         (es.length ≤ k → lineSkip sd own (left + 1) m k s = lineSkip sd own left (m + 1) (k - es.length) t)))) ∧
    (named → s.computes (.spos xd sd) xd own.pos) ∧ (¬named → s.completes (.sclose sd) .seq s) ∧
    (named ∧ (∀ f ∈ s.dev.flights, f.append = false) →
      s.completes (.sclose sd) .seq (s.modCtx fun c =>
        let c := (c.dropPieces sd).setSd sd { own with bound := false, lineAt := none }
        if own.kind.isFibre then c.setSd (sd + 1) { c.getSd (sd + 1) with bound := false } else c)) ∧
    (own.kind = .denseRead →
      (own.limit.toNat ≤ own.pos.toNat → s.gives (popStream sd) () (s.modCtx fun c => c.setV (28 + sd.toNat) 0)) ∧
      (own.pos.toNat < own.limit.toNat → s.ctx.pieces = [] → s.gives (loadBytes (ptrAt own.val (64 * own.pos.toNat)) 64 64) bytes t →
        t.ctx = s.ctx → s.gives (popStream sd) ()
          (moved (t.modCtx fun c => c.setV (28 + sd.toNat) (BitVec.ofNat 512 (leNat bytes))) (own.pos.toNat + 1))) ∧
      (∀ x, own.pos.toNat < own.limit.toNat →
          (s.ctx.pieces.find? fun x => x.stream == sd && x.ptr == ptrAt own.val (64 * own.pos.toNat) && x.bytes.length == 64) = some x →
        s.gives (popStream sd) ()
          (moved (s.modCtx fun c => c.setV (28 + sd.toNat) (BitVec.ofNat 512 (leNat x.bytes))) (own.pos.toNat + 1)))) ∧
    (own.kind.isFibre = true ∧ sd.toNat % 2 = 0 ∧ s.gives (fibreEntries sd own own.pos.toNat 16) es t ∧
        (t.modCtx fun c => (c.setV (28 + sd.toNat) (entryLanes es).1).setV (29 + sd.toNat) (entryLanes es).2).gives
          (moveTo sd own (own.pos.toNat + es.length)) () u →
      s.gives (popStream sd) () u) ∧
    (let d0 := s.ctx.getSd 0
     let d1 := s.ctx.getSd 2
     vn.toNat + 2 ≤ s.ctx.vregs ∧ d0.bound = true ∧ d0.kind.isFibre = true ∧ d1.bound = true ∧
        d1.kind.isFibre = true ∧ s.gives (headAt 0 d0 d0.pos.toNat) h0 t ∧ t.gives (headAt 2 d1 d1.pos.toNat) h1 u ∧
        u.gives (mergeFrom uni d0 d1 33 h0 h1 [] d0.pos.toNat d1.pos.toNat 0) m x →
      let written := x.modCtx fun c => (c.setV vn.toNat (entryLanes m.out).1).setV (vn.toNat + 1) (entryLanes m.out).2
      ∀ y merged, written.gives (moveTo 0 d0 m.p0) () y → y.gives (moveTo 2 d1 m.p1) () merged →
      (m.bad = none → s.completes (.smerge vn uni) .seq merged) ∧
      (∀ n pos, m.bad = some (n, pos) → merged.resultsPending = false →
        s.traps (.smerge vn uni) 18 (BitVec.ofNat 64 (n * 2 ^ 32 + pos % 2 ^ 32)) s.ctx.pc merged)) ∧
    (∀ (d0 d1 : StreamDesc) (fuel p0 p1 taken : Nat) (out : List FibreEntry) (n0 n1 : Option FibreEntry) (a b : FibreEntry),
      let go := mergeFrom uni d0 d1
      let at0 (e : FibreEntry) : Int := if d0.kind = .line then e.1 else (BitVec.ofNat 32 e.1).toInt
      let at1 (e : FibreEntry) : Int := if d1.kind = .line then e.1 else (BitVec.ofNat 32 e.1).toInt
      let ends (out : List FibreEntry) (p0 p1 : Nat) (bad : Option (Nat × Nat)) : MergeEnd := { out := out, p0 := p0, p1 := p1, bad := bad }
      let falls0 : Prop := ∃ x, n0 = some x ∧ at0 x ≤ at0 a
      let falls1 : Prop := ∃ x, n1 = some x ∧ at1 x ≤ at1 b
      let room : Prop := out.length < 16 ∧ taken < 32
      (¬room ∨ uni = false ∧ (h0 = none ∨ h1 = none) ∨ h0 = none ∧ h1 = none →
        s.gives (go (fuel + 1) h0 h1 out p0 p1 taken) (ends out p0 p1 none) s) ∧
      (room ∧ h0 = some a ∧ h1 = some b ∧ at0 a = at1 b ∧ s.gives (headAt 0 d0 (p0 + 1)) n0 t ∧ t.gives (headAt 2 d1 (p1 + 1)) n1 u →
        let r := if uni then fmtSF.addV .rne (fmtSF.decode a.2) (fmtSF.decode b.2) else fmtSF.mulV .rne (fmtSF.decode a.2) (fmtSF.decode b.2)
        let out' := out ++ [(a.1, r.1)]
        (falls0 → s.gives (go (fuel + 1) h0 h1 out p0 p1 taken) (ends out' (p0 + 1) (p1 + 1) (some (0, p0 + 1))) u) ∧
        (¬falls0 ∧ falls1 → s.gives (go (fuel + 1) h0 h1 out p0 p1 taken) (ends out' (p0 + 1) (p1 + 1) (some (1, p1 + 1))) u) ∧
        (¬falls0 ∧ ¬falls1 → go (fuel + 1) h0 h1 out p0 p1 taken s = go fuel n0 n1 out' (p0 + 1) (p1 + 1) (taken + 2) u)) ∧
      (room ∧ h0 = some a ∧ (h1 = none ∧ uni = true ∨ h1 = some b ∧ at0 a < at1 b) ∧ s.gives (headAt 0 d0 (p0 + 1)) n0 t →
        let out' := if uni then out ++ [a] else out
        (falls0 → s.gives (go (fuel + 1) h0 h1 out p0 p1 taken) (ends out' (p0 + 1) p1 (some (0, p0 + 1))) t) ∧
        (¬falls0 → go (fuel + 1) h0 h1 out p0 p1 taken s = go fuel n0 h1 out' (p0 + 1) p1 (taken + 1) t)) ∧
      (room ∧ h1 = some b ∧ (h0 = none ∧ uni = true ∨ h0 = some a ∧ at1 b < at0 a) ∧ s.gives (headAt 2 d1 (p1 + 1)) n1 t →
        let out' := if uni then out ++ [b] else out
        (falls1 → s.gives (go (fuel + 1) h0 h1 out p0 p1 taken) (ends out' p0 (p1 + 1) (some (1, p1 + 1))) t) ∧
        (¬falls1 → go (fuel + 1) h0 h1 out p0 p1 taken s = go fuel h0 n1 out' p0 (p1 + 1) (taken + 1) t))) ∧
    (own.bound = true ∧ own.kind ≠ .denseWrite ∧ (own.kind = .denseRead ∨ sd.toNat % 2 = 0) →
      let number (j : Nat) : Nat := if line then (own.lineAt.map fun p => p.1).getD 0 + j else own.pos.toNat + if own.kind = .list then j / 2 else j
      let size (j : Nat) : Nat := if line then 128 else if own.kind = .denseRead then 64 else if j % 2 = 0 then listSize own else 4
      let ptr (j : Nat) : Word := ptrAt (if own.kind = .list ∧ j % 2 = 1 then own.coord else own.val) (size j * number j)
      let has (j : Nat) : Prop := ∃ x ∈ s.ctx.pieces, x.stream = sd ∧ x.ptr = ptr j
      ∀ j, j ≤ held ∧ ¬has j ∧ (∀ i, i < j → has i) →
        (own.limit.toNat ≤ number j → exec (.streamPrefetch sd) s = .next s) ∧
        (number j < own.limit.toNat ∧ s.gives (fetchBytes (ptr j) (size j) (size j)) bytes t →
          exec (.streamPrefetch sd) s = .next (fetched t (number j) (ptr j)))) ∧
    (own.bound = false ∨ own.kind = .denseWrite → exec (.streamPrefetch sd) s = .next s)

/-- REPF out of a stream: the frame's words are captured, every replay of them runs as the staggered words' instructions do, and the pc goes past the
frame; a count of 0 runs none. A word outside the capture set traps FRAME_ILLEGAL before any runs, and a replay's word that is none traps it there,
with the return after the frame. A staggered word has each named field moved by the distance (R238, R377 to R381; logs 10, 110). -/
def Obligations.RepeatFrameResults : Prop :=
  ∀ (s t u : State) (len : BitVec 4) (ci : Bool) (cnt : BitVec 5) (stride : BitVec 4) (mask : BitVec 3) (ws : List IWord) (w v : IWord) (r : Nat),
    let n := len.toNat + 1
    let last := s.ctx.pc + BitVec.ofNat 64 (4 * n)
    let count := if ci then cnt.toNat else (t.ctx.getX cnt).toNat % 2 ^ 16
    let ends (u : State) : State := (u.modCtx fun c => { c with pc := last }).modCore fun c => { c with frame := none }
    let i := Instr.repf len ci cnt stride mask
    (s.core.inStream = false ∧ s.core.frame = none ∧ s.gives (captureWords n) ws t →
      ws.length = n ∧ t.core.captured = ws ∧
      ((∀ w ∈ ws, isCaptured w = true) →
        (count = 0 → s.completes i .seq (ends t)) ∧
        (t.gives (frameFrom ws mask stride.toInt (last + 4) count (count * (n + 1) + 1) 0 0) () u → s.completes i .seq (ends u))) ∧
      (∀ k, ws[k]? = some w → isCaptured w = false → (∀ v ∈ ws.take k, isCaptured v = true) → t.resultsPending = false →
        s.traps i 20 (BitVec.ofNat 64 (k * 2 ^ 16)) s.ctx.pc (t.modCore fun c => { c with frame := none }))) ∧
    (∀ (c fuel k : Nat) (after : Word) (body : Act Unit) (j : Instr) (a : State),
      let go (fuel r k : Nat) : Act Unit := frameFrom ws mask stride.toInt after c fuel r k
      (c ≤ r → s.gives (go (fuel + 1) r k) () s) ∧
      (r < c ∧ ws[k]? = none → go (fuel + 1) r k s = go fuel (r + 1) 0 s) ∧
      (r < c ∧ ws[k]? = some w ∧ staggered w mask stride.toInt r = some v ∧ decode v = some j ∧ capturedBody j = some body ∧
          s.interlocked j = false ∧ s.gives body () a ∧ a.core.inStream = false → go (fuel + 1) r k s = go fuel r (k + 1) a) ∧
      (r < c ∧ ws[k]? = some w ∧ (staggered w mask stride.toInt r = none ∨
          ∃ v, staggered w mask stride.toInt r = some v ∧ isCaptured v = false) →
        go (fuel + 1) r k s = .error (.trap 20 (BitVec.ofNat 64 (2 ^ 63 + k * 2 ^ 16 + r)) (.to after)) s)) ∧
    (∀ (j : Instr) (body : Act Unit), capturedBody j = some body → exec j s = runSeq j body s) ∧
    (staggered w mask stride.toInt r = some v →
      ∀ k, k < 3 → (field v (staggerLow k) 5 : Int) = field w (staggerLow k) 5 + (if mask.getLsbD k then r * stride.toInt else 0)) ∧
    (staggered w mask stride.toInt r = some v → v.toNat % 2 ^ 11 = w.toNat % 2 ^ 11 ∧ v.toNat / 2 ^ 26 = w.toNat / 2 ^ 26)

/-- The gang instructions, and the reasons for which each traps GANG_STATE, in their order; and the cores of a run, by the partition's stitch mode (R148,
R186 to R191, R192, R197 to R200, R202, R382, R383; logs 66, 85). -/
def Obligations.GangResults : Prop :=
  ∀ (s : State) (rs : Reg) (id : BitVec 8) (cores : List Nat) (l : GangLink) (n i : Nat) (c : Core) (pc : Word) (code : Nat),
    let x := s.ctx.getX rs
    let gid : Byte := BitVec.ofNat 8 (x.toNat / 2 ^ 16 % 2 ^ 8)
    let alone : Prop := s.ctx.gangMode = 0 ∧ s.core.link = none
    let mode (n : Nat) : Prop := s.ctx.gangMode = n ∧ s.core.link = some l ∧ s.core.heldAt = none ∧ (s.memberAt l).bind (fun m => m.poison) = none
    (alone ∧ x.toNat / 2 ^ 24 = 0 ∧ x.toNat / 2 ^ 10 % 2 ^ 6 = 0 ∧ x.toNat / 2 ^ 8 % 4 ≠ 3 ∧ x.toNat % 2 ^ 8 ≠ 0 ∧
        s.rangeOf (x.toNat % 2 ^ 8) = some cores →
      ((∀ m ∈ cores.drop 1, s.rangeCore gid s.ctx.lnum m = .ready) →
        s.completes (.gform rs) .seq (s.formGang cores gid (x.toNat / 2 ^ 8 % 4) s.ctx.lnum s.core.part (s.ctx.pc + 4))) ∧
      ((∀ m ∈ cores.drop 1, s.rangeCore gid s.ctx.lnum m ≠ .conflict) → (∃ m ∈ cores.drop 1, s.rangeCore gid s.ctx.lnum m = .wait) →
        s.waits (.gform rs) .gform s)) ∧
    (cores.Nodup → cores[i]? = some n → s.coreById n = some c →
      (s.formGang cores id code s.ctx.lnum s.core.part pc).coreById n = some { c with
        link := some { gang := s.dev.gangCount, pos := i, gid := id, lnum := s.ctx.lnum }
        hold := .none, issued := none, record := [], arrived := [], passed := [], listing := none
        ctx := { c.ctx with
          gang := BitVec.ofNat 24 (id.toNat * 2 ^ 16 + code * 2 ^ 14 + (if i = 0 then 1 else 2) * 2 ^ 12 + cores.length % 64 * 2 ^ 6 + i % 64)
          pc := if i = 0 then c.ctx.pc else pc } }) ∧
    (alone ∧ x.toNat / 2 ^ 24 = 0 ∧ x.toNat % 2 ^ 16 = 0 → s.waits (.gjoin rs) (.gjoin gid) s) ∧
    (s.core.heldAt = none →
      (x = 0 ∨ s.ctx.gangMode = 0 → s.completes (.gleave rs) .seq s) ∧
      (x ≠ 0 ∧ (s.ctx.gangMode = 2 ∨ s.ctx.gangMode = 3) → s.completes (.gleave rs) .seq (s.leaveGang s.core.id)) ∧
      (s.ctx.gangMode = 1 ∨ s.ctx.gangMode = 2 → s.completes .gsplit .seq s.splitGang) ∧
      (s.ctx.gangMode = 0 ∨ s.ctx.gangMode = 3 → s.completes .gsplit .seq s) ∧
      (x = 0 ∨ s.ctx.gangMode ≠ 2 → s.completes (.gdet rs) .seq s) ∧
      (s.ctx.gangMode = 0 ∨ s.ctx.gangMode = 2 → s.completes (.rjp id) .seq s)) ∧
    (mode 2 ∧ x ≠ 0 → s.completes (.gdet rs) .seq (s.detach l)) ∧
    (mode 1 ∨ mode 2 → s.completes (.gatt id) .seq s) ∧
    (mode 3 →
      let t := (s.modGang l.gang fun g => g.modMember l.pos fun m => { m with parked := some id }).gangTick l.gang
      (t.ctx.gangMode = 3 → s.waits (.gatt id) (.gatt id) t) ∧ (t.ctx.gangMode ≠ 3 → s.completes (.gatt id) .stay t)) ∧
    (mode 1 → s.completes (.rjp id) .seq (s.modGang l.gang fun g => { g with hold := .rjp id g.nextK (s.ctx.pc + 4) })) ∧
    (s.ctx.gangMode = 0 ∧ s.core.heldAt = none ∧ s.releaseMet .gang = true ∧ s.commPending s.core.id = false ∧ s.resultsPending = false →
      s.completes .gbar .seq (s.modCtx fun c => { c with pieces := [] })) ∧
    (s.releaseMet .gang = true ∧ s.commPending s.core.id = false ∧ s.resultsPending = false →
      let a := (s.modCtx fun c => { c with pieces := [] }).arriveBar l
      let waiting : Prop := (a.memberAt l).any (fun m => m.atBar) = true
      (mode 1 ∨ mode 2 → s.completes .gbar .seq (a.gangTick l.gang)) ∧
      (mode 3 →
        (s.core.hold ≠ .gbar ∧ (s.memberAt l).any (fun m => m.atBar) = true → s.waits .gbar .retry s) ∧
        (s.core.hold = .gbar ∨ (s.memberAt l).any (fun m => m.atBar) = false →
          (waiting → s.waits .gbar .gbar a) ∧
          (¬waiting → s.completes .gbar (if s.core.hold = .gbar then .stay else .seq) (a.gangTick l.gang))))) ∧
    (mode 1 ∨ mode 2 → s.splitGang.ctx.gang = 0x40 ∧ s.splitGang.core.link = none) ∧
    (s.resultsPending = false →
      let reason (i : Instr) (word : Word) (n : Nat) : Prop :=
        s.traps i 21 ((word &&& 0x00FF_FFFF_FFFF_FFFF) ||| BitVec.ofNat 64 (n * 2 ^ 56)) s.ctx.pc s
      let held : Prop := ∃ h, s.core.heldAt = some h ∧ h.stream = true ∧ s.ctx.gangMode ≠ 0
      let bad : Prop := x.toNat / 2 ^ 24 ≠ 0
      (held → reason (.gform rs) x 7 ∧ reason (.gjoin rs) x 7 ∧ reason (.gleave rs) 0 7 ∧ reason .gsplit 0 7 ∧ reason (.gdet rs) 0 7 ∧
        reason (.gatt id) 0 7 ∧ reason (.rjp id) 0 7 ∧ reason .gbar 0 7) ∧
      (¬held →
        (s.ctx.gangMode ≠ 0 ∨ s.core.link.isSome = true → reason (.gform rs) x 1 ∧ reason (.gjoin rs) x 1) ∧
        (alone →
          (bad ∨ x.toNat / 2 ^ 10 % 2 ^ 6 ≠ 0 ∨ x.toNat / 2 ^ 8 % 4 = 3 ∨ x.toNat % 2 ^ 8 = 0 → reason (.gform rs) x 2) ∧
          (bad ∨ x.toNat % 2 ^ 16 ≠ 0 → reason (.gjoin rs) x 2) ∧
          (¬bad ∧ x.toNat / 2 ^ 10 % 2 ^ 6 = 0 ∧ x.toNat / 2 ^ 8 % 4 ≠ 3 ∧ x.toNat % 2 ^ 8 ≠ 0 →
            (s.rangeOf (x.toNat % 2 ^ 8) = none → reason (.gform rs) x 3) ∧
            (s.rangeOf (x.toNat % 2 ^ 8) = some cores ∧ (∃ m ∈ cores.drop 1, s.rangeCore gid s.ctx.lnum m = .conflict) →
              reason (.gform rs) x 4))) ∧
        (s.ctx.gangMode = 0 → reason (.gatt id) 0 (if s.core.hold = .gatt id then 5 else 8)) ∧
        (s.ctx.gangMode = 1 ∧ x ≠ 0 → reason (.gleave rs) 0 6))) ∧
    (∀ (p : PartConfig) (die row col g : Nat) (run : List Nat), 0 < g → gangRange p die row col g = some run →
      let index := die * (p.height * p.width) + row * p.width + (if row % 2 = 0 then col else p.width - 1 - col)
      let ring (k : Nat) : Option Nat :=
        let r := k / p.width % p.height
        partCoreAt p (k / (p.height * p.width)) r (if r % 2 = 0 then k % p.width else p.width - 1 - k % p.width)
      run.length = g ∧
      (p.stitch = 0 → g ≤ 48 ∧ col + g ≤ p.width ∧ ∀ i, i < g → run[i]? = partCoreAt p die row (col + i)) ∧
      (p.stitch = 1 → g ≤ p.width ∧ ∀ i, i < g → run[i]? = partCoreAt p die row ((col + i) % p.width)) ∧
      (p.stitch = 2 → g ≤ min 192 (p.dies * p.height * p.width) ∧ ∀ i, i < g → run[i]? = ring ((index + i) % (p.dies * p.height * p.width))) ∧
      (p.stitch = 3 → g ≤ 6 ∧ ∃ cols : List Nat, cols.length = g ∧ cols[0]? = some col ∧
        (∀ i a b, cols[i]? = some a → cols[i + 1]? = some b → 0 < a ∧ b = (a - 1) / 2) ∧ ∀ i, i < g → run[i]? = cols[i]?.bind (partCoreAt p die row)))

/-- A shift in a gang gives its value to the receivers of its stream instruction, and takes its own: the source's where it is there, zero where
there is none, else later, by XSH_ARRIVAL, which writes it as an instruction's destination; a shift out of a gang's stream, or by a held member, traps
GANG_STATE (R192, R196, R202, R359, R384, R385; log 83). -/
def Obligations.ShiftResults : Prop :=
  ∀ (s t u : State) (wd : Wd) (vd vs : Reg) (west wrap : Bool) (l : GangLink) (g : Gang) (a k src : Nat) (x : ShiftSent) (d : ShiftDue)
      (m : Member) (v : BitVec 4096),
    let i : Instr := if wrap then .xwrap wd vd vs west else .xsh wd vd vs west
    let slot := s.slotOf l
    let sent : Gang := { g with
      sent := g.sent ++ [{ k := slot, pos := l.pos, value := BitVec.ofNat 4096 a }]
      due := g.due.map fun d => if d.k = slot ∧ d.src = l.pos ∧ d.value.isNone then
        { d with value := some (BitVec.ofNat 4096 a), arrive := g.now + d.dist } else d }
    let ends (y : State) (g : Gang) : Prop := s.completes i .seq (y.modGang l.gang fun _ => g)
    (vd.toNat + wd.count ≤ s.ctx.vregs ∧ vs.toNat + wd.count ≤ s.ctx.vregs ∧ s.core.heldAt = none ∧ s.core.link = some l ∧
        (s.ctx.gangMode = 1 ∨ s.ctx.gangMode = 2) ∧ s.givesGroups [(vs, wd.count)] [a] t ∧ t.gang? l.gang = some g →
      (shiftSource (sent.parties slot) l.pos west wrap = none → t.takesGroup vd wd.count 0 u → ends u sent) ∧
      (shiftSource (sent.parties slot) l.pos west wrap = some src →
        (sent.sent.find? (fun y => y.k == slot && y.pos == src) = some x → t.takesGroup vd wd.count x.value.toNat u → ends u sent) ∧
        (sent.sent.find? (fun y => y.k == slot && y.pos == src) = none →
          ends t { sent with due := sent.due ++
            [{ k := slot, dst := l.pos, src := src, dist := if l.pos ≤ src then src - l.pos else l.pos - src, wd := wd, vd := vd, value := none
               arrive := 0 }] }))) ∧
    (s.core.link = some l ∧ s.gang? l.gang = some g ∧ g.due[k]? = some d ∧ d.value = some v ∧ d.arrive ≤ g.now ∧
        g.member? d.dst = some m →
      let taken (y : State) : State := y.modGang l.gang fun g => { g with due := g.due.eraseIdx k }
      (m.state = .gone → exec (.xshArrival k) s = .next (taken s)) ∧
      (m.state ≠ .gone ∧ (∀ c, s.coreById m.core = some c → c.ctx.gangMode ≠ 0 ∧ c.heldAt = none) → ∀ r, s.focus m.core = some r →
        r.takesGroup d.vd d.wd.count v.toNat u → exec (.xshArrival k) s = .next (taken ((u.focus s.core.id).getD u)))) ∧
    (vd.toNat + wd.count ≤ s.ctx.vregs ∧ vs.toNat + wd.count ≤ s.ctx.vregs ∧ s.resultsPending = false →
      let reason (n : Nat) : Prop := s.traps i 21 (BitVec.ofNat 64 (n * 2 ^ 56)) s.ctx.pc s
      (s.core.heldAt.any (fun h => h.stream) = true ∧ s.ctx.gangMode ≠ 0 → reason 7) ∧
      (s.ctx.gangMode = 0 → reason 11) ∧
      (s.ctx.gangMode = 3 ∧ s.core.link = some l ∧ s.core.heldAt = none → reason 12))


/-- A matrix instruction of a core of no gang, and QPUSH of q2, put their command in q2 in the lowest free slot, once their checks pass: its
tag's two bits are clear and its tag is in flight, and an MMA has popped the streams bound to the registers it is to read (R387 to R390,
R394 to R399; log 60). The push of MSTV makes the checks of the appends that its quad's write streams are to make, at its instruction (R359; that they
are made at the push is the model's choice, log 60). A leader's push waits in the stream for its members (R205). -/
def Obligations.MatrixPushResults : Prop :=
  ∀ (s t u o : State) (i : Instr) (rs : Reg) (w : IWord) (bval cval : Word) (slot : Nat) (bytes : List Byte)
      (ac : BitVec 3) (wt ks oct : BitVec 2) (rows planes : BitVec 3) (vs vq x : Reg) (pri : BitVec 2) (tag : BitVec 3) (l : GangLink),
    let v := s.ctx.getX x
    let tagNo := 56 + w.toNat / 2 ^ 3 % 2 ^ 3
    let reads := if w.toNat % 8 = 2 then (List.range 8).map (fun k => mmaOctet w + k) ++ [mtxC w] else []
    let writes (s : State) := if w.toNat % 8 = 5 then (List.range 4).map fun k => mtxB w + k else s.ctx.popWrites reads
    let job (t : State) : MtxJob :=
      { slot := BitVec.ofNat 4 slot, word := w, bval := bval, cval := cval, mask := 0, state := .waiting, fresh := true, started := false
        prio := 0, since := t.dev.cycles, seq := t.dev.seq, narm := t.ctx.narm, kptb := t.core.kptb, level := t.core.level, act := 0
        joint := none, restart := none }
    let tagged (t : State) : State :=
      ((t.modDev fun d => { d with seq := d.seq + 1 }).modCtx fun c => { c with
          tagrdy := setBit c.tagrdy tagNo false, tagerr := setBit c.tagerr tagNo false }).modCore fun c => { c with
        dmaTags := setBit c.dmaTags tagNo true }
    let queued (t : State) : State := (tagged t).modCore fun c => { c with mtx := c.mtx ++ [job t] }
    let inStream (t : State) : State := (tagged t).modGang l.gang fun g => { g with
      staged := g.staged ++ [{ k := t.slotOf l, core := t.core.id, lnum := t.ctx.lnum, wuid := t.ctx.wuid, job := job t }] }
    let passes (s t u : State) : Prop :=
      s.ctx.hasMtxRegs w = true ∧ s.core.heldAt = none ∧ s.mtxBlocks s.core.id reads (writes s) = false ∧
      s.gives (mtxOperands w bval cval) () t ∧ t.core.dmaTags.getLsbD tagNo = false ∧ lowestSlot (t.heldSlots t.core.id) = some slot ∧
      t.gives (popOperands reads) () u
    let alone (s t u : State) : Prop := s.ctx.gangMode = 0 ∧ s.core.link = none ∧ t.core.link = none ∧ u.core.link = none
    let leads (s t u : State) : Prop := s.ctx.gangMode = 1 ∧ s.core.link = some l ∧ t.core.link = some l ∧ u.core.link = some l ∧
      u.core.heldAt = none ∧ u.ctx.gangMode = 1
    let pushes : Prop := i = .mldw wt x pri tag ∧ bval = v ∧ cval = 0 ∨ i = .mzero ac pri tag ∧ bval = 0 ∧ cval = 0 ∨
      i = .mma ac wt oct rows vs planes pri tag ∧ bval = 0 ∧ cval = 0 ∨
      i = .mmas ac ks x rows planes pri tag ∧ bval = v ∧ cval = s.ctx.getX (x + 1) ∨
      i = .msta ac x rows pri tag ∧ bval = v ∧ cval = 0 ∨ i = .mstv ac vq x pri tag ∧ bval = 0 ∧ cval = v
    (pushes → w = wordOf i → passes s t u →
      (alone s t u → s.completes i .seq (queued u)) ∧ (leads s t u → s.completes i .seq (inStream u))) ∧
    (s.gives (readRecord (s.ctx.getX rs) 64) bytes o →
      w = (wordAt bytes 0).setWidth 32 ∧ isMtxWord w = true ∧ bval = wordAt bytes 1 ∧ cval = wordAt bytes 2 ∧ wordAt bytes 3 = 0 ∧
        wordAt bytes 4 = 0 →
      passes o t u → alone o t u → s.completes (.qpush 2 rs) .seq (queued u)) ∧
    (let quad := (List.range 4).map fun k => vq.toNat + k
     s.ctx.hasMtxRegs (wordOf (.mstv ac vq x pri tag)) = true ∧ s.core.heldAt = none ∧ s.mtxBlocks s.core.id [] quad = false ∧ v.toNat ≤ 63 ∧
        s.resultsPending = false →
      ∀ n ns, s.ctx.writeStreams quad = n :: ns → (s.ctx.getSd (BitVec.ofNat 2 n)).limit.toNat ≤ (s.ctx.getSd (BitVec.ofNat 2 n)).pos.toNat →
        s.traps (.mstv ac vq x pri tag) 8 (descAddress s.core.wp n) s.ctx.pc s)

/-- The matrix engine of a core alone: a command starts when the slice is free; a micro-tile of an MMA multiplies its octet, and one of an MMAS
eight rows that it reads from memory, into its accumulator tile and is marked; MLDW fetches a weight tile, or spoils it with a data error;
MZERO clears, MSTA stores and MSTV copies rows to a quad, whose bound streams store them; an MSTA that meets a fault leaves its FAULTED record;
a command that completes has its tag set and its element given; the commands that restart take slots that are free. A micro-tile adds the exact sum of
products times the rounded scale in one rounding, and the micro-tiles of an MMAS run from its first k-step up (R57, R66, R139, R245, R387, R388, R391,
R394, R396 to R401). The model's choices: MLDW, MZERO, MSTA and MSTV do their whole work in the step that completes them (log 62); a tile whose fetch ended
in a data error has a plane count of 0 and keeps its bytes (log 63); an uncorrectable word that MLDW reads is the data error of STATUS 4 and no engine
fault (log 104); a restarted command takes the KPTB of that moment (log 12); and the clauses of the queue, the records and the quad's appends rest on
logs 33, 34, 35 and 60. -/
def Obligations.MatrixEngineEvents : Prop :=
  ∀ (s u : State) (j : MtxJob) (tile st sub cause n : Nat) (rows : List (List Int × Nat)) (bytes : List Byte) (ptr : Word),
    let now := s.dev.cycles
    let w := j.word
    let fn := w.toNat % 8
    let p := j.party s.core.id
    let alone : Prop := (∀ k ∈ s.core.mtx, k.seq = j.seq → k = j) ∧ j ∈ s.core.mtx ∧
      (∀ k ∈ s.core.mtx, k.joint = none ∧ k.restart = none)
    let kept : Prop := u.core.mtx = s.core.mtx ∧ u.core.id = s.core.id
    let mine (k : MtxJob) : Bool := k.seq == j.seq
    let endedWith (st sub : Nat) (t : State) : State := (t.tagDone s.core.id (56 + w.toNat / 8 % 8) (st != 0)).modCore fun c => { c with
      mtx := c.mtx.filter fun k => !(mine k)
      ctx := { c.ctx with
        mtmask := 0
        q3 := putElement 7 c.ctx.q3
          (BitVec.ofNat 64 (j.slot.toNat * 2 ^ 16 + st * 2 ^ 12 + sub * 2 ^ 8 + w.toNat % 8 * 2 ^ 5 + w.toNat / 8 % 8)) } }
    let ended := endedWith 0 0
    let quad := lane (s.ctx.getAc (mtxAc w)).toNat 2048 (j.cval.toNat % 64)
    let marked (c : Core) : Core := { c with
      ctx := { c.ctx with mtmask := j.mask ||| (1#32 <<< tile) }
      mtx := c.mtx.map fun k => if mine k then { k with mask := j.mask ||| (1#32 <<< tile) } else k }
    (alone ∧ s.mtxChoice s.core = some j ∧ s.core.mtxRunning = none ∧ s.core.mtxStops = false →
      exec .matrixCommandStart s = .next (s.modCore fun c => c.startSlice j now (if j.started then j.act else c.ctx.actOf w))) ∧
    (alone ∧ s.core.mtxRunning = some j ∧ j.state = .running →
      (fn = 2 ∧ j.mask.getLsbD 0 = false ∧ tile = 0 →
        exec .microTileComplete s = .next (s.modCore fun c => marked { c with
          ctx := c.ctx.kStep (mtxAc w) (mtxWt w) (mtxPlanes w) j.narm 0 (actRows j.act (mmaRows w)) })) ∧
      (fn = 3 ∧ (microTiles w).find? (fun m => !(j.mask.getLsbD m)) = some tile ∧ (j.atStep = false ∨ s.mtxChoice s.core = none) ∧
          s.engineGives ((List.range 8).mapM fun r => mmasRow p [] j (tile / 8) (8 * (tile % 8) + r)) rows u ∧ kept →
        exec .microTileComplete s = .next (u.modCore fun c => marked { c with
          ctx := c.ctx.kStep (mtxAc w) (tile / 8) (mtxPlanes w) j.narm (8 * (tile % 8)) rows })) ∧
      ((fn = 2 ∨ fn = 3) ∧ (∀ m ∈ microTiles w, j.mask.getLsbD m = true) → exec .matrixCommandComplete s = .next (ended s)) ∧
      (fn = 0 ∧ s.engineGives (tileFetch p j.bval) (bytes, n, st, sub) u ∧ kept →
        (st = 0 → exec .matrixCommandComplete s = .next (ended (u.modCtx fun c => c.setWt (mtxWt w) (tileOf bytes n) n))) ∧
        (st ≠ 0 → exec .matrixCommandComplete s = .next (endedWith st sub (u.modCtx fun c => c.spoilWt (mtxWt w))))) ∧
      (fn = 0 ∧ tileFetch p j.bval s = .error .ecc u ∧ kept →
        exec .matrixCommandComplete s = .next (endedWith 4 0 (u.modCtx fun c => c.spoilWt (mtxWt w)))) ∧
      (fn = 1 → exec .matrixCommandComplete s = .next (ended (s.modCtx fun c => c.setAc (mtxAc w) 0))) ∧
      (let store := writeAscending p j.bval (staBytes (s.ctx.getAc (mtxAc w)) (8 * mtxGroups w) j.bval)
       (fn = 4 ∧ s.engineGives store () u ∧ kept → exec .matrixCommandComplete s = .next (ended u)) ∧
       (fn = 4 ∧ store s = .error (.fault cause ptr) u ∧ kept →
        exec .matrixCommandComplete s = .next
          (let z := (u.writeRecord s.core.id (0x1400 + 64 * j.slot.toNat) (j.record 2 cause ptr) true 2 (j.slot.setWidth 6)).modSlice
             s.core.id j fun k => { k with state := .faulted }
           if u.keepsRecords s.core.id then z.modCoreId s.core.id fun c => { c with dmaTags := c.dmaTags &&& ~~~(1#64 <<< (56 + mtxTag w)) }
           else z))) ∧
      (fn = 5 ∧ (∀ b : BitVec 2, mtxB w ≤ 28 + b.toNat ∧ 28 + b.toNat < mtxB w + 4 → (s.ctx.getSd b).bound = false) →
        exec .matrixCommandComplete s = .next (ended (s.modCtx fun c => c.setGroup (BitVec.ofNat 5 (mtxB w)) quad 4))) ∧
      (fn = 5 ∧ s.engineGives (writeQuad p (mtxB w) quad) () u ∧ kept → exec .matrixCommandComplete s = .next (ended u))) ∧
    (∀ (c : Ctx) (ac wt planes first m n : Nat) (narm : Bool), ac < 8 → m < 64 → n < 64 →
      (lane ((c.kStep ac wt planes narm first rows).getAc ac).toNat 32 (64 * m + n)) =
        (let old := lane (c.getAc ac).toNat 32 (64 * m + n)
         match if first ≤ m then rows[m - first]? else none with
         | none => old
         | some r => macElement old r (c.weightCol wt planes n narm) % 2 ^ 32)) ∧
    (∀ (old sa sw : Nat) (as ws : List Int), as.length = 64 ∧ ws.length = 64 →
      let isum : Int := ((List.range 64).map fun k => as.getD k 0 * ws.getD k 0).sum
      let scale := (fmtSF.mulV .rne (fmtSF.decode sa) (fmtSF.decode sw)).1
      macElement old (as, sa) (some ws, sw) = (fmtSF.fmaV .rne (FVal.ofInt isum) (fmtSF.decode scale) (fmtSF.decode old)).1 ∧
      macElement old (as, sa) (none, sw) = 0x7FC0_0000 ∧ (FVal.ofInt isum).number = isum) ∧
    (fn = 3 → microTiles w = (List.range (w.toNat / 2 ^ 21 % 2 ^ 2 + 1)).flatMap fun k => (List.range (w.toNat / 2 ^ 13 % 2 ^ 3 + 1)).map fun g => 8 * k + g) ∧
    (∀ (held : List (BitVec 4)) (k : MtxJob) (ks : List MtxJob) (kptb : Word), k.state = .faulted ∧ k.restart = some kptb →
      (k.slot ∉ held → restartJobs held (k :: ks) = { k with state := .waiting, restart := none, kptb := kptb } :: restartJobs (k.slot :: held) ks) ∧
      (∀ slot, k.slot ∈ held ∧ slot ∉ held ∧ (∀ x, x < slot → x ∈ held) →
        restartJobs held (k :: ks) = { k with state := .waiting, restart := none, kptb := kptb, slot := slot } :: restartJobs (slot :: held) ks) ∧
      ((∀ x, x ∈ held) → restartJobs held (k :: ks) = k :: restartJobs held ks)) ∧
    (∀ planes col, planes ≤ 8 → col < 64 →
      lane (tileOf bytes planes).toNat 576 col = leNat ((bytes.drop ((8 + 8 * planes) * col)).take (8 + 8 * planes))) ∧
    (∀ (acc : BitVec 131072) (e : Nat), e < 64 * n →
      (fmtOf ptr ≠ 8 → ((staBytes acc n ptr).drop (4 * e)).take 4 = leBytes 4 (lane acc.toNat 32 e)) ∧
      (fmtOf ptr = 8 →
        ((staBytes acc n ptr).drop (2 * e)).take 2 = leBytes 2 (rne (fmtBF.convert .rne (fmtSF.decode (lane acc.toNat 32 e)))))) ∧
    (∀ (a : State) (row scale : List Byte) (k r : Nat),
      s.engineGives (jointRead p [] (ptrAt j.bval (k * tilePitch j.cval + r * rowPitch j.cval)) 64) row a →
      a.engineGives (jointRead p [] (ptrAt j.bval (mmasSteps w * tilePitch j.cval + r * rowPitch j.cval)) 4) scale u →
      s.engineGives (mmasRow p [] j k r) (row.map fun b => b.toInt, leNat scale) u)

/-- The rule unit: what an operation combines two results to; binding a grammar, lifting an operator, evaluating rules in ascending order, folding and
scanning the spine from left to right, multiplying rows, each by its unit, from the units that RPROG says are done to the last; seeking; and reading a
record; and what makes a grammar object's header and its body good (R49, R53, R58, R404 to R420). RSEEK's bound is explen (R418; log 113). That REVAL, RSPINE, RSCAN and RMV take one unit a step, write RPROG after each unit
and keep the running result in ruleRun is the model's choice (log 74). -/
def Obligations.RuleUnitResults : Prop :=
  (∀ (d : Word) (a b : RuleRes) (i : Nat), i < 3 →
      let op := d.toNat / 2 ^ (4 * i) % 16
      let r := combineRes d a b
      let x := a.slot i
      let y := b.slot i
      let int (v : Nat) : Int := (BitVec.ofNat 32 v).toInt
      r.len = a.len + b.len ∧
      (d.toNat / 2 ^ 4 % 16 ≠ 9 ∨ i = 0 →
        (op = 1 → r.slot i = (x + y) % 2 ^ 32) ∧ (op = 3 → r.slot i = if int y < int x then y else x) ∧
        (op = 4 → r.slot i = if int x < int y then y else x) ∧ (op = 5 → r.slot i = x &&& y) ∧ (op = 6 → r.slot i = x ||| y) ∧
        (op = 7 → r.slot i = x ^^^ y) ∧ (op = 8 ∨ op = 11 → r.slot i = add32 x y) ∧ (op = 13 → r.slot i = x) ∧ (op = 14 → r.slot i = y) ∧
        (op = 10 → r.slot i = add32 x (rne (fmtSF.fmaV .rne (FVal.ofInt a.len) (fmtSF.decode b.s0) (fmtSF.decode y)))) ∧
        (op = 0 → r.slot i = 0)) ∧
      (d.toNat / 2 ^ 4 % 16 = 9 → ((r.s1 + r.s2 * 2 ^ 32 : Nat) : Int) =
        (((a.s1 + a.s2 * 2 ^ 32 + (b.s1 + b.s2 * 2 ^ 32) : Nat) : Int) + a.len * int b.s0) % 2 ^ 64)) ∧
  (∀ (s t u v x y : State) (xa xb xc : Reg) (all : Bool) (sel : BitVec 2) (bytes body out : List Byte) (key : Nat)
        (a r c : RuleRes) (pre acc : Option RuleRes) (lsym rsym o pos sym d last : Nat) (mid here : Nat × Option RuleRes) (info : Word)
        (run : RuleRun),
      let p := s.ctx.getX xa
      let q := s.ctx.getX xb
      let e := s.ctx.getX xc
      let h : BitVec 512 := BitVec.ofNat 512 (leNat bytes)
      let ready : Prop := s.ctx.gptr ≠ 0 ∧ opdTerm s.ctx.opd = hdrKind s.ctx.ghdr ∧ s.ctx.rprog = 0 ∧ s.core.ruleRun = none
      let bound : Prop := s.ctx.gptr ≠ 0 ∧ opdTerm s.ctx.opd = hdrKind s.ctx.ghdr
      let stands (fn : Nat) : Prop := s.ctx.rprog.toNat / 2 ^ 32 % 2 ^ 3 = fn ∧ s.ctx.rprog.toNat % 2 ^ 32 = d ∨
        s.ctx.rprog.toNat / 2 ^ 32 % 2 ^ 3 ≠ fn ∧ d = 0
      let done (t : State) : State := t.modCore fun c => { c with ruleRun := none, ctx := { c.ctx with rprog := 0 } }
      let goesOn (fn : Nat) (t : State) : State := t.modCore fun c => { c with
        arrived := [], passed := [], ctx := { c.ctx with rprog := BitVec.ofNat 64 (fn * 2 ^ 32 + (d + 1)) } }
      let keeps (r : RuleRun) (t : State) : State := t.modCore fun c => { c with ruleRun := some r }
      let n := e.toNat - q.toNat
      let j := q.toNat + d
      let first := e.toNat % 2 ^ 24
      let count := e.toNat / 2 ^ 32 % 2 ^ 24
      let spine (from' to' : Word) : Prop := from'.toNat ≤ to'.toNat ∧ to'.toNat ≤ hdrSpine s.ctx.ghdr
      (p.toNat / 2 ^ 59 = 22 ∧ s.gives (loadBytes p 64 64) bytes t ∧ headerOk h = true ∧
          t.gives (loadBytes (ptrAt p 0x40) (hdrBodyLen h) 1) body u ∧ bodyOk h body = true ∧ u.gives (ownKey .store q 1 16) key v ∧
          (hdrRules h = 0 ∨ q.toNat % 2 ^ 40 + 16 * hdrRules h ≤ 0x60000 ∧
            ∀ b, q.toNat % 2 ^ 40 ≤ b → b < q.toNat % 2 ^ 40 + 16 * hdrRules h → v.isScratch v.core.id (b / 4096) = true) →
        s.completes (.rgopen xa xb) .seq (v.modCtx fun c => { c with gptr := p, rrt := q, ghdr := h, rprog := 0 })) ∧
      (opdReserved p = false ∧ opdNotLiftable p = false ∧ opdClash p = false →
        s.completes (.rlift xa) .seq (s.modCtx fun c => { c with opd := p })) ∧
      (ready ∧ q.toNat = 0 ∧ p.toNat ≤ hdrRules s.ctx.ghdr → s.completes (.reval xa xb) .seq (done s)) ∧
      (bound ∧ stands 2 ∧ d < q.toNat ∧ d + 1 < 2 ^ 32 ∧ p.toNat + q.toNat ≤ hdrRules s.ctx.ghdr ∧ s.gives (ruleAt (p.toNat + d)) (lsym, rsym) t ∧
          (isRule lsym = true → ruleIndex lsym < p.toNat + d) ∧ (isRule rsym = true → ruleIndex rsym < p.toNat + d) ∧
          t.gives (valueOf (BitVec.ofNat 64 (p.toNat + d)) lsym) a u ∧ u.gives (valueOf (BitVec.ofNat 64 (p.toNat + d)) rsym) r v ∧
          v.gives (combine (BitVec.ofNat 64 (p.toNat + d)) a r) c x ∧ x.gives (writeRes (recordPtr x.ctx (p.toNat + d)) c) () y →
        (d + 1 < q.toNat → s.waits (.reval xa xb) .retry (goesOn 2 y)) ∧ (d + 1 = q.toNat → s.completes (.reval xa xb) .seq (done y))) ∧
      (ready ∧ spine q e ∧ q = e ∧ s.gives (ownKey .store p 16 16) key t ∧ t.gives (writeRes p (emptyRes t.ctx.opd)) () u ∧
          t.ctx.rprog = 0 ∧ t.core.ruleRun = none →
        s.completes (.rspine xa xb xc) .seq (done u)) ∧
      (bound ∧ stands 3 ∧ spine q e ∧ d < n ∧ d + 1 < 2 ^ 32 ∧
          (d = 0 ∧ acc = none ∧ s.gives (ownKey .store p 16 16) key t ∧ t.ctx = s.ctx ∨
            d ≠ 0 ∧ s.core.ruleRun = some run ∧ run.record = some key ∧ acc = some run.acc ∧ t = s ∨
            d ≠ 0 ∧ s.core.ruleRun = none ∧ s.gives (ownKey .store p 16 16) key x ∧ x.ctx = s.ctx ∧ x.gives (readRes p) c t ∧ acc = some c) ∧
          t.gives (spineAt j) sym u ∧ u.gives (valueOf (spineInfo j) sym) a v ∧ v.gives (foldRes (spineInfo j) acc a) r y →
        (d + 1 < n → s.waits (.rspine xa xb xc) .retry (goesOn 3 (keeps { acc := r, record := some key, pos := 0 } y))) ∧
        (d + 1 = n → ∀ z, y.gives (writeRes p r) () z → s.completes (.rspine xa xb xc) .seq (done z))) ∧
      (bound ∧ stands 4 ∧ spine q e ∧ d < n ∧ d + 1 < 2 ^ 32 ∧
          (d = 0 ∧ acc = none ∧ pos = 0 ∧ s.gives (ownKey .store p 1 16) key t ∧ t.ctx = s.ctx ∨
            d ≠ 0 ∧ (∃ old : RuleRun, s.core.ruleRun = some old ∧ acc = some old.acc ∧ pos = old.pos) ∧ t = s ∨
            d ≠ 0 ∧ s.core.ruleRun = none ∧ s.gives (ownKey .store p 1 16) key x ∧ x.ctx = s.ctx ∧
              (if all then x.gives (positionsOf q.toNat d) pos y else pos = d ∧ y = x) ∧ y.gives (readRes (ptrAt p (16 * (pos - 1)))) c t ∧ acc = some c) ∧
          t.gives (rscanUnit all p j pos acc) run u →
        (d + 1 < n → s.waits (.rscan xa xb xc all) .retry (goesOn 4 (keeps run u))) ∧ (d + 1 = n → s.completes (.rscan xa xb xc all) .seq (done u))) ∧
      (s.gives (spineAt o) sym t ∧ t.gives (valueOf (spineInfo o) sym) a u ∧ u.gives (foldRes (spineInfo o) acc a) r v ∧
          (if all && isRule sym then v.gives (interior o p acc (ruleIndex sym + 2) true (spineInfo o) sym (pos, none)) (last, pre) x
            else last = pos ∧ x = v) ∧
          x.gives (writeRes (ptrAt p (16 * last)) r) () y →
        s.gives (rscanUnit all p o pos acc) { acc := r, record := none, pos := last + 1 } y) ∧
      (isRule sym = false → s.gives (interior o p acc (d + 1) true info sym (pos, pre)) (pos, pre) s) ∧
      (isRule sym = false ∧ s.gives (leafRes info sym) a t ∧ t.gives (foldRes (spineInfo o) pre a) r u ∧ u.gives (foldRes (spineInfo o) acc r) c v ∧
          v.gives (writeRes (ptrAt p (16 * pos)) c) () x →
        s.gives (interior o p acc (d + 1) false info sym (pos, pre)) (pos + 1, some r) x) ∧
      (let k := ruleIndex sym
       let inner : Word := BitVec.ofNat 64 k
       isRule sym = true ∧ s.gives (ruleAt k) (lsym, rsym) t ∧ (isRule lsym = true → ruleIndex lsym < k) ∧
          t.gives (interior o p acc d false inner lsym (pos, pre)) mid u →
        ((isRule rsym = true → ruleIndex rsym < k) ∧ u.gives (interior o p acc d all inner rsym mid) here v →
          s.gives (interior o p acc (d + 1) all info sym (pos, pre)) here v) ∧
        (isRule rsym = true ∧ k ≤ ruleIndex rsym →
          interior o p acc (d + 1) all info sym (pos, pre) s = .error (.trap 16 inner .here) u)) ∧
      (isColval (hdrKind s.ctx.ghdr) = true ∧ hdrColumns s.ctx.ghdr ≤ sym / 2 ^ 16 % 2 ^ 15 → leafRes info sym s = .error (.trap 23 info .here) s) ∧
      (let f (off n : Nat) : Nat := h.toNat / 2 ^ (8 * off) % 2 ^ (8 * n)
       let matrix := f 6 2 % 2 = 1
       let shared (a b : Nat × Nat) : Prop := ∃ x, a.1 ≤ x ∧ x < a.1 + a.2 ∧ b.1 ≤ x ∧ x < b.1 + b.2
       let inside (t : Nat × Nat) : Prop := t.1 % 4 = 0 ∧ 0x40 ≤ t.1 ∧ t.1 + t.2 ≤ 0x40 + f 0x24 4
       let rules := (f 0x18 4, 8 * f 8 4)
       let symbols := (f 0x1C 4, 4 * f 0xC 4)
       let rows := (f 0x20 4, 4 * (f 0x10 4 + 1))
       let entry (k : Nat) : Nat := leNat ((body.drop (f 0x20 4 - 0x40 + 4 * k)).take 4)
       (headerOk h = true ↔
         f 0 4 = 0x4D52475A ∧ f 4 1 ≤ 6 ∧ f 5 1 = 1 ∧ f 6 2 < 2 ∧ f 0x34 12 = 0 ∧ f 8 4 ≤ 2 ^ 24 ∧
         (if f 4 1 = 5 ∨ f 4 1 = 6 then 1 ≤ f 0x14 4 ∧ f 0x14 4 ≤ 32768 else f 0x14 4 = 0) ∧
         (if matrix then 1 ≤ f 0x10 4 ∧ f 0x10 4 ≤ 2 ^ 24 else f 0x10 4 = 0 ∧ f 0x20 4 = 0) ∧
         inside rules ∧ inside symbols ∧ ¬shared rules symbols ∧ (matrix → inside rows ∧ ¬shared rules rows ∧ ¬shared symbols rows)) ∧
       (bodyOk h body = true ↔
         crc32c body = f 0x30 4 ∧ (matrix → entry 0 = 0 ∧ entry (f 0x10 4) = f 0xC 4 ∧ ∀ k, k < f 0x10 4 → entry k ≤ entry (k + 1)))) ∧
      s.gives (foldRes info none a) a s ∧ (a.len + r.len < 2 ^ 32 → s.gives (foldRes info (some a) r) (combineRes s.ctx.opd a r) s) ∧
      (ready ∧ q.toNat < hdrExpLen s.ctx.ghdr ∧
          s.gives (seekSpine q (hdrSpine s.ctx.ghdr) (hdrSpine s.ctx.ghdr + 1) 0 q.toNat none) (pre, o, pos, sym) t ∧
          (∃ pre' sym', t.gives (seekDown q (ruleIndex sym + 2) (spineInfo pos) o sym pre) (pre', sym', info) u ∧
            (∃ leaf, u.gives (leafRes info sym') leaf v ∧ v.gives (foldRes info pre' leaf) r x) ∧
            y = (x.setX xa (seekElement (hdrKind s.ctx.ghdr) sym')).setX (xa + 1)
              (seekPrefix (hdrKind s.ctx.ghdr) (opdOp s.ctx.opd 0) r.s0)) →
        s.completes (.rseek xa xb) .seq y) ∧
      (bound ∧ hdrMatrix s.ctx.ghdr = true ∧ isColval (hdrKind s.ctx.ghdr) = true ∧ opdOp s.ctx.opd 0 = 11 ∧
          s.gives (ownKey .store p 1 4) key t ∧ (∃ k, t.gives (ownKey .load q 1 4) k u) ∧ q.toNat % 2 ^ 40 = opdXoff s.ctx.opd ∧
          u.ctx = s.ctx ∧ e.toNat / 2 ^ 24 % 2 ^ 8 = 0 ∧ e.toNat / 2 ^ 56 = 0 ∧ first + count ≤ hdrRows s.ctx.ghdr ∧ stands 6 →
        (count = 0 ∧ d = 0 → s.completes (.rmv xa xb xc) .seq (done u)) ∧
        (d < count ∧ u.gives (rmvUnit p (first + d) first) () v →
          (d + 1 < count → s.waits (.rmv xa xb xc) .retry (goesOn 6 v)) ∧ (d + 1 = count → s.completes (.rmv xa xb xc) .seq (done v)))) ∧
      (s.gives (objWord (hdrRowOff s.ctx.ghdr + 4 * o)) lsym t ∧ t.gives (objWord (hdrRowOff s.ctx.ghdr + 4 * o + 4)) rsym u ∧
          u.gives (foldSpine (rsym - lsym) lsym none) pre v ∧ v.gives (ownKey .store (ptrAt p (4 * (o - first))) 4 4) key x ∧
          x.gives (coreWrite key (leBytes 4 (pre.elim 0 RuleRes.s0))) () y →
        s.gives (rmvUnit p o first) () y) ∧
      s.gives (foldSpine 0 o acc) acc s ∧
      (s.gives (spineAt o) sym t ∧ t.gives (valueOf (spineInfo o) sym) a u ∧ u.gives (foldRes (spineInfo o) acc a) r v ∧
          v.gives (foldSpine last (o + 1) (some r)) pre x →
        s.gives (foldSpine (last + 1) o acc) pre x) ∧
      (q.toNat < hdrRules s.ctx.ghdr → s.gives (ownKey .load (ptrAt s.ctx.rrt (16 * q.toNat + 4 * sel.toNat)) 4 4) key t →
        t.gives (coreRead key 4) out u → s.completes (.rget xc xb sel) .seq (u.setX xc (BitVec.ofNat 64 (leNat out)))))

/-- The bit-stream instructions on registers below BREGS, and the correlation trap of their combinations; the thresholds of the three kinds of source,
and the number of ones that BGEN gives a stream: the nearest integer to p times the length, ties to even, within 0 and the length (R426 to R434). -/
def Obligations.BitStreamResults : Prop :=
  ∀ (s t : State) (bd bs1 bs2 bsel : BitVec 4) (g : BitVec 3) (len : BitVec 2) (xs : Reg) (cor : Bool) (v : Nat),
    let has (r : BitVec 4) : Prop := r.toNat < s.ctx.bregs
    let a := s.ctx.getB bs1
    let b := s.ctx.getB bs2
    let k := s.ctx.getB bsel
    let n := 2 ^ (6 + 2 * a.len.toNat)
    let x := s.ctx.getX xs
    let src := s.ctx.getSrc g
    let all : BitVec 4096 := BitVec.ofNat 4096 (2 ^ n - 1)
    let puts (r : BReg) (t : State) : State := t.modCtx fun c => c.setB bd r
    let reads (rs : List (BitVec 4)) (t : State) : Prop := s.gives (countReads (rs.map fun r => streamReads r (s.ctx.getB r))) () t
    let ones (b : BReg) : Nat := ((List.range (2 ^ (6 + 2 * b.len.toNat))).filter fun j => b.bits.getLsbD j).length
    (sourceOk x = true → s.completes (.bsrc g xs) .seq (s.modCtx fun c => { c with src := c.src.set g.toNat x g.isLt })) ∧
    (has bd ∧ xs.toNat + 1 ≤ s.ctx.vregs ∧ sourceOk src = true ∧ s.givesGroups [(xs, 1)] [v] t →
      s.completes (.bgen bd xs g len) .seq (puts (genStream g src len (genCount (fmtSF.decode (v % 2 ^ 32)) len)) t)) ∧
    (has bd ∧ has bs1 ∧ has bs2 ∧ a.len = b.len →
      (cor = true ∨ a.mask &&& b.mask = 0) → reads [bs1, bs2] t →
      s.completes (.band bd bs1 bs2 cor) .seq (puts { bits := a.bits &&& b.bits &&& all, len := a.len, mask := a.mask ||| b.mask } t) ∧
      s.completes (.bxnor bd bs1 bs2 cor) .seq (puts { bits := ~~~(a.bits ^^^ b.bits) &&& all, len := a.len, mask := a.mask ||| b.mask } t)) ∧
    (has bd ∧ has bs1 ∧ has bs2 ∧ a.len = b.len ∧ cor = false ∧ a.mask &&& b.mask ≠ 0 ∧ s.resultsPending = false →
      s.traps (.band bd bs1 bs2 cor) 17 (BitVec.ofNat 64 (a.mask.toNat + 256 * b.mask.toNat)) s.ctx.pc s ∧
      s.traps (.bxnor bd bs1 bs2 cor) 17 (BitVec.ofNat 64 (a.mask.toNat + 256 * b.mask.toNat)) s.ctx.pc s) ∧
    (has bd ∧ has bs1 ∧ has bs2 ∧ has bsel ∧ a.len = b.len ∧ a.len = k.len →
      (cor = true ∨ k.mask &&& (a.mask ||| b.mask) = 0) → reads [bs1, bs2, bsel] t →
      s.completes (.bmux bd bs1 bs2 bsel cor) .seq (puts
        { bits := ((a.bits &&& ~~~k.bits) ||| (b.bits &&& k.bits)) &&& all, len := a.len, mask := a.mask ||| b.mask ||| k.mask } t)) ∧
    (has bd ∧ has bs1 ∧ has bs2 ∧ has bsel ∧ a.len = b.len ∧ a.len = k.len ∧ cor = false ∧ k.mask &&& (a.mask ||| b.mask) ≠ 0 ∧
        s.resultsPending = false →
      s.traps (.bmux bd bs1 bs2 bsel cor) 17 (BitVec.ofNat 64 ((a.mask ||| b.mask).toNat + 256 * k.mask.toNat)) s.ctx.pc s) ∧
    (has bd ∧ has bs1 →
      s.completes (.bnot bd bs1) .seq (puts { bits := ~~~a.bits &&& all, len := a.len, mask := a.mask } s) ∧
      (sourceOk src = true → s.completes (.bregen bd bs1 g) .seq (puts (genStream g src a.len (ones a)) s)) ∧
      s.completes (.bmov bd bs1) .seq (puts a s)) ∧
    (has bs1 →
      s.computes (.bcnt xs bs1) xs (BitVec.ofNat 64 (ones a)) ∧
      s.computes (.bcls xs bs1) xs (BitVec.ofNat 64 (a.mask.toNat + 256 * a.len.toNat))) ∧
    (let m := 6 + 2 * len.toNat
     let seed := src.toNat % 2 ^ 32
     let made := genStream g src len v
     made.len = len ∧ made.mask = BitVec.ofNat 8 (2 ^ g.toNat) ∧ (∀ j, 2 ^ m ≤ j → made.bits.getLsbD j = false) ∧
     ∀ j, j < 2 ^ m →
       let compares (t : Nat) : Prop := made.bits.getLsbD j = decide (t < v)
       (src.toNat / 2 ^ 62 = 0 → compares ((j + seed) % 2 ^ m)) ∧
       (src.toNat / 2 ^ 62 = 1 → ∀ t, t < 2 ^ m → (∀ i, i < m → t.testBit i = ((j + seed) % 2 ^ m).testBit (m - 1 - i)) → compares t) ∧
       (src.toNat / 2 ^ 62 = 2 → ∀ f : Nat → BitVec 32, f 0 = BitVec.ofNat 32 seed →
         (∀ i, (f (i + 1)).toNat = (f i).toNat * 2 % 2 ^ 32 +
           (if ((f i).getLsbD 31 ^^ (f i).getLsbD 21 ^^ (f i).getLsbD 1 ^^ (f i).getLsbD 0) = true then 1 else 0)) →
         compares ((f j).toNat / 2 ^ (32 - m)))) ∧
    (∀ p : FVal, let L := 2 ^ (6 + 2 * len.toNat)
      (∀ q, p = .nan q → genCount p len = 0) ∧ (p = .inf false → genCount p len = L) ∧ (p = .inf true → genCount p len = 0) ∧
      (∀ (n : Bool) (m : Nat) (e t : Int), p = .fin n m e → Rm.rne.picks (p.number * L) t → genCount p len = (max 0 (min t L)).toNat))


/-- WSWAP at K, once its checks pass: it stops the engine commands that have nothing in hand and waits for the others and for the core's own
accesses, then switches contexts. Where nothing of the core's is out it completes at once. What has come in the wait, where KCTXB names no buffer for
it, makes it trap then: that it does is the model's choice (R154; log 120). Its checks admit a switch to the current WP and trap in their order. A context of no gang is parked in its
backing image or in the slot, or dropped; an image read back holds what was written, and its words that are bad are tested (log 116); the context that
is activated has its own registers and its workspace, and a unit that starts so has BANKSEL 0 (R61, R64, R68, R76, R123, R203, R218, R247 to R249, R325;
logs 56, 68). -/
def Obligations.ContextSwitchResults : Prop :=
  ∀ (s t : State) (c : Ctx) (status : Word) (wp : BitVec 19) (self : Bool),
    let k := s.core.kscr
    let u := s.switchContext (wordOf .wswap)
    let left : Ctx := { s.ctx with
      pc := s.core.kretpc
      sd := s.ctx.sd.map fun d => { d with lineAt := none }
      mtxSaved := s.core.mtx.map fun j =>
        { word := j.word, bval := j.bval, cval := j.cval, state := BitVec.ofNat 64 (j.mask.toNat * 2 ^ 32 + 1), faddr := 0 } }
    let parked (shadow : Bool) : Resident :=
      { wp := s.core.wp, ppw := s.ctx.ppw, vregs := s.ctx.vregs, bregs := s.ctx.bregs, lnum := s.ctx.lnum, wuid := s.ctx.wuid
        kptb := s.core.kptb, parked := true, shadow := shadow, idle := (s.setPc s.core.kretpc).idleToPark }
    let keeps (v : State) : Prop := v.movesEntries = false ∨ (v.core.bufferOf v.ctx.lnum).isSome = true
    let enters (o : State) : Prop :=
      u = (o.meetImage o.core.id (kscrWp k) (o.imageAt (kscrWp k)).1).takeFresh.2.activate (o.imageAt (kscrWp k)).1 (o.imageAt (kscrWp k)).2.1
        (kscrWp k) false
    (s.core.level ≠ .u ∧ s.core.hold ≠ .wswap ∧ s.incoming = some (c, status, wp) ∧ keeps s ∧
        ppwWellFormed c.ppw = true ∧ workspaceFits c.ppw wp c.vregs c.bregs = true ∧ s.core.retains c = true ∧
        s.core.unack = 0 ∧ s.core.dma = [] ∧ (∀ j ∈ s.dev.eddy, j.core ≠ s.core.id) ∧ s.core.mtx = [] ∧ s.stagedOf s.core = [] ∧
        s.appendsPending = false ∧ s.resultsPending = false →
      exec .wswap s = .next u) ∧
    (s.core.level ≠ .u → s.core.hold ≠ .wswap → s.gives wswapChecks () t →
      (t.suspendIdle.mayLeave = true ∧ keeps t.suspendIdle → exec .wswap s = .next (t.suspendIdle.switchContext (wordOf .wswap))) ∧
      (t.suspendIdle.mayLeave = false → s.waits .wswap .wswap t.suspendIdle)) ∧
    (s.core.level ≠ .u → s.core.hold = .wswap →
      (s.suspendIdle.mayLeave = true ∧ ¬keeps s.suspendIdle → s.traps .wswap 8 s.suspendIdle.core.kctxb s.suspendIdle.ctx.pc s.suspendIdle) ∧
      (s.suspendIdle.mayLeave = true ∧ keeps s.suspendIdle → exec .wswap s = .next (s.suspendIdle.switchContext (wordOf .wswap))) ∧
      (s.suspendIdle.mayLeave = false → s.waits .wswap .wswap s.suspendIdle)) ∧
    (s.core.level ≠ .u → s.core.hold ≠ .wswap → s.resultsPending = false → s.incoming = some (c, status, wp) →
      let lost := s.movesEntries && (s.core.bufferOf s.ctx.lnum).isNone
      let bad := !(ppwWellFormed c.ppw && workspaceFits c.ppw wp c.vregs c.bregs)
      (lost = true → s.traps .wswap 8 s.core.kctxb s.ctx.pc s) ∧
      (lost = false ∧ bad = true → s.traps .wswap 8 c.ppw s.ctx.pc s) ∧
      (lost = false ∧ bad = false ∧ s.core.retains c = false → s.traps .wswap 21 (BitVec.ofNat 64 (10 * 2 ^ 56)) s.ctx.pc s) ∧
      (lost = false ∧ bad = false ∧ s.core.retains c = true → s.gives wswapChecks () s)) ∧
    (s.selfSwitch = true → s.incoming = some ({ s.ctx with pc := s.core.kretpc }, s.core.kstat, s.core.wp)) ∧
    (s.selfSwitch = false → s.ctx.gangMode = 0 → s.movesEntries = false → kscrShadow k = false →
      (kscrDrop k = false → ∃ o, enters o ∧ o.dev.mem = (s.writeBack s.core.id s.core.wp left s.core.kstat).dev.mem ∧
        o.core.residents = (s.core.residents.filter fun q => q.wp != s.core.wp) ++ [parked false] ∧ o.core.shadow = s.core.shadow) ∧
      (kscrDrop k = true → ∃ o, enters o ∧ o.dev.mem = s.dev.mem ∧ o.core.residents = s.core.residents ∧ o.core.shadow = s.core.shadow)) ∧
    (s.selfSwitch = false → s.ctx.gangMode = 0 → s.movesEntries = false →
      kscrShadow k = true ∧ kscrNew k = true ∧ kscrDrop k = false ∧ s.core.shadow = none →
      ∃ o, enters o ∧ o.dev.mem = s.dev.mem ∧ o.core.shadow = some { ctx := { left with pieces := [] }, status := s.core.kstat, wp := s.core.wp } ∧
        o.core.residents = (s.core.residents.filter fun q => q.wp != s.core.wp) ++ [parked true]) ∧
    (s.memOk ∧ s.dev.cells = [] ∧ ppwWellFormed c.ppw = true ∧ workspaceFits c.ppw wp c.vregs c.bregs = true ∧ c.mtxSaved.length ≤ 31 ∧ c.vregs ≤ 32 ∧ c.bregs ≤ 16 →
      let r := (s.writeBack s.core.id wp c status).readImage s.core.id wp c.vregs c.bregs c.lnum
      (∀ n : Reg, r.1.getX n = c.getX n) ∧ (∀ n : Nat, n < vregsAllocated c.vregs → r.1.getV n = c.getV n) ∧
      r.1.pc.toNat = c.pc.toNat % 2 ^ 48 ∧ r.1.ppw = c.ppw ∧ r.1.wuid = c.wuid ∧ r.1.tagrdy = c.tagrdy ∧ r.1.tagerr = c.tagerr ∧ r.2 = status) ∧
    (s.core.bufferOf s.ctx.lnum = none →
      let a := s.leaveContext self false
      a.ctx.rbuf = s.ctx.rbuf ∧ a.ctx.q1 = s.ctx.q1 ∧ a.ctx.q3 = s.ctx.q3 ∧ a.ctx.q5 = s.ctx.q5 ∧ a.ctx.q6 = s.ctx.q6 ∧ a.ctx.x = s.ctx.x ∧ a.ctx.v = s.ctx.v ∧ a.dev.mem = s.dev.mem) ∧
    (let a := s.activate c status wp self
     a.ctx.x = c.x ∧ a.ctx.v = c.v ∧ a.ctx.b = c.b ∧ a.ctx.wuid = c.wuid ∧ a.core.wp = wp ∧ a.core.hold = .none ∧
     a.core.kip = (if self then s.core.kip else s.core.kip &&& 0b11101) ∧ a.core.kie = s.core.kie ∧ a.core.kvec = s.core.kvec ∧
     (∀ r, s.residentAt wp = some r → r.parked = false → a.core.banksel = 0))

/-- LAUNCH at K submits its block and holds; the distributor's answer retires it with the launch's number, or with a refusal and its reason: a
bad block, a record that cannot be written, a partition, a range, no free number, or a header, each with what makes it bad; a launch that waits reads its counters (R207,
R208 to R214, R330, R62, R148). The model's choices: a counter with an uncorrectable error rejects the launch as EVENT (log 126), a header whose read meets
one rejects it as BAD_HEADER (log 130), and the distributor's reads are checked as those of a core at K (log 129). -/
def Obligations.LaunchSubmissionResults : Prop :=
  ∀ (s t : State) (rd rs1 : Reg) (bytes image : List Byte) (b : Submission) (key n : Nat) (l : Launch),
    let i := Instr.launch rd rs1
    let answers (v : Word) (t : State) : Prop := exec .launchAcceptance s = .next (t.retired i .seq (t.setX rd v))
    let taken := s.modDev fun d => { d with submits := d.submits.filter fun x => x.core != b.core }
    let fresh := Launch.fresh (BitVec.ofNat 12 n) b
    let none' := Launch.fresh 0 b
    let whole : Launch := { fresh with hdr := BitVec.ofNat 512 (leNat image) }
    let keeps (t : State) (l : Launch) : State := t.modDev fun d => { d with launches := d.launches ++ [l] }
    let ready (l : Launch) : Launch := { l with ev0 := true, ev1 := true, state := .eligible, tElig := s.dev.cycles }
    let submitted : Prop := s.submission s.core.id = some b ∧ s.core.hold = .launch ∧ decode b.word = some i ∧ b.rd = rd
    (s.core.level ≠ .u ∧ s.submission s.core.id = none ∧ s.releaseMet .dev = true ∧ s.commPending s.core.id = false ∧
        s.gives (readRecord (s.ctx.getX rs1) 128) bytes t →
      s.waits i .launch (t.modDev fun d => { d with submits := d.submits ++
        [{ core := s.core.id, word := wordOf i, rd := rd, lpb := BitVec.ofNat 1024 (leNat bytes), kptb := s.core.kptb, lnum := s.ctx.lnum }] })) ∧
    (submitted ∧ taken.freeNumber = some n →
      (fresh.badLpb = true →
        answers 0x8000_0000_0000_0001 (keeps taken (fresh.reject 1 s.dev.time))) ∧
      (fresh.badLpb = false → ∀ e, runChk (fresh.signalKey .store fresh.recordPtr 64) taken = (.error e, t) →
        answers 0x8000_0000_0000_0007 (keeps t (fresh.reject 7 t.dev.time))) ∧
      (fresh.badLpb = false ∧ runChk (fresh.signalKey .store fresh.recordPtr 64) taken = (.ok key, t) →
        (t.badPartition fresh = true → answers 0x8000_0000_0000_0002 (keeps t (fresh.reject 2 t.dev.time))) ∧
        (t.badPartition fresh = false ∧ (2 ^ 24 < fresh.count ∨ 2 ^ 24 < fresh.first + fresh.count) →
          answers 0x8000_0000_0000_0003 (keeps t (fresh.reject 3 t.dev.time))) ∧
        (t.badPartition fresh = false ∧ fresh.count ≤ 2 ^ 24 ∧ fresh.first + fresh.count ≤ 2 ^ 24 →
          ∀ u, (∀ e, runChk (distRead fresh.who fresh.image 64 4096) t = (.error e, u) →
              answers 0x8000_0000_0000_0004 (keeps u (fresh.reject 4 u.dev.time))) ∧
            (runChk (distRead fresh.who fresh.image 64 4096) t = (.ok image, u) →
              (whole.badHeader = true → answers 0x8000_0000_0000_0004 (keeps u (whole.reject 4 u.dev.time))) ∧
              (whole.badHeader = false ∧ fresh.ev 0 = 0 ∧ fresh.ev 1 = 0 →
                answers (BitVec.ofNat 64 (n % 2 ^ 12))
                  (keeps u { whole with ev0 := true, ev1 := true, state := .eligible, tElig := u.dev.cycles })) ∧
              (whole.badHeader = false ∧ (u.readWaits whole).1.status = 3 →
                answers (0x8000_0000_0000_0000 ||| (u.readWaits whole).1.reason.setWidth 64) (keeps (u.readWaits whole).2 (u.readWaits whole).1)) ∧
              (whole.badHeader = false ∧ (u.readWaits whole).1.status ≠ 3 →
                answers (BitVec.ofNat 64 (n % 2 ^ 12)) (keeps (u.readWaits whole).2 (u.readWaits whole).1)))))) ∧
    (submitted ∧ taken.freeNumber = none ∧ none'.badLpb = false ∧ runChk (none'.signalKey .store none'.recordPtr 64) taken = (.ok key, t) ∧
        t.badPartition none' = false ∧ none'.count ≤ 2 ^ 24 ∧ none'.first + none'.count ≤ 2 ^ 24 →
      answers 0x8000_0000_0000_0005 t) ∧
    (let f (off n : Nat) : Nat := l.lpb.toNat / 2 ^ (8 * off) % 2 ^ (8 * n)
     let g (off n : Nat) : Nat := l.hdr.toNat / 2 ^ (8 * off) % 2 ^ (8 * n)
     let contains (k : Nat) : Nat := f 0x1C 2 / 16 ^ k % 16
     let widest (p : PartConfig) : Nat := if p.stitch = 0 then 48 else if p.stitch = 1 then p.width
       else if p.stitch = 2 then min 192 (p.dies * p.height * p.width) else 6
     let workspace := (1024 + 64 * (4 * ((g 4 1 + 3) / 4)) + 512 * g 5 1 + 4095) / 4096
     (l.badLpb = true ↔
       f 0x2C 4 ≠ 0 ∨ f 0x3C 4 ≠ 0 ∨ f 0x54 44 ≠ 0 ∨ f 0x1B 1 / 2 ^ 3 ≠ 0 ∨ f 0x1F 1 / 2 ^ 4 ≠ 0 ∨ f 0x50 4 / 2 ^ 26 % 2 ^ 5 ≠ 0 ∨ f 0x50 4 % 2 ^ 9 ≠ 0 ∨
       7 < f 0x19 1 ∨ f 0x1A 1 = 0 ∨ 48 < f 0x1A 1 ∨ (∃ k, k < 4 ∧ 3 < contains k) ∨
       (∃ k, k < 4 ∧ contains k = 1) ∧ (f 0x1B 1 % 2 = 0 ∨ f 0x1E 1 = 0) ∨
       f 0x40 8 = 0 ∨ f 0x40 8 % 64 ≠ 0 ∨ f 0x20 8 % 8 ≠ 0 ∨ f 0x30 8 % 8 ≠ 0 ∨ f 0x48 8 % 8 ≠ 0) ∧
     (s.badPartition l = true ↔
       63 < f 0x18 1 ∨ ∀ p, s.part? (BitVec.ofNat 6 (f 0x18 1)) = some p →
         f 0x1F 1 % 16 ≠ 0 ∧ f 0x1F 1 / 2 ^ p.stitch.toNat % 2 = 0 ∨ widest p < f 0x1A 1 ∨ p.dies * p.height * p.width < f 0x1A 1) ∧
     (l.badHeader = true ↔
       g 0 3 ≠ 0x494B5A ∨ g 3 1 ≠ 1 ∨ g 9 1 / 2 ^ 2 ≠ 0 ∨ g 0x0A 2 ≠ 0 ∨ g 0x2C 20 ≠ 0 ∨ 32 < g 4 1 ∨ 16 < g 5 1 ∨ 8 < g 6 1 ∨ 4 < g 7 1 ∨ 96 < g 8 1 ∨
       96 < workspace + (4 * g 6 1 + (4608 * g 7 1 + 4095) / 4096) + (g 8 1 + (g 0x14 4 + 4095) / 4096) ∨ g 8 1 * 4096 < g 0x1C 4 ∨
       g 0x0C 4 % 4 ≠ 0 ∨ g 0x0C 4 < 0x40 ∨ g 0x10 4 ≤ g 0x0C 4 ∨ g 0x10 4 % 4 ≠ 0 ∨ g 0x28 4 % 64 ≠ 0 ∨ 0x20_0000 < g 0x28 4 + g 0x24 4)) ∧
    (63 < fresh.partNo → isMesh fresh.recordPtr = true → runChk (fresh.signalKey .store fresh.recordPtr 64) s = (.error (8, fresh.recordPtr), s)) ∧
    (s.launch? l.lnum = some l ∧ l.state = .waiting ∧ l.ev 1 = 0 →
      (l.ev 0 = 0 → exec (.waitEventRead l.lnum) s = .next (s.modLaunch l.lnum fun _ => ready l)) ∧
      (l.ev 0 ≠ 0 ∧ l.ev0 = false ∧ runChk (distKey l.who .load (l.ev 0) 8) s = (.ok key, t) ∧ t.dev.badWord key 8 = none →
        let v := t.value key 8
        (2 ^ 63 ≤ v → exec (.waitEventRead l.lnum) s = .next (t.modLaunch l.lnum fun _ => l.reject 6 t.dev.time)) ∧
        (v < 2 ^ 63 ∧ l.target 0 ≤ v →
          exec (.waitEventRead l.lnum) s = .next (t.modLaunch l.lnum fun _ => { ready l with tElig := t.dev.cycles })) ∧
        (v < 2 ^ 63 ∧ v < l.target 0 →
          exec (.waitEventRead l.lnum) s = .next (t.modLaunch l.lnum fun _ => { l with ev0 := false, ev1 := true }))) ∧
      (∀ e, l.ev 0 ≠ 0 ∧ l.ev0 = false ∧ runChk (distKey l.who .load (l.ev 0) 8) s = (.error e, t) →
        exec (.waitEventRead l.lnum) s = .next (t.modLaunch l.lnum fun _ => l.reject 8 t.dev.time)) ∧
      (∀ b, l.ev 0 ≠ 0 ∧ l.ev0 = false ∧ runChk (distKey l.who .load (l.ev 0) 8) s = (.ok key, t) ∧ t.dev.badWord key 8 = some b →
        let u := (t.meetError b).2
        exec (.waitEventRead l.lnum) s = .next (u.modLaunch l.lnum fun _ => l.reject 8 u.dev.time)))

/-- The distributor: the first-ranked launch and the fitting run; a placement on it, with the registers of a unit at entry, and a placement whose
reads fail; the starvation bound; the hand-off of a core to a parked context, or to none; a sweep of quiescence and its declaration; and the
completion of a launch, which discards what carries its number and signals it (R185, R212, R215 to R219, R223 to R226). The model's choices: a unit
whose reads fail has been booked and placed before its fault event (log 71); a partition in rebuilds places nothing (log 26); a core whose context has no
launch counts as free where that can be switched out (log 37); the low 48 bits of IMAGE's pointer and entry are the pc (log 131); the sweeps (log 53); a
group that waits for its victims counts as placed from the raise of PREEMPT on (log 139); and completion waits for every acknowledged host store that a
context of the launch made, the hand-off of a core for its own (log 134). Which cores a launch's unit fits, those on which R185 finds a PPW and, for an
attached unit, that are in no gang, is the model's deduction from R185 and R203 (log 70). -/
def Obligations.DistributorEvents : Prop :=
  ∀ (s u : State) (part : BitVec 6) (p : PartConfig) (l : Launch) (ls : List Launch) (run : List Nat) (ppw arg info : Word) (wuid pos core : Nat)
      (args : List Word) (t : Nat) (w : Sweep) (n key cause : Nat) (rest : List Nat) (c : Core) (r : Resident) (k : Launch),
    let ids := (List.range (min l.gw (l.count - l.nextUnit))).map fun k => l.first + l.nextUnit + k
    let first := s.modDev fun d => { d with launches := d.launches.map fun k =>
      if k.partNo = part.toNat ∧ k.lnum ≠ l.lnum then { k with noFit := none, starved := false } else k }
    let x := l.entryX ppw wuid pos args
    (s.part? part = some p ∧ s.dev.preempts = [] ∧ s.dev.rebuilds.contains part = false ∧ s.ranked part = l :: ls ∧ l.restarts = [] ∧
        first.fitRun l p ids.length = some run →
      exec (.placementStep part) s = .next (first.placeGroup l .start run ids)) ∧
    (s.dev.preempts = [] ∧ s.dev.rebuilds.contains part = true → exec (.placementStep part) s = .next s) ∧
    (let ep (k : Launch) : Nat := min 7 (k.lpb.toNat / 2 ^ 200 % 2 ^ 8 + (s.dev.cycles - k.tElig) / 65536)
     let wants (k : Launch) : Prop := k ∈ s.dev.launches ∧ k.state = .eligible ∧ (k.nextUnit < k.count ∨ k.restarts ≠ []) ∧ k.partNo = part.toNat
     (s.ranked part = [] ↔ ∀ k, ¬wants k) ∧
     (s.ranked part = l :: ls → wants l ∧ ∀ k, wants k →
       ep k < ep l ∨ ep k = ep l ∧ (l.tElig < k.tElig ∨ l.tElig = k.tElig ∧ l.lnum.toNat ≤ k.lnum.toNat))) ∧
    (∀ g : Nat,
      let size := p.height * p.width
      let runAt (k : Nat) : Option (List Nat) := gangRange p (k / size) (k / p.width % p.height) (k % p.width) g
      let fits (r : List Nat) : Prop := ∀ n ∈ r, s.freeCore n = true ∧ s.fitsOn l n = true
      (s.fitRun l p g = none ↔ ∀ k r, k < p.dies * size → runAt k = some r → ¬fits r) ∧
      (s.fitRun l p g = some run → ∃ k, k < p.dies * size ∧ runAt k = some run ∧ fits run ∧ ∀ j r, j < k → runAt j = some r → ¬fits r)) ∧
    (s.coreById core = some c →
      (c.run = .free ∧ s.unitBusy c = false ∧ s.awaits core = false ∧ s.dev.scanDue core = false → s.freeCore core = true) ∧
      (c.run ≠ .free ∧ (c.run = .running → c.ctx.lnum ≠ 0) → s.freeCore core = false) ∧
      (s.fitsOn l core = true ↔ (∃ w, l.ppwOn c = some w) ∧ ¬(l.attached = true ∧ c.link.isSome = true))) ∧
    (∀ (busy : List Word) (taken : List (Nat × Nat)) (g b : Nat),
      let owned (i : Nat) : Prop := (∃ w ∈ busy, granuleIn i w = true) ∨ ∃ q ∈ taken, q.1 ≤ i ∧ i < q.1 + q.2
      let free (b : Nat) : Prop := b + g ≤ 96 ∧ ∀ i, i < g → ¬owned (b + i)
      lowestRun busy taken g = some b → free b ∧ ∀ a, a < b → ¬free a) ∧
    (let booked := (s.modLaunch l.lnum Launch.takeGroup).bookUnit l core wuid
     let wp : BitVec 19 := BitVec.ofNat 19 (ppw.toNat % 2 ^ 8 * 4096)
     let placed (args : List Word) : State :=
       (u.writeBack core wp (l.entryCtx ppw wuid 0 1 args) 0).startUnit core (l.entryCtx ppw wuid 0 1 args) wp l.kptb
     s.coreById core = some c ∧ c.run = .free ∧ l.ppwOn c = some ppw ∧ l.attached = false →
      (runChk (l.loadUnit core ppw false) booked = (.ok args, u) → s.placeGroup l .start [core] [wuid] = placed args) ∧
      (runChk (l.loadUnit core ppw false) booked = (.error (cause, info), u) →
        s.placeGroup l .start [core] [wuid] = (placed []).unitFault l.lnum wuid core false (BitVec.ofNat 64 cause) info)) ∧
    (s.coreById core = some c →
      let e := l.entryCtx ppw wuid pos (max 1 l.gw) args
      ∃ d, (s.startUnit core e 0 l.kptb).coreById core = some d ∧ d.level = .u ∧ d.run = .running ∧ d.kstat = 0 ∧ d.kptb = l.kptb ∧
        d.banksel = 0 ∧ d.kip = c.kip ∧ d.kie = c.kie ∧ d.kvec = c.kvec ∧ d.unack = c.unack ∧ d.ctx.x = x ∧ d.ctx.v = e.v ∧ d.ctx.wuid = BitVec.ofNat 64 wuid ∧
        d.ctx.pc.toNat = (l.image.toNat + l.hdrField 0x0C 4) % 2 ^ 48 ∧ d.ctx.lnum = l.lnum ∧ d.ctx.ppw = ppw) ∧
    (x[2] = BitVec.ofNat 64 (0x008F_FF00_0000_0000 + (ppw.toNat / 2 ^ 32 % 2 ^ 8 + ppw.toNat / 2 ^ 40 % 2 ^ 8) * 4096) ∧
      x[4] = BitVec.ofNat 64 wuid ∧ x[5] = l.arg ∧ x[6] = BitVec.ofNat 64 (if l.attached then pos else 0) ∧
      (∀ k : Fin 6, x[10 + k.val] = args.getD k.val 0) ∧
      (∀ k : Fin 32, k.val ∉ [2, 4, 5, 6, 10, 11, 12, 13, 14, 15] → x[k.val] = 0)) ∧
    (s.ranked part = l :: ls ∧ l.starved = false →
      (l.noFit = some t ∧ t + 65536 ≤ s.dev.cycles →
        exec (.starvationBound part) s = .next (s.modLaunch l.lnum fun k => { k with starved := true })) ∧
      (l.noFit = none → exec (.starvationBound part) s = .next s)) ∧
    (let done := s.countDone s.core
     let posted : Prop := ∃ f ∈ s.dev.flights, f.acked = true ∧ f.core = s.core.id
     (s.core.run = .ended ∧ posted → exec .coreHandoff s = .next s) ∧
     (s.core.run = .ended ∧ ¬posted ∧ s.unitBusy s.core = false ∧ s.dev.scanDue s.core.id = false ∧ done.ranked s.core.part = [] ∧ done.core = s.core ∧ done.awaits s.core.id = false →
      ((∀ r ∈ s.core.residents, r.parked = false) →
        exec .coreHandoff s = .next (done.modCore fun c => { c with
          run := .free, hold := .none, issued := none, record := [], arrived := [], passed := [], listing := none, trapDue := none, lost := [], frame := none, captured := []
          ruleRun := none, kip := c.kip &&& 0b11101
          ctx := { c.ctx with
            ppw := 0, lnum := 0, gang := gangIndependent, rbuf := [], q1 := [], q3 := [], q5 := [], q6 := [], pieces := [] } })) ∧
      (done.parkedChoice s.core = some (r, k) ∧ r.shadow = false →
        exec .coreHandoff s = .next ((done.modCore fun c => { c with
          run := .running, hold := .none, issued := none, record := [], arrived := [], passed := [], listing := none
          preemptInfo := BitVec.ofNat 64 (r.lnum.toNat * 2 ^ 20 + r.wp.toNat + 2) }).raise s.core.id 1)))) ∧
    (s.launch? l.lnum = some l ∧ l.quiet = true ∧ l.state = .eligible ∧ l.allPlaced = true ∧ l.count ≠ 0 →
      let ends (last : Option Nat) : State := s.modLaunch l.lnum fun k => { k with sweep := none, sweeps := k.sweeps + 1, lastSweep := last }
      (l.sweep = none ∧ l.nextSweep ≤ s.dev.cycles →
        exec (.quiescenceSweep l.lnum) s = .next (s.modLaunch l.lnum fun k => { k with
          nextSweep := s.dev.cycles + 1024
          sweep := some { todo := (s.cores.filter fun c => c.part.toNat == l.partNo && !c.mgmt).map fun c => c.id, idle := true, sent := 0
                          received := 0 } })) ∧
      (l.sweep = some w ∧ w.todo = n :: rest ∧ s.coreById n = some c →
        exec (.quiescenceSweep l.lnum) s = .next ((s.meetCount n l.lnum).modLaunch l.lnum fun k => { k with
          sweep := some { todo := rest, idle := w.idle && s.idleOn c l.lnum, sent := w.sent + (c.countOf l.lnum).1
                          received := w.received + (c.countOf l.lnum).2 } })) ∧
      (l.sweep = some w ∧ w.todo = [] ∧ ¬(w.idle = true ∧ w.sent = w.received) → exec (.quiescenceSweep l.lnum) s = .next (ends none)) ∧
      (l.sweep = some w ∧ w.todo = [] ∧ w.idle = true ∧ w.sent = w.received →
        (l.lastSweep ≠ some w.sent → exec (.quiescenceSweep l.lnum) s = .next (ends (some w.sent))) ∧
        (l.lastSweep = some w.sent →
          exec (.quiescenceSweep l.lnum) s =
            .next ((l.activeUnits.foldl (fun s v => s.dropUnit l.lnum v.wuid v.core) (ends (some w.sent))).modLaunch l.lnum fun k => { k with
              state := .ending, doneCount := k.doneCount + k.activeUnits.length
              units := k.units.map fun v => { v with active := false } })))) ∧
    (s.launch? l.lnum = some l ∧ l.ended = true →
      ((∀ c ∈ s.cores, s.handsOff l.lnum c = false) ∧ (∀ f ∈ s.dev.flights, f.acked = true → f.lnum ≠ l.lnum) →
        exec (.launchCompletion l.lnum) s = .next (((s.discardLaunch l.lnum).signal l).modDev fun d => { d with
          launches := d.launches.filter fun k => k.lnum != l.lnum })) ∧
      ((∃ c ∈ s.cores, c.ctx.lnum = l.lnum ∧ (c.run = .ended ∨ c.run = .dropped)) ∨ (∃ f ∈ s.dev.flights, f.acked = true ∧ f.lnum = l.lnum) →
        exec (.launchCompletion l.lnum) s = .next (s.dropMessages l.lnum))) ∧
    (let d := s.discardLaunch l.lnum
     (∀ q, q ∈ d.dev.payloads ↔ q ∈ s.dev.payloads ∧ hdrLnum q.msg.hdr ≠ l.lnum) ∧
     (∀ q, q ∈ d.dev.resvs ↔ q ∈ s.dev.resvs ∧ hdrLnum q.hdr ≠ l.lnum) ∧
     (∀ e ∈ d.cores, (∀ q ∈ e.residents, q.lnum ≠ l.lnum) ∧ (∀ m ∈ e.ctx.rbuf, hdrLnum m.hdr ≠ l.lnum) ∧ (∀ q ∈ e.counts, q.lnum ≠ l.lnum))) ∧
    (let rec64 := l.record s.dev.time
     wordAt rec64 0 = BitVec.ofNat 64 (l.status.toNat + l.reason.toNat * 2 ^ 8 + l.lnum.toNat * 2 ^ 16 + l.faultCount % 2 ^ 32 * 2 ^ 32) ∧
     wordAt rec64 1 = BitVec.ofNat 64 (l.doneCount % 2 ^ 32 + l.failedCount % 2 ^ 32 * 2 ^ 32) ∧ wordAt rec64 2 = l.started.getD s.dev.time ∧
     wordAt rec64 3 = s.dev.time ∧ wordAt rec64 4 = l.fcause ∧ wordAt rec64 5 = l.finfo ∧ rec64.length = 64 ∧
     (¬(l.status = 3 ∧ l.reason = 7) ∧ runChk (l.signalKey .store l.recordPtr 64) s = (.ok key, u) ∧ l.msg < 2 ^ 31 →
       (l.counter = 0 → s.signal l = u.poke key rec64) ∧
       (∀ v, l.counter ≠ 0 ∧ runChk (l.signalKey .rmw l.counter 8) (u.poke key rec64) = (.ok n, v) ∧ v.dev.badWord n 8 = none →
         s.signal l = (v.performOp n (.amo .add 1)).2))) ∧
    (l.arg = arg → arg.toNat = l.lpb.toNat / 2 ^ 64 % 2 ^ 64)

/-- The host and the management interface: host writes, reads and atomics on device memory, doorbells, the log, GO, the power cap, the registers of
BAR0, the clock, and the scale-up ports with what is lost through one that failed (R461 to R465, R470, R471; logs 23, 31, 47, 93). -/
def Obligations.HostInterfaceEvents : Prop :=
  ∀ (s : State) (off : BitVec 39) (bytes : List Byte) (n : Nat) (acc : Bar2Access) (a b : Word) (slot : BitVec 6) (watts v : Word) (hz : Nat)
      (port : BitVec 4) (reg : BitVec 16),
    let cap := watts.toNat % 2 ^ 11
    let rung := if s.dev.mbbase.toNat + 0x4008 ≤ localBytes then
      (s.performOp (s.dev.mbbase.toNat + 0x4000) (.amo .or (BitVec.ofNat 64 (2 ^ slot.toNat)))).2 else s
    let target := coordId (rung.dev.mbtgt.setWidth 52)
    let atomic (op : FlightOp) : State :=
      (s.performOp off.toNat op).2.modDev fun d => { d with hostRead := leBytes 8 (s.performOp off.toNat op).1.toNat }
    (off.toNat + bytes.length ≤ localBytes → exec (.hostBar2Access off (.write bytes)) s = .next (s.poke off.toNat bytes)) ∧
    (off.toNat + n ≤ localBytes ∧ s.dev.badWord off.toNat n = none →
      exec (.hostBar2Access off (.read n)) s = .next (s.modDev fun d => { d with hostRead := s.peek off.toNat n })) ∧
    (off.toNat + 8 ≤ localBytes ∧ off.toNat % 8 = 0 →
      exec (.hostBar2Access off (.fetchAdd a)) s = .next (atomic (.amo .add a)) ∧
      exec (.hostBar2Access off (.swap a)) s = .next (atomic (.amo .swap a)) ∧
      exec (.hostBar2Access off (.cas a b)) s = .next (atomic (.cas a b))) ∧
    (localBytes < off.toNat + (match acc with
        | .write data => data.length
        | .read n => n
        | _ => 8) → exec (.hostBar2Access off acc) s = .next s) ∧
    exec (.mbdoor slot) s = .next ((rung.modCoreId target fun c => { c with hostInfo := BitVec.ofNat 64 slot.toNat }).raise target 4) ∧
    exec .logclr s = .next (s.modDev fun d => { d with errlog := [], ovf := false }) ∧
    exec .ovfClear s = .next (s.modDev fun d => { d with ovf := false }) ∧
    exec .go s = .next (s.modDev fun d => { d with goBit := true }) ∧
    (300 ≤ cap ∧ cap ≤ 1500 → ∃ t, exec (.pwrcap watts) s = .next t ∧ t.dev.pwrcap.toNat = cap ∧ t.dev.mem = s.dev.mem ∧ t.core = s.core) ∧
    (cap < 300 ∨ 1500 < cap → exec (.pwrcap watts) s = .next s) ∧
    (v.toNat < 288 → exec (.mgmtRegisterWrite 0x0008 v) s = .next (s.modDev fun d => { d with podidx := v.setWidth 9 })) ∧
    (288 ≤ v.toNat → exec (.mgmtRegisterWrite 0x0008 v) s = .next s) ∧
    exec (.mgmtRegisterWrite 0x0010 v) s = .next (s.modDev fun d => { d with mbbase := v &&& 0x000F_FFFF_FFFF_C000 }) ∧
    (∃ t, exec (.mgmtRegisterWrite 0x0000 v) s = .next t ∧ t.dev.goBit = v.getLsbD 7 ∧ t.dev.hostImg = v.getLsbD 6 ∧
      t.dev.ovf = (s.dev.ovf && !(v.getLsbD 18) && !(v.getLsbD 19)) ∧ t.dev.errlog = (if v.getLsbD 19 then [] else s.dev.errlog) ∧
      t.dev.mem = s.dev.mem) ∧
    exec (.mgmtRegisterWrite 0x0018 v) s = exec (.mbdoor (v.setWidth 6)) s ∧ exec (.mgmtRegisterWrite 0x0020 v) s = exec (.pwrcap v) s ∧
    (0x58 ≤ reg.toNat ∨ reg = 0x0028 → exec (.mgmtRegisterWrite reg v) s = .next s) ∧
    (0 < hz → exec (.clockThrottle hz) s = .next (s.modDev fun d => { d with clock := min nominalClock hz })) ∧
    exec (.portFailure port) s = .next (s.modDev fun d => { d with portDown := d.portDown ||| BitVec.ofNat 16 (2 ^ port.toNat) }) ∧
    (s.dev.portDown.getLsbD port.toNat = false → exec (.portFailTimeout port) s = .next s) ∧
    (∀ (f : Flight) (o : Outstanding), s.dev.portDown.getLsbD port.toNat = true → s.rest = [] → s.dev.flights = [f] → f.merged = [] →
      (∀ b ∈ s.dev.bcasts, ∀ home op rd, b.op = .quantum home op rd → throughPort port home = false) →
      f.core = s.core.id → f.done = false → f.acked = false → throughPort port f.home = true → s.core.out = some o →
      throughPort port o.home = true → o.value = none →
      let gone := (((s.modCore fun c => { c with out := some { o with failed := true } }).modDev fun d => { d with flights := [] }).acknowledge f.core)
      (f.op.isAtomic = false → exec (.portFailTimeout port) s = .next (gone.log 2 7 (port.setWidth 52))) ∧
      (f.op.isAtomic = true → s.core.run = .running →
        exec (.portFailTimeout port) s = .next (gone.modCore fun c => { c with
          pendReg := c.pendReg.filter fun q => q.1 != f.id
          lost := c.lost ++ [{ level := s.core.outerLevel, info := BitVec.ofNat 64 f.home }] }))) ∧
    (∀ (b : Bcast) (home : Nat) (op : FlightOp) (rd : Reg), s.dev.portDown.getLsbD port.toNat = true → s.rest = [] → s.dev.flights = [] →
      s.core.out = none → s.dev.bcasts = [b] → b.op = .quantum home op rd → throughPort port home = true → b.core = s.core.id →
      s.core.run = .running →
      ∃ t, exec (.portFailTimeout port) s = .next t ∧ t.dev.bcasts = [] ∧ t.dev.mem = s.dev.mem ∧ t.core.unack = s.core.unack - 1 ∧
        t.core.pendReg = (s.core.pendReg.filter fun q => q.1 != b.id) ∧
        t.core.lost = s.core.lost ++ [{ level := s.core.outerLevel, info := BitVec.ofNat 64 home }])

/-- POWER_ON resets the machine and runs the boot, which reads the image from the module flash or from where the host has written it, and starts the
verified image on the management cores or stops; PARTITION_BUILD, once GO is set, the firmware is verified and the partition is at rest, releases
each core of the partition at F at its FVEC, but for fenced ones, clears the partition's pools and cluster memories, errors among them, and no other
memory, and extends MEAS2 with the digest of its configuration; of each die at most 12 cluster rows are exposed, and none that is fenced (R1, R24, R254,
R466, R467, R469; logs 24, 25, 38, 112). -/
def Obligations.BootAndPartitionEvents : Prop :=
  ∀ (s : State) (boot : BootImage) (p : PartConfig) (n die row col : Nat) (c : Core) (image : List Byte),
    let mine := (partCores p).map fun c => c.1
    let quiet : Prop := ∀ c ∈ s.cores, c.mgmt = true ∨ (c.part ≠ p.number ∧ c.id ∉ mine) ∨ s.unitBusy c = false
    let digest := if boot.host = some image then BitVec.ofNat 256 (leNat (sha256 image)) else boot.digest
    (boot.host = none ∨ boot.host = some image →
      (boot.verified = true → ∃ t, exec (.powerOn boot) s = .next t ∧ t.dev.bootState = 1 ∧ t.dev.meas0 = extendMeas 0 digest ∧
        t.core = State.reset.core ∧ t.rest.map (fun c => (c.id, c.ctx.pc, c.level, c.mgmt)) =
          [1, 2, 3].map (fun k => (mgmtId k, BitVec.ofNat 64 boot.entry.toNat, Level.f, true)) ∧
        t.dev.hostImg = boot.host.isSome ∧ (boot.host = some image → ∀ k, k < image.length → k < localBytes → some (t.byte k) = image[k]?))) ∧
    (boot.verified = false → ∃ t, exec (.powerOn boot) s = .next t ∧ t.dev.bootState = 3 ∧ t.core = State.reset.core ∧ t.rest = []) ∧
    (s.dev.goBit = false ∨ s.dev.bootState = 0 ∨ s.dev.bootState = 3 ∨ s.partOk p = false ∨ s.partBusy p.number = true ∨ ¬quiet →
      exec (.partitionBuild p) s = .next s) ∧
    (s.dev.goBit = true ∧ (s.dev.bootState = 1 ∨ s.dev.bootState = 2) ∧ s.partOk p = true ∧ s.partBusy p.number = false ∧ quiet →
      ∃ t, exec (.partitionBuild p) s = .next t ∧ t.dev.bootState = 2 ∧ t.dev.meas2 = extendMeas s.dev.meas2 (configDigest p) ∧
        p ∈ t.dev.parts ∧ (∀ q ∈ t.dev.parts, q.number = p.number → q = p) ∧ t.dev.rebuilds.contains p.number = false ∧
        ((n, die, row, col) ∈ partCores p → t.coreById n = some c →
          c.level = .f ∧ c.run = (if s.dev.fencedCores.contains n then .fenced else .running) ∧ c.part = p.number ∧
          c.fvec = p.fvec &&& 0x0000_FFFF_FFFF_FFFC ∧ c.ctx.pc = c.fvec ∧ c.row.toNat = row % 64 ∧ c.col.toNat = col % 64) ∧
        ((n, die, row, col) ∈ partCores p → ∀ off k, 0 < k →
          (off + k ≤ 0x60000 → t.byte (poolKey n off) = 0 ∧ t.dev.badWord (poolKey n off) k = none) ∧
          (off + k ≤ 0x200000 → t.byte (clusterKey (clusterOfId n) off) = 0 ∧ t.dev.badWord (clusterKey (clusterOfId n) off) k = none)) ∧
        (s.memOk → ∀ a, (regionOf a = .localMem ∨ regionOf a = .hostMem ∨ ∃ m, regionOf a = .pool m ∧ m ∉ mine) →
          t.byte a = s.byte a ∧ t.dev.badWord a 1 = s.dev.badWord a 1)) ∧
    (s.partOk p = true →
      let exposed := rowsUsed p ++ (s.dev.parts.filter fun q => q.number != p.number).flatMap rowsUsed
      (∀ r ∈ rowsUsed p, r ∉ s.dev.fencedRows) ∧
      (∀ die, die < 2 → ((List.range 13).filter fun r => exposed.contains (die, r)).length ≤ 12))

/-- The frame of the instructions that work on scalar registers alone: no byte of memory, no register but rd, no vector or bit-stream register,
no tile, no queue, no tag, no flag, no stream, no CSR but a loop's count, no engine command and no message changes; and where no PTR_RANGE can
arise, no exception, mode or translation register either: what changes besides is where the core executes, which in a gang's stream a barrier or a
rejoin may do at other cores too, and the gang's own record (R10, R193, R199, R200, R233, R300 to R307; log 96). The premise keeps out the fatal
trap of a core already in a trap at F. -/
def Obligations.RegisterInstructionFrame : Prop :=
  ∀ (s t : State) (i : Instr) (rd : Reg), registerTarget i = some rd → s.core.fstatus.getLsbD 4 = false → exec i s = .next t →
    let c := s.core.placedAs t.core
    let moved : Core := { c with ctx := { c.ctx with x := t.ctx.x } }
    (∀ a, t.byte a = s.byte a) ∧ (∀ r, r ≠ rd → t.ctx.getX r = s.ctx.getX r) ∧
    (addsPointer i = false → t.core = moved) ∧
    (addsPointer i = true → t.core = { moved with
      level := t.core.level, kcause := t.core.kcause, kinfo := t.core.kinfo, kretpc := t.core.kretpc, kstat := t.core.kstat
      fcause := t.core.fcause, finfo := t.core.finfo, fretpc := t.core.fretpc, fstatus := t.core.fstatus, trapDue := t.core.trapDue
      heldAt := t.core.heldAt }) ∧
    (s.core.link = none → t.ctx.gang = s.ctx.gang ∧ t.ctx.pieces = s.ctx.pieces ∧ t.core.mtx = s.core.mtx ∧ t.rest = s.rest ∧ t.dev = s.dev) ∧
    s.othersKept t ∧ t.dev = { s.dev with gangs := t.dev.gangs, seq := t.dev.seq } ∧ t.fresh = s.fresh ∧ t.agenda = s.agenda
end

