-- ==== Sys2Proof/Laws/Act.lean ====
section
/-!
SUPPORT. How the body of an instruction runs: one equation for each combinator, so that no proof unfolds EStateM.
-/

namespace Sys2Proof.Machine

/-! ## Bodies -/

@[simp] theorem run_pure {ε α : Type} (a : α) (s : State) : (pure a : EStateM ε State α) s = .ok a s := rfl

theorem run_bind {ε α β : Type} (x : EStateM ε State α) (f : α → EStateM ε State β) (s : State) :
    (x >>= f) s = match x s with
      | .ok a t => f a t
      | .error e t => .error e t := by
  cases h : x s <;> simp only [bind, EStateM.bind, h]

/-- A bind whose first part succeeds. -/
theorem run_bind_ok {ε α β : Type} {x : EStateM ε State α} {f : α → EStateM ε State β} {s t : State} {a : α} (h : x s = .ok a t) :
    (x >>= f) s = f a t := by rw [run_bind, h]

/-- A bind whose first part fails. -/
theorem run_bind_error {ε α β : Type} {x : EStateM ε State α} {f : α → EStateM ε State β} {s t : State} {e : ε} (h : x s = .error e t) :
    (x >>= f) s = .error e t := by rw [run_bind, h]

theorem run_map {ε α β : Type} (f : α → β) (x : EStateM ε State α) (s : State) :
    (f <$> x) s = match x s with
      | .ok a t => .ok (f a) t
      | .error e t => .error e t := by
  cases h : x s <;> simp only [Functor.map, EStateM.map, h]

@[simp] theorem run_get {ε : Type} (s : State) : (get : EStateM ε State State) s = .ok s s := rfl
@[simp] theorem run_set {ε : Type} (s t : State) : (set t : EStateM ε State PUnit) s = .ok () t := rfl
@[simp] theorem run_modify {ε : Type} (f : State → State) (s : State) : (modify f : EStateM ε State PUnit) s = .ok () (f s) := rfl
@[simp] theorem run_modifyGet {ε α : Type} (f : State → α × State) (s : State) :
    (modifyGet f : EStateM ε State α) s = .ok (f s).1 (f s).2 := rfl
@[simp] theorem run_throw {ε α : Type} (e : ε) (s : State) : (throw e : EStateM ε State α) s = .error e s := rfl
@[simp] theorem run_trap {α : Type} (n : Nat) (info : Word) (s : State) : (trap n info : Act α) s = .error (.trap n info .here) s := rfl
@[simp] theorem run_holdFor {α : Type} (h : Hold) (s : State) : (holdFor h : Act α) s = .error (.hold h) s := rfl
@[simp] theorem run_modCtx (f : Ctx → Ctx) (s : State) : modCtx f s = .ok () (s.modCtx f) := rfl
@[simp] theorem run_modCore (f : Core → Core) (s : State) : modCore f s = .ok () (s.modCore f) := rfl
@[simp] theorem run_modDev (f : Dev → Dev) (s : State) : modDev f s = .ok () (s.modDev f) := rfl
@[simp] theorem run_getCtx (s : State) : getCtx s = .ok s.ctx s := rfl
@[simp] theorem run_getX (r : Reg) (s : State) : getX r s = .ok (s.ctx.getX r) s := rfl
@[simp] theorem run_setX (r : Reg) (v : Word) (s : State) : setX r v s = .ok () (s.setX r v) := rfl
@[simp] theorem run_liftChk {α : Type} (c : Chk α) (s : State) :
    liftChk c s = match c s with
      | .ok a t => .ok a t
      | .error (n, info) t => .error (.trap n info .here) t := rfl

/-- What a check answers decides what the body that lifts it does. -/
theorem liftChk_ok {α : Type} {c : Chk α} {s t : State} {a : α} (h : runChk c s = (.ok a, t)) : liftChk c s = .ok a t := by
  unfold runChk at h
  rw [run_liftChk]
  cases e : c s with
  | ok b u => rw [e] at h; simp_all
  | error d u => rw [e] at h; simp_all

theorem liftChk_error {α : Type} {c : Chk α} {s t : State} {n : Nat} {info : Word} (h : runChk c s = (.error (n, info), t)) :
    liftChk c s = .error (.trap n info .here) t := by
  unfold runChk at h
  rw [run_liftChk]
  cases e : c s with
  | ok b u => rw [e] at h; simp_all
  | error d u => rw [e] at h; simp_all

theorem run_needK (i : Instr) (s : State) :
    needK i s = if s.core.level = .u then .error (.trap cPriv (infoWord i) .here) s else .ok () s := by
  unfold needK
  rw [run_bind_ok (run_get s)]
  split <;> rfl

theorem run_needReg (i : Instr) (ok : Bool) (s : State) :
    needReg i ok s = if ok then .ok () s else .error (.trap cIllegalReg (infoWord i) .here) s := by
  unfold needReg
  cases ok <;> rfl

/-! ## From a body to a step -/

/-- A body that runs to its end makes its instruction retire. -/
theorem runFlow_ok {i : Instr} {body : Act Flow} {s t : State} {f : Flow} (h : body s = .ok f t) :
    runFlow i body s = .next (s.retired i f t) := by
  unfold runFlow State.finish State.retired
  rw [h]

theorem runSeq_ok {i : Instr} {body : Act Unit} {s t : State} (h : body s = .ok () t) : runSeq i body s = .next (s.retired i .seq t) :=
  runFlow_ok (by rw [run_bind_ok h]; rfl)

/-- A body that traps while no result is pending makes the core take the trap. -/
theorem runFlow_trap {i : Instr} {body : Act Flow} {s t : State} {n : Nat} {info : Word} {r : RetAt} (h : body s = .error (.trap n info r) t)
    (p : t.resultsPending = false) :
    runFlow i body s = .next (t.takeTrap false n info (r.resolve s.ctx.pc) (some (wordOf i))) := by
  unfold runFlow State.finish
  rw [h]
  simp [p, State.raiseTrap]

theorem runSeq_trap {i : Instr} {body : Act Unit} {s t : State} {n : Nat} {info : Word} {r : RetAt} (h : body s = .error (.trap n info r) t)
    (p : t.resultsPending = false) :
    runSeq i body s = .next (t.takeTrap false n info (r.resolve s.ctx.pc) (some (wordOf i))) :=
  runFlow_trap (by rw [run_bind_error h]) p

/-- A body that holds leaves its core waiting. -/
theorem runFlow_hold {i : Instr} {body : Act Flow} {s t : State} {w : Hold} (h : body s = .error (.hold w) t) :
    runFlow i body s = .next (t.holdAt w (wordOf i)) := by
  unfold runFlow State.finish
  rw [h]

theorem runSeq_hold {i : Instr} {body : Act Unit} {s t : State} {w : Hold} (h : body s = .error (.hold w) t) :
    runSeq i body s = .next (t.holdAt w (wordOf i)) :=
  runFlow_hold (by rw [run_bind_error h])

/-! ## Bodies of one shape -/

theorem run_alu3 (rd rs1 rs2 : Reg) (f : Word → Word → Word) (s : State) :
    alu3 rd rs1 rs2 f s = .ok () (s.setX rd (f (s.ctx.getX rs1) (s.ctx.getX rs2))) := rfl

theorem run_alu1 (rd rs1 : Reg) (f : Word → Word) (s : State) : alu1 rd rs1 f s = .ok () (s.setX rd (f (s.ctx.getX rs1))) := rfl

theorem run_ptrResult (sub : Bool) (a b : Word) (s : State) :
    ptrResult sub a b s = if (ptrArith sub a b).2 then .error (.trap cPtrRange (ptrArith sub a b).1 .here) s else .ok (ptrArith sub a b).1 s := by
  unfold ptrResult
  simp only
  split <;> rfl

/-- The address of a load or store. -/
theorem run_address {a : Word} {imm : BitVec 16} {ea : Word} (h : addressOf a imm = some ea) (s : State) :
    ptrResult false a (imm.signExtend 64) s = .ok ea s := by
  unfold addressOf at h
  rw [run_ptrResult]
  simp only at h
  split at h
  · cases h
  · rename_i no
    rw [if_neg no]
    cases h
    rfl

end Sys2Proof.Machine
end

