-- ==== Sys2Proof/Laws/State.lean ====
section
/-!
SUPPORT. What each update of the state leaves of each field: one lemma for each field and update, so that no proof unfolds a record update.
-/

namespace Sys2Proof.Machine

/-! ## The core in focus -/

@[simp] theorem State.modCore_rest (s : State) (f : Core → Core) : (s.modCore f).rest = s.rest := rfl
@[simp] theorem State.modCore_dev (s : State) (f : Core → Core) : (s.modCore f).dev = s.dev := rfl
@[simp] theorem State.modCore_agenda (s : State) (f : Core → Core) : (s.modCore f).agenda = s.agenda := rfl
@[simp] theorem State.modCore_fresh (s : State) (f : Core → Core) : (s.modCore f).fresh = s.fresh := rfl
@[simp] theorem State.modCore_core (s : State) (f : Core → Core) : (s.modCore f).core = f s.core := rfl

/-! ## The active context -/

@[simp] theorem State.modCtx_rest (s : State) (f : Ctx → Ctx) : (s.modCtx f).rest = s.rest := rfl
@[simp] theorem State.modCtx_dev (s : State) (f : Ctx → Ctx) : (s.modCtx f).dev = s.dev := rfl
@[simp] theorem State.modCtx_agenda (s : State) (f : Ctx → Ctx) : (s.modCtx f).agenda = s.agenda := rfl
@[simp] theorem State.modCtx_fresh (s : State) (f : Ctx → Ctx) : (s.modCtx f).fresh = s.fresh := rfl
@[simp] theorem State.modCtx_id (s : State) (f : Ctx → Ctx) : (s.modCtx f).core.id = s.core.id := rfl
@[simp] theorem State.modCtx_mgmt (s : State) (f : Ctx → Ctx) : (s.modCtx f).core.mgmt = s.core.mgmt := rfl
@[simp] theorem State.modCtx_part (s : State) (f : Ctx → Ctx) : (s.modCtx f).core.part = s.core.part := rfl
@[simp] theorem State.modCtx_die (s : State) (f : Ctx → Ctx) : (s.modCtx f).core.die = s.core.die := rfl
@[simp] theorem State.modCtx_row (s : State) (f : Ctx → Ctx) : (s.modCtx f).core.row = s.core.row := rfl
@[simp] theorem State.modCtx_col (s : State) (f : Ctx → Ctx) : (s.modCtx f).core.col = s.core.col := rfl
@[simp] theorem State.modCtx_run (s : State) (f : Ctx → Ctx) : (s.modCtx f).core.run = s.core.run := rfl
@[simp] theorem State.modCtx_hold (s : State) (f : Ctx → Ctx) : (s.modCtx f).core.hold = s.core.hold := rfl
@[simp] theorem State.modCtx_ctx (s : State) (f : Ctx → Ctx) : (s.modCtx f).core.ctx = f s.core.ctx := rfl
@[simp] theorem State.modCtx_level (s : State) (f : Ctx → Ctx) : (s.modCtx f).core.level = s.core.level := rfl
@[simp] theorem State.modCtx_kvec (s : State) (f : Ctx → Ctx) : (s.modCtx f).core.kvec = s.core.kvec := rfl
@[simp] theorem State.modCtx_kcause (s : State) (f : Ctx → Ctx) : (s.modCtx f).core.kcause = s.core.kcause := rfl
@[simp] theorem State.modCtx_kinfo (s : State) (f : Ctx → Ctx) : (s.modCtx f).core.kinfo = s.core.kinfo := rfl
@[simp] theorem State.modCtx_kretpc (s : State) (f : Ctx → Ctx) : (s.modCtx f).core.kretpc = s.core.kretpc := rfl
@[simp] theorem State.modCtx_kstat (s : State) (f : Ctx → Ctx) : (s.modCtx f).core.kstat = s.core.kstat := rfl
@[simp] theorem State.modCtx_kscr (s : State) (f : Ctx → Ctx) : (s.modCtx f).core.kscr = s.core.kscr := rfl
@[simp] theorem State.modCtx_wp (s : State) (f : Ctx → Ctx) : (s.modCtx f).core.wp = s.core.wp := rfl
@[simp] theorem State.modCtx_kptb (s : State) (f : Ctx → Ctx) : (s.modCtx f).core.kptb = s.core.kptb := rfl
@[simp] theorem State.modCtx_kie (s : State) (f : Ctx → Ctx) : (s.modCtx f).core.kie = s.core.kie := rfl
@[simp] theorem State.modCtx_kip (s : State) (f : Ctx → Ctx) : (s.modCtx f).core.kip = s.core.kip := rfl
@[simp] theorem State.modCtx_kctxb (s : State) (f : Ctx → Ctx) : (s.modCtx f).core.kctxb = s.core.kctxb := rfl
@[simp] theorem State.modCtx_ktcmp (s : State) (f : Ctx → Ctx) : (s.modCtx f).core.ktcmp = s.core.ktcmp := rfl
@[simp] theorem State.modCtx_kefr (s : State) (f : Ctx → Ctx) : (s.modCtx f).core.kefr = s.core.kefr := rfl
@[simp] theorem State.modCtx_fvec (s : State) (f : Ctx → Ctx) : (s.modCtx f).core.fvec = s.core.fvec := rfl
@[simp] theorem State.modCtx_fcause (s : State) (f : Ctx → Ctx) : (s.modCtx f).core.fcause = s.core.fcause := rfl
@[simp] theorem State.modCtx_finfo (s : State) (f : Ctx → Ctx) : (s.modCtx f).core.finfo = s.core.finfo := rfl
@[simp] theorem State.modCtx_fretpc (s : State) (f : Ctx → Ctx) : (s.modCtx f).core.fretpc = s.core.fretpc := rfl
@[simp] theorem State.modCtx_fstatus (s : State) (f : Ctx → Ctx) : (s.modCtx f).core.fstatus = s.core.fstatus := rfl
@[simp] theorem State.modCtx_fscr (s : State) (f : Ctx → Ctx) : (s.modCtx f).core.fscr = s.core.fscr := rfl
@[simp] theorem State.modCtx_fdeleg (s : State) (f : Ctx → Ctx) : (s.modCtx f).core.fdeleg = s.core.fdeleg := rfl
@[simp] theorem State.modCtx_unack (s : State) (f : Ctx → Ctx) : (s.modCtx f).core.unack = s.core.unack := rfl
@[simp] theorem State.modCtx_banksel (s : State) (f : Ctx → Ctx) : (s.modCtx f).core.banksel = s.core.banksel := rfl
@[simp] theorem State.modCtx_bankcf (s : State) (f : Ctx → Ctx) : (s.modCtx f).core.bankcf = s.core.bankcf := rfl
@[simp] theorem State.modCtx_expstall (s : State) (f : Ctx → Ctx) : (s.modCtx f).core.expstall = s.core.expstall := rfl
@[simp] theorem State.modCtx_cycle (s : State) (f : Ctx → Ctx) : (s.modCtx f).core.cycle = s.core.cycle := rfl
@[simp] theorem State.modCtx_tlb (s : State) (f : Ctx → Ctx) : (s.modCtx f).core.tlb = s.core.tlb := rfl
@[simp] theorem State.modCtx_shadow (s : State) (f : Ctx → Ctx) : (s.modCtx f).core.shadow = s.core.shadow := rfl
@[simp] theorem State.modCtx_residents (s : State) (f : Ctx → Ctx) : (s.modCtx f).core.residents = s.core.residents := rfl
@[simp] theorem State.modCtx_dma (s : State) (f : Ctx → Ctx) : (s.modCtx f).core.dma = s.core.dma := rfl
@[simp] theorem State.modCtx_dmaTags (s : State) (f : Ctx → Ctx) : (s.modCtx f).core.dmaTags = s.core.dmaTags := rfl
@[simp] theorem State.modCtx_eddyTags (s : State) (f : Ctx → Ctx) : (s.modCtx f).core.eddyTags = s.core.eddyTags := rfl
@[simp] theorem State.modCtx_mtx (s : State) (f : Ctx → Ctx) : (s.modCtx f).core.mtx = s.core.mtx := rfl
@[simp] theorem State.modCtx_faults (s : State) (f : Ctx → Ctx) : (s.modCtx f).core.faults = s.core.faults := rfl
@[simp] theorem State.modCtx_lostRec (s : State) (f : Ctx → Ctx) : (s.modCtx f).core.lostRec = s.core.lostRec := rfl
@[simp] theorem State.modCtx_hostInfo (s : State) (f : Ctx → Ctx) : (s.modCtx f).core.hostInfo = s.core.hostInfo := rfl
@[simp] theorem State.modCtx_preemptInfo (s : State) (f : Ctx → Ctx) : (s.modCtx f).core.preemptInfo = s.core.preemptInfo := rfl
@[simp] theorem State.modCtx_pendReg (s : State) (f : Ctx → Ctx) : (s.modCtx f).core.pendReg = s.core.pendReg := rfl
@[simp] theorem State.modCtx_specWalk (s : State) (f : Ctx → Ctx) : (s.modCtx f).core.specWalk = s.core.specWalk := rfl
@[simp] theorem State.modCtx_specFault (s : State) (f : Ctx → Ctx) : (s.modCtx f).core.specFault = s.core.specFault := rfl
@[simp] theorem State.modCtx_out (s : State) (f : Ctx → Ctx) : (s.modCtx f).core.out = s.core.out := rfl
@[simp] theorem State.modCtx_bq (s : State) (f : Ctx → Ctx) : (s.modCtx f).core.bq = s.core.bq := rfl
@[simp] theorem State.modCtx_counts (s : State) (f : Ctx → Ctx) : (s.modCtx f).core.counts = s.core.counts := rfl
@[simp] theorem State.modCtx_ruleRun (s : State) (f : Ctx → Ctx) : (s.modCtx f).core.ruleRun = s.core.ruleRun := rfl
@[simp] theorem State.modCtx_captured (s : State) (f : Ctx → Ctx) : (s.modCtx f).core.captured = s.core.captured := rfl
@[simp] theorem State.modCtx_frame (s : State) (f : Ctx → Ctx) : (s.modCtx f).core.frame = s.core.frame := rfl
@[simp] theorem State.modCtx_link (s : State) (f : Ctx → Ctx) : (s.modCtx f).core.link = s.core.link := rfl
@[simp] theorem State.modCtx_heldAt (s : State) (f : Ctx → Ctx) : (s.modCtx f).core.heldAt = s.core.heldAt := rfl
@[simp] theorem State.modCtx_jointSaved (s : State) (f : Ctx → Ctx) : (s.modCtx f).core.jointSaved = s.core.jointSaved := rfl
@[simp] theorem State.modCtx_issued (s : State) (f : Ctx → Ctx) : (s.modCtx f).core.issued = s.core.issued := rfl
@[simp] theorem State.modCtx_record (s : State) (f : Ctx → Ctx) : (s.modCtx f).core.record = s.core.record := rfl
@[simp] theorem State.modCtx_trapDue (s : State) (f : Ctx → Ctx) : (s.modCtx f).core.trapDue = s.core.trapDue := rfl
@[simp] theorem State.modCtx_lost (s : State) (f : Ctx → Ctx) : (s.modCtx f).core.lost = s.core.lost := rfl
@[simp] theorem State.modCtx_arrived (s : State) (f : Ctx → Ctx) : (s.modCtx f).core.arrived = s.core.arrived := rfl
@[simp] theorem State.modCtx_passed (s : State) (f : Ctx → Ctx) : (s.modCtx f).core.passed = s.core.passed := rfl
@[simp] theorem State.modCtx_listing (s : State) (f : Ctx → Ctx) : (s.modCtx f).core.listing = s.core.listing := rfl

/-! ## The device -/

@[simp] theorem State.modDev_core (s : State) (f : Dev → Dev) : (s.modDev f).core = s.core := rfl
@[simp] theorem State.modDev_rest (s : State) (f : Dev → Dev) : (s.modDev f).rest = s.rest := rfl
@[simp] theorem State.modDev_agenda (s : State) (f : Dev → Dev) : (s.modDev f).agenda = s.agenda := rfl
@[simp] theorem State.modDev_fresh (s : State) (f : Dev → Dev) : (s.modDev f).fresh = s.fresh := rfl
@[simp] theorem State.modDev_dev (s : State) (f : Dev → Dev) : (s.modDev f).dev = f s.dev := rfl
@[simp] theorem State.setMem_core (s : State) (m : List Host.Cell) : (s.setMem m).core = s.core := rfl
@[simp] theorem State.setMem_rest (s : State) (m : List Host.Cell) : (s.setMem m).rest = s.rest := rfl
@[simp] theorem State.setMem_agenda (s : State) (m : List Host.Cell) : (s.setMem m).agenda = s.agenda := rfl
@[simp] theorem State.setMem_fresh (s : State) (m : List Host.Cell) : (s.setMem m).fresh = s.fresh := rfl
@[simp] theorem State.setMem_mem (s : State) (m : List Host.Cell) : (s.setMem m).dev.mem = m := rfl
@[simp] theorem State.setMem_bad (s : State) (m : List Host.Cell) : (s.setMem m).dev.bad = s.dev.bad := rfl
@[simp] theorem State.setMem_clusters (s : State) (m : List Host.Cell) : (s.setMem m).dev.clusters = s.dev.clusters := rfl
@[simp] theorem State.setMem_walkCache (s : State) (m : List Host.Cell) : (s.setMem m).dev.walkCache = s.dev.walkCache := rfl
@[simp] theorem State.setMem_flights (s : State) (m : List Host.Cell) : (s.setMem m).dev.flights = s.dev.flights := rfl
@[simp] theorem State.setMem_signals (s : State) (m : List Host.Cell) : (s.setMem m).dev.signals = s.dev.signals := rfl
@[simp] theorem State.setMem_resvs (s : State) (m : List Host.Cell) : (s.setMem m).dev.resvs = s.dev.resvs := rfl
@[simp] theorem State.setMem_payloads (s : State) (m : List Host.Cell) : (s.setMem m).dev.payloads = s.dev.payloads := rfl
@[simp] theorem State.setMem_bcasts (s : State) (m : List Host.Cell) : (s.setMem m).dev.bcasts = s.dev.bcasts := rfl
@[simp] theorem State.setMem_window (s : State) (m : List Host.Cell) : (s.setMem m).dev.window = s.dev.window := rfl
@[simp] theorem State.setMem_cells (s : State) (m : List Host.Cell) : (s.setMem m).dev.cells = s.dev.cells := rfl
@[simp] theorem State.setMem_eddy (s : State) (m : List Host.Cell) : (s.setMem m).dev.eddy = s.dev.eddy := rfl
@[simp] theorem State.setMem_gangs (s : State) (m : List Host.Cell) : (s.setMem m).dev.gangs = s.dev.gangs := rfl
@[simp] theorem State.setMem_gangCount (s : State) (m : List Host.Cell) : (s.setMem m).dev.gangCount = s.dev.gangCount := rfl
@[simp] theorem State.setMem_parts (s : State) (m : List Host.Cell) : (s.setMem m).dev.parts = s.dev.parts := rfl
@[simp] theorem State.setMem_rebuilds (s : State) (m : List Host.Cell) : (s.setMem m).dev.rebuilds = s.dev.rebuilds := rfl
@[simp] theorem State.setMem_fencedCores (s : State) (m : List Host.Cell) : (s.setMem m).dev.fencedCores = s.dev.fencedCores := rfl
@[simp] theorem State.setMem_fencedRows (s : State) (m : List Host.Cell) : (s.setMem m).dev.fencedRows = s.dev.fencedRows := rfl
@[simp] theorem State.setMem_launches (s : State) (m : List Host.Cell) : (s.setMem m).dev.launches = s.dev.launches := rfl
@[simp] theorem State.setMem_submits (s : State) (m : List Host.Cell) : (s.setMem m).dev.submits = s.dev.submits := rfl
@[simp] theorem State.setMem_preempts (s : State) (m : List Host.Cell) : (s.setMem m).dev.preempts = s.dev.preempts := rfl
@[simp] theorem State.setMem_placed (s : State) (m : List Host.Cell) : (s.setMem m).dev.placed = s.dev.placed := rfl
@[simp] theorem State.setMem_tests (s : State) (m : List Host.Cell) : (s.setMem m).dev.tests = s.dev.tests := rfl
@[simp] theorem State.setMem_linkErrs (s : State) (m : List Host.Cell) : (s.setMem m).dev.linkErrs = s.dev.linkErrs := rfl
@[simp] theorem State.setMem_errlog (s : State) (m : List Host.Cell) : (s.setMem m).dev.errlog = s.dev.errlog := rfl
@[simp] theorem State.setMem_ovf (s : State) (m : List Host.Cell) : (s.setMem m).dev.ovf = s.dev.ovf := rfl
@[simp] theorem State.setMem_goBit (s : State) (m : List Host.Cell) : (s.setMem m).dev.goBit = s.dev.goBit := rfl
@[simp] theorem State.setMem_hostImg (s : State) (m : List Host.Cell) : (s.setMem m).dev.hostImg = s.dev.hostImg := rfl
@[simp] theorem State.setMem_bootState (s : State) (m : List Host.Cell) : (s.setMem m).dev.bootState = s.dev.bootState := rfl
@[simp] theorem State.setMem_podidx (s : State) (m : List Host.Cell) : (s.setMem m).dev.podidx = s.dev.podidx := rfl
@[simp] theorem State.setMem_mbbase (s : State) (m : List Host.Cell) : (s.setMem m).dev.mbbase = s.dev.mbbase := rfl
@[simp] theorem State.setMem_pwrcap (s : State) (m : List Host.Cell) : (s.setMem m).dev.pwrcap = s.dev.pwrcap := rfl
@[simp] theorem State.setMem_mbtgt (s : State) (m : List Host.Cell) : (s.setMem m).dev.mbtgt = s.dev.mbtgt := rfl
@[simp] theorem State.setMem_pod (s : State) (m : List Host.Cell) : (s.setMem m).dev.pod = s.dev.pod := rfl
@[simp] theorem State.setMem_meas0 (s : State) (m : List Host.Cell) : (s.setMem m).dev.meas0 = s.dev.meas0 := rfl
@[simp] theorem State.setMem_meas1 (s : State) (m : List Host.Cell) : (s.setMem m).dev.meas1 = s.dev.meas1 := rfl
@[simp] theorem State.setMem_meas2 (s : State) (m : List Host.Cell) : (s.setMem m).dev.meas2 = s.dev.meas2 := rfl
@[simp] theorem State.setMem_meas3 (s : State) (m : List Host.Cell) : (s.setMem m).dev.meas3 = s.dev.meas3 := rfl
@[simp] theorem State.setMem_msix (s : State) (m : List Host.Cell) : (s.setMem m).dev.msix = s.dev.msix := rfl
@[simp] theorem State.setMem_hostRead (s : State) (m : List Host.Cell) : (s.setMem m).dev.hostRead = s.dev.hostRead := rfl
@[simp] theorem State.setMem_portDown (s : State) (m : List Host.Cell) : (s.setMem m).dev.portDown = s.dev.portDown := rfl
@[simp] theorem State.setMem_clock (s : State) (m : List Host.Cell) : (s.setMem m).dev.clock = s.dev.clock := rfl
@[simp] theorem State.setMem_cycles (s : State) (m : List Host.Cell) : (s.setMem m).dev.cycles = s.dev.cycles := rfl
@[simp] theorem State.setMem_time (s : State) (m : List Host.Cell) : (s.setMem m).dev.time = s.dev.time := rfl
@[simp] theorem State.setMem_seq (s : State) (m : List Host.Cell) : (s.setMem m).dev.seq = s.dev.seq := rfl

/-! ## The program counter -/

@[simp] theorem State.setPc_rest (s : State) (p : Word) : (s.setPc p).rest = s.rest := rfl
@[simp] theorem State.setPc_dev (s : State) (p : Word) : (s.setPc p).dev = s.dev := rfl
@[simp] theorem State.setPc_agenda (s : State) (p : Word) : (s.setPc p).agenda = s.agenda := rfl
@[simp] theorem State.setPc_fresh (s : State) (p : Word) : (s.setPc p).fresh = s.fresh := rfl
@[simp] theorem State.setPc_id (s : State) (p : Word) : (s.setPc p).core.id = s.core.id := rfl
@[simp] theorem State.setPc_mgmt (s : State) (p : Word) : (s.setPc p).core.mgmt = s.core.mgmt := rfl
@[simp] theorem State.setPc_part (s : State) (p : Word) : (s.setPc p).core.part = s.core.part := rfl
@[simp] theorem State.setPc_die (s : State) (p : Word) : (s.setPc p).core.die = s.core.die := rfl
@[simp] theorem State.setPc_row (s : State) (p : Word) : (s.setPc p).core.row = s.core.row := rfl
@[simp] theorem State.setPc_col (s : State) (p : Word) : (s.setPc p).core.col = s.core.col := rfl
@[simp] theorem State.setPc_run (s : State) (p : Word) : (s.setPc p).core.run = s.core.run := rfl
@[simp] theorem State.setPc_hold (s : State) (p : Word) : (s.setPc p).core.hold = s.core.hold := rfl
@[simp] theorem State.setPc_level (s : State) (p : Word) : (s.setPc p).core.level = s.core.level := rfl
@[simp] theorem State.setPc_kvec (s : State) (p : Word) : (s.setPc p).core.kvec = s.core.kvec := rfl
@[simp] theorem State.setPc_kcause (s : State) (p : Word) : (s.setPc p).core.kcause = s.core.kcause := rfl
@[simp] theorem State.setPc_kinfo (s : State) (p : Word) : (s.setPc p).core.kinfo = s.core.kinfo := rfl
@[simp] theorem State.setPc_kretpc (s : State) (p : Word) : (s.setPc p).core.kretpc = s.core.kretpc := rfl
@[simp] theorem State.setPc_kstat (s : State) (p : Word) : (s.setPc p).core.kstat = s.core.kstat := rfl
@[simp] theorem State.setPc_kscr (s : State) (p : Word) : (s.setPc p).core.kscr = s.core.kscr := rfl
@[simp] theorem State.setPc_wp (s : State) (p : Word) : (s.setPc p).core.wp = s.core.wp := rfl
@[simp] theorem State.setPc_kptb (s : State) (p : Word) : (s.setPc p).core.kptb = s.core.kptb := rfl
@[simp] theorem State.setPc_kie (s : State) (p : Word) : (s.setPc p).core.kie = s.core.kie := rfl
@[simp] theorem State.setPc_kip (s : State) (p : Word) : (s.setPc p).core.kip = s.core.kip := rfl
@[simp] theorem State.setPc_kctxb (s : State) (p : Word) : (s.setPc p).core.kctxb = s.core.kctxb := rfl
@[simp] theorem State.setPc_ktcmp (s : State) (p : Word) : (s.setPc p).core.ktcmp = s.core.ktcmp := rfl
@[simp] theorem State.setPc_kefr (s : State) (p : Word) : (s.setPc p).core.kefr = s.core.kefr := rfl
@[simp] theorem State.setPc_fvec (s : State) (p : Word) : (s.setPc p).core.fvec = s.core.fvec := rfl
@[simp] theorem State.setPc_fcause (s : State) (p : Word) : (s.setPc p).core.fcause = s.core.fcause := rfl
@[simp] theorem State.setPc_finfo (s : State) (p : Word) : (s.setPc p).core.finfo = s.core.finfo := rfl
@[simp] theorem State.setPc_fretpc (s : State) (p : Word) : (s.setPc p).core.fretpc = s.core.fretpc := rfl
@[simp] theorem State.setPc_fstatus (s : State) (p : Word) : (s.setPc p).core.fstatus = s.core.fstatus := rfl
@[simp] theorem State.setPc_fscr (s : State) (p : Word) : (s.setPc p).core.fscr = s.core.fscr := rfl
@[simp] theorem State.setPc_fdeleg (s : State) (p : Word) : (s.setPc p).core.fdeleg = s.core.fdeleg := rfl
@[simp] theorem State.setPc_unack (s : State) (p : Word) : (s.setPc p).core.unack = s.core.unack := rfl
@[simp] theorem State.setPc_banksel (s : State) (p : Word) : (s.setPc p).core.banksel = s.core.banksel := rfl
@[simp] theorem State.setPc_bankcf (s : State) (p : Word) : (s.setPc p).core.bankcf = s.core.bankcf := rfl
@[simp] theorem State.setPc_expstall (s : State) (p : Word) : (s.setPc p).core.expstall = s.core.expstall := rfl
@[simp] theorem State.setPc_cycle (s : State) (p : Word) : (s.setPc p).core.cycle = s.core.cycle := rfl
@[simp] theorem State.setPc_tlb (s : State) (p : Word) : (s.setPc p).core.tlb = s.core.tlb := rfl
@[simp] theorem State.setPc_shadow (s : State) (p : Word) : (s.setPc p).core.shadow = s.core.shadow := rfl
@[simp] theorem State.setPc_residents (s : State) (p : Word) : (s.setPc p).core.residents = s.core.residents := rfl
@[simp] theorem State.setPc_dma (s : State) (p : Word) : (s.setPc p).core.dma = s.core.dma := rfl
@[simp] theorem State.setPc_dmaTags (s : State) (p : Word) : (s.setPc p).core.dmaTags = s.core.dmaTags := rfl
@[simp] theorem State.setPc_eddyTags (s : State) (p : Word) : (s.setPc p).core.eddyTags = s.core.eddyTags := rfl
@[simp] theorem State.setPc_mtx (s : State) (p : Word) : (s.setPc p).core.mtx = s.core.mtx := rfl
@[simp] theorem State.setPc_faults (s : State) (p : Word) : (s.setPc p).core.faults = s.core.faults := rfl
@[simp] theorem State.setPc_lostRec (s : State) (p : Word) : (s.setPc p).core.lostRec = s.core.lostRec := rfl
@[simp] theorem State.setPc_hostInfo (s : State) (p : Word) : (s.setPc p).core.hostInfo = s.core.hostInfo := rfl
@[simp] theorem State.setPc_preemptInfo (s : State) (p : Word) : (s.setPc p).core.preemptInfo = s.core.preemptInfo := rfl
@[simp] theorem State.setPc_pendReg (s : State) (p : Word) : (s.setPc p).core.pendReg = s.core.pendReg := rfl
@[simp] theorem State.setPc_specWalk (s : State) (p : Word) : (s.setPc p).core.specWalk = s.core.specWalk := rfl
@[simp] theorem State.setPc_specFault (s : State) (p : Word) : (s.setPc p).core.specFault = s.core.specFault := rfl
@[simp] theorem State.setPc_out (s : State) (p : Word) : (s.setPc p).core.out = s.core.out := rfl
@[simp] theorem State.setPc_bq (s : State) (p : Word) : (s.setPc p).core.bq = s.core.bq := rfl
@[simp] theorem State.setPc_counts (s : State) (p : Word) : (s.setPc p).core.counts = s.core.counts := rfl
@[simp] theorem State.setPc_ruleRun (s : State) (p : Word) : (s.setPc p).core.ruleRun = s.core.ruleRun := rfl
@[simp] theorem State.setPc_captured (s : State) (p : Word) : (s.setPc p).core.captured = s.core.captured := rfl
@[simp] theorem State.setPc_frame (s : State) (p : Word) : (s.setPc p).core.frame = s.core.frame := rfl
@[simp] theorem State.setPc_link (s : State) (p : Word) : (s.setPc p).core.link = s.core.link := rfl
@[simp] theorem State.setPc_heldAt (s : State) (p : Word) : (s.setPc p).core.heldAt = s.core.heldAt := rfl
@[simp] theorem State.setPc_jointSaved (s : State) (p : Word) : (s.setPc p).core.jointSaved = s.core.jointSaved := rfl
@[simp] theorem State.setPc_issued (s : State) (p : Word) : (s.setPc p).core.issued = s.core.issued := rfl
@[simp] theorem State.setPc_record (s : State) (p : Word) : (s.setPc p).core.record = s.core.record := rfl
@[simp] theorem State.setPc_trapDue (s : State) (p : Word) : (s.setPc p).core.trapDue = s.core.trapDue := rfl
@[simp] theorem State.setPc_lost (s : State) (p : Word) : (s.setPc p).core.lost = s.core.lost := rfl
@[simp] theorem State.setPc_arrived (s : State) (p : Word) : (s.setPc p).core.arrived = s.core.arrived := rfl
@[simp] theorem State.setPc_passed (s : State) (p : Word) : (s.setPc p).core.passed = s.core.passed := rfl
@[simp] theorem State.setPc_listing (s : State) (p : Word) : (s.setPc p).core.listing = s.core.listing := rfl
@[simp] theorem State.setPc_ctx_x (s : State) (p : Word) : (s.setPc p).core.ctx.x = s.core.ctx.x := rfl
@[simp] theorem State.setPc_ctx_v (s : State) (p : Word) : (s.setPc p).core.ctx.v = s.core.ctx.v := rfl
@[simp] theorem State.setPc_ctx_b (s : State) (p : Word) : (s.setPc p).core.ctx.b = s.core.ctx.b := rfl
@[simp] theorem State.setPc_ctx_ac (s : State) (p : Word) : (s.setPc p).core.ctx.ac = s.core.ctx.ac := rfl
@[simp] theorem State.setPc_ctx_wt (s : State) (p : Word) : (s.setPc p).core.ctx.wt = s.core.ctx.wt := rfl
@[simp] theorem State.setPc_ctx_wtPlanes (s : State) (p : Word) : (s.setPc p).core.ctx.wtPlanes = s.core.ctx.wtPlanes := rfl
@[simp] theorem State.setPc_ctx_pc (s : State) (p : Word) : (s.setPc p).core.ctx.pc = p := rfl
@[simp] theorem State.setPc_ctx_lcount0 (s : State) (p : Word) : (s.setPc p).core.ctx.lcount0 = s.core.ctx.lcount0 := rfl
@[simp] theorem State.setPc_ctx_lstart0 (s : State) (p : Word) : (s.setPc p).core.ctx.lstart0 = s.core.ctx.lstart0 := rfl
@[simp] theorem State.setPc_ctx_lend0 (s : State) (p : Word) : (s.setPc p).core.ctx.lend0 = s.core.ctx.lend0 := rfl
@[simp] theorem State.setPc_ctx_lcount1 (s : State) (p : Word) : (s.setPc p).core.ctx.lcount1 = s.core.ctx.lcount1 := rfl
@[simp] theorem State.setPc_ctx_lstart1 (s : State) (p : Word) : (s.setPc p).core.ctx.lstart1 = s.core.ctx.lstart1 := rfl
@[simp] theorem State.setPc_ctx_lend1 (s : State) (p : Word) : (s.setPc p).core.ctx.lend1 = s.core.ctx.lend1 := rfl
@[simp] theorem State.setPc_ctx_mtmask (s : State) (p : Word) : (s.setPc p).core.ctx.mtmask = s.core.ctx.mtmask := rfl
@[simp] theorem State.setPc_ctx_rprog (s : State) (p : Word) : (s.setPc p).core.ctx.rprog = s.core.ctx.rprog := rfl
@[simp] theorem State.setPc_ctx_gang (s : State) (p : Word) : (s.setPc p).core.ctx.gang = s.core.ctx.gang := rfl
@[simp] theorem State.setPc_ctx_evEn (s : State) (p : Word) : (s.setPc p).core.ctx.evEn = s.core.ctx.evEn := rfl
@[simp] theorem State.setPc_ctx_evPend (s : State) (p : Word) : (s.setPc p).core.ctx.evPend = s.core.ctx.evPend := rfl
@[simp] theorem State.setPc_ctx_fstat (s : State) (p : Word) : (s.setPc p).core.ctx.fstat = s.core.ctx.fstat := rfl
@[simp] theorem State.setPc_ctx_ppw (s : State) (p : Word) : (s.setPc p).core.ctx.ppw = s.core.ctx.ppw := rfl
@[simp] theorem State.setPc_ctx_dealpat (s : State) (p : Word) : (s.setPc p).core.ctx.dealpat = s.core.ctx.dealpat := rfl
@[simp] theorem State.setPc_ctx_tagrdy (s : State) (p : Word) : (s.setPc p).core.ctx.tagrdy = s.core.ctx.tagrdy := rfl
@[simp] theorem State.setPc_ctx_tagerr (s : State) (p : Word) : (s.setPc p).core.ctx.tagerr = s.core.ctx.tagerr := rfl
@[simp] theorem State.setPc_ctx_wuid (s : State) (p : Word) : (s.setPc p).core.ctx.wuid = s.core.ctx.wuid := rfl
@[simp] theorem State.setPc_ctx_mon (s : State) (p : Word) : (s.setPc p).core.ctx.mon = s.core.ctx.mon := rfl
@[simp] theorem State.setPc_ctx_monLine (s : State) (p : Word) : (s.setPc p).core.ctx.monLine = s.core.ctx.monLine := rfl
@[simp] theorem State.setPc_ctx_monHit (s : State) (p : Word) : (s.setPc p).core.ctx.monHit = s.core.ctx.monHit := rfl
@[simp] theorem State.setPc_ctx_gptr (s : State) (p : Word) : (s.setPc p).core.ctx.gptr = s.core.ctx.gptr := rfl
@[simp] theorem State.setPc_ctx_rrt (s : State) (p : Word) : (s.setPc p).core.ctx.rrt = s.core.ctx.rrt := rfl
@[simp] theorem State.setPc_ctx_opd (s : State) (p : Word) : (s.setPc p).core.ctx.opd = s.core.ctx.opd := rfl
@[simp] theorem State.setPc_ctx_ghdr (s : State) (p : Word) : (s.setPc p).core.ctx.ghdr = s.core.ctx.ghdr := rfl
@[simp] theorem State.setPc_ctx_src (s : State) (p : Word) : (s.setPc p).core.ctx.src = s.core.ctx.src := rfl
@[simp] theorem State.setPc_ctx_sd (s : State) (p : Word) : (s.setPc p).core.ctx.sd = s.core.ctx.sd := rfl
@[simp] theorem State.setPc_ctx_pieces (s : State) (p : Word) : (s.setPc p).core.ctx.pieces = s.core.ctx.pieces := rfl
@[simp] theorem State.setPc_ctx_q1 (s : State) (p : Word) : (s.setPc p).core.ctx.q1 = s.core.ctx.q1 := rfl
@[simp] theorem State.setPc_ctx_q3 (s : State) (p : Word) : (s.setPc p).core.ctx.q3 = s.core.ctx.q3 := rfl
@[simp] theorem State.setPc_ctx_q5 (s : State) (p : Word) : (s.setPc p).core.ctx.q5 = s.core.ctx.q5 := rfl
@[simp] theorem State.setPc_ctx_q6 (s : State) (p : Word) : (s.setPc p).core.ctx.q6 = s.core.ctx.q6 := rfl
@[simp] theorem State.setPc_ctx_rbuf (s : State) (p : Word) : (s.setPc p).core.ctx.rbuf = s.core.ctx.rbuf := rfl
@[simp] theorem State.setPc_ctx_mtxSaved (s : State) (p : Word) : (s.setPc p).core.ctx.mtxSaved = s.core.ctx.mtxSaved := rfl
@[simp] theorem State.setPc_ctx_vregs (s : State) (p : Word) : (s.setPc p).core.ctx.vregs = s.core.ctx.vregs := rfl
@[simp] theorem State.setPc_ctx_bregs (s : State) (p : Word) : (s.setPc p).core.ctx.bregs = s.core.ctx.bregs := rfl
@[simp] theorem State.setPc_ctx_actiles (s : State) (p : Word) : (s.setPc p).core.ctx.actiles = s.core.ctx.actiles := rfl
@[simp] theorem State.setPc_ctx_wtiles (s : State) (p : Word) : (s.setPc p).core.ctx.wtiles = s.core.ctx.wtiles := rfl
@[simp] theorem State.setPc_ctx_lnum (s : State) (p : Word) : (s.setPc p).core.ctx.lnum = s.core.ctx.lnum := rfl

/-! ## Scalar registers -/

/-- A write of x0 changes nothing. -/
@[simp] theorem Ctx.setX_zero (c : Ctx) (v : Word) : c.setX 0 v = c := rfl

theorem Ctx.setX_of_ne (c : Ctx) {r : Reg} (h : r ≠ 0) (v : Word) : c.setX r v = { c with x := c.x.set r.toNat v r.isLt } := if_neg h

@[simp] theorem Ctx.setX_v (c : Ctx) (r : Reg) (v : Word) : (c.setX r v).v = c.v := by unfold Ctx.setX; split <;> rfl
@[simp] theorem Ctx.setX_b (c : Ctx) (r : Reg) (v : Word) : (c.setX r v).b = c.b := by unfold Ctx.setX; split <;> rfl
@[simp] theorem Ctx.setX_ac (c : Ctx) (r : Reg) (v : Word) : (c.setX r v).ac = c.ac := by unfold Ctx.setX; split <;> rfl
@[simp] theorem Ctx.setX_wt (c : Ctx) (r : Reg) (v : Word) : (c.setX r v).wt = c.wt := by unfold Ctx.setX; split <;> rfl
@[simp] theorem Ctx.setX_wtPlanes (c : Ctx) (r : Reg) (v : Word) : (c.setX r v).wtPlanes = c.wtPlanes := by unfold Ctx.setX; split <;> rfl
@[simp] theorem Ctx.setX_pc (c : Ctx) (r : Reg) (v : Word) : (c.setX r v).pc = c.pc := by unfold Ctx.setX; split <;> rfl
@[simp] theorem Ctx.setX_lcount0 (c : Ctx) (r : Reg) (v : Word) : (c.setX r v).lcount0 = c.lcount0 := by unfold Ctx.setX; split <;> rfl
@[simp] theorem Ctx.setX_lstart0 (c : Ctx) (r : Reg) (v : Word) : (c.setX r v).lstart0 = c.lstart0 := by unfold Ctx.setX; split <;> rfl
@[simp] theorem Ctx.setX_lend0 (c : Ctx) (r : Reg) (v : Word) : (c.setX r v).lend0 = c.lend0 := by unfold Ctx.setX; split <;> rfl
@[simp] theorem Ctx.setX_lcount1 (c : Ctx) (r : Reg) (v : Word) : (c.setX r v).lcount1 = c.lcount1 := by unfold Ctx.setX; split <;> rfl
@[simp] theorem Ctx.setX_lstart1 (c : Ctx) (r : Reg) (v : Word) : (c.setX r v).lstart1 = c.lstart1 := by unfold Ctx.setX; split <;> rfl
@[simp] theorem Ctx.setX_lend1 (c : Ctx) (r : Reg) (v : Word) : (c.setX r v).lend1 = c.lend1 := by unfold Ctx.setX; split <;> rfl
@[simp] theorem Ctx.setX_mtmask (c : Ctx) (r : Reg) (v : Word) : (c.setX r v).mtmask = c.mtmask := by unfold Ctx.setX; split <;> rfl
@[simp] theorem Ctx.setX_rprog (c : Ctx) (r : Reg) (v : Word) : (c.setX r v).rprog = c.rprog := by unfold Ctx.setX; split <;> rfl
@[simp] theorem Ctx.setX_gang (c : Ctx) (r : Reg) (v : Word) : (c.setX r v).gang = c.gang := by unfold Ctx.setX; split <;> rfl
@[simp] theorem Ctx.setX_evEn (c : Ctx) (r : Reg) (v : Word) : (c.setX r v).evEn = c.evEn := by unfold Ctx.setX; split <;> rfl
@[simp] theorem Ctx.setX_evPend (c : Ctx) (r : Reg) (v : Word) : (c.setX r v).evPend = c.evPend := by unfold Ctx.setX; split <;> rfl
@[simp] theorem Ctx.setX_fstat (c : Ctx) (r : Reg) (v : Word) : (c.setX r v).fstat = c.fstat := by unfold Ctx.setX; split <;> rfl
@[simp] theorem Ctx.setX_ppw (c : Ctx) (r : Reg) (v : Word) : (c.setX r v).ppw = c.ppw := by unfold Ctx.setX; split <;> rfl
@[simp] theorem Ctx.setX_dealpat (c : Ctx) (r : Reg) (v : Word) : (c.setX r v).dealpat = c.dealpat := by unfold Ctx.setX; split <;> rfl
@[simp] theorem Ctx.setX_tagrdy (c : Ctx) (r : Reg) (v : Word) : (c.setX r v).tagrdy = c.tagrdy := by unfold Ctx.setX; split <;> rfl
@[simp] theorem Ctx.setX_tagerr (c : Ctx) (r : Reg) (v : Word) : (c.setX r v).tagerr = c.tagerr := by unfold Ctx.setX; split <;> rfl
@[simp] theorem Ctx.setX_wuid (c : Ctx) (r : Reg) (v : Word) : (c.setX r v).wuid = c.wuid := by unfold Ctx.setX; split <;> rfl
@[simp] theorem Ctx.setX_mon (c : Ctx) (r : Reg) (v : Word) : (c.setX r v).mon = c.mon := by unfold Ctx.setX; split <;> rfl
@[simp] theorem Ctx.setX_monLine (c : Ctx) (r : Reg) (v : Word) : (c.setX r v).monLine = c.monLine := by unfold Ctx.setX; split <;> rfl
@[simp] theorem Ctx.setX_monHit (c : Ctx) (r : Reg) (v : Word) : (c.setX r v).monHit = c.monHit := by unfold Ctx.setX; split <;> rfl
@[simp] theorem Ctx.setX_gptr (c : Ctx) (r : Reg) (v : Word) : (c.setX r v).gptr = c.gptr := by unfold Ctx.setX; split <;> rfl
@[simp] theorem Ctx.setX_rrt (c : Ctx) (r : Reg) (v : Word) : (c.setX r v).rrt = c.rrt := by unfold Ctx.setX; split <;> rfl
@[simp] theorem Ctx.setX_opd (c : Ctx) (r : Reg) (v : Word) : (c.setX r v).opd = c.opd := by unfold Ctx.setX; split <;> rfl
@[simp] theorem Ctx.setX_ghdr (c : Ctx) (r : Reg) (v : Word) : (c.setX r v).ghdr = c.ghdr := by unfold Ctx.setX; split <;> rfl
@[simp] theorem Ctx.setX_src (c : Ctx) (r : Reg) (v : Word) : (c.setX r v).src = c.src := by unfold Ctx.setX; split <;> rfl
@[simp] theorem Ctx.setX_sd (c : Ctx) (r : Reg) (v : Word) : (c.setX r v).sd = c.sd := by unfold Ctx.setX; split <;> rfl
@[simp] theorem Ctx.setX_pieces (c : Ctx) (r : Reg) (v : Word) : (c.setX r v).pieces = c.pieces := by unfold Ctx.setX; split <;> rfl
@[simp] theorem Ctx.setX_q1 (c : Ctx) (r : Reg) (v : Word) : (c.setX r v).q1 = c.q1 := by unfold Ctx.setX; split <;> rfl
@[simp] theorem Ctx.setX_q3 (c : Ctx) (r : Reg) (v : Word) : (c.setX r v).q3 = c.q3 := by unfold Ctx.setX; split <;> rfl
@[simp] theorem Ctx.setX_q5 (c : Ctx) (r : Reg) (v : Word) : (c.setX r v).q5 = c.q5 := by unfold Ctx.setX; split <;> rfl
@[simp] theorem Ctx.setX_q6 (c : Ctx) (r : Reg) (v : Word) : (c.setX r v).q6 = c.q6 := by unfold Ctx.setX; split <;> rfl
@[simp] theorem Ctx.setX_rbuf (c : Ctx) (r : Reg) (v : Word) : (c.setX r v).rbuf = c.rbuf := by unfold Ctx.setX; split <;> rfl
@[simp] theorem Ctx.setX_mtxSaved (c : Ctx) (r : Reg) (v : Word) : (c.setX r v).mtxSaved = c.mtxSaved := by unfold Ctx.setX; split <;> rfl
@[simp] theorem Ctx.setX_vregs (c : Ctx) (r : Reg) (v : Word) : (c.setX r v).vregs = c.vregs := by unfold Ctx.setX; split <;> rfl
@[simp] theorem Ctx.setX_bregs (c : Ctx) (r : Reg) (v : Word) : (c.setX r v).bregs = c.bregs := by unfold Ctx.setX; split <;> rfl
@[simp] theorem Ctx.setX_actiles (c : Ctx) (r : Reg) (v : Word) : (c.setX r v).actiles = c.actiles := by unfold Ctx.setX; split <;> rfl
@[simp] theorem Ctx.setX_wtiles (c : Ctx) (r : Reg) (v : Word) : (c.setX r v).wtiles = c.wtiles := by unfold Ctx.setX; split <;> rfl
@[simp] theorem Ctx.setX_lnum (c : Ctx) (r : Reg) (v : Word) : (c.setX r v).lnum = c.lnum := by unfold Ctx.setX; split <;> rfl

@[simp] theorem State.setX_rest (s : State) (r : Reg) (v : Word) : (s.setX r v).rest = s.rest := rfl
@[simp] theorem State.setX_dev (s : State) (r : Reg) (v : Word) : (s.setX r v).dev = s.dev := rfl
@[simp] theorem State.setX_agenda (s : State) (r : Reg) (v : Word) : (s.setX r v).agenda = s.agenda := rfl
@[simp] theorem State.setX_fresh (s : State) (r : Reg) (v : Word) : (s.setX r v).fresh = s.fresh := rfl
@[simp] theorem State.setX_id (s : State) (r : Reg) (v : Word) : (s.setX r v).core.id = s.core.id := rfl
@[simp] theorem State.setX_mgmt (s : State) (r : Reg) (v : Word) : (s.setX r v).core.mgmt = s.core.mgmt := rfl
@[simp] theorem State.setX_part (s : State) (r : Reg) (v : Word) : (s.setX r v).core.part = s.core.part := rfl
@[simp] theorem State.setX_die (s : State) (r : Reg) (v : Word) : (s.setX r v).core.die = s.core.die := rfl
@[simp] theorem State.setX_row (s : State) (r : Reg) (v : Word) : (s.setX r v).core.row = s.core.row := rfl
@[simp] theorem State.setX_col (s : State) (r : Reg) (v : Word) : (s.setX r v).core.col = s.core.col := rfl
@[simp] theorem State.setX_run (s : State) (r : Reg) (v : Word) : (s.setX r v).core.run = s.core.run := rfl
@[simp] theorem State.setX_hold (s : State) (r : Reg) (v : Word) : (s.setX r v).core.hold = s.core.hold := rfl
@[simp] theorem State.setX_ctx (s : State) (r : Reg) (v : Word) : (s.setX r v).core.ctx = s.core.ctx.setX r v := rfl
@[simp] theorem State.setX_level (s : State) (r : Reg) (v : Word) : (s.setX r v).core.level = s.core.level := rfl
@[simp] theorem State.setX_kvec (s : State) (r : Reg) (v : Word) : (s.setX r v).core.kvec = s.core.kvec := rfl
@[simp] theorem State.setX_kcause (s : State) (r : Reg) (v : Word) : (s.setX r v).core.kcause = s.core.kcause := rfl
@[simp] theorem State.setX_kinfo (s : State) (r : Reg) (v : Word) : (s.setX r v).core.kinfo = s.core.kinfo := rfl
@[simp] theorem State.setX_kretpc (s : State) (r : Reg) (v : Word) : (s.setX r v).core.kretpc = s.core.kretpc := rfl
@[simp] theorem State.setX_kstat (s : State) (r : Reg) (v : Word) : (s.setX r v).core.kstat = s.core.kstat := rfl
@[simp] theorem State.setX_kscr (s : State) (r : Reg) (v : Word) : (s.setX r v).core.kscr = s.core.kscr := rfl
@[simp] theorem State.setX_wp (s : State) (r : Reg) (v : Word) : (s.setX r v).core.wp = s.core.wp := rfl
@[simp] theorem State.setX_kptb (s : State) (r : Reg) (v : Word) : (s.setX r v).core.kptb = s.core.kptb := rfl
@[simp] theorem State.setX_kie (s : State) (r : Reg) (v : Word) : (s.setX r v).core.kie = s.core.kie := rfl
@[simp] theorem State.setX_kip (s : State) (r : Reg) (v : Word) : (s.setX r v).core.kip = s.core.kip := rfl
@[simp] theorem State.setX_kctxb (s : State) (r : Reg) (v : Word) : (s.setX r v).core.kctxb = s.core.kctxb := rfl
@[simp] theorem State.setX_ktcmp (s : State) (r : Reg) (v : Word) : (s.setX r v).core.ktcmp = s.core.ktcmp := rfl
@[simp] theorem State.setX_kefr (s : State) (r : Reg) (v : Word) : (s.setX r v).core.kefr = s.core.kefr := rfl
@[simp] theorem State.setX_fvec (s : State) (r : Reg) (v : Word) : (s.setX r v).core.fvec = s.core.fvec := rfl
@[simp] theorem State.setX_fcause (s : State) (r : Reg) (v : Word) : (s.setX r v).core.fcause = s.core.fcause := rfl
@[simp] theorem State.setX_finfo (s : State) (r : Reg) (v : Word) : (s.setX r v).core.finfo = s.core.finfo := rfl
@[simp] theorem State.setX_fretpc (s : State) (r : Reg) (v : Word) : (s.setX r v).core.fretpc = s.core.fretpc := rfl
@[simp] theorem State.setX_fstatus (s : State) (r : Reg) (v : Word) : (s.setX r v).core.fstatus = s.core.fstatus := rfl
@[simp] theorem State.setX_fscr (s : State) (r : Reg) (v : Word) : (s.setX r v).core.fscr = s.core.fscr := rfl
@[simp] theorem State.setX_fdeleg (s : State) (r : Reg) (v : Word) : (s.setX r v).core.fdeleg = s.core.fdeleg := rfl
@[simp] theorem State.setX_unack (s : State) (r : Reg) (v : Word) : (s.setX r v).core.unack = s.core.unack := rfl
@[simp] theorem State.setX_banksel (s : State) (r : Reg) (v : Word) : (s.setX r v).core.banksel = s.core.banksel := rfl
@[simp] theorem State.setX_bankcf (s : State) (r : Reg) (v : Word) : (s.setX r v).core.bankcf = s.core.bankcf := rfl
@[simp] theorem State.setX_expstall (s : State) (r : Reg) (v : Word) : (s.setX r v).core.expstall = s.core.expstall := rfl
@[simp] theorem State.setX_cycle (s : State) (r : Reg) (v : Word) : (s.setX r v).core.cycle = s.core.cycle := rfl
@[simp] theorem State.setX_tlb (s : State) (r : Reg) (v : Word) : (s.setX r v).core.tlb = s.core.tlb := rfl
@[simp] theorem State.setX_shadow (s : State) (r : Reg) (v : Word) : (s.setX r v).core.shadow = s.core.shadow := rfl
@[simp] theorem State.setX_residents (s : State) (r : Reg) (v : Word) : (s.setX r v).core.residents = s.core.residents := rfl
@[simp] theorem State.setX_dma (s : State) (r : Reg) (v : Word) : (s.setX r v).core.dma = s.core.dma := rfl
@[simp] theorem State.setX_dmaTags (s : State) (r : Reg) (v : Word) : (s.setX r v).core.dmaTags = s.core.dmaTags := rfl
@[simp] theorem State.setX_eddyTags (s : State) (r : Reg) (v : Word) : (s.setX r v).core.eddyTags = s.core.eddyTags := rfl
@[simp] theorem State.setX_mtx (s : State) (r : Reg) (v : Word) : (s.setX r v).core.mtx = s.core.mtx := rfl
@[simp] theorem State.setX_faults (s : State) (r : Reg) (v : Word) : (s.setX r v).core.faults = s.core.faults := rfl
@[simp] theorem State.setX_lostRec (s : State) (r : Reg) (v : Word) : (s.setX r v).core.lostRec = s.core.lostRec := rfl
@[simp] theorem State.setX_hostInfo (s : State) (r : Reg) (v : Word) : (s.setX r v).core.hostInfo = s.core.hostInfo := rfl
@[simp] theorem State.setX_preemptInfo (s : State) (r : Reg) (v : Word) : (s.setX r v).core.preemptInfo = s.core.preemptInfo := rfl
@[simp] theorem State.setX_pendReg (s : State) (r : Reg) (v : Word) : (s.setX r v).core.pendReg = s.core.pendReg := rfl
@[simp] theorem State.setX_specWalk (s : State) (r : Reg) (v : Word) : (s.setX r v).core.specWalk = s.core.specWalk := rfl
@[simp] theorem State.setX_specFault (s : State) (r : Reg) (v : Word) : (s.setX r v).core.specFault = s.core.specFault := rfl
@[simp] theorem State.setX_out (s : State) (r : Reg) (v : Word) : (s.setX r v).core.out = s.core.out := rfl
@[simp] theorem State.setX_bq (s : State) (r : Reg) (v : Word) : (s.setX r v).core.bq = s.core.bq := rfl
@[simp] theorem State.setX_counts (s : State) (r : Reg) (v : Word) : (s.setX r v).core.counts = s.core.counts := rfl
@[simp] theorem State.setX_ruleRun (s : State) (r : Reg) (v : Word) : (s.setX r v).core.ruleRun = s.core.ruleRun := rfl
@[simp] theorem State.setX_captured (s : State) (r : Reg) (v : Word) : (s.setX r v).core.captured = s.core.captured := rfl
@[simp] theorem State.setX_frame (s : State) (r : Reg) (v : Word) : (s.setX r v).core.frame = s.core.frame := rfl
@[simp] theorem State.setX_link (s : State) (r : Reg) (v : Word) : (s.setX r v).core.link = s.core.link := rfl
@[simp] theorem State.setX_heldAt (s : State) (r : Reg) (v : Word) : (s.setX r v).core.heldAt = s.core.heldAt := rfl
@[simp] theorem State.setX_jointSaved (s : State) (r : Reg) (v : Word) : (s.setX r v).core.jointSaved = s.core.jointSaved := rfl
@[simp] theorem State.setX_issued (s : State) (r : Reg) (v : Word) : (s.setX r v).core.issued = s.core.issued := rfl
@[simp] theorem State.setX_record (s : State) (r : Reg) (v : Word) : (s.setX r v).core.record = s.core.record := rfl
@[simp] theorem State.setX_trapDue (s : State) (r : Reg) (v : Word) : (s.setX r v).core.trapDue = s.core.trapDue := rfl
@[simp] theorem State.setX_lost (s : State) (r : Reg) (v : Word) : (s.setX r v).core.lost = s.core.lost := rfl
@[simp] theorem State.setX_arrived (s : State) (r : Reg) (v : Word) : (s.setX r v).core.arrived = s.core.arrived := rfl
@[simp] theorem State.setX_passed (s : State) (r : Reg) (v : Word) : (s.setX r v).core.passed = s.core.passed := rfl
@[simp] theorem State.setX_listing (s : State) (r : Reg) (v : Word) : (s.setX r v).core.listing = s.core.listing := rfl

/-! ## Fresh numbers -/

@[simp] theorem State.takeFresh_core (s : State) : s.takeFresh.2.core = s.core := rfl
@[simp] theorem State.takeFresh_rest (s : State) : s.takeFresh.2.rest = s.rest := rfl
@[simp] theorem State.takeFresh_dev (s : State) : s.takeFresh.2.dev = s.dev := rfl
@[simp] theorem State.takeFresh_agenda (s : State) : s.takeFresh.2.agenda = s.agenda := rfl
@[simp] theorem State.takeFresh_fresh (s : State) : s.takeFresh.2.fresh = s.fresh + 1 := rfl
@[simp] theorem State.takeFresh_fst (s : State) : s.takeFresh.1 = s.fresh := rfl
@[simp] theorem State.takeSeq_core (s : State) : s.takeSeq.2.core = s.core := rfl
@[simp] theorem State.takeSeq_rest (s : State) : s.takeSeq.2.rest = s.rest := rfl
@[simp] theorem State.takeSeq_agenda (s : State) : s.takeSeq.2.agenda = s.agenda := rfl
@[simp] theorem State.takeSeq_fresh (s : State) : s.takeSeq.2.fresh = s.fresh := rfl
@[simp] theorem State.takeSeq_mem (s : State) : s.takeSeq.2.dev.mem = s.dev.mem := rfl
@[simp] theorem State.takeSeq_bad (s : State) : s.takeSeq.2.dev.bad = s.dev.bad := rfl
@[simp] theorem State.takeSeq_clusters (s : State) : s.takeSeq.2.dev.clusters = s.dev.clusters := rfl
@[simp] theorem State.takeSeq_walkCache (s : State) : s.takeSeq.2.dev.walkCache = s.dev.walkCache := rfl
@[simp] theorem State.takeSeq_flights (s : State) : s.takeSeq.2.dev.flights = s.dev.flights := rfl
@[simp] theorem State.takeSeq_signals (s : State) : s.takeSeq.2.dev.signals = s.dev.signals := rfl
@[simp] theorem State.takeSeq_resvs (s : State) : s.takeSeq.2.dev.resvs = s.dev.resvs := rfl
@[simp] theorem State.takeSeq_payloads (s : State) : s.takeSeq.2.dev.payloads = s.dev.payloads := rfl
@[simp] theorem State.takeSeq_bcasts (s : State) : s.takeSeq.2.dev.bcasts = s.dev.bcasts := rfl
@[simp] theorem State.takeSeq_window (s : State) : s.takeSeq.2.dev.window = s.dev.window := rfl
@[simp] theorem State.takeSeq_cells (s : State) : s.takeSeq.2.dev.cells = s.dev.cells := rfl
@[simp] theorem State.takeSeq_eddy (s : State) : s.takeSeq.2.dev.eddy = s.dev.eddy := rfl
@[simp] theorem State.takeSeq_gangs (s : State) : s.takeSeq.2.dev.gangs = s.dev.gangs := rfl
@[simp] theorem State.takeSeq_gangCount (s : State) : s.takeSeq.2.dev.gangCount = s.dev.gangCount := rfl
@[simp] theorem State.takeSeq_parts (s : State) : s.takeSeq.2.dev.parts = s.dev.parts := rfl
@[simp] theorem State.takeSeq_rebuilds (s : State) : s.takeSeq.2.dev.rebuilds = s.dev.rebuilds := rfl
@[simp] theorem State.takeSeq_fencedCores (s : State) : s.takeSeq.2.dev.fencedCores = s.dev.fencedCores := rfl
@[simp] theorem State.takeSeq_fencedRows (s : State) : s.takeSeq.2.dev.fencedRows = s.dev.fencedRows := rfl
@[simp] theorem State.takeSeq_launches (s : State) : s.takeSeq.2.dev.launches = s.dev.launches := rfl
@[simp] theorem State.takeSeq_submits (s : State) : s.takeSeq.2.dev.submits = s.dev.submits := rfl
@[simp] theorem State.takeSeq_preempts (s : State) : s.takeSeq.2.dev.preempts = s.dev.preempts := rfl
@[simp] theorem State.takeSeq_placed (s : State) : s.takeSeq.2.dev.placed = s.dev.placed := rfl
@[simp] theorem State.takeSeq_tests (s : State) : s.takeSeq.2.dev.tests = s.dev.tests := rfl
@[simp] theorem State.takeSeq_linkErrs (s : State) : s.takeSeq.2.dev.linkErrs = s.dev.linkErrs := rfl
@[simp] theorem State.takeSeq_errlog (s : State) : s.takeSeq.2.dev.errlog = s.dev.errlog := rfl
@[simp] theorem State.takeSeq_ovf (s : State) : s.takeSeq.2.dev.ovf = s.dev.ovf := rfl
@[simp] theorem State.takeSeq_goBit (s : State) : s.takeSeq.2.dev.goBit = s.dev.goBit := rfl
@[simp] theorem State.takeSeq_hostImg (s : State) : s.takeSeq.2.dev.hostImg = s.dev.hostImg := rfl
@[simp] theorem State.takeSeq_bootState (s : State) : s.takeSeq.2.dev.bootState = s.dev.bootState := rfl
@[simp] theorem State.takeSeq_podidx (s : State) : s.takeSeq.2.dev.podidx = s.dev.podidx := rfl
@[simp] theorem State.takeSeq_mbbase (s : State) : s.takeSeq.2.dev.mbbase = s.dev.mbbase := rfl
@[simp] theorem State.takeSeq_pwrcap (s : State) : s.takeSeq.2.dev.pwrcap = s.dev.pwrcap := rfl
@[simp] theorem State.takeSeq_mbtgt (s : State) : s.takeSeq.2.dev.mbtgt = s.dev.mbtgt := rfl
@[simp] theorem State.takeSeq_pod (s : State) : s.takeSeq.2.dev.pod = s.dev.pod := rfl
@[simp] theorem State.takeSeq_meas0 (s : State) : s.takeSeq.2.dev.meas0 = s.dev.meas0 := rfl
@[simp] theorem State.takeSeq_meas1 (s : State) : s.takeSeq.2.dev.meas1 = s.dev.meas1 := rfl
@[simp] theorem State.takeSeq_meas2 (s : State) : s.takeSeq.2.dev.meas2 = s.dev.meas2 := rfl
@[simp] theorem State.takeSeq_meas3 (s : State) : s.takeSeq.2.dev.meas3 = s.dev.meas3 := rfl
@[simp] theorem State.takeSeq_msix (s : State) : s.takeSeq.2.dev.msix = s.dev.msix := rfl
@[simp] theorem State.takeSeq_hostRead (s : State) : s.takeSeq.2.dev.hostRead = s.dev.hostRead := rfl
@[simp] theorem State.takeSeq_portDown (s : State) : s.takeSeq.2.dev.portDown = s.dev.portDown := rfl
@[simp] theorem State.takeSeq_clock (s : State) : s.takeSeq.2.dev.clock = s.dev.clock := rfl
@[simp] theorem State.takeSeq_cycles (s : State) : s.takeSeq.2.dev.cycles = s.dev.cycles := rfl
@[simp] theorem State.takeSeq_time (s : State) : s.takeSeq.2.dev.time = s.dev.time := rfl
@[simp] theorem State.takeSeq_seq (s : State) : s.takeSeq.2.dev.seq = s.dev.seq + 1 := rfl
@[simp] theorem State.takeSeq_fst (s : State) : s.takeSeq.1 = s.dev.seq := rfl

/-! ## Cores by number -/

theorem State.modCoreId_focus (s : State) (f : Core → Core) : s.modCoreId s.core.id f = s.modCore f := if_pos rfl

theorem State.modCoreId_other (s : State) {n : Nat} (h : s.core.id ≠ n) (f : Core → Core) :
    s.modCoreId n f = { s with rest := s.rest.map fun c => if c.id = n then f c else c } := if_neg h

@[simp] theorem State.modCoreId_dev (s : State) (n : Nat) (f : Core → Core) : (s.modCoreId n f).dev = s.dev := by unfold State.modCoreId; split <;> rfl
@[simp] theorem State.modCtxId_dev (s : State) (n : Nat) (f : Ctx → Ctx) : (s.modCtxId n f).dev = s.dev := s.modCoreId_dev n _
@[simp] theorem State.raise_dev (s : State) (n i : Nat) : (s.raise n i).dev = s.dev := s.modCoreId_dev n _
@[simp] theorem State.modCoreId_agenda (s : State) (n : Nat) (f : Core → Core) : (s.modCoreId n f).agenda = s.agenda := by unfold State.modCoreId; split <;> rfl
@[simp] theorem State.modCtxId_agenda (s : State) (n : Nat) (f : Ctx → Ctx) : (s.modCtxId n f).agenda = s.agenda := s.modCoreId_agenda n _
@[simp] theorem State.raise_agenda (s : State) (n i : Nat) : (s.raise n i).agenda = s.agenda := s.modCoreId_agenda n _
@[simp] theorem State.modCoreId_fresh (s : State) (n : Nat) (f : Core → Core) : (s.modCoreId n f).fresh = s.fresh := by unfold State.modCoreId; split <;> rfl
@[simp] theorem State.modCtxId_fresh (s : State) (n : Nat) (f : Ctx → Ctx) : (s.modCtxId n f).fresh = s.fresh := s.modCoreId_fresh n _
@[simp] theorem State.raise_fresh (s : State) (n i : Nat) : (s.raise n i).fresh = s.fresh := s.modCoreId_fresh n _

/-- Bringing a core into focus changes which core stands where, and nothing else. -/
theorem State.focus_cases {s t : State} {n : Nat} (h : s.focus n = some t) :
    (s.core.id = n ∧ t = s) ∨ ∃ c, s.rest.find? (fun c => c.id == n) = some c ∧
      t = { s with core := c, rest := s.core :: s.rest.filter fun d => d.id != n } := by
  unfold State.focus at h
  split at h
  · exact .inl ⟨‹_›, (Option.some.inj h).symm⟩
  · split at h
    · cases h
    · exact .inr ⟨_, ‹_›, (Option.some.inj h).symm⟩

end Sys2Proof.Machine
end

