-- ==== Sys2Proof/Laws/Memory.lean ====
section
/-!
SUPPORT. Memory: every operation keeps its canonical form, and what the operations of a home leave unchanged.
-/

namespace Sys2Proof.Machine

/-! ## The canonical form -/

theorem Memory.wfAbove_cons {a k : Nat} {b : Byte} {m : List Host.Cell} :
    Memory.wfAbove a ((k, b) :: m) = true ↔ a ≤ k ∧ b ≠ unlistedByte ∧ Memory.wfAbove (k + 1) m = true := by
  simp [Memory.wfAbove, and_assoc]

theorem Memory.wfAbove_le {a b : Nat} {m : List Host.Cell} (h : Memory.wfAbove b m = true) (hab : a ≤ b) : Memory.wfAbove a m = true := by
  cases m with
  | nil => rfl
  | cons x m =>
    rw [Memory.wfAbove_cons] at h ⊢
    exact ⟨Nat.le_trans hab h.1, h.2⟩

theorem Memory.wfAbove_put {l a : Nat} {b : Byte} {m : List Host.Cell} (hl : l ≤ a) (h : Memory.wfAbove (a + 1) m = true) :
    Memory.wfAbove l (Memory.put a b m) = true := by
  unfold Memory.put
  split
  · exact Memory.wfAbove_le h (by omega)
  · exact Memory.wfAbove_cons.mpr ⟨hl, ‹_›, h⟩

/-- A write keeps a list canonical above any bound that its address respects. -/
theorem Memory.wfAbove_write {m : List Host.Cell} {a : Nat} {b : Byte} :
    ∀ {l : Nat}, l ≤ a → Memory.wfAbove l m = true → Memory.wfAbove l (Memory.write m a b) = true := by
  induction m with
  | nil => intro l hl _; exact Memory.wfAbove_put hl rfl
  | cons x m ih =>
    intro l hl h
    have h' := Memory.wfAbove_cons.mp h
    unfold Memory.write
    split
    · exact Memory.wfAbove_put hl (Memory.wfAbove_cons.mpr ⟨by omega, h'.2⟩)
    · split
      · next he => subst he; exact Memory.wfAbove_put hl h'.2.2
      · exact Memory.wfAbove_cons.mpr ⟨h'.1, h'.2.1, ih (by omega) h'.2.2⟩

theorem Memory.wf_write {m : List Host.Cell} (h : Memory.wf m = true) (a : Nat) (b : Byte) : Memory.wf (Memory.write m a b) = true :=
  Memory.wfAbove_write (Nat.zero_le a) h

theorem Memory.wf_writeBytes {bs : List Byte} : ∀ {m : List Host.Cell} (_ : Memory.wf m = true) (a : Nat),
    Memory.wf (Memory.writeBytes m a bs) = true := by
  induction bs with
  | nil => intro m h _; exact h
  | cons b bs ih => intro m h a; exact ih (Memory.wf_write h a b) (a + 1)

/-- A list whose entries are filtered stays canonical. -/
theorem Memory.wfAbove_filter (p : Host.Cell → Bool) : ∀ {m : List Host.Cell} {l : Nat}, Memory.wfAbove l m = true →
    Memory.wfAbove l (m.filter p) = true := by
  intro m
  induction m with
  | nil => intro l h; exact h
  | cons x m ih =>
    intro l h
    have h' := Memory.wfAbove_cons.mp h
    rw [List.filter_cons]
    split
    · exact Memory.wfAbove_cons.mpr ⟨h'.1, h'.2.1, ih h'.2.2⟩
    · exact Memory.wfAbove_le (ih h'.2.2) (by omega)

theorem Memory.wf_filter {m : List Host.Cell} (h : Memory.wf m = true) (p : Host.Cell → Bool) : Memory.wf (m.filter p) = true :=
  Memory.wfAbove_filter p h

theorem Memory.length_readBytes (m : List Host.Cell) : ∀ (n a : Nat), (Memory.readBytes m a n).length = n := by
  intro n
  induction n with
  | zero => intro a; rfl
  | succ n ih => intro a; simp [Memory.readBytes, ih]

@[simp] theorem length_leBytes : ∀ (n v : Nat), (leBytes n v).length = n := by
  intro n
  induction n with
  | zero => intro v; rfl
  | succ n ih => intro v; simp [leBytes, ih]

/-- Little-endian bytes hold the value, up to their width (R32). -/
theorem leNat_leBytes : ∀ (n v : Nat), leNat (leBytes n v) = v % 256 ^ n := by
  intro n
  induction n with
  | zero => intro v; simp [leBytes, leNat, Nat.mod_one]
  | succ n ih =>
    intro v
    simp only [leBytes, leNat, ih, BitVec.toNat_ofNat]
    show v % 256 + 256 * (v / 256 % 256 ^ n) = v % 256 ^ (n + 1)
    rw [Nat.pow_succ, Nat.mul_comm (256 ^ n) 256, Nat.mod_mul]

end Sys2Proof.Machine
end

