-- ==== Sys2Proof/Laws/Home.lean ====
section
/-!
SUPPORT. What a home does: each of its operations keeps the canonical form of memory, and says what else it can change.
-/

namespace Sys2Proof.Machine

/-! ## Updates that leave memory alone -/

theorem State.memOk_of_mem {s t : State} (h : t.dev.mem = s.dev.mem) (hs : s.memOk) : t.memOk := by
  unfold State.memOk
  rw [h]
  exact hs

@[simp] theorem State.memOk_modCore (s : State) (f : Core → Core) : (s.modCore f).memOk = s.memOk := rfl
@[simp] theorem State.memOk_modCtx (s : State) (f : Ctx → Ctx) : (s.modCtx f).memOk = s.memOk := rfl
@[simp] theorem State.memOk_setX (s : State) (r : Reg) (v : Word) : (s.setX r v).memOk = s.memOk := rfl
@[simp] theorem State.memOk_setPc (s : State) (p : Word) : (s.setPc p).memOk = s.memOk := rfl
@[simp] theorem State.memOk_takeFresh (s : State) : s.takeFresh.2.memOk = s.memOk := rfl
@[simp] theorem State.memOk_takeSeq (s : State) : s.takeSeq.2.memOk = s.memOk := rfl
@[simp] theorem State.memOk_wakeMonitors (s : State) (key n : Nat) : (s.wakeMonitors key n).memOk = s.memOk := rfl
@[simp] theorem State.memOk_modCoreId (s : State) (n : Nat) (f : Core → Core) : (s.modCoreId n f).memOk = s.memOk := by
  unfold State.memOk; simp
@[simp] theorem State.memOk_modCtxId (s : State) (n : Nat) (f : Ctx → Ctx) : (s.modCtxId n f).memOk = s.memOk := s.memOk_modCoreId n _
@[simp] theorem State.memOk_raise (s : State) (n i : Nat) : (s.raise n i).memOk = s.memOk := s.memOk_modCoreId n _
@[simp] theorem State.memOk_acknowledge (s : State) (n : Nat) : (s.acknowledge n).memOk = s.memOk := s.memOk_modCoreId n _

theorem State.memOk_modDev {s : State} {f : Dev → Dev} (hf : (f s.dev).mem = s.dev.mem) (hs : s.memOk) : (s.modDev f).memOk :=
  State.memOk_of_mem hf hs

/-- A fold whose every step keeps memory canonical keeps it. -/
theorem State.memOk_foldl {α : Type} {f : State → α → State} (hf : ∀ s a, s.memOk → (f s a).memOk) :
    ∀ (l : List α) (s : State), s.memOk → (l.foldl f s).memOk
  | [], _, h => h
  | a :: l, s, h => State.memOk_foldl hf l (f s a) (hf s a h)

/-! ## Writes -/

theorem Dev.wf_writeSound {d : Dev} (h : Memory.wf d.mem = true) (key : Nat) (bs : List Byte) : Memory.wf (d.writeSound key bs).mem = true := by
  unfold Dev.writeSound
  split
  · refine List.foldlRecOn (motive := fun m => Memory.wf m = true) _ _ h ?_
    intro m hm x _
    show Memory.wf (if _ then m else Memory.write m _ _) = true
    split
    · exact hm
    · exact Memory.wf_write hm _ _
  · exact Memory.wf_writeBytes h key

theorem State.memOk_pokeRaw {s : State} (h : s.memOk) (key : Nat) (bs : List Byte) : (s.pokeRaw key bs).memOk :=
  Dev.wf_writeSound h key bs

theorem State.memOk_startTest {s : State} (h : s.memOk) (unit : BitVec 6) (place : BitVec 52) : (s.startTest unit place).memOk :=
  State.memOk_modDev rfl h

@[simp] theorem State.core_meetError (s : State) (key : Nat) : (s.meetError key).2.core = s.core := by
  unfold State.meetError
  dsimp only
  split <;> rfl

@[simp] theorem State.mem_meetError (s : State) (key : Nat) : (s.meetError key).2.dev.mem = s.dev.mem := by
  unfold State.meetError
  dsimp only
  split <;> rfl

theorem State.memOk_meetError {s : State} (h : s.memOk) (key : Nat) : (s.meetError key).2.memOk :=
  State.memOk_of_mem (s.mem_meetError key) h

/-- What a cell's instruction returns when it is performed leaves memory canonical. -/
theorem State.memOk_cellPerform {s t : State} {w : CellWait} {r : CellResult} (h : s.memOk) (hp : s.cellPerform w = some (r, t)) : t.memOk := by
  unfold State.cellPerform at hp
  simp only at hp
  split at hp
  · cases hp; exact State.memOk_meetError h _
  · split at hp
    · split at hp
      · cases hp; exact State.memOk_pokeRaw (State.memOk_pokeRaw h _ _) _ _
      · cases hp
    · split at hp
      · cases hp
      · split at hp
        · cases hp; exact h
        · split at hp
          · cases hp; exact State.memOk_meetError h _
          · cases hp; exact h

theorem State.memOk_cellPass {s t : State} (h : s.memOk) (hp : s.cellPass = some t) : t.memOk := by
  unfold State.cellPass at hp
  simp only at hp
  split at hp
  · cases hp
  · split at hp
    · cases hp
    · next hq =>
      cases hp
      exact State.memOk_modDev rfl (State.memOk_cellPerform h hq)

theorem State.memOk_settleCells : ∀ (n : Nat) {s : State}, s.memOk → (State.settleCells n s).memOk
  | 0, _, h => h
  | n + 1, s, h => by
    unfold State.settleCells
    split
    · exact h
    · exact State.memOk_settleCells n (State.memOk_cellPass h ‹_›)

/-- A write performed at its home keeps memory canonical. -/
theorem State.memOk_poke {s : State} (h : s.memOk) (key : Nat) (bs : List Byte) : (s.poke key bs).memOk :=
  State.memOk_settleCells _ (State.memOk_pokeRaw h key bs)

/-- Every operation performed at a home keeps memory canonical. -/
theorem State.memOk_performOp {s : State} (h : s.memOk) (key : Nat) (op : FlightOp) : (s.performOp key op).2.memOk := by
  unfold State.performOp
  split
  · exact State.memOk_meetError (s := s.takeFresh.2) h _
  · cases op
    · exact State.memOk_poke h _ _
    · exact State.memOk_poke h _ _
    · dsimp only
      split
      · exact State.memOk_poke h _ _
      · exact h
    · exact State.memOk_poke h _ _
    · exact State.memOk_poke h _ _

@[simp] theorem State.memOk_lose (s : State) (parts : List (Nat × Nat)) (info : Word) : (s.lose parts info).memOk = s.memOk := by
  unfold State.lose
  induction parts generalizing s with
  | nil => rfl
  | cons p ps ih => exact (ih _).trans (State.memOk_modCoreId _ _ _)

theorem State.memOk_loseFlight {s : State} (h : s.memOk) (f : Flight) (info : Word) : (s.loseFlight f info).memOk := by
  unfold State.loseFlight
  dsimp only
  rw [State.memOk_lose]
  exact State.memOk_foldl (fun s n hs => by simpa using hs) _ _ (State.memOk_modDev rfl h)

theorem State.memOk_performFlight {s : State} (h : s.memOk) (f : Flight) : (s.performFlight f).memOk := by
  unfold State.performFlight
  split
  · exact State.memOk_loseFlight (State.memOk_meetError h _) _ _
  · dsimp only
    split
    · exact State.memOk_foldl (fun s n hs => by simpa using hs) _ _ (State.memOk_modDev rfl (State.memOk_performOp h _ _))
    · exact State.memOk_modDev rfl (State.memOk_performOp h _ _)

theorem State.memOk_drainLines {s : State} (h : s.memOk) (core key n before : Nat) : (s.drainLines core key n before).memOk :=
  State.memOk_foldl (fun _ f hs => State.memOk_performFlight hs f) _ _ h

theorem State.memOk_pokeOwn {s : State} (h : s.memOk) (key : Nat) (bs : List Byte) : (s.pokeOwn key bs).memOk :=
  State.memOk_poke (State.memOk_drainLines h _ _ _ _) _ _

theorem State.memOk_launchFlight {s : State} (h : s.memOk) (key : Nat) (op : FlightOp) (comm append : Bool) (rd : Option Reg) :
    (s.launchFlight key op comm append rd).memOk := h

/-! ## What a write at a home leaves of the cores -/

/-- What a write can change on a core: that its monitor is hit (R179). -/
def Core.wokenFrom (c d : Core) : Prop := c = d ∨ c = { d with ctx := { d.ctx with monHit := true } }

theorem State.wakeMonitors_core (s : State) (key n : Nat) : (s.wakeMonitors key n).core.wokenFrom s.core := by
  unfold State.wakeMonitors
  dsimp only
  split
  · exact .inl rfl
  · split
    · exact .inr rfl
    · exact .inl rfl

theorem State.pokeRaw_core (s : State) (key : Nat) (bs : List Byte) : (s.pokeRaw key bs).core.wokenFrom s.core := by
  exact State.wakeMonitors_core (s.modDev _) key _

theorem Core.wokenFrom.trans {a b c : Core} (h : a.wokenFrom b) (g : b.wokenFrom c) : a.wokenFrom c := by
  rcases h with rfl | rfl
  · exact g
  · rcases g with rfl | rfl
    · exact .inr rfl
    · exact .inr rfl

theorem State.cellPerform_core {s t : State} {w : CellWait} {r : CellResult} (hp : s.cellPerform w = some (r, t)) : t.core.wokenFrom s.core := by
  unfold State.cellPerform at hp
  simp only at hp
  split at hp
  · cases hp; exact .inl (State.core_meetError _ _)
  · split at hp
    · split at hp
      · cases hp; exact (State.pokeRaw_core _ _ _).trans (State.pokeRaw_core _ _ _)
      · cases hp
    · split at hp
      · cases hp
      · split at hp
        · cases hp; exact .inl rfl
        · split at hp
          · cases hp; exact .inl (State.core_meetError _ _)
          · cases hp; exact .inl rfl

theorem State.settleCells_core : ∀ (n : Nat) (s : State), (State.settleCells n s).core.wokenFrom s.core
  | 0, _ => .inl rfl
  | n + 1, s => by
    unfold State.settleCells
    split
    · exact .inl rfl
    · next t h =>
      refine (State.settleCells_core n t).trans ?_
      unfold State.cellPass at h
      simp only at h
      split at h
      · cases h
      · split at h
        · cases h
        · next hq =>
        cases h
        have hc := State.cellPerform_core hq
        exact hc

/-- A write performed at its home changes nothing of the core in focus but its monitor. -/
theorem State.poke_core (s : State) (key : Nat) (bs : List Byte) : (s.poke key bs).core.wokenFrom s.core :=
  (State.settleCells_core _ _).trans (State.pokeRaw_core s key bs)

end Sys2Proof.Machine
end

