-- ==== Sys2Proof/Laws/Trap.lean ====
section
/-!
SUPPORT. The shared operations of a step: what taking a trap, returning, booking a stream slot and retiring can do, and that they keep the
canonical form of memory.
-/

namespace Sys2Proof.Machine

/-! ## Gangs and launches change no memory -/

@[simp] theorem State.mem_modGang (s : State) (n : Nat) (f : Gang → Gang) : (s.modGang n f).dev.mem = s.dev.mem := rfl
@[simp] theorem State.mem_modLaunch (s : State) (l : BitVec 12) (f : Launch → Launch) : (s.modLaunch l f).dev.mem = s.dev.mem := rfl
@[simp] theorem State.mem_forgetStaged (s : State) (n : Nat) (l : BitVec 12) (w : Nat) : (s.forgetStaged n l w).dev.mem = s.dev.mem := rfl

theorem State.mem_foldl {α : Type} {f : State → α → State} (hf : ∀ s a, (f s a).dev.mem = s.dev.mem) :
    ∀ (l : List α) (s : State), (l.foldl f s).dev.mem = s.dev.mem
  | [], _ => rfl
  | a :: l, s => (State.mem_foldl hf l (f s a)).trans (hf s a)

@[simp] theorem State.mem_settleGang (s : State) (n : Nat) : (s.settleGang n).dev.mem = s.dev.mem := by
  unfold State.settleGang
  split
  · rfl
  · split
    · exact State.mem_foldl (fun s m => by simp) _ _
    · split
      · split
        · exact State.mem_foldl (fun s m => by simp) _ _
        · rfl
      · rfl

@[simp] theorem State.mem_enterStaged (s : State) (n : Nat) : (s.enterStaged n).dev.mem = s.dev.mem := by
  unfold State.enterStaged
  split
  · rfl
  · dsimp only
    refine (State.mem_modGang _ _ _).trans ?_
    refine List.foldlRecOn (motive := fun acc : State × List (Nat × Joint) => acc.1.dev.mem = s.dev.mem) _ _ rfl ?_
    intro acc h x _
    split
    · dsimp only
      split <;> simp [h]
    · exact h

@[simp] theorem State.mem_gangTick (s : State) (n : Nat) : (s.gangTick n).dev.mem = s.dev.mem := by
  unfold State.gangTick
  dsimp only
  split
  · simp
  · split
    · exact (State.mem_enterStaged _ _).trans (State.mem_settleGang _ _)
    · split
      · exact (State.mem_enterStaged _ _).trans ((State.mem_modGang _ _ _).trans (State.mem_settleGang _ _))
      · simp

@[simp] theorem State.mem_withdraw (s : State) (n : Nat) : (s.withdraw n).dev.mem = s.dev.mem := rfl
@[simp] theorem State.mem_detach (s : State) (l : GangLink) : (s.detach l).dev.mem = s.dev.mem := rfl

@[simp] theorem State.mem_streamStep (s : State) (l : GangLink) (lead moved : Bool) (pc : Word) (word : IWord) :
    (s.streamStep l lead moved pc word).dev.mem = s.dev.mem := by
  unfold State.streamStep
  split
  · rfl
  · split
    · exact State.mem_gangTick _ _
    · dsimp only
      refine (State.mem_gangTick _ _).trans ?_
      split
      · rfl
      · split <;> rfl

@[simp] theorem State.mem_dropLink (s : State) (n : Nat) : (s.dropLink n).dev.mem = s.dev.mem := by
  unfold State.dropLink
  split
  · rfl
  · split
    · rfl
    · exact (State.mem_gangTick _ _).trans (by simp)

@[simp] theorem State.mem_leaveGang (s : State) (n : Nat) : (s.leaveGang n).dev.mem = s.dev.mem := by
  unfold State.leaveGang
  split
  · rfl
  · split
    · rfl
    · exact State.mem_dropLink s n

@[simp] theorem State.mem_dropUnit (s : State) (lnum : BitVec 12) (wuid n : Nat) : (s.dropUnit lnum wuid n).dev.mem = s.dev.mem := by
  unfold State.dropUnit
  split
  · rfl
  · split
    · simp
    · split
      · dsimp only
        split
        · simp
        · split <;> simp
      · rfl

@[simp] theorem State.mem_countDone (s : State) (c : Core) : (s.countDone c).dev.mem = s.dev.mem := by
  unfold State.countDone
  split <;> simp

@[simp] theorem State.mem_failUnit (s : State) (lnum : BitVec 12) (u : UnitRec) : (s.failUnit lnum u).dev.mem = s.dev.mem := by
  unfold State.failUnit
  split <;> simp

@[simp] theorem State.mem_failUnits (s : State) (lnum : BitVec 12) (us : List UnitRec) : (s.failUnits lnum us).dev.mem = s.dev.mem :=
  State.mem_foldl (fun s u => by simp) us s

@[simp] theorem State.mem_restartUnits (s : State) (lnum : BitVec 12) (us : List UnitRec) : (s.restartUnits lnum us).dev.mem = s.dev.mem := by
  unfold State.restartUnits
  split
  · simp
  · exact State.mem_foldl (fun s u => by simp) us s

@[simp] theorem State.mem_endLaunch (s : State) (lnum : BitVec 12) (b : Byte) : (s.endLaunch lnum b).dev.mem = s.dev.mem := by
  unfold State.endLaunch
  split
  · rfl
  · split <;> simp

@[simp] theorem State.mem_restartLaunch (s : State) (lnum : BitVec 12) : (s.restartLaunch lnum).dev.mem = s.dev.mem := by
  unfold State.restartLaunch
  split
  · rfl
  · split
    · rfl
    · exact State.mem_foldl (fun s u => by simp) _ s

@[simp] theorem State.mem_containPartition (s : State) (lnum : BitVec 12) : (s.containPartition lnum).dev.mem = s.dev.mem := by
  unfold State.containPartition
  split
  · rfl
  · split
    · simp
    · exact State.mem_foldl (fun s k => by simp) _ s
    · simp

@[simp] theorem State.mem_containLaunch (s : State) (lnum : BitVec 12) (us : List UnitRec) : (s.containLaunch lnum us).dev.mem = s.dev.mem := by
  unfold State.containLaunch
  split
  · rfl
  · split <;> simp

@[simp] theorem State.mem_containGang (s : State) (lnum : BitVec 12) (u : UnitRec) : (s.containGang lnum u).dev.mem = s.dev.mem := by
  unfold State.containGang
  split
  · rfl
  · dsimp only
    split
    · split <;> simp
    · simp
    · simp
    · simp

@[simp] theorem State.mem_unitFault (s : State) (lnum : BitVec 12) (wuid n : Nat) (corrected : Bool) (cause info : Word) :
    (s.unitFault lnum wuid n corrected cause info).dev.mem = s.dev.mem := by
  unfold State.unitFault
  split
  · split <;> simp
  · dsimp only
    split
    · split <;> simp
    · split
      · split <;> simp
      · simp
      · simp
      · simp

@[simp] theorem State.mem_faultEvent (s : State) (n : Nat) (corrected : Bool) (cause info : Word) :
    (s.faultEvent n corrected cause info).dev.mem = s.dev.mem := by
  unfold State.faultEvent
  split <;> simp

/-! ## Taking a trap and returning (R233, R234) -/

/-- What a core holds for, keeps of an instruction and has still to trap for is over once it takes a trap. -/
def Core.cleared (c : Core) : Core := { c.unhold with trapDue := none }

/-- A trap enters K or F; nothing else of the state changes but the marks of a held member (R202, R233), and, where the core is at F in a trap
already, what its fault event does (R250). -/
theorem State.takeTrap_cases (s : State) (int : Bool) (n : Nat) (info ret : Word) (word : Option IWord) :
    ∃ t : State, (t = s.markHeld (int && n == 33) word ∨
        (t = s.coreFatal (setBit (BitVec.ofNat 64 n) 63 int) info ∧ bit s.core.fstatus 4 = true ∧ int = false)) ∧
      ((∃ dbl, s.takeTrap int n info ret word = t.modCore fun c => c.cleared.enterF dbl (setBit (BitVec.ofNat 64 n) 63 int) info ret) ∨
        s.takeTrap int n info ret word = t.modCore fun c => c.cleared.enterK (setBit (BitVec.ofNat 64 n) 63 int) info ret) := by
  unfold State.takeTrap
  dsimp only
  generalize (if s.core.trapLevel n = .k ∧ bit s.core.kstat 3 = true ∧ int = false then Level.f else s.core.trapLevel n) = target
  have entered (t : State) : (∃ dbl, (t.modCore fun c => if target = .k then c.cleared.enterK (setBit (BitVec.ofNat 64 n) 63 int) info ret
        else c.cleared.enterF (decide (s.core.trapLevel n = .k ∧ bit s.core.kstat 3 = true ∧ int = false))
          (setBit (BitVec.ofNat 64 n) 63 int) info ret) =
        t.modCore fun c => c.cleared.enterF dbl (setBit (BitVec.ofNat 64 n) 63 int) info ret) ∨
      (t.modCore fun c => if target = .k then c.cleared.enterK (setBit (BitVec.ofNat 64 n) 63 int) info ret
        else c.cleared.enterF (decide (s.core.trapLevel n = .k ∧ bit s.core.kstat 3 = true ∧ int = false))
          (setBit (BitVec.ofNat 64 n) 63 int) info ret) =
        t.modCore fun c => c.cleared.enterK (setBit (BitVec.ofNat 64 n) 63 int) info ret := by
    by_cases hk : target = .k
    · simp only [if_pos hk]
      exact .inr trivial
    · simp only [if_neg hk]
      exact .inl ⟨_, rfl⟩
  by_cases hf : target = .f ∧ bit s.core.fstatus 4 = true ∧ int = false
  · rw [if_pos hf]
    exact ⟨_, .inr ⟨rfl, hf.2⟩, entered _⟩
  · rw [if_neg hf]
    exact ⟨_, .inl rfl, entered _⟩

@[simp] theorem State.dev_markHeld (s : State) (preempt : Bool) (word : Option IWord) : (s.markHeld preempt word).dev = s.dev := by
  unfold State.markHeld
  split
  · rfl
  · split
    · split <;> rfl
    · split
      · rfl
      · split <;> rfl

/-- A core of no gang is not marked. -/
theorem State.markHeld_alone {s : State} (h : s.core.link = none) (preempt : Bool) (word : Option IWord) : s.markHeld preempt word = s := by
  unfold State.markHeld
  rw [h]

@[simp] theorem State.mem_takeTrap (s : State) (int : Bool) (n : Nat) (info ret : Word) (word : Option IWord) :
    (s.takeTrap int n info ret word).dev.mem = s.dev.mem := by
  obtain ⟨t, ht, he⟩ := s.takeTrap_cases int n info ret word
  have hm : t.dev.mem = s.dev.mem := by
    rcases ht with rfl | ⟨rfl, -⟩
    · simp
    · exact State.mem_faultEvent _ _ _ _ _
  rcases he with ⟨dbl, h⟩ | h <;> rw [h] <;> exact hm

@[simp] theorem State.mem_raiseTrap (s : State) (n : Nat) (info ret : Word) (word : Option IWord) :
    (s.raiseTrap n info ret word).dev.mem = s.dev.mem := by
  unfold State.raiseTrap
  split <;> simp

/-- A core of no gang returns to nothing of a stream. -/
theorem State.returnToStream_alone {s : State} (h : s.core.link = none) : s.returnToStream = s := by
  unfold State.returnToStream
  rw [h]

@[simp] theorem State.mem_returnToStream (s : State) : s.returnToStream.dev.mem = s.dev.mem := by
  unfold State.returnToStream
  split
  · dsimp only
    repeat' split
    all_goals simp
  · rfl

@[simp] theorem State.mem_restartMatrix (s : State) : s.restartMatrix.dev.mem = s.dev.mem := by
  unfold State.restartMatrix State.giveSlots
  split <;> simp

@[simp] theorem State.mem_tret (s : State) : s.tret.dev.mem = s.dev.mem := by
  simp [State.tret]

/-! ## Retiring -/

/-- A core of no gang books no slot. -/
theorem State.bookSlot_alone (s : State) {before : Core} (h : before.link = none) (word : IWord) : s.bookSlot before word = s := by
  unfold State.bookSlot
  rw [h]

@[simp] theorem State.mem_bookSlot (s : State) (before : Core) (word : IWord) : (s.bookSlot before word).dev.mem = s.dev.mem := by
  unfold State.bookSlot
  split
  · rfl
  · split <;> simp

/-- An instruction with a body answers a next state, which is one of three: the body retired, held the core, or trapped. -/
theorem runFlow_cases {i : Instr} {body : Act Flow} {s u : State} (h : runFlow i body s = .next u) :
    (∃ f t, body s = .ok f t ∧ u = s.retired i f t) ∨
    (∃ n info r t, body s = .error (.trap n info r) t ∧
      u = t.raiseTrap n info (r.resolve s.ctx.pc) (some (wordOf i))) ∨
    (∃ w t, body s = .error (.hold w) t ∧ u = t.holdAt w (wordOf i)) := by
  unfold runFlow at h
  cases h
  rcases body s with ⟨f, t⟩ | ⟨⟨n, info, r⟩ | w, t⟩
  · exact .inl ⟨f, t, rfl, rfl⟩
  · exact .inr (.inl ⟨n, info, r, t, rfl, rfl⟩)
  · exact .inr (.inr ⟨w, t, rfl, rfl⟩)

/-! ## Bodies that keep memory canonical -/

/-- A part of an instruction leaves memory canonical, however it comes out. -/
def KeepsMem {ε α : Type} (m : EStateM ε State α) : Prop :=
  ∀ s : State, s.memOk → match m s with
    | .ok _ t => t.memOk
    | .error _ t => t.memOk

theorem keeps_pure {ε α : Type} (a : α) : KeepsMem (pure a : EStateM ε State α) := fun _ h => h

theorem keeps_throw {ε α : Type} (e : ε) : KeepsMem (throw e : EStateM ε State α) := fun _ h => h

theorem keeps_get {ε : Type} : KeepsMem (get : EStateM ε State State) := fun _ h => h

theorem keeps_modify {ε : Type} {f : State → State} (hf : ∀ s, s.memOk → (f s).memOk) :
    KeepsMem (modify f : EStateM ε State PUnit) := hf

theorem keeps_bind {ε α β : Type} {m : EStateM ε State α} {f : α → EStateM ε State β} (hm : KeepsMem m) (hf : ∀ a, KeepsMem (f a)) :
    KeepsMem (m >>= f) := by
  intro s hs
  have h := hm s hs
  rw [run_bind]
  split at h <;> simp_all [KeepsMem]

theorem keeps_ite {ε α : Type} {c : Prop} [Decidable c] {a b : EStateM ε State α} (ha : KeepsMem a) (hb : KeepsMem b) :
    KeepsMem (if c then a else b) := by
  split
  · exact ha
  · exact hb

theorem keeps_liftChk {α : Type} {c : Chk α} (h : KeepsMem c) : KeepsMem (liftChk c) := by
  intro s hs
  have hc := h s hs
  unfold liftChk
  cases hr : c s <;> rw [hr] at hc <;> exact hc

/-- An instruction whose body keeps memory canonical keeps it. -/
theorem runFlow_memOk {i : Instr} {body : Act Flow} (hb : KeepsMem body) {s u : State} (hs : s.memOk) (h : runFlow i body s = .next u) :
    u.memOk := by
  have hk := hb s hs
  rcases runFlow_cases h with ⟨f, t, hr, rfl⟩ | ⟨n, info, r, t, hr, rfl⟩ | ⟨w, t, hr, rfl⟩
  · rw [hr] at hk
    exact State.memOk_of_mem (State.mem_bookSlot _ _ _) hk
  · rw [hr] at hk
    exact State.memOk_of_mem (State.mem_raiseTrap _ _ _ _ _) hk
  · rw [hr] at hk
    exact hk

theorem runSeq_memOk {i : Instr} {body : Act Unit} (hb : KeepsMem body) {s u : State} (hs : s.memOk) (h : runSeq i body s = .next u) :
    u.memOk := runFlow_memOk (keeps_bind hb fun _ => keeps_pure _) hs h

end Sys2Proof.Machine
end

