-- ==== Sys2Proof/Laws/Access.lean ====
section
/-!
SUPPORT. The checks of an access and a core's own loads and stores: each keeps the canonical form of memory.
-/

namespace Sys2Proof.Machine

/-! ## Parts -/

/-- A part that looks at the state keeps memory canonical if it does so for a state that is. -/
theorem keeps_seen {ε α : Type} {f : State → EStateM ε State α} (hf : ∀ s, s.memOk → KeepsMem (f s)) : KeepsMem (get >>= f) := by
  intro s hs
  rw [run_bind, run_get]
  exact hf s hs s hs

theorem keeps_meetError {ε : Type} (key : Nat) : KeepsMem (modifyGet fun s => s.meetError key : EStateM ε State Word) :=
  fun _ h => State.memOk_meetError h key

theorem keeps_set {ε : Type} {s : State} (hs : s.memOk) : KeepsMem (set s : EStateM ε State PUnit) := fun _ _ => hs
theorem keeps_failWith {α : Type} (n : Nat) (info : Word) : KeepsMem (failWith n info : Chk α) := fun _ h => h
theorem keeps_trap {α : Type} (n : Nat) (info : Word) : KeepsMem (trap n info : Act α) := fun _ h => h
theorem keeps_holdFor {α : Type} (h : Hold) : KeepsMem (holdFor h : Act α) := fun _ g => g
theorem keeps_modCtx (f : Ctx → Ctx) : KeepsMem (modCtx f) := fun _ h => h
theorem keeps_modCore (f : Core → Core) : KeepsMem (modCore f) := fun _ h => h
theorem keeps_getX (r : Reg) : KeepsMem (getX r) := fun _ h => h
theorem keeps_setX (r : Reg) (v : Word) : KeepsMem (setX r v) := fun _ h => h

theorem keeps_mapM {ε α β : Type} {f : α → EStateM ε State β} (hf : ∀ a, KeepsMem (f a)) : ∀ l : List α, KeepsMem (l.mapM f)
  | [] => by rw [List.mapM_nil]; exact keeps_pure _
  | a :: l => by
    rw [List.mapM_cons]
    exact keeps_bind (hf a) fun _ => keeps_bind (keeps_mapM hf l) fun _ => keeps_pure _

theorem keeps_forM {ε α : Type} {f : α → EStateM ε State PUnit} (hf : ∀ a, KeepsMem (f a)) : ∀ l : List α, KeepsMem (forM l f)
  | [] => keeps_pure _
  | a :: l => by
    rw [List.forM_cons]
    exact keeps_bind (hf a) fun _ => keeps_forM hf l

/-- Running a check on the side: the state that it leaves is canonical. -/
theorem memOk_runChk {α : Type} {c : Chk α} (hc : KeepsMem c) {s : State} (hs : s.memOk) : (runChk c s).2.memOk := by
  have h := hc s hs
  unfold runChk
  cases hr : c s <;> rw [hr] at h <;> exact h

/-! ## Translation (R81 to R88) -/

@[simp] theorem State.mem_modCluster (s : State) (n : Nat) (f : Cluster → Cluster) : (s.modCluster n f).dev.mem = s.dev.mem := by
  unfold State.modCluster
  split <;> rfl

@[simp] theorem State.mem_tlbFill (s : State) (w : Who) (e : TlbEntry) : (s.tlbFill w e).dev.mem = s.dev.mem := by
  unfold State.tlbFill
  split
  · rfl
  · dsimp only
    split <;> simp

theorem keeps_walkerUpdate (ea : Nat) (e : Word) (stores : Bool) : KeepsMem (walkerUpdate ea e stores) := by
  unfold walkerUpdate
  exact keeps_ite (keeps_bind (keeps_modify fun _ h => State.memOk_poke h _ _) fun _ => keeps_pure _) (keeps_pure _)

theorem keeps_walkerRead (fetch : Bool) (ea : Nat) : KeepsMem (walkerRead fetch ea) := by
  unfold walkerRead
  refine keeps_seen fun s hs => ?_
  split
  · exact keeps_bind (keeps_meetError _) fun _ => keeps_failWith _ _
  · exact keeps_seen fun _ _ => keeps_pure _

theorem keeps_walkLeaf (acc : Acc) (asid : BitVec 16) (tag va level table ea : Nat) (e : Word) :
    KeepsMem (walkLeaf acc asid tag va level table ea e) := by
  unfold walkLeaf
  dsimp only
  repeat' first
    | with_reducible exact keeps_pure _
    | with_reducible exact keeps_failWith _ _
    | with_reducible exact keeps_walkerUpdate _ _ _
    | with_reducible exact keeps_mapM (fun _ => keeps_walkerRead _ _) _
    | with_reducible refine keeps_seen fun _ _ => ?_
    | with_reducible refine keeps_bind ?_ fun _ => ?_
    | with_reducible refine keeps_ite ?_ ?_

theorem keeps_walkFrom (acc : Acc) (asid : BitVec 16) (tag va : Nat) : ∀ level table, KeepsMem (walkFrom acc asid tag va level table) := by
  intro level
  induction level with
  | zero =>
    intro table
    unfold walkFrom
    dsimp only
    repeat' first
      | with_reducible exact keeps_pure _
      | with_reducible exact keeps_failWith _ _
      | with_reducible exact keeps_walkerRead _ _
      | with_reducible exact keeps_walkLeaf _ _ _ _ _ _ _ _
      | with_reducible refine keeps_seen fun _ _ => ?_
      | with_reducible refine keeps_bind ?_ fun _ => ?_
      | with_reducible refine keeps_ite ?_ ?_
      | split
  | succ n ih =>
    intro table
    unfold walkFrom
    dsimp only
    repeat' first
      | with_reducible exact keeps_pure _
      | with_reducible exact keeps_failWith _ _
      | with_reducible exact keeps_walkerRead _ _
      | with_reducible exact keeps_walkLeaf _ _ _ _ _ _ _ _
      | with_reducible exact ih _
      | with_reducible refine keeps_seen fun _ _ => ?_
      | with_reducible refine keeps_bind ?_ fun _ => ?_
      | with_reducible refine keeps_ite ?_ ?_
      | (with_reducible refine keeps_modify fun _ h => ?_); exact h
      | split

theorem keeps_pageWalk (w : Who) (acc : Acc) (tag va : Nat) : KeepsMem (pageWalk w acc tag va) := by
  unfold pageWalk
  dsimp only
  repeat' first
    | with_reducible exact keeps_pure _
    | with_reducible exact keeps_failWith _ _
    | with_reducible exact keeps_walkFrom _ _ _ _ _ _
    | with_reducible exact keeps_modify fun s h => State.memOk_of_mem (s.mem_tlbFill w _) h
    | with_reducible refine keeps_bind ?_ fun _ => ?_
    | with_reducible refine keeps_ite ?_ ?_

theorem keeps_translate (w : Who) (acc : Acc) (p : Word) : KeepsMem (translate w acc p) := by
  unfold translate
  dsimp only
  repeat' first
    | with_reducible exact keeps_pure _
    | with_reducible exact keeps_failWith _ _
    | with_reducible exact keeps_pageWalk _ _ _ _
    | with_reducible refine keeps_seen fun _ _ => ?_
    | with_reducible refine keeps_bind ?_ fun _ => ?_
    | with_reducible refine keeps_ite ?_ ?_
    | split

/-- The checks of a scalar access keep memory canonical (R25). -/
theorem keeps_resolve (w : Who) (acc : Acc) (p : Word) (n a : Nat) : KeepsMem (resolve w acc p n a) := by
  unfold resolve
  dsimp only
  repeat' first
    | with_reducible exact keeps_pure _
    | with_reducible exact keeps_failWith _ _
    | with_reducible exact keeps_translate _ _ _
    | with_reducible refine keeps_seen fun _ _ => ?_
    | with_reducible refine keeps_bind ?_ fun _ => ?_
    | with_reducible refine keeps_ite ?_ ?_
    | split

theorem keeps_translatePieces (w : Who) (acc : Acc) (p : Word) (ps : List (Nat × Nat)) : KeepsMem (translatePieces w acc p ps) := by
  unfold translatePieces
  refine keeps_mapM (fun q => keeps_seen fun s hs => ?_) ps
  have hr := memOk_runChk (keeps_translate w acc (p + BitVec.ofNat 64 q.1)) hs
  split
  · next h => rw [h] at hr; exact keeps_bind (keeps_set hr) fun _ => keeps_pure _
  · next h => rw [h] at hr; exact keeps_bind (keeps_set hr) fun _ => keeps_failWith _ _

/-- The checks of an access of many bytes keep memory canonical (R25). -/
theorem keeps_resolveSpan (w : Who) (acc : Acc) (p : Word) (n a : Nat) : KeepsMem (resolveSpan w acc p n a) := by
  unfold resolveSpan
  dsimp only
  repeat' first
    | with_reducible exact keeps_pure _
    | with_reducible exact keeps_failWith _ _
    | with_reducible exact keeps_translatePieces _ _ _ _
    | with_reducible refine keeps_mapM (fun _ => ?_) _
    | with_reducible refine keeps_seen fun _ _ => ?_
    | with_reducible refine keeps_bind ?_ fun _ => ?_
    | with_reducible refine keeps_ite ?_ ?_
    | split

theorem keeps_checkFormat (p : Word) : KeepsMem (checkFormat p) := keeps_ite (keeps_failWith _ _) (keeps_pure _)
theorem keeps_checkScalar (p : Word) : KeepsMem (checkScalar p) := keeps_ite (keeps_failWith _ _) (keeps_pure _)

theorem keeps_scalarKey (acc : Acc) (p : Word) (n : Nat) : KeepsMem (scalarKey acc p n) :=
  keeps_seen fun _ _ => keeps_liftChk (keeps_bind (keeps_checkScalar p) fun _ => keeps_resolve _ _ _ _ _)

theorem mem_notePassed (s : State) (ps : List (Nat × Nat)) : (s.notePassed ps).dev.mem = s.dev.mem := by
  unfold State.notePassed
  dsimp only
  split <;> rfl

/-- Checks that see the ports of another moment change no memory for that. -/
theorem keeps_asLeft {c : Chk (List (Nat × Nat))} (hc : KeepsMem c) : KeepsMem (asLeft c) := by
  intro s hs
  have h := hc s hs
  have g := hc (s.modDev fun d => { d with portDown := 0 }) hs
  dsimp only [asLeft]
  cases e : c s with
  | ok ps t => rw [e] at h; simpa only [State.memOk, mem_notePassed] using h
  | error n t =>
    rw [e] at h
    cases r : c (s.modDev fun d => { d with portDown := 0 }) with
    | ok ps u =>
      rw [r] at g
      cases w : s.haveLeft ps <;> simp only [w, if_true, if_false, Bool.false_eq_true]
      · exact h
      · exact g
    | error _ _ => exact h

theorem keeps_spanKeys (acc : Acc) (p : Word) (n a : Nat) : KeepsMem (spanKeys acc p n a) :=
  have c (w : Who) : KeepsMem (do checkFormat p; resolveSpan w acc p n a) := keeps_bind (keeps_checkFormat p) fun _ => keeps_resolveSpan _ _ _ _ _
  keeps_seen fun s _ => keeps_liftChk (keeps_ite (c s.who) (keeps_asLeft (c s.who)))

/-! ## Loads and stores (R26 to R30) -/

theorem keeps_homeRead (key n : Nat) : KeepsMem (homeRead key n) := by
  unfold homeRead
  have rest : KeepsMem (do
      modify fun s => s.drainLines s.core.id key n s.dev.seq
      match (← get).dev.badWord key n with
      | some w => trap cEccUncorr (← modifyGet fun s => s.meetError w)
      | none => return (← get).peek key n : Act (List Byte)) := by
    refine keeps_bind (keeps_modify fun _ h => State.memOk_drainLines h _ _ _ _) fun _ => keeps_seen fun s hs => ?_
    split
    · exact keeps_bind (keeps_meetError _) fun _ => keeps_trap _ _
    · exact keeps_seen fun _ _ => keeps_pure _
  exact keeps_seen fun _ _ => keeps_ite (keeps_bind (keeps_holdFor _) fun _ => rest) rest

theorem keeps_farRead (key n : Nat) : KeepsMem (farRead key n) := by
  unfold farRead
  refine keeps_seen fun s _ => ?_
  split
  · split
    · exact keeps_trap _ _
    · exact keeps_pure _
  · exact keeps_bind (keeps_modCore _) fun _ => keeps_holdFor _

theorem keeps_coreRead (key n : Nat) : KeepsMem (coreRead key n) :=
  keeps_ite (keeps_bind (keeps_mapM (fun (q : Nat × Nat) => keeps_farRead q.1 q.2) _) fun _ => keeps_pure _) (keeps_homeRead key n)

theorem keeps_coreReadSpan (ps : List (Nat × Nat)) : KeepsMem (coreReadSpan ps) :=
  keeps_bind (keeps_mapM (fun q => keeps_coreRead q.1 q.2) ps) fun _ => keeps_pure _

theorem keeps_coreReadNat (key n : Nat) : KeepsMem (coreReadNat key n) := keeps_bind (keeps_coreRead key n) fun _ => keeps_pure _

theorem keeps_roomFor (n : Nat) : KeepsMem (roomFor n) := keeps_seen fun _ _ => keeps_ite (keeps_holdFor _) (keeps_pure _)

theorem keeps_storePiece (append : Bool) (p : Nat × List Byte) : KeepsMem (storePiece append p) :=
  keeps_modify fun s h => by
    split
    · exact State.memOk_launchFlight h _ _ _ _ _
    · exact State.memOk_pokeOwn h _ _

theorem keeps_coreWriteLines (append : Bool) (lines : List (Nat × List Byte)) : KeepsMem (coreWriteLines append lines) :=
  keeps_seen fun _ _ => keeps_ite
    (keeps_bind (keeps_holdFor _) fun _ => keeps_bind (keeps_roomFor _) fun _ => keeps_forM (keeps_storePiece append) _)
    (keeps_bind (keeps_roomFor _) fun _ => keeps_forM (keeps_storePiece append) _)

theorem keeps_coreWrite (key : Nat) (bs : List Byte) : KeepsMem (coreWrite key bs) := keeps_coreWriteLines _ _

theorem keeps_coreWriteSpan (append : Bool) (ps : List (Nat × Nat)) (bs : List Byte) : KeepsMem (coreWriteSpan append ps bs) :=
  keeps_coreWriteLines _ _

theorem keeps_loadBytes (p : Word) (n a : Nat) : KeepsMem (loadBytes p n a) :=
  keeps_bind (keeps_spanKeys _ _ _ _) fun _ => keeps_coreReadSpan _

theorem keeps_fetchBytes (p : Word) (n a : Nat) : KeepsMem (fetchBytes p n a) :=
  keeps_seen fun _ _ => keeps_bind (keeps_liftChk (keeps_bind (keeps_checkFormat p) fun _ => keeps_resolveSpan _ _ _ _ _)) fun _ =>
    keeps_bind (keeps_mapM (fun (q : Nat × Nat) => keeps_homeRead q.1 q.2) _) fun _ => keeps_pure _

theorem keeps_storeBytes (p : Word) (bs : List Byte) (a : Nat) : KeepsMem (storeBytes p bs a) :=
  keeps_bind (keeps_spanKeys _ _ _ _) fun _ => keeps_coreWriteSpan _ _ _

theorem keeps_releaseFence (scope : Scope) : KeepsMem (releaseFence scope) :=
  keeps_seen fun _ _ => keeps_ite (keeps_holdFor _) (keeps_pure _)

theorem keeps_acquireFence : KeepsMem acquireFence :=
  keeps_seen fun _ _ => keeps_ite (keeps_bind (keeps_holdFor _) fun _ => keeps_modCtx _) (keeps_modCtx _)

theorem keeps_leaveFor (i : Instr) (key n : Nat) : KeepsMem (leaveFor i key n) := keeps_bind (keeps_modCore _) fun _ => keeps_holdFor _

end Sys2Proof.Machine
end

