-- ==== Sys2Proof/Laws/Fields.lean ====
section
/-!
SUPPORT. The fields of an encoded word: what each extraction that the decoder makes yields of a word that the encoder built.
-/

namespace Sys2Proof.Laws

theorem extract_above {n m : Nat} (x : BitVec n) (y : BitVec m) {s k : Nat} (h : m ≤ s) :
    (x ++ y).extractLsb' s k = x.extractLsb' (s - m) k := by
  apply BitVec.eq_of_getLsbD_eq
  intro i hi
  have below : ¬ (s + i < m) := by omega
  simp [BitVec.getLsbD_append, below, show s + i - m = s - m + i by omega]

theorem extract_below {n m : Nat} (x : BitVec n) (y : BitVec m) {s k : Nat} (h : s + k ≤ m) :
    (x ++ y).extractLsb' s k = y.extractLsb' s k := by
  apply BitVec.eq_of_getLsbD_eq
  intro i hi
  have below : s + i < m := by omega
  simp [BitVec.getLsbD_append, below]

/-- A field of a field is a field of the word. -/
theorem extract_extract {n : Nat} (w : BitVec n) {a b s k : Nat} (h : s + k ≤ b) :
    (w.extractLsb' a b).extractLsb' s k = w.extractLsb' (a + s) k := by
  apply BitVec.eq_of_getLsbD_eq
  intro i hi
  have inside : s + i < b := by omega
  simp [inside, Nat.add_assoc]

@[simp] theorem wOpr_26_6 (fn : BitVec 9) (d a b : Reg) : BitVec.extractLsb' 26 6 (wOpr fn d a b) = 0x01#6 := by
  unfold wOpr
  rw [extract_above, extract_above, extract_above, extract_above, extract_above] <;> try decide

@[simp] theorem wOpr_21_5 (fn : BitVec 9) (d a b : Reg) : BitVec.extractLsb' 21 5 (wOpr fn d a b) = d := by
  unfold wOpr
  rw [extract_above, extract_above, extract_above, extract_above, extract_below] <;> try decide
  simp

@[simp] theorem wOpr_16_5 (fn : BitVec 9) (d a b : Reg) : BitVec.extractLsb' 16 5 (wOpr fn d a b) = a := by
  unfold wOpr
  rw [extract_above, extract_above, extract_above, extract_below] <;> try decide
  simp

@[simp] theorem wOpr_11_5 (fn : BitVec 9) (d a b : Reg) : BitVec.extractLsb' 11 5 (wOpr fn d a b) = b := by
  unfold wOpr
  rw [extract_above, extract_above, extract_below] <;> try decide
  simp

@[simp] theorem wOpr_9_2 (fn : BitVec 9) (d a b : Reg) : BitVec.extractLsb' 9 2 (wOpr fn d a b) = 0#2 := by
  unfold wOpr
  rw [extract_above, extract_below] <;> try decide

@[simp] theorem wOpr_0_9 (fn : BitVec 9) (d a b : Reg) : BitVec.extractLsb' 0 9 (wOpr fn d a b) = fn := by
  unfold wOpr
  rw [extract_below] <;> try decide
  simp

@[simp] theorem wShift_26_6 (fn : BitVec 9) (d a : Reg) (sh : BitVec 6) : BitVec.extractLsb' 26 6 (wShift fn d a sh) = 0x01#6 := by
  unfold wShift
  rw [extract_above, extract_above, extract_above, extract_above, extract_above] <;> try decide

@[simp] theorem wShift_21_5 (fn : BitVec 9) (d a : Reg) (sh : BitVec 6) : BitVec.extractLsb' 21 5 (wShift fn d a sh) = d := by
  unfold wShift
  rw [extract_above, extract_above, extract_above, extract_above, extract_below] <;> try decide
  simp

@[simp] theorem wShift_16_5 (fn : BitVec 9) (d a : Reg) (sh : BitVec 6) : BitVec.extractLsb' 16 5 (wShift fn d a sh) = a := by
  unfold wShift
  rw [extract_above, extract_above, extract_above, extract_below] <;> try decide
  simp

@[simp] theorem wShift_10_6 (fn : BitVec 9) (d a : Reg) (sh : BitVec 6) : BitVec.extractLsb' 10 6 (wShift fn d a sh) = sh := by
  unfold wShift
  rw [extract_above, extract_above, extract_below] <;> try decide
  simp

@[simp] theorem wShift_9_1 (fn : BitVec 9) (d a : Reg) (sh : BitVec 6) : BitVec.extractLsb' 9 1 (wShift fn d a sh) = 0#1 := by
  unfold wShift
  rw [extract_above, extract_below] <;> try decide

@[simp] theorem wShift_0_9 (fn : BitVec 9) (d a : Reg) (sh : BitVec 6) : BitVec.extractLsb' 0 9 (wShift fn d a sh) = fn := by
  unfold wShift
  rw [extract_below] <;> try decide
  simp

@[simp] theorem packImm_26_6 (op : BitVec 6) (a b : Reg) (imm : BitVec 16) : BitVec.extractLsb' 26 6 (packImm op a b imm) = op := by
  unfold packImm
  rw [extract_above, extract_above, extract_above] <;> try decide
  simp

@[simp] theorem packImm_21_5 (op : BitVec 6) (a b : Reg) (imm : BitVec 16) : BitVec.extractLsb' 21 5 (packImm op a b imm) = a := by
  unfold packImm
  rw [extract_above, extract_above, extract_below] <;> try decide
  simp

@[simp] theorem packImm_16_5 (op : BitVec 6) (a b : Reg) (imm : BitVec 16) : BitVec.extractLsb' 16 5 (packImm op a b imm) = b := by
  unfold packImm
  rw [extract_above, extract_below] <;> try decide
  simp

@[simp] theorem packImm_0_16 (op : BitVec 6) (a b : Reg) (imm : BitVec 16) : BitVec.extractLsb' 0 16 (packImm op a b imm) = imm := by
  unfold packImm
  rw [extract_below] <;> try decide
  simp

@[simp] theorem wK_26_6 (op : BitVec 6) (d a : Reg) (sub : BitVec 12) (fn : BitVec 4) : BitVec.extractLsb' 26 6 (wK op d a sub fn) = op := by
  unfold wK
  rw [extract_above, extract_above, extract_above, extract_above] <;> try decide
  simp

@[simp] theorem wK_21_5 (op : BitVec 6) (d a : Reg) (sub : BitVec 12) (fn : BitVec 4) : BitVec.extractLsb' 21 5 (wK op d a sub fn) = d := by
  unfold wK
  rw [extract_above, extract_above, extract_above, extract_below] <;> try decide
  simp

@[simp] theorem wK_16_5 (op : BitVec 6) (d a : Reg) (sub : BitVec 12) (fn : BitVec 4) : BitVec.extractLsb' 16 5 (wK op d a sub fn) = a := by
  unfold wK
  rw [extract_above, extract_above, extract_below] <;> try decide
  simp

@[simp] theorem wK_4_12 (op : BitVec 6) (d a : Reg) (sub : BitVec 12) (fn : BitVec 4) : BitVec.extractLsb' 4 12 (wK op d a sub fn) = sub := by
  unfold wK
  rw [extract_above, extract_below] <;> try decide
  simp

@[simp] theorem wK_0_4 (op : BitVec 6) (d a : Reg) (sub : BitVec 12) (fn : BitVec 4) : BitVec.extractLsb' 0 4 (wK op d a sub fn) = fn := by
  unfold wK
  rw [extract_below] <;> try decide
  simp

@[simp] theorem wMsg_26_6 (fn : BitVec 4) (d a : Reg) (ch : BitVec 4) (vec : Bool) : BitVec.extractLsb' 26 6 (wMsg fn d a ch vec) = 0x20#6 := by
  unfold wMsg
  rw [extract_above, extract_above, extract_above, extract_above, extract_above, extract_above, extract_above] <;> try decide

@[simp] theorem wMsg_21_5 (fn : BitVec 4) (d a : Reg) (ch : BitVec 4) (vec : Bool) : BitVec.extractLsb' 21 5 (wMsg fn d a ch vec) = d := by
  unfold wMsg
  rw [extract_above, extract_above, extract_above, extract_above, extract_above, extract_above, extract_below] <;> try decide
  simp

@[simp] theorem wMsg_16_5 (fn : BitVec 4) (d a : Reg) (ch : BitVec 4) (vec : Bool) : BitVec.extractLsb' 16 5 (wMsg fn d a ch vec) = a := by
  unfold wMsg
  rw [extract_above, extract_above, extract_above, extract_above, extract_above, extract_below] <;> try decide
  simp

@[simp] theorem wMsg_7_4 (fn : BitVec 4) (d a : Reg) (ch : BitVec 4) (vec : Bool) : BitVec.extractLsb' 7 4 (wMsg fn d a ch vec) = ch := by
  unfold wMsg
  rw [extract_above, extract_above, extract_below] <;> try decide
  simp

@[simp] theorem wMsg_11_1 (fn : BitVec 4) (d a : Reg) (ch : BitVec 4) (vec : Bool) : BitVec.extractLsb' 11 1 (wMsg fn d a ch vec) = (bit vec) := by
  unfold wMsg
  rw [extract_above, extract_above, extract_above, extract_below] <;> try decide
  simp

@[simp] theorem wMsg_12_4 (fn : BitVec 4) (d a : Reg) (ch : BitVec 4) (vec : Bool) : BitVec.extractLsb' 12 4 (wMsg fn d a ch vec) = 0#4 := by
  unfold wMsg
  rw [extract_above, extract_above, extract_above, extract_above, extract_below] <;> try decide

@[simp] theorem wMsg_4_3 (fn : BitVec 4) (d a : Reg) (ch : BitVec 4) (vec : Bool) : BitVec.extractLsb' 4 3 (wMsg fn d a ch vec) = 0#3 := by
  unfold wMsg
  rw [extract_above, extract_below] <;> try decide

@[simp] theorem wMsg_0_4 (fn : BitVec 4) (d a : Reg) (ch : BitVec 4) (vec : Bool) : BitVec.extractLsb' 0 4 (wMsg fn d a ch vec) = fn := by
  unfold wMsg
  rw [extract_below] <;> try decide
  simp

@[simp] theorem wFence_26_6 (k : FenceKind) (s : Scope) : BitVec.extractLsb' 26 6 (wFence k s) = 0x20#6 := by
  unfold wFence
  rw [extract_above, extract_above, extract_above, extract_above, extract_above, extract_above] <;> try decide

@[simp] theorem wFence_21_5 (k : FenceKind) (s : Scope) : BitVec.extractLsb' 21 5 (wFence k s) = 0#5 := by
  unfold wFence
  rw [extract_above, extract_above, extract_above, extract_above, extract_above, extract_below] <;> try decide

@[simp] theorem wFence_16_5 (k : FenceKind) (s : Scope) : BitVec.extractLsb' 16 5 (wFence k s) = 0#5 := by
  unfold wFence
  rw [extract_above, extract_above, extract_above, extract_above, extract_below] <;> try decide

@[simp] theorem wFence_7_2 (k : FenceKind) (s : Scope) : BitVec.extractLsb' 7 2 (wFence k s) = k.code := by
  unfold wFence
  rw [extract_above, extract_above, extract_below] <;> try decide
  simp

@[simp] theorem wFence_4_3 (k : FenceKind) (s : Scope) : BitVec.extractLsb' 4 3 (wFence k s) = s.code := by
  unfold wFence
  rw [extract_above, extract_below] <;> try decide
  simp

@[simp] theorem wFence_9_7 (k : FenceKind) (s : Scope) : BitVec.extractLsb' 9 7 (wFence k s) = 0#7 := by
  unfold wFence
  rw [extract_above, extract_above, extract_above, extract_below] <;> try decide

@[simp] theorem wFence_0_4 (k : FenceKind) (s : Scope) : BitVec.extractLsb' 0 4 (wFence k s) = 0#4 := by
  unfold wFence
  rw [extract_below] <;> try decide

@[simp] theorem wEvent_26_6 (fn : BitVec 4) (a : Reg) (ev : BitVec 3) : BitVec.extractLsb' 26 6 (wEvent fn a ev) = 0x20#6 := by
  unfold wEvent
  rw [extract_above, extract_above, extract_above, extract_above, extract_above, extract_above] <;> try decide

@[simp] theorem wEvent_21_5 (fn : BitVec 4) (a : Reg) (ev : BitVec 3) : BitVec.extractLsb' 21 5 (wEvent fn a ev) = 0#5 := by
  unfold wEvent
  rw [extract_above, extract_above, extract_above, extract_above, extract_above, extract_below] <;> try decide

@[simp] theorem wEvent_16_5 (fn : BitVec 4) (a : Reg) (ev : BitVec 3) : BitVec.extractLsb' 16 5 (wEvent fn a ev) = a := by
  unfold wEvent
  rw [extract_above, extract_above, extract_above, extract_above, extract_below] <;> try decide
  simp

@[simp] theorem wEvent_10_6 (fn : BitVec 4) (a : Reg) (ev : BitVec 3) : BitVec.extractLsb' 10 6 (wEvent fn a ev) = 0#6 := by
  unfold wEvent
  rw [extract_above, extract_above, extract_above, extract_below] <;> try decide

@[simp] theorem wEvent_4_3 (fn : BitVec 4) (a : Reg) (ev : BitVec 3) : BitVec.extractLsb' 4 3 (wEvent fn a ev) = 0#3 := by
  unfold wEvent
  rw [extract_above, extract_below] <;> try decide

@[simp] theorem wEvent_7_3 (fn : BitVec 4) (a : Reg) (ev : BitVec 3) : BitVec.extractLsb' 7 3 (wEvent fn a ev) = ev := by
  unfold wEvent
  rw [extract_above, extract_above, extract_below] <;> try decide
  simp

@[simp] theorem wEvent_0_4 (fn : BitVec 4) (a : Reg) (ev : BitVec 3) : BitVec.extractLsb' 0 4 (wEvent fn a ev) = fn := by
  unfold wEvent
  rw [extract_below] <;> try decide
  simp

@[simp] theorem wAtom_26_6 (fn : BitVec 2) (d a b : Reg) (aop : BitVec 4) (o : BitVec 5) : BitVec.extractLsb' 26 6 (wAtom fn d a b aop o) = 0x21#6 := by
  unfold wAtom
  rw [extract_above, extract_above, extract_above, extract_above, extract_above, extract_above] <;> try decide

@[simp] theorem wAtom_21_5 (fn : BitVec 2) (d a b : Reg) (aop : BitVec 4) (o : BitVec 5) : BitVec.extractLsb' 21 5 (wAtom fn d a b aop o) = d := by
  unfold wAtom
  rw [extract_above, extract_above, extract_above, extract_above, extract_above, extract_below] <;> try decide
  simp

@[simp] theorem wAtom_16_5 (fn : BitVec 2) (d a b : Reg) (aop : BitVec 4) (o : BitVec 5) : BitVec.extractLsb' 16 5 (wAtom fn d a b aop o) = a := by
  unfold wAtom
  rw [extract_above, extract_above, extract_above, extract_above, extract_below] <;> try decide
  simp

@[simp] theorem wAtom_11_5 (fn : BitVec 2) (d a b : Reg) (aop : BitVec 4) (o : BitVec 5) : BitVec.extractLsb' 11 5 (wAtom fn d a b aop o) = b := by
  unfold wAtom
  rw [extract_above, extract_above, extract_above, extract_below] <;> try decide
  simp

@[simp] theorem wAtom_9_2 (fn : BitVec 2) (d a b : Reg) (aop : BitVec 4) (o : BitVec 5) : BitVec.extractLsb' 9 2 (wAtom fn d a b aop o) = fn := by
  unfold wAtom
  rw [extract_above, extract_above, extract_below] <;> try decide
  simp

@[simp] theorem wAtom_5_4 (fn : BitVec 2) (d a b : Reg) (aop : BitVec 4) (o : BitVec 5) : BitVec.extractLsb' 5 4 (wAtom fn d a b aop o) = aop := by
  unfold wAtom
  rw [extract_above, extract_below] <;> try decide
  simp

@[simp] theorem wAtom_3_2 (fn : BitVec 2) (d a b : Reg) (aop : BitVec 4) (o : BitVec 5) : BitVec.extractLsb' 3 2 (wAtom fn d a b aop o) = o.extractLsb' 3 2 := by
  unfold wAtom
  rw [extract_below] <;> try decide

@[simp] theorem wAtom_0_3 (fn : BitVec 2) (d a b : Reg) (aop : BitVec 4) (o : BitVec 5) : BitVec.extractLsb' 0 3 (wAtom fn d a b aop o) = o.extractLsb' 0 3 := by
  unfold wAtom
  rw [extract_below] <;> try decide

@[simp] theorem wCell_26_6 (fn : BitVec 3) (d a b : Reg) : BitVec.extractLsb' 26 6 (wCell fn d a b) = 0x22#6 := by
  unfold wCell
  rw [extract_above, extract_above, extract_above, extract_above, extract_above] <;> try decide

@[simp] theorem wCell_21_5 (fn : BitVec 3) (d a b : Reg) : BitVec.extractLsb' 21 5 (wCell fn d a b) = d := by
  unfold wCell
  rw [extract_above, extract_above, extract_above, extract_above, extract_below] <;> try decide
  simp

@[simp] theorem wCell_16_5 (fn : BitVec 3) (d a b : Reg) : BitVec.extractLsb' 16 5 (wCell fn d a b) = a := by
  unfold wCell
  rw [extract_above, extract_above, extract_above, extract_below] <;> try decide
  simp

@[simp] theorem wCell_11_5 (fn : BitVec 3) (d a b : Reg) : BitVec.extractLsb' 11 5 (wCell fn d a b) = b := by
  unfold wCell
  rw [extract_above, extract_above, extract_below] <;> try decide
  simp

@[simp] theorem wCell_3_8 (fn : BitVec 3) (d a b : Reg) : BitVec.extractLsb' 3 8 (wCell fn d a b) = 0#8 := by
  unfold wCell
  rw [extract_above, extract_below] <;> try decide

@[simp] theorem wCell_0_3 (fn : BitVec 3) (d a b : Reg) : BitVec.extractLsb' 0 3 (wCell fn d a b) = fn := by
  unfold wCell
  rw [extract_below] <;> try decide
  simp

@[simp] theorem wXfer_26_6 (fn : BitVec 5) (a b c : Reg) (tag : BitVec 6) : BitVec.extractLsb' 26 6 (wXfer fn a b c tag) = 0x23#6 := by
  unfold wXfer
  rw [extract_above, extract_above, extract_above, extract_above, extract_above] <;> try decide

@[simp] theorem wXfer_21_5 (fn : BitVec 5) (a b c : Reg) (tag : BitVec 6) : BitVec.extractLsb' 21 5 (wXfer fn a b c tag) = a := by
  unfold wXfer
  rw [extract_above, extract_above, extract_above, extract_above, extract_below] <;> try decide
  simp

@[simp] theorem wXfer_16_5 (fn : BitVec 5) (a b c : Reg) (tag : BitVec 6) : BitVec.extractLsb' 16 5 (wXfer fn a b c tag) = b := by
  unfold wXfer
  rw [extract_above, extract_above, extract_above, extract_below] <;> try decide
  simp

@[simp] theorem wXfer_11_5 (fn : BitVec 5) (a b c : Reg) (tag : BitVec 6) : BitVec.extractLsb' 11 5 (wXfer fn a b c tag) = c := by
  unfold wXfer
  rw [extract_above, extract_above, extract_below] <;> try decide
  simp

@[simp] theorem wXfer_5_6 (fn : BitVec 5) (a b c : Reg) (tag : BitVec 6) : BitVec.extractLsb' 5 6 (wXfer fn a b c tag) = tag := by
  unfold wXfer
  rw [extract_above, extract_below] <;> try decide
  simp

@[simp] theorem wXfer_0_5 (fn : BitVec 5) (a b c : Reg) (tag : BitVec 6) : BitVec.extractLsb' 0 5 (wXfer fn a b c tag) = fn := by
  unfold wXfer
  rw [extract_below] <;> try decide
  simp

@[simp] theorem wVmem_26_6 (fn : BitVec 3) (wd : Wd) (vd xb c : Reg) (pc : BitVec 4) : BitVec.extractLsb' 26 6 (wVmem fn wd vd xb c pc) = 0x24#6 := by
  unfold wVmem
  rw [extract_above, extract_above, extract_above, extract_above, extract_above, extract_above, extract_above] <;> try decide

@[simp] theorem wVmem_21_5 (fn : BitVec 3) (wd : Wd) (vd xb c : Reg) (pc : BitVec 4) : BitVec.extractLsb' 21 5 (wVmem fn wd vd xb c pc) = vd := by
  unfold wVmem
  rw [extract_above, extract_above, extract_above, extract_above, extract_above, extract_above, extract_below] <;> try decide
  simp

@[simp] theorem wVmem_16_5 (fn : BitVec 3) (wd : Wd) (vd xb c : Reg) (pc : BitVec 4) : BitVec.extractLsb' 16 5 (wVmem fn wd vd xb c pc) = xb := by
  unfold wVmem
  rw [extract_above, extract_above, extract_above, extract_above, extract_above, extract_below] <;> try decide
  simp

@[simp] theorem wVmem_11_5 (fn : BitVec 3) (wd : Wd) (vd xb c : Reg) (pc : BitVec 4) : BitVec.extractLsb' 11 5 (wVmem fn wd vd xb c pc) = c := by
  unfold wVmem
  rw [extract_above, extract_above, extract_above, extract_above, extract_below] <;> try decide
  simp

@[simp] theorem wVmem_9_2 (fn : BitVec 3) (wd : Wd) (vd xb c : Reg) (pc : BitVec 4) : BitVec.extractLsb' 9 2 (wVmem fn wd vd xb c pc) = wd.code := by
  unfold wVmem
  rw [extract_above, extract_above, extract_above, extract_below] <;> try decide
  simp

@[simp] theorem wVmem_5_4 (fn : BitVec 3) (wd : Wd) (vd xb c : Reg) (pc : BitVec 4) : BitVec.extractLsb' 5 4 (wVmem fn wd vd xb c pc) = pc := by
  unfold wVmem
  rw [extract_above, extract_above, extract_below] <;> try decide
  simp

@[simp] theorem wVmem_3_2 (fn : BitVec 3) (wd : Wd) (vd xb c : Reg) (pc : BitVec 4) : BitVec.extractLsb' 3 2 (wVmem fn wd vd xb c pc) = 0#2 := by
  unfold wVmem
  rw [extract_above, extract_below] <;> try decide

@[simp] theorem wVmem_0_3 (fn : BitVec 3) (wd : Wd) (vd xb c : Reg) (pc : BitVec 4) : BitVec.extractLsb' 0 3 (wVmem fn wd vd xb c pc) = fn := by
  unfold wVmem
  rw [extract_below] <;> try decide
  simp

@[simp] theorem wV_26_6 (op fn : BitVec 6) (ty : Ty) (wd : Wd) (a b c : Reg) : BitVec.extractLsb' 26 6 (wV op fn ty wd a b c) = op := by
  unfold wV
  rw [extract_above, extract_above, extract_above, extract_above, extract_above, extract_above] <;> try decide
  simp

@[simp] theorem wV_21_5 (op fn : BitVec 6) (ty : Ty) (wd : Wd) (a b c : Reg) : BitVec.extractLsb' 21 5 (wV op fn ty wd a b c) = a := by
  unfold wV
  rw [extract_above, extract_above, extract_above, extract_above, extract_above, extract_below] <;> try decide
  simp

@[simp] theorem wV_16_5 (op fn : BitVec 6) (ty : Ty) (wd : Wd) (a b c : Reg) : BitVec.extractLsb' 16 5 (wV op fn ty wd a b c) = b := by
  unfold wV
  rw [extract_above, extract_above, extract_above, extract_above, extract_below] <;> try decide
  simp

@[simp] theorem wV_11_5 (op fn : BitVec 6) (ty : Ty) (wd : Wd) (a b c : Reg) : BitVec.extractLsb' 11 5 (wV op fn ty wd a b c) = c := by
  unfold wV
  rw [extract_above, extract_above, extract_above, extract_below] <;> try decide
  simp

@[simp] theorem wV_9_2 (op fn : BitVec 6) (ty : Ty) (wd : Wd) (a b c : Reg) : BitVec.extractLsb' 9 2 (wV op fn ty wd a b c) = wd.code := by
  unfold wV
  rw [extract_above, extract_above, extract_below] <;> try decide
  simp

@[simp] theorem wV_6_3 (op fn : BitVec 6) (ty : Ty) (wd : Wd) (a b c : Reg) : BitVec.extractLsb' 6 3 (wV op fn ty wd a b c) = ty.code := by
  unfold wV
  rw [extract_above, extract_below] <;> try decide
  simp

@[simp] theorem wV_0_6 (op fn : BitVec 6) (ty : Ty) (wd : Wd) (a b c : Reg) : BitVec.extractLsb' 0 6 (wV op fn ty wd a b c) = fn := by
  unfold wV
  rw [extract_below] <;> try decide
  simp

@[simp] theorem wGang_26_6 (fn : BitVec 4) (a b : Reg) (id : BitVec 8) (wd : BitVec 2) (dir : Bool) : BitVec.extractLsb' 26 6 (wGang fn a b id wd dir) = 0x2A#6 := by
  unfold wGang
  rw [extract_above, extract_above, extract_above, extract_above, extract_above, extract_above, extract_above] <;> try decide

@[simp] theorem wGang_21_5 (fn : BitVec 4) (a b : Reg) (id : BitVec 8) (wd : BitVec 2) (dir : Bool) : BitVec.extractLsb' 21 5 (wGang fn a b id wd dir) = a := by
  unfold wGang
  rw [extract_above, extract_above, extract_above, extract_above, extract_above, extract_above, extract_below] <;> try decide
  simp

@[simp] theorem wGang_16_5 (fn : BitVec 4) (a b : Reg) (id : BitVec 8) (wd : BitVec 2) (dir : Bool) : BitVec.extractLsb' 16 5 (wGang fn a b id wd dir) = b := by
  unfold wGang
  rw [extract_above, extract_above, extract_above, extract_above, extract_above, extract_below] <;> try decide
  simp

@[simp] theorem wGang_8_8 (fn : BitVec 4) (a b : Reg) (id : BitVec 8) (wd : BitVec 2) (dir : Bool) : BitVec.extractLsb' 8 8 (wGang fn a b id wd dir) = id := by
  unfold wGang
  rw [extract_above, extract_above, extract_above, extract_above, extract_below] <;> try decide
  simp

@[simp] theorem wGang_6_2 (fn : BitVec 4) (a b : Reg) (id : BitVec 8) (wd : BitVec 2) (dir : Bool) : BitVec.extractLsb' 6 2 (wGang fn a b id wd dir) = wd := by
  unfold wGang
  rw [extract_above, extract_above, extract_above, extract_below] <;> try decide
  simp

@[simp] theorem wGang_5_1 (fn : BitVec 4) (a b : Reg) (id : BitVec 8) (wd : BitVec 2) (dir : Bool) : BitVec.extractLsb' 5 1 (wGang fn a b id wd dir) = (bit dir) := by
  unfold wGang
  rw [extract_above, extract_above, extract_below] <;> try decide
  simp

@[simp] theorem wGang_4_1 (fn : BitVec 4) (a b : Reg) (id : BitVec 8) (wd : BitVec 2) (dir : Bool) : BitVec.extractLsb' 4 1 (wGang fn a b id wd dir) = 0#1 := by
  unfold wGang
  rw [extract_above, extract_below] <;> try decide

@[simp] theorem wGang_0_4 (fn : BitVec 4) (a b : Reg) (id : BitVec 8) (wd : BitVec 2) (dir : Bool) : BitVec.extractLsb' 0 4 (wGang fn a b id wd dir) = fn := by
  unfold wGang
  rw [extract_below] <;> try decide
  simp

@[simp] theorem wMtx_26_6 (fn : BitVec 3) (ac : BitVec 3) (wt : BitVec 2) (b c : Reg) (p : BitVec 3) (pri : BitVec 2) (tag : BitVec 3) : BitVec.extractLsb' 26 6 (wMtx fn ac wt b c p pri tag) = 0x2B#6 := by
  unfold wMtx
  rw [extract_above, extract_above, extract_above, extract_above, extract_above, extract_above, extract_above, extract_above] <;> try decide

@[simp] theorem wMtx_23_3 (fn : BitVec 3) (ac : BitVec 3) (wt : BitVec 2) (b c : Reg) (p : BitVec 3) (pri : BitVec 2) (tag : BitVec 3) : BitVec.extractLsb' 23 3 (wMtx fn ac wt b c p pri tag) = ac := by
  unfold wMtx
  rw [extract_above, extract_above, extract_above, extract_above, extract_above, extract_above, extract_above, extract_below] <;> try decide
  simp

@[simp] theorem wMtx_21_2 (fn : BitVec 3) (ac : BitVec 3) (wt : BitVec 2) (b c : Reg) (p : BitVec 3) (pri : BitVec 2) (tag : BitVec 3) : BitVec.extractLsb' 21 2 (wMtx fn ac wt b c p pri tag) = wt := by
  unfold wMtx
  rw [extract_above, extract_above, extract_above, extract_above, extract_above, extract_above, extract_below] <;> try decide
  simp

@[simp] theorem wMtx_16_5 (fn : BitVec 3) (ac : BitVec 3) (wt : BitVec 2) (b c : Reg) (p : BitVec 3) (pri : BitVec 2) (tag : BitVec 3) : BitVec.extractLsb' 16 5 (wMtx fn ac wt b c p pri tag) = b := by
  unfold wMtx
  rw [extract_above, extract_above, extract_above, extract_above, extract_above, extract_below] <;> try decide
  simp

@[simp] theorem wMtx_11_5 (fn : BitVec 3) (ac : BitVec 3) (wt : BitVec 2) (b c : Reg) (p : BitVec 3) (pri : BitVec 2) (tag : BitVec 3) : BitVec.extractLsb' 11 5 (wMtx fn ac wt b c p pri tag) = c := by
  unfold wMtx
  rw [extract_above, extract_above, extract_above, extract_above, extract_below] <;> try decide
  simp

@[simp] theorem wMtx_8_3 (fn : BitVec 3) (ac : BitVec 3) (wt : BitVec 2) (b c : Reg) (p : BitVec 3) (pri : BitVec 2) (tag : BitVec 3) : BitVec.extractLsb' 8 3 (wMtx fn ac wt b c p pri tag) = p := by
  unfold wMtx
  rw [extract_above, extract_above, extract_above, extract_below] <;> try decide
  simp

@[simp] theorem wMtx_6_2 (fn : BitVec 3) (ac : BitVec 3) (wt : BitVec 2) (b c : Reg) (p : BitVec 3) (pri : BitVec 2) (tag : BitVec 3) : BitVec.extractLsb' 6 2 (wMtx fn ac wt b c p pri tag) = pri := by
  unfold wMtx
  rw [extract_above, extract_above, extract_below] <;> try decide
  simp

@[simp] theorem wMtx_3_3 (fn : BitVec 3) (ac : BitVec 3) (wt : BitVec 2) (b c : Reg) (p : BitVec 3) (pri : BitVec 2) (tag : BitVec 3) : BitVec.extractLsb' 3 3 (wMtx fn ac wt b c p pri tag) = tag := by
  unfold wMtx
  rw [extract_above, extract_below] <;> try decide
  simp

@[simp] theorem wMtx_13_3 (fn : BitVec 3) (ac : BitVec 3) (wt : BitVec 2) (b c : Reg) (p : BitVec 3) (pri : BitVec 2) (tag : BitVec 3) : BitVec.extractLsb' 13 3 (wMtx fn ac wt b c p pri tag) = c.extractLsb' 2 3 := by
  unfold wMtx
  rw [extract_above, extract_above, extract_above, extract_above, extract_below] <;> try decide

@[simp] theorem wMtx_11_2 (fn : BitVec 3) (ac : BitVec 3) (wt : BitVec 2) (b c : Reg) (p : BitVec 3) (pri : BitVec 2) (tag : BitVec 3) : BitVec.extractLsb' 11 2 (wMtx fn ac wt b c p pri tag) = c.extractLsb' 0 2 := by
  unfold wMtx
  rw [extract_above, extract_above, extract_above, extract_above, extract_below] <;> try decide

@[simp] theorem wMtx_19_2 (fn : BitVec 3) (ac : BitVec 3) (wt : BitVec 2) (b c : Reg) (p : BitVec 3) (pri : BitVec 2) (tag : BitVec 3) : BitVec.extractLsb' 19 2 (wMtx fn ac wt b c p pri tag) = b.extractLsb' 3 2 := by
  unfold wMtx
  rw [extract_above, extract_above, extract_above, extract_above, extract_above, extract_below] <;> try decide

@[simp] theorem wMtx_16_3 (fn : BitVec 3) (ac : BitVec 3) (wt : BitVec 2) (b c : Reg) (p : BitVec 3) (pri : BitVec 2) (tag : BitVec 3) : BitVec.extractLsb' 16 3 (wMtx fn ac wt b c p pri tag) = b.extractLsb' 0 3 := by
  unfold wMtx
  rw [extract_above, extract_above, extract_above, extract_above, extract_above, extract_below] <;> try decide

@[simp] theorem wMtx_0_3 (fn : BitVec 3) (ac : BitVec 3) (wt : BitVec 2) (b c : Reg) (p : BitVec 3) (pri : BitVec 2) (tag : BitVec 3) : BitVec.extractLsb' 0 3 (wMtx fn ac wt b c p pri tag) = fn := by
  unfold wMtx
  rw [extract_below] <;> try decide
  simp

@[simp] theorem wRule_26_6 (fn : BitVec 3) (a b c : Reg) (sel : BitVec 2) : BitVec.extractLsb' 26 6 (wRule fn a b c sel) = 0x2C#6 := by
  unfold wRule
  rw [extract_above, extract_above, extract_above, extract_above, extract_above, extract_above] <;> try decide

@[simp] theorem wRule_21_5 (fn : BitVec 3) (a b c : Reg) (sel : BitVec 2) : BitVec.extractLsb' 21 5 (wRule fn a b c sel) = a := by
  unfold wRule
  rw [extract_above, extract_above, extract_above, extract_above, extract_above, extract_below] <;> try decide
  simp

@[simp] theorem wRule_16_5 (fn : BitVec 3) (a b c : Reg) (sel : BitVec 2) : BitVec.extractLsb' 16 5 (wRule fn a b c sel) = b := by
  unfold wRule
  rw [extract_above, extract_above, extract_above, extract_above, extract_below] <;> try decide
  simp

@[simp] theorem wRule_11_5 (fn : BitVec 3) (a b c : Reg) (sel : BitVec 2) : BitVec.extractLsb' 11 5 (wRule fn a b c sel) = c := by
  unfold wRule
  rw [extract_above, extract_above, extract_above, extract_below] <;> try decide
  simp

@[simp] theorem wRule_5_6 (fn : BitVec 3) (a b c : Reg) (sel : BitVec 2) : BitVec.extractLsb' 5 6 (wRule fn a b c sel) = 0#6 := by
  unfold wRule
  rw [extract_above, extract_above, extract_below] <;> try decide

@[simp] theorem wRule_3_2 (fn : BitVec 3) (a b c : Reg) (sel : BitVec 2) : BitVec.extractLsb' 3 2 (wRule fn a b c sel) = sel := by
  unfold wRule
  rw [extract_above, extract_below] <;> try decide
  simp

@[simp] theorem wRule_0_3 (fn : BitVec 3) (a b c : Reg) (sel : BitVec 2) : BitVec.extractLsb' 0 3 (wRule fn a b c sel) = fn := by
  unfold wRule
  rw [extract_below] <;> try decide
  simp

@[simp] theorem wRiff_26_6 (fn : BitVec 4) (a b c : Reg) (dd : BitVec 4) (len : BitVec 2) (cor : Bool) : BitVec.extractLsb' 26 6 (wRiff fn a b c dd len cor) = 0x2D#6 := by
  unfold wRiff
  rw [extract_above, extract_above, extract_above, extract_above, extract_above, extract_above, extract_above] <;> try decide

@[simp] theorem wRiff_21_5 (fn : BitVec 4) (a b c : Reg) (dd : BitVec 4) (len : BitVec 2) (cor : Bool) : BitVec.extractLsb' 21 5 (wRiff fn a b c dd len cor) = a := by
  unfold wRiff
  rw [extract_above, extract_above, extract_above, extract_above, extract_above, extract_above, extract_below] <;> try decide
  simp

@[simp] theorem wRiff_16_5 (fn : BitVec 4) (a b c : Reg) (dd : BitVec 4) (len : BitVec 2) (cor : Bool) : BitVec.extractLsb' 16 5 (wRiff fn a b c dd len cor) = b := by
  unfold wRiff
  rw [extract_above, extract_above, extract_above, extract_above, extract_above, extract_below] <;> try decide
  simp

@[simp] theorem wRiff_11_5 (fn : BitVec 4) (a b c : Reg) (dd : BitVec 4) (len : BitVec 2) (cor : Bool) : BitVec.extractLsb' 11 5 (wRiff fn a b c dd len cor) = c := by
  unfold wRiff
  rw [extract_above, extract_above, extract_above, extract_above, extract_below] <;> try decide
  simp

@[simp] theorem wRiff_7_4 (fn : BitVec 4) (a b c : Reg) (dd : BitVec 4) (len : BitVec 2) (cor : Bool) : BitVec.extractLsb' 7 4 (wRiff fn a b c dd len cor) = dd := by
  unfold wRiff
  rw [extract_above, extract_above, extract_above, extract_below] <;> try decide
  simp

@[simp] theorem wRiff_7_3 (fn : BitVec 4) (a b c : Reg) (dd : BitVec 4) (len : BitVec 2) (cor : Bool) : BitVec.extractLsb' 7 3 (wRiff fn a b c dd len cor) = dd.extractLsb' 0 3 := by
  unfold wRiff
  rw [extract_above, extract_above, extract_above, extract_below] <;> try decide

@[simp] theorem wRiff_10_1 (fn : BitVec 4) (a b c : Reg) (dd : BitVec 4) (len : BitVec 2) (cor : Bool) : BitVec.extractLsb' 10 1 (wRiff fn a b c dd len cor) = dd.extractLsb' 3 1 := by
  unfold wRiff
  rw [extract_above, extract_above, extract_above, extract_below] <;> try decide

@[simp] theorem wRiff_5_2 (fn : BitVec 4) (a b c : Reg) (dd : BitVec 4) (len : BitVec 2) (cor : Bool) : BitVec.extractLsb' 5 2 (wRiff fn a b c dd len cor) = len := by
  unfold wRiff
  rw [extract_above, extract_above, extract_below] <;> try decide
  simp

@[simp] theorem wRiff_4_1 (fn : BitVec 4) (a b c : Reg) (dd : BitVec 4) (len : BitVec 2) (cor : Bool) : BitVec.extractLsb' 4 1 (wRiff fn a b c dd len cor) = (bit cor) := by
  unfold wRiff
  rw [extract_above, extract_below] <;> try decide
  simp

@[simp] theorem wRiff_0_4 (fn : BitVec 4) (a b c : Reg) (dd : BitVec 4) (len : BitVec 2) (cor : Bool) : BitVec.extractLsb' 0 4 (wRiff fn a b c dd len cor) = fn := by
  unfold wRiff
  rw [extract_below] <;> try decide
  simp

@[simp] theorem jal_26_6 (a : Reg) (off : BitVec 21) : BitVec.extractLsb' 26 6 ((0x1C#6) ++ a ++ off : IWord) = 0x1C#6 := by
  rw [extract_above, extract_above] <;> try decide

@[simp] theorem jal_21_5 (a : Reg) (off : BitVec 21) : BitVec.extractLsb' 21 5 ((0x1C#6) ++ a ++ off : IWord) = a := by
  rw [extract_above, extract_below] <;> try decide
  simp

@[simp] theorem jal_0_21 (a : Reg) (off : BitVec 21) : BitVec.extractLsb' 0 21 ((0x1C#6) ++ a ++ off : IWord) = off := by
  rw [extract_below] <;> try decide
  simp

@[simp] theorem loop_26_6 (lvl : BitVec 1) (a : Reg) (off : BitVec 20) : BitVec.extractLsb' 26 6 ((0x1E#6) ++ lvl ++ a ++ off : IWord) = 0x1E#6 := by
  rw [extract_above, extract_above, extract_above] <;> try decide

@[simp] theorem loop_25_1 (lvl : BitVec 1) (a : Reg) (off : BitVec 20) : BitVec.extractLsb' 25 1 ((0x1E#6) ++ lvl ++ a ++ off : IWord) = lvl := by
  rw [extract_above, extract_above, extract_below] <;> try decide
  simp

@[simp] theorem loop_20_5 (lvl : BitVec 1) (a : Reg) (off : BitVec 20) : BitVec.extractLsb' 20 5 ((0x1E#6) ++ lvl ++ a ++ off : IWord) = a := by
  rw [extract_above, extract_below] <;> try decide
  simp

@[simp] theorem loop_0_20 (lvl : BitVec 1) (a : Reg) (off : BitVec 20) : BitVec.extractLsb' 0 20 ((0x1E#6) ++ lvl ++ a ++ off : IWord) = off := by
  rw [extract_below] <;> try decide
  simp

@[simp] theorem mcast_26_6 (d a c : Reg) : BitVec.extractLsb' 26 6 ((0x20#6) ++ d ++ a ++ c ++ (0#7) ++ (9#4) : IWord) = 0x20#6 := by
  rw [extract_above, extract_above, extract_above, extract_above, extract_above] <;> try decide

@[simp] theorem mcast_21_5 (d a c : Reg) : BitVec.extractLsb' 21 5 ((0x20#6) ++ d ++ a ++ c ++ (0#7) ++ (9#4) : IWord) = d := by
  rw [extract_above, extract_above, extract_above, extract_above, extract_below] <;> try decide
  simp

@[simp] theorem mcast_16_5 (d a c : Reg) : BitVec.extractLsb' 16 5 ((0x20#6) ++ d ++ a ++ c ++ (0#7) ++ (9#4) : IWord) = a := by
  rw [extract_above, extract_above, extract_above, extract_below] <;> try decide
  simp

@[simp] theorem mcast_11_5 (d a c : Reg) : BitVec.extractLsb' 11 5 ((0x20#6) ++ d ++ a ++ c ++ (0#7) ++ (9#4) : IWord) = c := by
  rw [extract_above, extract_above, extract_below] <;> try decide
  simp

@[simp] theorem mcast_4_7 (d a c : Reg) : BitVec.extractLsb' 4 7 ((0x20#6) ++ d ++ a ++ c ++ (0#7) ++ (9#4) : IWord) = 0#7 := by
  rw [extract_above, extract_below] <;> try decide

@[simp] theorem mcast_0_4 (d a c : Reg) : BitVec.extractLsb' 0 4 ((0x20#6) ++ d ++ a ++ c ++ (0#7) ++ (9#4) : IWord) = 9#4 := by
  rw [extract_below] <;> try decide

@[simp] theorem sopen_26_6 (s : BitVec 2) (xv xl : Reg) (k : StreamKind) (xc : Reg) : BitVec.extractLsb' 26 6 ((0x28#6) ++ streamReg s ++ xv ++ xl ++ k.code ++ xc ++ (0#1) ++ (0#3) : IWord) = 0x28#6 := by
  rw [extract_above, extract_above, extract_above, extract_above, extract_above, extract_above, extract_above] <;> try decide

@[simp] theorem sopen_21_5 (s : BitVec 2) (xv xl : Reg) (k : StreamKind) (xc : Reg) : BitVec.extractLsb' 21 5 ((0x28#6) ++ streamReg s ++ xv ++ xl ++ k.code ++ xc ++ (0#1) ++ (0#3) : IWord) = (streamReg s) := by
  rw [extract_above, extract_above, extract_above, extract_above, extract_above, extract_above, extract_below] <;> try decide
  simp

@[simp] theorem sopen_16_5 (s : BitVec 2) (xv xl : Reg) (k : StreamKind) (xc : Reg) : BitVec.extractLsb' 16 5 ((0x28#6) ++ streamReg s ++ xv ++ xl ++ k.code ++ xc ++ (0#1) ++ (0#3) : IWord) = xv := by
  rw [extract_above, extract_above, extract_above, extract_above, extract_above, extract_below] <;> try decide
  simp

@[simp] theorem sopen_11_5 (s : BitVec 2) (xv xl : Reg) (k : StreamKind) (xc : Reg) : BitVec.extractLsb' 11 5 ((0x28#6) ++ streamReg s ++ xv ++ xl ++ k.code ++ xc ++ (0#1) ++ (0#3) : IWord) = xl := by
  rw [extract_above, extract_above, extract_above, extract_above, extract_below] <;> try decide
  simp

@[simp] theorem sopen_9_2 (s : BitVec 2) (xv xl : Reg) (k : StreamKind) (xc : Reg) : BitVec.extractLsb' 9 2 ((0x28#6) ++ streamReg s ++ xv ++ xl ++ k.code ++ xc ++ (0#1) ++ (0#3) : IWord) = k.code := by
  rw [extract_above, extract_above, extract_above, extract_below] <;> try decide
  simp

@[simp] theorem sopen_4_5 (s : BitVec 2) (xv xl : Reg) (k : StreamKind) (xc : Reg) : BitVec.extractLsb' 4 5 ((0x28#6) ++ streamReg s ++ xv ++ xl ++ k.code ++ xc ++ (0#1) ++ (0#3) : IWord) = xc := by
  rw [extract_above, extract_above, extract_below] <;> try decide
  simp

@[simp] theorem sopen_3_1 (s : BitVec 2) (xv xl : Reg) (k : StreamKind) (xc : Reg) : BitVec.extractLsb' 3 1 ((0x28#6) ++ streamReg s ++ xv ++ xl ++ k.code ++ xc ++ (0#1) ++ (0#3) : IWord) = 0#1 := by
  rw [extract_above, extract_below] <;> try decide

@[simp] theorem sopen_0_3 (s : BitVec 2) (xv xl : Reg) (k : StreamKind) (xc : Reg) : BitVec.extractLsb' 0 3 ((0x28#6) ++ streamReg s ++ xv ++ xl ++ k.code ++ xc ++ (0#1) ++ (0#3) : IWord) = 0#3 := by
  rw [extract_below] <;> try decide

@[simp] theorem sadv_26_6 (s : BitVec 2) (x : Reg) : BitVec.extractLsb' 26 6 ((0x28#6) ++ streamReg s ++ x ++ (0#13) ++ (1#3) : IWord) = 0x28#6 := by
  rw [extract_above, extract_above, extract_above, extract_above] <;> try decide

@[simp] theorem sadv_21_5 (s : BitVec 2) (x : Reg) : BitVec.extractLsb' 21 5 ((0x28#6) ++ streamReg s ++ x ++ (0#13) ++ (1#3) : IWord) = (streamReg s) := by
  rw [extract_above, extract_above, extract_above, extract_below] <;> try decide
  simp

@[simp] theorem sadv_16_5 (s : BitVec 2) (x : Reg) : BitVec.extractLsb' 16 5 ((0x28#6) ++ streamReg s ++ x ++ (0#13) ++ (1#3) : IWord) = x := by
  rw [extract_above, extract_above, extract_below] <;> try decide
  simp

@[simp] theorem sadv_3_13 (s : BitVec 2) (x : Reg) : BitVec.extractLsb' 3 13 ((0x28#6) ++ streamReg s ++ x ++ (0#13) ++ (1#3) : IWord) = 0#13 := by
  rw [extract_above, extract_below] <;> try decide

@[simp] theorem sadv_0_3 (s : BitVec 2) (x : Reg) : BitVec.extractLsb' 0 3 ((0x28#6) ++ streamReg s ++ x ++ (0#13) ++ (1#3) : IWord) = 1#3 := by
  rw [extract_below] <;> try decide

@[simp] theorem stend_26_6 (s : BitVec 2) (off : BitVec 13) : BitVec.extractLsb' 26 6 ((0x28#6) ++ streamReg s ++ (0#5) ++ off ++ (2#3) : IWord) = 0x28#6 := by
  rw [extract_above, extract_above, extract_above, extract_above] <;> try decide

@[simp] theorem stend_21_5 (s : BitVec 2) (off : BitVec 13) : BitVec.extractLsb' 21 5 ((0x28#6) ++ streamReg s ++ (0#5) ++ off ++ (2#3) : IWord) = (streamReg s) := by
  rw [extract_above, extract_above, extract_above, extract_below] <;> try decide
  simp

@[simp] theorem stend_16_5 (s : BitVec 2) (off : BitVec 13) : BitVec.extractLsb' 16 5 ((0x28#6) ++ streamReg s ++ (0#5) ++ off ++ (2#3) : IWord) = 0#5 := by
  rw [extract_above, extract_above, extract_below] <;> try decide

@[simp] theorem stend_3_13 (s : BitVec 2) (off : BitVec 13) : BitVec.extractLsb' 3 13 ((0x28#6) ++ streamReg s ++ (0#5) ++ off ++ (2#3) : IWord) = off := by
  rw [extract_above, extract_below] <;> try decide
  simp

@[simp] theorem stend_0_3 (s : BitVec 2) (off : BitVec 13) : BitVec.extractLsb' 0 3 ((0x28#6) ++ streamReg s ++ (0#5) ++ off ++ (2#3) : IWord) = 2#3 := by
  rw [extract_below] <;> try decide

@[simp] theorem sclose_26_6 (s : BitVec 2) : BitVec.extractLsb' 26 6 ((0x28#6) ++ streamReg s ++ (0#5) ++ (0#13) ++ (3#3) : IWord) = 0x28#6 := by
  rw [extract_above, extract_above, extract_above, extract_above] <;> try decide

@[simp] theorem sclose_21_5 (s : BitVec 2) : BitVec.extractLsb' 21 5 ((0x28#6) ++ streamReg s ++ (0#5) ++ (0#13) ++ (3#3) : IWord) = (streamReg s) := by
  rw [extract_above, extract_above, extract_above, extract_below] <;> try decide
  simp

@[simp] theorem sclose_16_5 (s : BitVec 2) : BitVec.extractLsb' 16 5 ((0x28#6) ++ streamReg s ++ (0#5) ++ (0#13) ++ (3#3) : IWord) = 0#5 := by
  rw [extract_above, extract_above, extract_below] <;> try decide

@[simp] theorem sclose_3_13 (s : BitVec 2) : BitVec.extractLsb' 3 13 ((0x28#6) ++ streamReg s ++ (0#5) ++ (0#13) ++ (3#3) : IWord) = 0#13 := by
  rw [extract_above, extract_below] <;> try decide

@[simp] theorem sclose_0_3 (s : BitVec 2) : BitVec.extractLsb' 0 3 ((0x28#6) ++ streamReg s ++ (0#5) ++ (0#13) ++ (3#3) : IWord) = 3#3 := by
  rw [extract_below] <;> try decide

@[simp] theorem smerge_26_6 (vn : Reg) (u : Bool) : BitVec.extractLsb' 26 6 ((0x28#6) ++ vn ++ (0#5) ++ (0#12) ++ bit u ++ (4#3) : IWord) = 0x28#6 := by
  rw [extract_above, extract_above, extract_above, extract_above, extract_above] <;> try decide

@[simp] theorem smerge_21_5 (vn : Reg) (u : Bool) : BitVec.extractLsb' 21 5 ((0x28#6) ++ vn ++ (0#5) ++ (0#12) ++ bit u ++ (4#3) : IWord) = vn := by
  rw [extract_above, extract_above, extract_above, extract_above, extract_below] <;> try decide
  simp

@[simp] theorem smerge_16_5 (vn : Reg) (u : Bool) : BitVec.extractLsb' 16 5 ((0x28#6) ++ vn ++ (0#5) ++ (0#12) ++ bit u ++ (4#3) : IWord) = 0#5 := by
  rw [extract_above, extract_above, extract_above, extract_below] <;> try decide

@[simp] theorem smerge_4_12 (vn : Reg) (u : Bool) : BitVec.extractLsb' 4 12 ((0x28#6) ++ vn ++ (0#5) ++ (0#12) ++ bit u ++ (4#3) : IWord) = 0#12 := by
  rw [extract_above, extract_above, extract_below] <;> try decide

@[simp] theorem smerge_3_1 (vn : Reg) (u : Bool) : BitVec.extractLsb' 3 1 ((0x28#6) ++ vn ++ (0#5) ++ (0#12) ++ bit u ++ (4#3) : IWord) = (bit u) := by
  rw [extract_above, extract_below] <;> try decide
  simp

@[simp] theorem smerge_0_3 (vn : Reg) (u : Bool) : BitVec.extractLsb' 0 3 ((0x28#6) ++ vn ++ (0#5) ++ (0#12) ++ bit u ++ (4#3) : IWord) = 4#3 := by
  rw [extract_below] <;> try decide

@[simp] theorem spos_26_6 (x : Reg) (s : BitVec 2) : BitVec.extractLsb' 26 6 ((0x28#6) ++ x ++ streamReg s ++ (0#13) ++ (5#3) : IWord) = 0x28#6 := by
  rw [extract_above, extract_above, extract_above, extract_above] <;> try decide

@[simp] theorem spos_21_5 (x : Reg) (s : BitVec 2) : BitVec.extractLsb' 21 5 ((0x28#6) ++ x ++ streamReg s ++ (0#13) ++ (5#3) : IWord) = x := by
  rw [extract_above, extract_above, extract_above, extract_below] <;> try decide
  simp

@[simp] theorem spos_16_5 (x : Reg) (s : BitVec 2) : BitVec.extractLsb' 16 5 ((0x28#6) ++ x ++ streamReg s ++ (0#13) ++ (5#3) : IWord) = (streamReg s) := by
  rw [extract_above, extract_above, extract_below] <;> try decide
  simp

@[simp] theorem spos_3_13 (x : Reg) (s : BitVec 2) : BitVec.extractLsb' 3 13 ((0x28#6) ++ x ++ streamReg s ++ (0#13) ++ (5#3) : IWord) = 0#13 := by
  rw [extract_above, extract_below] <;> try decide

@[simp] theorem spos_0_3 (x : Reg) (s : BitVec 2) : BitVec.extractLsb' 0 3 ((0x28#6) ++ x ++ streamReg s ++ (0#13) ++ (5#3) : IWord) = 5#3 := by
  rw [extract_below] <;> try decide

@[simp] theorem repf_26_6 (l : BitVec 4) (ci : Bool) (cnt : Reg) (st : BitVec 4) (m : BitVec 3) : BitVec.extractLsb' 26 6 ((0x29#6) ++ l ++ bit ci ++ cnt ++ st ++ m ++ (0#9) : IWord) = 0x29#6 := by
  rw [extract_above, extract_above, extract_above, extract_above, extract_above, extract_above] <;> try decide

@[simp] theorem repf_22_4 (l : BitVec 4) (ci : Bool) (cnt : Reg) (st : BitVec 4) (m : BitVec 3) : BitVec.extractLsb' 22 4 ((0x29#6) ++ l ++ bit ci ++ cnt ++ st ++ m ++ (0#9) : IWord) = l := by
  rw [extract_above, extract_above, extract_above, extract_above, extract_above, extract_below] <;> try decide
  simp

@[simp] theorem repf_21_1 (l : BitVec 4) (ci : Bool) (cnt : Reg) (st : BitVec 4) (m : BitVec 3) : BitVec.extractLsb' 21 1 ((0x29#6) ++ l ++ bit ci ++ cnt ++ st ++ m ++ (0#9) : IWord) = (bit ci) := by
  rw [extract_above, extract_above, extract_above, extract_above, extract_below] <;> try decide
  simp

@[simp] theorem repf_16_5 (l : BitVec 4) (ci : Bool) (cnt : Reg) (st : BitVec 4) (m : BitVec 3) : BitVec.extractLsb' 16 5 ((0x29#6) ++ l ++ bit ci ++ cnt ++ st ++ m ++ (0#9) : IWord) = cnt := by
  rw [extract_above, extract_above, extract_above, extract_below] <;> try decide
  simp

@[simp] theorem repf_12_4 (l : BitVec 4) (ci : Bool) (cnt : Reg) (st : BitVec 4) (m : BitVec 3) : BitVec.extractLsb' 12 4 ((0x29#6) ++ l ++ bit ci ++ cnt ++ st ++ m ++ (0#9) : IWord) = st := by
  rw [extract_above, extract_above, extract_below] <;> try decide
  simp

@[simp] theorem repf_9_3 (l : BitVec 4) (ci : Bool) (cnt : Reg) (st : BitVec 4) (m : BitVec 3) : BitVec.extractLsb' 9 3 ((0x29#6) ++ l ++ bit ci ++ cnt ++ st ++ m ++ (0#9) : IWord) = m := by
  rw [extract_above, extract_below] <;> try decide
  simp

@[simp] theorem repf_0_9 (l : BitVec 4) (ci : Bool) (cnt : Reg) (st : BitVec 4) (m : BitVec 3) : BitVec.extractLsb' 0 9 ((0x29#6) ++ l ++ bit ci ++ cnt ++ st ++ m ++ (0#9) : IWord) = 0#9 := by
  rw [extract_below] <;> try decide

theorem clear_tail (x : BitVec 24) : (x ++ 0#2 ++ bit false ++ 0#1).extractLsb' 0 4 = 0#4 := by
  apply BitVec.eq_of_getLsbD_eq
  intro i hi
  simp only [BitVec.getLsbD_extractLsb', BitVec.getLsbD_append, bit]
  interval_cases i <;> rfl

@[simp] theorem wGang_middle (fn : BitVec 4) (a b : Reg) (id : BitVec 8) : (wGang fn a b id 0#2 false).extractLsb' 4 4 = 0#4 := by
  unfold wGang
  rw [extract_above _ _ (by decide)]
  exact clear_tail _

/-! ## Codes -/

@[simp] theorem bit_false : bit false = 0#1 := rfl
@[simp] theorem w1_code : Wd.w1.code = 0#2 := rfl
@[simp] theorem wdOf_code (x : Wd) : wdOf x.code = x := by cases x <;> rfl
@[simp] theorem tyOf_code (x : Ty) : tyOf x.code = x := by cases x <;> rfl
@[simp] theorem scopeOf_code (x : Scope) : scopeOf x.code = some x := by cases x <;> rfl
@[simp] theorem fenceKindOf_code (x : FenceKind) : fenceKindOf x.code = some x := by cases x <;> rfl
@[simp] theorem amoOpOf_code (x : AmoOp) : amoOpOf x.code = some x := by cases x <;> rfl
@[simp] theorem tlbModeOf_code (x : TlbMode) : tlbModeOf x.code = some x := by cases x <;> rfl
@[simp] theorem streamKindOf_code (x : StreamKind) : streamKindOf x.code = x := by cases x <;> rfl
@[simp] theorem planeSelOf_code (x : PlaneSel) : planeSelOf x.code = some x := by
  cases x with
  | stored => rfl
  | planes k => revert k; decide
@[simp] theorem atomOrderOf_code (x : AtomOrder) : atomOrderOf (x.code.extractLsb' 3 2) (x.code.extractLsb' 0 3) = some x := by
  rcases x with u | s | s | s
  · cases u <;> decide
  · cases s <;> decide
  · cases s <;> decide
  · cases s <;> decide
@[simp] theorem bit_is_one (b : Bool) : (bit b == 1#1) = b := by cases b <;> rfl
@[simp] theorem streamOk_reg (s : BitVec 2) : streamOk (streamReg s) = true := by revert s; decide
@[simp] theorem streamOf_reg (s : BitVec 2) : streamOf (streamReg s) = s := by revert s; decide
@[simp] theorem bregOk_field (b : BitVec 4) : bregOk (bfield b) = true := by revert b; decide
@[simp] theorem breg_field (b : BitVec 4) : breg (bfield b) = b := by revert b; decide
theorem queueField (q : BitVec 3) : ((0#2 ++ q : Reg).setWidth 3 = q) ∧ (0#2 ++ q : Reg).toNat < 8 := by revert q; decide
theorem modeField (m : TlbMode) : ((0#10 ++ m.code : BitVec 12).extractLsb' 0 2 = m.code) ∧ (0#10 ++ m.code : BitVec 12).extractLsb' 2 10 = 0#10 := by
  cases m <;> decide
theorem typeField (t : Ty) : ((0#2 ++ t.code : Reg).setWidth 3 = t.code) ∧ (0#2 ++ t.code : Reg).extractLsb' 3 2 = 0#2 := by
  cases t <;> decide
theorem octField (o : BitVec 2) (r : BitVec 3) : ((o ++ r : Reg).extractLsb' 3 2 = o) ∧ (o ++ r : Reg).extractLsb' 0 3 = r := by
  revert o r; decide
theorem rowField (r : BitVec 3) : ((r ++ 0#2 : Reg).extractLsb' 2 3 = r) ∧ (r ++ 0#2 : Reg).extractLsb' 0 2 = 0#2 := by
  revert r; decide
theorem groupField (g : BitVec 3) : ((0#1 ++ g : BitVec 4).extractLsb' 0 3 = g) ∧ (0#1 ++ g : BitVec 4).extractLsb' 3 1 = 0#1 := by
  revert g; decide
theorem allField (b : Bool) : ((0#1 ++ bit b : BitVec 2).extractLsb' 0 1 = bit b) ∧ (0#1 ++ bit b : BitVec 2).extractLsb' 1 1 = 0#1 := by
  cases b <;> decide
theorem scopeField (s : Scope) : ((0#2 ++ s.code : BitVec 5).extractLsb' 0 3 = s.code) ∧ (0#2 ++ s.code : BitVec 5).extractLsb' 3 2 = 0#2 := by
  cases s <;> decide

end Sys2Proof.Laws
end

