-- ==== Sys2Proof/Laws/PerInstr.lean ====
section
/-!
SUPPORT. Statements made for each instruction as it is written: its word decodes to it, with every operand at every value that the encoding
admits (R281 to R297), and it has a word unless it is a step of the machine's own.
-/

set_option linter.unusedSimpArgs false

namespace Sys2Proof.Laws.RoundTrip

/-- A well-formed instruction's word decodes to it. -/
def Statement (i : Instr) : Prop := i.wf = true → ∀ w, encode i = some w → decode w = some i

theorem add (a0) (a1) (a2) : Statement (.add a0 a1 a2) := by
  intro ok w h
  cases h
  delta decode
  dsimp only
  rw [show (fieldOp _).toNat = 1 from by simp [fieldOp]]
  delta decodeOpr
  dsimp only
  rw [show ((fieldLo _).extractLsb' 0 9).toNat = 0 from by simp [fieldLo, extract_extract]]
  simp [legal, fieldOp, fieldA, fieldB, fieldC, fieldLo, fieldImm, extract_extract]

theorem sub (a0) (a1) (a2) : Statement (.sub a0 a1 a2) := by
  intro ok w h
  cases h
  delta decode
  dsimp only
  rw [show (fieldOp _).toNat = 1 from by simp [fieldOp]]
  delta decodeOpr
  dsimp only
  rw [show ((fieldLo _).extractLsb' 0 9).toNat = 1 from by simp [fieldLo, extract_extract]]
  simp [legal, fieldOp, fieldA, fieldB, fieldC, fieldLo, fieldImm, extract_extract]

theorem and (a0) (a1) (a2) : Statement (.and a0 a1 a2) := by
  intro ok w h
  cases h
  delta decode
  dsimp only
  rw [show (fieldOp _).toNat = 1 from by simp [fieldOp]]
  delta decodeOpr
  dsimp only
  rw [show ((fieldLo _).extractLsb' 0 9).toNat = 2 from by simp [fieldLo, extract_extract]]
  simp [legal, fieldOp, fieldA, fieldB, fieldC, fieldLo, fieldImm, extract_extract]

theorem or (a0) (a1) (a2) : Statement (.or a0 a1 a2) := by
  intro ok w h
  cases h
  delta decode
  dsimp only
  rw [show (fieldOp _).toNat = 1 from by simp [fieldOp]]
  delta decodeOpr
  dsimp only
  rw [show ((fieldLo _).extractLsb' 0 9).toNat = 3 from by simp [fieldLo, extract_extract]]
  simp [legal, fieldOp, fieldA, fieldB, fieldC, fieldLo, fieldImm, extract_extract]

theorem xor (a0) (a1) (a2) : Statement (.xor a0 a1 a2) := by
  intro ok w h
  cases h
  delta decode
  dsimp only
  rw [show (fieldOp _).toNat = 1 from by simp [fieldOp]]
  delta decodeOpr
  dsimp only
  rw [show ((fieldLo _).extractLsb' 0 9).toNat = 4 from by simp [fieldLo, extract_extract]]
  simp [legal, fieldOp, fieldA, fieldB, fieldC, fieldLo, fieldImm, extract_extract]

theorem andn (a0) (a1) (a2) : Statement (.andn a0 a1 a2) := by
  intro ok w h
  cases h
  delta decode
  dsimp only
  rw [show (fieldOp _).toNat = 1 from by simp [fieldOp]]
  delta decodeOpr
  dsimp only
  rw [show ((fieldLo _).extractLsb' 0 9).toNat = 5 from by simp [fieldLo, extract_extract]]
  simp [legal, fieldOp, fieldA, fieldB, fieldC, fieldLo, fieldImm, extract_extract]

theorem orn (a0) (a1) (a2) : Statement (.orn a0 a1 a2) := by
  intro ok w h
  cases h
  delta decode
  dsimp only
  rw [show (fieldOp _).toNat = 1 from by simp [fieldOp]]
  delta decodeOpr
  dsimp only
  rw [show ((fieldLo _).extractLsb' 0 9).toNat = 6 from by simp [fieldLo, extract_extract]]
  simp [legal, fieldOp, fieldA, fieldB, fieldC, fieldLo, fieldImm, extract_extract]

theorem sll (a0) (a1) (a2) : Statement (.sll a0 a1 a2) := by
  intro ok w h
  cases h
  delta decode
  dsimp only
  rw [show (fieldOp _).toNat = 1 from by simp [fieldOp]]
  delta decodeOpr
  dsimp only
  rw [show ((fieldLo _).extractLsb' 0 9).toNat = 7 from by simp [fieldLo, extract_extract]]
  simp [legal, fieldOp, fieldA, fieldB, fieldC, fieldLo, fieldImm, extract_extract]

theorem srl (a0) (a1) (a2) : Statement (.srl a0 a1 a2) := by
  intro ok w h
  cases h
  delta decode
  dsimp only
  rw [show (fieldOp _).toNat = 1 from by simp [fieldOp]]
  delta decodeOpr
  dsimp only
  rw [show ((fieldLo _).extractLsb' 0 9).toNat = 8 from by simp [fieldLo, extract_extract]]
  simp [legal, fieldOp, fieldA, fieldB, fieldC, fieldLo, fieldImm, extract_extract]

theorem sra (a0) (a1) (a2) : Statement (.sra a0 a1 a2) := by
  intro ok w h
  cases h
  delta decode
  dsimp only
  rw [show (fieldOp _).toNat = 1 from by simp [fieldOp]]
  delta decodeOpr
  dsimp only
  rw [show ((fieldLo _).extractLsb' 0 9).toNat = 9 from by simp [fieldLo, extract_extract]]
  simp [legal, fieldOp, fieldA, fieldB, fieldC, fieldLo, fieldImm, extract_extract]

theorem slli (a0) (a1) (a2) : Statement (.slli a0 a1 a2) := by
  intro ok w h
  cases h
  delta decode
  dsimp only
  rw [show (fieldOp _).toNat = 1 from by simp [fieldOp]]
  delta decodeOpr
  dsimp only
  rw [show ((fieldLo _).extractLsb' 0 9).toNat = 10 from by simp [fieldLo, extract_extract]]
  simp [legal, fieldOp, fieldA, fieldB, fieldC, fieldLo, fieldImm, extract_extract]

theorem srli (a0) (a1) (a2) : Statement (.srli a0 a1 a2) := by
  intro ok w h
  cases h
  delta decode
  dsimp only
  rw [show (fieldOp _).toNat = 1 from by simp [fieldOp]]
  delta decodeOpr
  dsimp only
  rw [show ((fieldLo _).extractLsb' 0 9).toNat = 11 from by simp [fieldLo, extract_extract]]
  simp [legal, fieldOp, fieldA, fieldB, fieldC, fieldLo, fieldImm, extract_extract]

theorem srai (a0) (a1) (a2) : Statement (.srai a0 a1 a2) := by
  intro ok w h
  cases h
  delta decode
  dsimp only
  rw [show (fieldOp _).toNat = 1 from by simp [fieldOp]]
  delta decodeOpr
  dsimp only
  rw [show ((fieldLo _).extractLsb' 0 9).toNat = 12 from by simp [fieldLo, extract_extract]]
  simp [legal, fieldOp, fieldA, fieldB, fieldC, fieldLo, fieldImm, extract_extract]

theorem slt (a0) (a1) (a2) : Statement (.slt a0 a1 a2) := by
  intro ok w h
  cases h
  delta decode
  dsimp only
  rw [show (fieldOp _).toNat = 1 from by simp [fieldOp]]
  delta decodeOpr
  dsimp only
  rw [show ((fieldLo _).extractLsb' 0 9).toNat = 13 from by simp [fieldLo, extract_extract]]
  simp [legal, fieldOp, fieldA, fieldB, fieldC, fieldLo, fieldImm, extract_extract]

theorem sltu (a0) (a1) (a2) : Statement (.sltu a0 a1 a2) := by
  intro ok w h
  cases h
  delta decode
  dsimp only
  rw [show (fieldOp _).toNat = 1 from by simp [fieldOp]]
  delta decodeOpr
  dsimp only
  rw [show ((fieldLo _).extractLsb' 0 9).toNat = 14 from by simp [fieldLo, extract_extract]]
  simp [legal, fieldOp, fieldA, fieldB, fieldC, fieldLo, fieldImm, extract_extract]

theorem min (a0) (a1) (a2) : Statement (.min a0 a1 a2) := by
  intro ok w h
  cases h
  delta decode
  dsimp only
  rw [show (fieldOp _).toNat = 1 from by simp [fieldOp]]
  delta decodeOpr
  dsimp only
  rw [show ((fieldLo _).extractLsb' 0 9).toNat = 15 from by simp [fieldLo, extract_extract]]
  simp [legal, fieldOp, fieldA, fieldB, fieldC, fieldLo, fieldImm, extract_extract]

theorem max (a0) (a1) (a2) : Statement (.max a0 a1 a2) := by
  intro ok w h
  cases h
  delta decode
  dsimp only
  rw [show (fieldOp _).toNat = 1 from by simp [fieldOp]]
  delta decodeOpr
  dsimp only
  rw [show ((fieldLo _).extractLsb' 0 9).toNat = 16 from by simp [fieldLo, extract_extract]]
  simp [legal, fieldOp, fieldA, fieldB, fieldC, fieldLo, fieldImm, extract_extract]

theorem minu (a0) (a1) (a2) : Statement (.minu a0 a1 a2) := by
  intro ok w h
  cases h
  delta decode
  dsimp only
  rw [show (fieldOp _).toNat = 1 from by simp [fieldOp]]
  delta decodeOpr
  dsimp only
  rw [show ((fieldLo _).extractLsb' 0 9).toNat = 17 from by simp [fieldLo, extract_extract]]
  simp [legal, fieldOp, fieldA, fieldB, fieldC, fieldLo, fieldImm, extract_extract]

theorem maxu (a0) (a1) (a2) : Statement (.maxu a0 a1 a2) := by
  intro ok w h
  cases h
  delta decode
  dsimp only
  rw [show (fieldOp _).toNat = 1 from by simp [fieldOp]]
  delta decodeOpr
  dsimp only
  rw [show ((fieldLo _).extractLsb' 0 9).toNat = 18 from by simp [fieldLo, extract_extract]]
  simp [legal, fieldOp, fieldA, fieldB, fieldC, fieldLo, fieldImm, extract_extract]

theorem mul (a0) (a1) (a2) : Statement (.mul a0 a1 a2) := by
  intro ok w h
  cases h
  delta decode
  dsimp only
  rw [show (fieldOp _).toNat = 1 from by simp [fieldOp]]
  delta decodeOpr
  dsimp only
  rw [show ((fieldLo _).extractLsb' 0 9).toNat = 19 from by simp [fieldLo, extract_extract]]
  simp [legal, fieldOp, fieldA, fieldB, fieldC, fieldLo, fieldImm, extract_extract]

theorem mulh (a0) (a1) (a2) : Statement (.mulh a0 a1 a2) := by
  intro ok w h
  cases h
  delta decode
  dsimp only
  rw [show (fieldOp _).toNat = 1 from by simp [fieldOp]]
  delta decodeOpr
  dsimp only
  rw [show ((fieldLo _).extractLsb' 0 9).toNat = 20 from by simp [fieldLo, extract_extract]]
  simp [legal, fieldOp, fieldA, fieldB, fieldC, fieldLo, fieldImm, extract_extract]

theorem mulhu (a0) (a1) (a2) : Statement (.mulhu a0 a1 a2) := by
  intro ok w h
  cases h
  delta decode
  dsimp only
  rw [show (fieldOp _).toNat = 1 from by simp [fieldOp]]
  delta decodeOpr
  dsimp only
  rw [show ((fieldLo _).extractLsb' 0 9).toNat = 21 from by simp [fieldLo, extract_extract]]
  simp [legal, fieldOp, fieldA, fieldB, fieldC, fieldLo, fieldImm, extract_extract]

theorem div (a0) (a1) (a2) : Statement (.div a0 a1 a2) := by
  intro ok w h
  cases h
  delta decode
  dsimp only
  rw [show (fieldOp _).toNat = 1 from by simp [fieldOp]]
  delta decodeOpr
  dsimp only
  rw [show ((fieldLo _).extractLsb' 0 9).toNat = 22 from by simp [fieldLo, extract_extract]]
  simp [legal, fieldOp, fieldA, fieldB, fieldC, fieldLo, fieldImm, extract_extract]

theorem divu (a0) (a1) (a2) : Statement (.divu a0 a1 a2) := by
  intro ok w h
  cases h
  delta decode
  dsimp only
  rw [show (fieldOp _).toNat = 1 from by simp [fieldOp]]
  delta decodeOpr
  dsimp only
  rw [show ((fieldLo _).extractLsb' 0 9).toNat = 23 from by simp [fieldLo, extract_extract]]
  simp [legal, fieldOp, fieldA, fieldB, fieldC, fieldLo, fieldImm, extract_extract]

theorem rem (a0) (a1) (a2) : Statement (.rem a0 a1 a2) := by
  intro ok w h
  cases h
  delta decode
  dsimp only
  rw [show (fieldOp _).toNat = 1 from by simp [fieldOp]]
  delta decodeOpr
  dsimp only
  rw [show ((fieldLo _).extractLsb' 0 9).toNat = 24 from by simp [fieldLo, extract_extract]]
  simp [legal, fieldOp, fieldA, fieldB, fieldC, fieldLo, fieldImm, extract_extract]

theorem remu (a0) (a1) (a2) : Statement (.remu a0 a1 a2) := by
  intro ok w h
  cases h
  delta decode
  dsimp only
  rw [show (fieldOp _).toNat = 1 from by simp [fieldOp]]
  delta decodeOpr
  dsimp only
  rw [show ((fieldLo _).extractLsb' 0 9).toNat = 25 from by simp [fieldLo, extract_extract]]
  simp [legal, fieldOp, fieldA, fieldB, fieldC, fieldLo, fieldImm, extract_extract]

theorem clz (a0) (a1) : Statement (.clz a0 a1) := by
  intro ok w h
  cases h
  delta decode
  dsimp only
  rw [show (fieldOp _).toNat = 1 from by simp [fieldOp]]
  delta decodeOpr
  dsimp only
  rw [show ((fieldLo _).extractLsb' 0 9).toNat = 26 from by simp [fieldLo, extract_extract]]
  simp [legal, fieldOp, fieldA, fieldB, fieldC, fieldLo, fieldImm, extract_extract]

theorem ctz (a0) (a1) : Statement (.ctz a0 a1) := by
  intro ok w h
  cases h
  delta decode
  dsimp only
  rw [show (fieldOp _).toNat = 1 from by simp [fieldOp]]
  delta decodeOpr
  dsimp only
  rw [show ((fieldLo _).extractLsb' 0 9).toNat = 27 from by simp [fieldLo, extract_extract]]
  simp [legal, fieldOp, fieldA, fieldB, fieldC, fieldLo, fieldImm, extract_extract]

theorem popc (a0) (a1) : Statement (.popc a0 a1) := by
  intro ok w h
  cases h
  delta decode
  dsimp only
  rw [show (fieldOp _).toNat = 1 from by simp [fieldOp]]
  delta decodeOpr
  dsimp only
  rw [show ((fieldLo _).extractLsb' 0 9).toNat = 28 from by simp [fieldLo, extract_extract]]
  simp [legal, fieldOp, fieldA, fieldB, fieldC, fieldLo, fieldImm, extract_extract]

theorem sextb (a0) (a1) : Statement (.sextb a0 a1) := by
  intro ok w h
  cases h
  delta decode
  dsimp only
  rw [show (fieldOp _).toNat = 1 from by simp [fieldOp]]
  delta decodeOpr
  dsimp only
  rw [show ((fieldLo _).extractLsb' 0 9).toNat = 29 from by simp [fieldLo, extract_extract]]
  simp [legal, fieldOp, fieldA, fieldB, fieldC, fieldLo, fieldImm, extract_extract]

theorem sexth (a0) (a1) : Statement (.sexth a0 a1) := by
  intro ok w h
  cases h
  delta decode
  dsimp only
  rw [show (fieldOp _).toNat = 1 from by simp [fieldOp]]
  delta decodeOpr
  dsimp only
  rw [show ((fieldLo _).extractLsb' 0 9).toNat = 30 from by simp [fieldLo, extract_extract]]
  simp [legal, fieldOp, fieldA, fieldB, fieldC, fieldLo, fieldImm, extract_extract]

theorem sextw (a0) (a1) : Statement (.sextw a0 a1) := by
  intro ok w h
  cases h
  delta decode
  dsimp only
  rw [show (fieldOp _).toNat = 1 from by simp [fieldOp]]
  delta decodeOpr
  dsimp only
  rw [show ((fieldLo _).extractLsb' 0 9).toNat = 31 from by simp [fieldLo, extract_extract]]
  simp [legal, fieldOp, fieldA, fieldB, fieldC, fieldLo, fieldImm, extract_extract]

theorem zextw (a0) (a1) : Statement (.zextw a0 a1) := by
  intro ok w h
  cases h
  delta decode
  dsimp only
  rw [show (fieldOp _).toNat = 1 from by simp [fieldOp]]
  delta decodeOpr
  dsimp only
  rw [show ((fieldLo _).extractLsb' 0 9).toNat = 32 from by simp [fieldLo, extract_extract]]
  simp [legal, fieldOp, fieldA, fieldB, fieldC, fieldLo, fieldImm, extract_extract]

theorem csel (a0) (a1) (a2) : Statement (.csel a0 a1 a2) := by
  intro ok w h
  cases h
  delta decode
  dsimp only
  rw [show (fieldOp _).toNat = 1 from by simp [fieldOp]]
  delta decodeOpr
  dsimp only
  rw [show ((fieldLo _).extractLsb' 0 9).toNat = 33 from by simp [fieldLo, extract_extract]]
  simp [legal, fieldOp, fieldA, fieldB, fieldC, fieldLo, fieldImm, extract_extract]

theorem ptag (a0) (a1) (a2) : Statement (.ptag a0 a1 a2) := by
  intro ok w h
  cases h
  delta decode
  dsimp only
  rw [show (fieldOp _).toNat = 1 from by simp [fieldOp]]
  delta decodeOpr
  dsimp only
  rw [show ((fieldLo _).extractLsb' 0 9).toNat = 34 from by simp [fieldLo, extract_extract]]
  simp [legal, fieldOp, fieldA, fieldB, fieldC, fieldLo, fieldImm, extract_extract]

theorem pfmt (a0) (a1) : Statement (.pfmt a0 a1) := by
  intro ok w h
  cases h
  delta decode
  dsimp only
  rw [show (fieldOp _).toNat = 1 from by simp [fieldOp]]
  delta decodeOpr
  dsimp only
  rw [show ((fieldLo _).extractLsb' 0 9).toNat = 35 from by simp [fieldLo, extract_extract]]
  simp [legal, fieldOp, fieldA, fieldB, fieldC, fieldLo, fieldImm, extract_extract]

theorem pblk (a0) (a1) : Statement (.pblk a0 a1) := by
  intro ok w h
  cases h
  delta decode
  dsimp only
  rw [show (fieldOp _).toNat = 1 from by simp [fieldOp]]
  delta decodeOpr
  dsimp only
  rw [show ((fieldLo _).extractLsb' 0 9).toNat = 36 from by simp [fieldLo, extract_extract]]
  simp [legal, fieldOp, fieldA, fieldB, fieldC, fieldLo, fieldImm, extract_extract]

theorem pmesh (a0) (a1) (a2) : Statement (.pmesh a0 a1 a2) := by
  intro ok w h
  cases h
  delta decode
  dsimp only
  rw [show (fieldOp _).toNat = 1 from by simp [fieldOp]]
  delta decodeOpr
  dsimp only
  rw [show ((fieldLo _).extractLsb' 0 9).toNat = 37 from by simp [fieldLo, extract_extract]]
  simp [legal, fieldOp, fieldA, fieldB, fieldC, fieldLo, fieldImm, extract_extract]

theorem addi (a0) (a1) (a2) : Statement (.addi a0 a1 a2) := by
  intro ok w h
  cases h
  delta decode
  dsimp only
  rw [show (fieldOp _).toNat = 2 from by simp [fieldOp]]
  simp [legal, fieldOp, fieldA, fieldB, fieldC, fieldLo, fieldImm, extract_extract]

theorem andi (a0) (a1) (a2) : Statement (.andi a0 a1 a2) := by
  intro ok w h
  cases h
  delta decode
  dsimp only
  rw [show (fieldOp _).toNat = 3 from by simp [fieldOp]]
  simp [legal, fieldOp, fieldA, fieldB, fieldC, fieldLo, fieldImm, extract_extract]

theorem ori (a0) (a1) (a2) : Statement (.ori a0 a1 a2) := by
  intro ok w h
  cases h
  delta decode
  dsimp only
  rw [show (fieldOp _).toNat = 4 from by simp [fieldOp]]
  simp [legal, fieldOp, fieldA, fieldB, fieldC, fieldLo, fieldImm, extract_extract]

theorem xori (a0) (a1) (a2) : Statement (.xori a0 a1 a2) := by
  intro ok w h
  cases h
  delta decode
  dsimp only
  rw [show (fieldOp _).toNat = 5 from by simp [fieldOp]]
  simp [legal, fieldOp, fieldA, fieldB, fieldC, fieldLo, fieldImm, extract_extract]

theorem slti (a0) (a1) (a2) : Statement (.slti a0 a1 a2) := by
  intro ok w h
  cases h
  delta decode
  dsimp only
  rw [show (fieldOp _).toNat = 6 from by simp [fieldOp]]
  simp [legal, fieldOp, fieldA, fieldB, fieldC, fieldLo, fieldImm, extract_extract]

theorem sltiu (a0) (a1) (a2) : Statement (.sltiu a0 a1 a2) := by
  intro ok w h
  cases h
  delta decode
  dsimp only
  rw [show (fieldOp _).toNat = 7 from by simp [fieldOp]]
  simp [legal, fieldOp, fieldA, fieldB, fieldC, fieldLo, fieldImm, extract_extract]

theorem lui (a0) (a1) : Statement (.lui a0 a1) := by
  intro ok w h
  cases h
  delta decode
  dsimp only
  rw [show (fieldOp _).toNat = 8 from by simp [fieldOp]]
  simp [legal, fieldOp, fieldA, fieldB, fieldC, fieldLo, fieldImm, extract_extract]

theorem auipc (a0) (a1) : Statement (.auipc a0 a1) := by
  intro ok w h
  cases h
  delta decode
  dsimp only
  rw [show (fieldOp _).toNat = 9 from by simp [fieldOp]]
  simp [legal, fieldOp, fieldA, fieldB, fieldC, fieldLo, fieldImm, extract_extract]

theorem shori (a0) (a1) (a2) : Statement (.shori a0 a1 a2) := by
  intro ok w h
  cases h
  delta decode
  dsimp only
  rw [show (fieldOp _).toNat = 10 from by simp [fieldOp]]
  simp [legal, fieldOp, fieldA, fieldB, fieldC, fieldLo, fieldImm, extract_extract]

theorem lb (a0) (a1) (a2) : Statement (.lb a0 a1 a2) := by
  intro ok w h
  cases h
  delta decode
  dsimp only
  rw [show (fieldOp _).toNat = 11 from by simp [fieldOp]]
  simp [legal, fieldOp, fieldA, fieldB, fieldC, fieldLo, fieldImm, extract_extract]

theorem lbu (a0) (a1) (a2) : Statement (.lbu a0 a1 a2) := by
  intro ok w h
  cases h
  delta decode
  dsimp only
  rw [show (fieldOp _).toNat = 12 from by simp [fieldOp]]
  simp [legal, fieldOp, fieldA, fieldB, fieldC, fieldLo, fieldImm, extract_extract]

theorem lh (a0) (a1) (a2) : Statement (.lh a0 a1 a2) := by
  intro ok w h
  cases h
  delta decode
  dsimp only
  rw [show (fieldOp _).toNat = 13 from by simp [fieldOp]]
  simp [legal, fieldOp, fieldA, fieldB, fieldC, fieldLo, fieldImm, extract_extract]

theorem lhu (a0) (a1) (a2) : Statement (.lhu a0 a1 a2) := by
  intro ok w h
  cases h
  delta decode
  dsimp only
  rw [show (fieldOp _).toNat = 14 from by simp [fieldOp]]
  simp [legal, fieldOp, fieldA, fieldB, fieldC, fieldLo, fieldImm, extract_extract]

theorem lw (a0) (a1) (a2) : Statement (.lw a0 a1 a2) := by
  intro ok w h
  cases h
  delta decode
  dsimp only
  rw [show (fieldOp _).toNat = 15 from by simp [fieldOp]]
  simp [legal, fieldOp, fieldA, fieldB, fieldC, fieldLo, fieldImm, extract_extract]

theorem lwu (a0) (a1) (a2) : Statement (.lwu a0 a1 a2) := by
  intro ok w h
  cases h
  delta decode
  dsimp only
  rw [show (fieldOp _).toNat = 16 from by simp [fieldOp]]
  simp [legal, fieldOp, fieldA, fieldB, fieldC, fieldLo, fieldImm, extract_extract]

theorem ld (a0) (a1) (a2) : Statement (.ld a0 a1 a2) := by
  intro ok w h
  cases h
  delta decode
  dsimp only
  rw [show (fieldOp _).toNat = 17 from by simp [fieldOp]]
  simp [legal, fieldOp, fieldA, fieldB, fieldC, fieldLo, fieldImm, extract_extract]

theorem sb (a0) (a1) (a2) : Statement (.sb a0 a1 a2) := by
  intro ok w h
  cases h
  delta decode
  dsimp only
  rw [show (fieldOp _).toNat = 18 from by simp [fieldOp]]
  simp [legal, fieldOp, fieldA, fieldB, fieldC, fieldLo, fieldImm, extract_extract]

theorem sh (a0) (a1) (a2) : Statement (.sh a0 a1 a2) := by
  intro ok w h
  cases h
  delta decode
  dsimp only
  rw [show (fieldOp _).toNat = 19 from by simp [fieldOp]]
  simp [legal, fieldOp, fieldA, fieldB, fieldC, fieldLo, fieldImm, extract_extract]

theorem sw (a0) (a1) (a2) : Statement (.sw a0 a1 a2) := by
  intro ok w h
  cases h
  delta decode
  dsimp only
  rw [show (fieldOp _).toNat = 20 from by simp [fieldOp]]
  simp [legal, fieldOp, fieldA, fieldB, fieldC, fieldLo, fieldImm, extract_extract]

theorem sd (a0) (a1) (a2) : Statement (.sd a0 a1 a2) := by
  intro ok w h
  cases h
  delta decode
  dsimp only
  rw [show (fieldOp _).toNat = 21 from by simp [fieldOp]]
  simp [legal, fieldOp, fieldA, fieldB, fieldC, fieldLo, fieldImm, extract_extract]

theorem beq (a0) (a1) (a2) : Statement (.beq a0 a1 a2) := by
  intro ok w h
  cases h
  delta decode
  dsimp only
  rw [show (fieldOp _).toNat = 22 from by simp [fieldOp]]
  simp [legal, fieldOp, fieldA, fieldB, fieldC, fieldLo, fieldImm, extract_extract]

theorem bne (a0) (a1) (a2) : Statement (.bne a0 a1 a2) := by
  intro ok w h
  cases h
  delta decode
  dsimp only
  rw [show (fieldOp _).toNat = 23 from by simp [fieldOp]]
  simp [legal, fieldOp, fieldA, fieldB, fieldC, fieldLo, fieldImm, extract_extract]

theorem blt (a0) (a1) (a2) : Statement (.blt a0 a1 a2) := by
  intro ok w h
  cases h
  delta decode
  dsimp only
  rw [show (fieldOp _).toNat = 24 from by simp [fieldOp]]
  simp [legal, fieldOp, fieldA, fieldB, fieldC, fieldLo, fieldImm, extract_extract]

theorem bge (a0) (a1) (a2) : Statement (.bge a0 a1 a2) := by
  intro ok w h
  cases h
  delta decode
  dsimp only
  rw [show (fieldOp _).toNat = 25 from by simp [fieldOp]]
  simp [legal, fieldOp, fieldA, fieldB, fieldC, fieldLo, fieldImm, extract_extract]

theorem bltu (a0) (a1) (a2) : Statement (.bltu a0 a1 a2) := by
  intro ok w h
  cases h
  delta decode
  dsimp only
  rw [show (fieldOp _).toNat = 26 from by simp [fieldOp]]
  simp [legal, fieldOp, fieldA, fieldB, fieldC, fieldLo, fieldImm, extract_extract]

theorem bgeu (a0) (a1) (a2) : Statement (.bgeu a0 a1 a2) := by
  intro ok w h
  cases h
  delta decode
  dsimp only
  rw [show (fieldOp _).toNat = 27 from by simp [fieldOp]]
  simp [legal, fieldOp, fieldA, fieldB, fieldC, fieldLo, fieldImm, extract_extract]

theorem jal (a0) (a1) : Statement (.jal a0 a1) := by
  intro ok w h
  cases h
  delta decode
  dsimp only
  rw [show (fieldOp _).toNat = 28 from by simp [fieldOp]]
  simp [legal, fieldOp, fieldA, fieldB, fieldC, fieldLo, fieldImm, extract_extract]

theorem jalr (a0) (a1) (a2) : Statement (.jalr a0 a1 a2) := by
  intro ok w h
  cases h
  delta decode
  dsimp only
  rw [show (fieldOp _).toNat = 29 from by simp [fieldOp]]
  simp [legal, fieldOp, fieldA, fieldB, fieldC, fieldLo, fieldImm, extract_extract]

theorem loop (a0) (a1) (a2) : Statement (.loop a0 a1 a2) := by
  intro ok w h
  cases h
  delta decode
  dsimp only
  rw [show (fieldOp _).toNat = 30 from by simp [fieldOp]]
  delta Instr.wf at ok
  dsimp only at ok
  simp_all [legal, fieldOp, fieldA, fieldB, fieldC, fieldLo, fieldImm, extract_extract]

theorem csrr (a0) (a1) : Statement (.csrr a0 a1) := by
  intro ok w h
  cases h
  delta decode
  dsimp only
  rw [show (fieldOp _).toNat = 31 from by simp [fieldOp]]
  delta decodeSys
  dsimp only
  rw [show (BitVec.extractLsb' 0 4 _).toNat = 0 from by simp [fieldLo, extract_extract]]
  simp [legal, fieldOp, fieldA, fieldB, fieldC, fieldLo, fieldImm, extract_extract]

theorem csrw (a0) (a1) : Statement (.csrw a0 a1) := by
  intro ok w h
  cases h
  delta decode
  dsimp only
  rw [show (fieldOp _).toNat = 31 from by simp [fieldOp]]
  delta decodeSys
  dsimp only
  rw [show (BitVec.extractLsb' 0 4 _).toNat = 1 from by simp [fieldLo, extract_extract]]
  simp [legal, fieldOp, fieldA, fieldB, fieldC, fieldLo, fieldImm, extract_extract]

theorem csrs (a0) (a1) : Statement (.csrs a0 a1) := by
  intro ok w h
  cases h
  delta decode
  dsimp only
  rw [show (fieldOp _).toNat = 31 from by simp [fieldOp]]
  delta decodeSys
  dsimp only
  rw [show (BitVec.extractLsb' 0 4 _).toNat = 2 from by simp [fieldLo, extract_extract]]
  simp [legal, fieldOp, fieldA, fieldB, fieldC, fieldLo, fieldImm, extract_extract]

theorem csrc (a0) (a1) : Statement (.csrc a0 a1) := by
  intro ok w h
  cases h
  delta decode
  dsimp only
  rw [show (fieldOp _).toNat = 31 from by simp [fieldOp]]
  delta decodeSys
  dsimp only
  rw [show (BitVec.extractLsb' 0 4 _).toNat = 3 from by simp [fieldLo, extract_extract]]
  simp [legal, fieldOp, fieldA, fieldB, fieldC, fieldLo, fieldImm, extract_extract]

theorem kcall (a0) : Statement (.kcall a0) := by
  intro ok w h
  cases h
  delta decode
  dsimp only
  rw [show (fieldOp _).toNat = 31 from by simp [fieldOp]]
  delta decodeSys
  dsimp only
  rw [show (BitVec.extractLsb' 0 4 _).toNat = 4 from by simp [fieldLo, extract_extract]]
  simp [legal, fieldOp, fieldA, fieldB, fieldC, fieldLo, fieldImm, extract_extract]

theorem fcall (a0) : Statement (.fcall a0) := by
  intro ok w h
  cases h
  delta decode
  dsimp only
  rw [show (fieldOp _).toNat = 31 from by simp [fieldOp]]
  delta decodeSys
  dsimp only
  rw [show (BitVec.extractLsb' 0 4 _).toNat = 5 from by simp [fieldLo, extract_extract]]
  simp [legal, fieldOp, fieldA, fieldB, fieldC, fieldLo, fieldImm, extract_extract]

theorem brk (a0) : Statement (.brk a0) := by
  intro ok w h
  cases h
  delta decode
  dsimp only
  rw [show (fieldOp _).toNat = 31 from by simp [fieldOp]]
  delta decodeSys
  dsimp only
  rw [show (BitVec.extractLsb' 0 4 _).toNat = 6 from by simp [fieldLo, extract_extract]]
  simp [legal, fieldOp, fieldA, fieldB, fieldC, fieldLo, fieldImm, extract_extract]

theorem tlbinv (a0) (a1) : Statement (.tlbinv a0 a1) := by
  intro ok w h
  cases h
  delta decode
  dsimp only
  rw [show (fieldOp _).toNat = 31 from by simp [fieldOp]]
  delta decodeSys
  dsimp only
  rw [show (BitVec.extractLsb' 0 4 _).toNat = 10 from by simp [fieldLo, extract_extract]]
  simp [legal, fieldOp, fieldA, fieldB, fieldC, fieldLo, fieldImm, extract_extract, modeField]

theorem launch (a0) (a1) : Statement (.launch a0 a1) := by
  intro ok w h
  cases h
  delta decode
  dsimp only
  rw [show (fieldOp _).toNat = 31 from by simp [fieldOp]]
  delta decodeSys
  dsimp only
  rw [show (BitVec.extractLsb' 0 4 _).toNat = 13 from by simp [fieldLo, extract_extract]]
  simp [legal, fieldOp, fieldA, fieldB, fieldC, fieldLo, fieldImm, extract_extract]

theorem fence (a0) (a1) : Statement (.fence a0 a1) := by
  intro ok w h
  cases h
  delta decode
  dsimp only
  rw [show (fieldOp _).toNat = 32 from by simp [fieldOp]]
  delta decodeSync
  dsimp only
  rw [show (BitVec.extractLsb' 0 4 _).toNat = 0 from by simp [fieldLo, extract_extract]]
  simp [legal, fieldOp, fieldA, fieldB, fieldC, fieldLo, fieldImm, extract_extract]

theorem mon (a0) : Statement (.mon a0) := by
  intro ok w h
  cases h
  delta decode
  dsimp only
  rw [show (fieldOp _).toNat = 32 from by simp [fieldOp]]
  delta decodeSync
  dsimp only
  rw [show (BitVec.extractLsb' 0 4 _).toNat = 2 from by simp [fieldLo, extract_extract]]
  simp [legal, fieldOp, fieldA, fieldB, fieldC, fieldLo, fieldImm, extract_extract]

theorem evsig (a0) (a1) : Statement (.evsig a0 a1) := by
  intro ok w h
  cases h
  delta decode
  dsimp only
  rw [show (fieldOp _).toNat = 32 from by simp [fieldOp]]
  delta decodeSync
  dsimp only
  rw [show (BitVec.extractLsb' 0 4 _).toNat = 4 from by simp [fieldLo, extract_extract]]
  simp [legal, fieldOp, fieldA, fieldB, fieldC, fieldLo, fieldImm, extract_extract]

theorem evwait (a0) : Statement (.evwait a0) := by
  intro ok w h
  cases h
  delta decode
  dsimp only
  rw [show (fieldOp _).toNat = 32 from by simp [fieldOp]]
  delta decodeSync
  dsimp only
  rw [show (BitVec.extractLsb' 0 4 _).toNat = 5 from by simp [fieldLo, extract_extract]]
  simp [legal, fieldOp, fieldA, fieldB, fieldC, fieldLo, fieldImm, extract_extract]

theorem send (a0) (a1) (a2) (a3) : Statement (.send a0 a1 a2 a3) := by
  intro ok w h
  cases h
  delta decode
  dsimp only
  rw [show (fieldOp _).toNat = 32 from by simp [fieldOp]]
  delta decodeSync
  dsimp only
  rw [show (BitVec.extractLsb' 0 4 _).toNat = 6 from by simp [fieldLo, extract_extract]]
  simp [legal, fieldOp, fieldA, fieldB, fieldC, fieldLo, fieldImm, extract_extract]

theorem recv (a0) (a1) (a2) : Statement (.recv a0 a1 a2) := by
  intro ok w h
  cases h
  delta decode
  dsimp only
  rw [show (fieldOp _).toNat = 32 from by simp [fieldOp]]
  delta decodeSync
  dsimp only
  rw [show (BitVec.extractLsb' 0 4 _).toNat = 7 from by simp [fieldLo, extract_extract]]
  simp [legal, fieldOp, fieldA, fieldB, fieldC, fieldLo, fieldImm, extract_extract]

theorem recvnb (a0) (a1) (a2) : Statement (.recvnb a0 a1 a2) := by
  intro ok w h
  cases h
  delta decode
  dsimp only
  rw [show (fieldOp _).toNat = 32 from by simp [fieldOp]]
  delta decodeSync
  dsimp only
  rw [show (BitVec.extractLsb' 0 4 _).toNat = 8 from by simp [fieldLo, extract_extract]]
  simp [legal, fieldOp, fieldA, fieldB, fieldC, fieldLo, fieldImm, extract_extract]

theorem mcast (a0) (a1) (a2) : Statement (.mcast a0 a1 a2) := by
  intro ok w h
  cases h
  delta decode
  dsimp only
  rw [show (fieldOp _).toNat = 32 from by simp [fieldOp]]
  delta decodeSync
  dsimp only
  rw [show (BitVec.extractLsb' 0 4 _).toNat = 9 from by simp [fieldLo, extract_extract]]
  simp [legal, fieldOp, fieldA, fieldB, fieldC, fieldLo, fieldImm, extract_extract]

theorem amo (a0) (a1) (a2) (a3) (a4) : Statement (.amo a0 a1 a2 a3 a4) := by
  intro ok w h
  cases h
  delta decode
  dsimp only
  rw [show (fieldOp _).toNat = 33 from by simp [fieldOp]]
  delta decodeAtom
  dsimp only
  rw [show (BitVec.extractLsb' 9 2 _).toNat = 0 from by simp [fieldLo, extract_extract]]
  delta Instr.wf at ok
  dsimp only at ok
  simp_all [legal, fieldOp, fieldA, fieldB, fieldC, fieldLo, fieldImm, extract_extract]

theorem cas (a0) (a1) (a2) (a3) : Statement (.cas a0 a1 a2 a3) := by
  intro ok w h
  cases h
  delta decode
  dsimp only
  rw [show (fieldOp _).toNat = 33 from by simp [fieldOp]]
  delta decodeAtom
  dsimp only
  rw [show (BitVec.extractLsb' 9 2 _).toNat = 1 from by simp [fieldLo, extract_extract]]
  delta Instr.wf at ok
  dsimp only at ok
  simp_all [legal, fieldOp, fieldA, fieldB, fieldC, fieldLo, fieldImm, extract_extract]

theorem lda (a0) (a1) (a2) : Statement (.lda a0 a1 a2) := by
  intro ok w h
  cases h
  delta decode
  dsimp only
  rw [show (fieldOp _).toNat = 33 from by simp [fieldOp]]
  delta decodeAtom
  dsimp only
  rw [show (BitVec.extractLsb' 9 2 _).toNat = 2 from by simp [fieldLo, extract_extract]]
  simp [legal, fieldOp, fieldA, fieldB, fieldC, fieldLo, fieldImm, extract_extract, scopeField]

theorem str (a0) (a1) (a2) : Statement (.str a0 a1 a2) := by
  intro ok w h
  cases h
  delta decode
  dsimp only
  rw [show (fieldOp _).toNat = 33 from by simp [fieldOp]]
  delta decodeAtom
  dsimp only
  rw [show (BitVec.extractLsb' 9 2 _).toNat = 3 from by simp [fieldLo, extract_extract]]
  simp [legal, fieldOp, fieldA, fieldB, fieldC, fieldLo, fieldImm, extract_extract, scopeField]

theorem cinit (a0) (a1) : Statement (.cinit a0 a1) := by
  intro ok w h
  cases h
  delta decode
  dsimp only
  rw [show (fieldOp _).toNat = 34 from by simp [fieldOp]]
  delta decodeCell
  dsimp only
  rw [show (BitVec.extractLsb' 0 3 _).toNat = 0 from by simp [fieldLo, extract_extract]]
  simp [legal, fieldOp, fieldA, fieldB, fieldC, fieldLo, fieldImm, extract_extract]

theorem cst (a0) (a1) : Statement (.cst a0 a1) := by
  intro ok w h
  cases h
  delta decode
  dsimp only
  rw [show (fieldOp _).toNat = 34 from by simp [fieldOp]]
  delta decodeCell
  dsimp only
  rw [show (BitVec.extractLsb' 0 3 _).toNat = 1 from by simp [fieldLo, extract_extract]]
  simp [legal, fieldOp, fieldA, fieldB, fieldC, fieldLo, fieldImm, extract_extract]

theorem cld (a0) (a1) (a2) : Statement (.cld a0 a1 a2) := by
  intro ok w h
  cases h
  delta decode
  dsimp only
  rw [show (fieldOp _).toNat = 34 from by simp [fieldOp]]
  delta decodeCell
  dsimp only
  rw [show (BitVec.extractLsb' 0 3 _).toNat = 2 from by simp [fieldLo, extract_extract]]
  simp [legal, fieldOp, fieldA, fieldB, fieldC, fieldLo, fieldImm, extract_extract]

theorem crcl (a0) (a1) : Statement (.crcl a0 a1) := by
  intro ok w h
  cases h
  delta decode
  dsimp only
  rw [show (fieldOp _).toNat = 34 from by simp [fieldOp]]
  delta decodeCell
  dsimp only
  rw [show (BitVec.extractLsb' 0 3 _).toNat = 3 from by simp [fieldLo, extract_extract]]
  simp [legal, fieldOp, fieldA, fieldB, fieldC, fieldLo, fieldImm, extract_extract]

theorem cver (a0) (a1) : Statement (.cver a0 a1) := by
  intro ok w h
  cases h
  delta decode
  dsimp only
  rw [show (fieldOp _).toNat = 34 from by simp [fieldOp]]
  delta decodeCell
  dsimp only
  rw [show (BitVec.extractLsb' 0 3 _).toNat = 4 from by simp [fieldLo, extract_extract]]
  simp [legal, fieldOp, fieldA, fieldB, fieldC, fieldLo, fieldImm, extract_extract]

theorem dma (a0) (a1) (a2) (a3) : Statement (.dma a0 a1 a2 a3) := by
  intro ok w h
  cases h
  delta decode
  dsimp only
  rw [show (fieldOp _).toNat = 35 from by simp [fieldOp]]
  delta decodeXfer
  dsimp only
  rw [show (BitVec.extractLsb' 0 5 _).toNat = 0 from by simp [fieldLo, extract_extract]]
  simp [legal, fieldOp, fieldA, fieldB, fieldC, fieldLo, fieldImm, extract_extract]

theorem dmad (a0) (a1) (a2) (a3) : Statement (.dmad a0 a1 a2 a3) := by
  intro ok w h
  cases h
  delta decode
  dsimp only
  rw [show (fieldOp _).toNat = 35 from by simp [fieldOp]]
  delta decodeXfer
  dsimp only
  rw [show (BitVec.extractLsb' 0 5 _).toNat = 1 from by simp [fieldLo, extract_extract]]
  simp [legal, fieldOp, fieldA, fieldB, fieldC, fieldLo, fieldImm, extract_extract]

theorem dmares (a0) : Statement (.dmares a0) := by
  intro ok w h
  cases h
  delta decode
  dsimp only
  rw [show (fieldOp _).toNat = 35 from by simp [fieldOp]]
  delta decodeXfer
  dsimp only
  rw [show (BitVec.extractLsb' 0 5 _).toNat = 2 from by simp [fieldLo, extract_extract]]
  simp [legal, fieldOp, fieldA, fieldB, fieldC, fieldLo, fieldImm, extract_extract]

theorem waitany (a0) : Statement (.waitany a0) := by
  intro ok w h
  cases h
  delta decode
  dsimp only
  rw [show (fieldOp _).toNat = 35 from by simp [fieldOp]]
  delta decodeXfer
  dsimp only
  rw [show (BitVec.extractLsb' 0 5 _).toNat = 3 from by simp [fieldLo, extract_extract]]
  simp [legal, fieldOp, fieldA, fieldB, fieldC, fieldLo, fieldImm, extract_extract]

theorem waitall (a0) : Statement (.waitall a0) := by
  intro ok w h
  cases h
  delta decode
  dsimp only
  rw [show (fieldOp _).toNat = 35 from by simp [fieldOp]]
  delta decodeXfer
  dsimp only
  rw [show (BitVec.extractLsb' 0 5 _).toNat = 4 from by simp [fieldLo, extract_extract]]
  simp [legal, fieldOp, fieldA, fieldB, fieldC, fieldLo, fieldImm, extract_extract]

theorem ffrdy (a0) : Statement (.ffrdy a0) := by
  intro ok w h
  cases h
  delta decode
  dsimp only
  rw [show (fieldOp _).toNat = 35 from by simp [fieldOp]]
  delta decodeXfer
  dsimp only
  rw [show (BitVec.extractLsb' 0 5 _).toNat = 5 from by simp [fieldLo, extract_extract]]
  simp [legal, fieldOp, fieldA, fieldB, fieldC, fieldLo, fieldImm, extract_extract]

theorem tagclr (a0) : Statement (.tagclr a0) := by
  intro ok w h
  cases h
  delta decode
  dsimp only
  rw [show (fieldOp _).toNat = 35 from by simp [fieldOp]]
  delta decodeXfer
  dsimp only
  rw [show (BitVec.extractLsb' 0 5 _).toNat = 6 from by simp [fieldLo, extract_extract]]
  simp [legal, fieldOp, fieldA, fieldB, fieldC, fieldLo, fieldImm, extract_extract]

theorem qpush (a0) (a1) : Statement (.qpush a0 a1) := by
  intro ok w h
  cases h
  delta decode
  dsimp only
  rw [show (fieldOp _).toNat = 35 from by simp [fieldOp]]
  delta decodeXfer
  dsimp only
  rw [show (BitVec.extractLsb' 0 5 _).toNat = 7 from by simp [fieldLo, extract_extract]]
  simp [legal, fieldOp, fieldA, fieldB, fieldC, fieldLo, fieldImm, extract_extract, queueField]

theorem qpop (a0) (a1) : Statement (.qpop a0 a1) := by
  intro ok w h
  cases h
  delta decode
  dsimp only
  rw [show (fieldOp _).toNat = 35 from by simp [fieldOp]]
  delta decodeXfer
  dsimp only
  rw [show (BitVec.extractLsb' 0 5 _).toNat = 8 from by simp [fieldLo, extract_extract]]
  simp [legal, fieldOp, fieldA, fieldB, fieldC, fieldLo, fieldImm, extract_extract, queueField]

theorem qtry (a0) (a1) : Statement (.qtry a0 a1) := by
  intro ok w h
  cases h
  delta decode
  dsimp only
  rw [show (fieldOp _).toNat = 35 from by simp [fieldOp]]
  delta decodeXfer
  dsimp only
  rw [show (BitVec.extractLsb' 0 5 _).toNat = 9 from by simp [fieldLo, extract_extract]]
  simp [legal, fieldOp, fieldA, fieldB, fieldC, fieldLo, fieldImm, extract_extract, queueField]

theorem qcnt (a0) (a1) : Statement (.qcnt a0 a1) := by
  intro ok w h
  cases h
  delta decode
  dsimp only
  rw [show (fieldOp _).toNat = 35 from by simp [fieldOp]]
  delta decodeXfer
  dsimp only
  rw [show (BitVec.extractLsb' 0 5 _).toNat = 10 from by simp [fieldLo, extract_extract]]
  simp [legal, fieldOp, fieldA, fieldB, fieldC, fieldLo, fieldImm, extract_extract, queueField]

theorem iceg (a0) : Statement (.iceg a0) := by
  intro ok w h
  cases h
  delta decode
  dsimp only
  rw [show (fieldOp _).toNat = 35 from by simp [fieldOp]]
  delta decodeXfer
  dsimp only
  rw [show (BitVec.extractLsb' 0 5 _).toNat = 11 from by simp [fieldLo, extract_extract]]
  simp [legal, fieldOp, fieldA, fieldB, fieldC, fieldLo, fieldImm, extract_extract]

theorem ices (a0) : Statement (.ices a0) := by
  intro ok w h
  cases h
  delta decode
  dsimp only
  rw [show (fieldOp _).toNat = 35 from by simp [fieldOp]]
  delta decodeXfer
  dsimp only
  rw [show (BitVec.extractLsb' 0 5 _).toNat = 12 from by simp [fieldLo, extract_extract]]
  simp [legal, fieldOp, fieldA, fieldB, fieldC, fieldLo, fieldImm, extract_extract]

theorem iceres (a0) : Statement (.iceres a0) := by
  intro ok w h
  cases h
  delta decode
  dsimp only
  rw [show (fieldOp _).toNat = 35 from by simp [fieldOp]]
  delta decodeXfer
  dsimp only
  rw [show (BitVec.extractLsb' 0 5 _).toNat = 13 from by simp [fieldLo, extract_extract]]
  simp [legal, fieldOp, fieldA, fieldB, fieldC, fieldLo, fieldImm, extract_extract]

theorem vld (a0) (a1) (a2) (a3) (a4) : Statement (.vld a0 a1 a2 a3 a4) := by
  intro ok w h
  cases h
  delta decode
  dsimp only
  rw [show (fieldOp _).toNat = 36 from by simp [fieldOp]]
  delta decodeVmem
  dsimp only
  rw [show (BitVec.extractLsb' 0 3 _).toNat = 0 from by simp [fieldLo, extract_extract]]
  delta Instr.wf at ok
  dsimp only at ok
  simp_all [legal, fieldOp, fieldA, fieldB, fieldC, fieldLo, fieldImm, extract_extract]

theorem vlds (a0) (a1) (a2) (a3) : Statement (.vlds a0 a1 a2 a3) := by
  intro ok w h
  cases h
  delta decode
  dsimp only
  rw [show (fieldOp _).toNat = 36 from by simp [fieldOp]]
  delta decodeVmem
  dsimp only
  rw [show (BitVec.extractLsb' 0 3 _).toNat = 1 from by simp [fieldLo, extract_extract]]
  delta Instr.wf at ok
  dsimp only at ok
  simp_all [legal, fieldOp, fieldA, fieldB, fieldC, fieldLo, fieldImm, extract_extract]

theorem vldx (a0) (a1) (a2) (a3) : Statement (.vldx a0 a1 a2 a3) := by
  intro ok w h
  cases h
  delta decode
  dsimp only
  rw [show (fieldOp _).toNat = 36 from by simp [fieldOp]]
  delta decodeVmem
  dsimp only
  rw [show (BitVec.extractLsb' 0 3 _).toNat = 2 from by simp [fieldLo, extract_extract]]
  delta Instr.wf at ok
  dsimp only at ok
  simp_all [legal, fieldOp, fieldA, fieldB, fieldC, fieldLo, fieldImm, extract_extract]

theorem vst (a0) (a1) (a2) (a3) (a4) : Statement (.vst a0 a1 a2 a3 a4) := by
  intro ok w h
  cases h
  delta decode
  dsimp only
  rw [show (fieldOp _).toNat = 36 from by simp [fieldOp]]
  delta decodeVmem
  dsimp only
  rw [show (BitVec.extractLsb' 0 3 _).toNat = 3 from by simp [fieldLo, extract_extract]]
  delta Instr.wf at ok
  dsimp only at ok
  simp_all [legal, fieldOp, fieldA, fieldB, fieldC, fieldLo, fieldImm, extract_extract]

theorem vsts (a0) (a1) (a2) (a3) : Statement (.vsts a0 a1 a2 a3) := by
  intro ok w h
  cases h
  delta decode
  dsimp only
  rw [show (fieldOp _).toNat = 36 from by simp [fieldOp]]
  delta decodeVmem
  dsimp only
  rw [show (BitVec.extractLsb' 0 3 _).toNat = 4 from by simp [fieldLo, extract_extract]]
  delta Instr.wf at ok
  dsimp only at ok
  simp_all [legal, fieldOp, fieldA, fieldB, fieldC, fieldLo, fieldImm, extract_extract]

theorem vstx (a0) (a1) (a2) (a3) : Statement (.vstx a0 a1 a2 a3) := by
  intro ok w h
  cases h
  delta decode
  dsimp only
  rw [show (fieldOp _).toNat = 36 from by simp [fieldOp]]
  delta decodeVmem
  dsimp only
  rw [show (BitVec.extractLsb' 0 3 _).toNat = 5 from by simp [fieldLo, extract_extract]]
  delta Instr.wf at ok
  dsimp only at ok
  simp_all [legal, fieldOp, fieldA, fieldB, fieldC, fieldLo, fieldImm, extract_extract]

theorem vadd (a0) (a1) (a2) (a3) (a4) : Statement (.vadd a0 a1 a2 a3 a4) := by
  intro ok w h
  cases h
  delta decode
  dsimp only
  rw [show (fieldOp _).toNat = 37 from by simp [fieldOp]]
  delta decodeVint
  dsimp only
  rw [show (BitVec.extractLsb' 0 6 _).toNat = 0 from by simp [fieldLo, extract_extract]]
  delta Instr.wf at ok
  dsimp only at ok
  simp_all [legal, fieldOp, fieldA, fieldB, fieldC, fieldLo, fieldImm, extract_extract]

theorem vsub (a0) (a1) (a2) (a3) (a4) : Statement (.vsub a0 a1 a2 a3 a4) := by
  intro ok w h
  cases h
  delta decode
  dsimp only
  rw [show (fieldOp _).toNat = 37 from by simp [fieldOp]]
  delta decodeVint
  dsimp only
  rw [show (BitVec.extractLsb' 0 6 _).toNat = 1 from by simp [fieldLo, extract_extract]]
  delta Instr.wf at ok
  dsimp only at ok
  simp_all [legal, fieldOp, fieldA, fieldB, fieldC, fieldLo, fieldImm, extract_extract]

theorem vmul (a0) (a1) (a2) (a3) (a4) : Statement (.vmul a0 a1 a2 a3 a4) := by
  intro ok w h
  cases h
  delta decode
  dsimp only
  rw [show (fieldOp _).toNat = 37 from by simp [fieldOp]]
  delta decodeVint
  dsimp only
  rw [show (BitVec.extractLsb' 0 6 _).toNat = 2 from by simp [fieldLo, extract_extract]]
  delta Instr.wf at ok
  dsimp only at ok
  simp_all [legal, fieldOp, fieldA, fieldB, fieldC, fieldLo, fieldImm, extract_extract]

theorem vmulh (a0) (a1) (a2) (a3) (a4) : Statement (.vmulh a0 a1 a2 a3 a4) := by
  intro ok w h
  cases h
  delta decode
  dsimp only
  rw [show (fieldOp _).toNat = 37 from by simp [fieldOp]]
  delta decodeVint
  dsimp only
  rw [show (BitVec.extractLsb' 0 6 _).toNat = 3 from by simp [fieldLo, extract_extract]]
  delta Instr.wf at ok
  dsimp only at ok
  simp_all [legal, fieldOp, fieldA, fieldB, fieldC, fieldLo, fieldImm, extract_extract]

theorem vmin (a0) (a1) (a2) (a3) (a4) : Statement (.vmin a0 a1 a2 a3 a4) := by
  intro ok w h
  cases h
  delta decode
  dsimp only
  rw [show (fieldOp _).toNat = 37 from by simp [fieldOp]]
  delta decodeVint
  dsimp only
  rw [show (BitVec.extractLsb' 0 6 _).toNat = 4 from by simp [fieldLo, extract_extract]]
  delta Instr.wf at ok
  dsimp only at ok
  simp_all [legal, fieldOp, fieldA, fieldB, fieldC, fieldLo, fieldImm, extract_extract]

theorem vmax (a0) (a1) (a2) (a3) (a4) : Statement (.vmax a0 a1 a2 a3 a4) := by
  intro ok w h
  cases h
  delta decode
  dsimp only
  rw [show (fieldOp _).toNat = 37 from by simp [fieldOp]]
  delta decodeVint
  dsimp only
  rw [show (BitVec.extractLsb' 0 6 _).toNat = 5 from by simp [fieldLo, extract_extract]]
  delta Instr.wf at ok
  dsimp only at ok
  simp_all [legal, fieldOp, fieldA, fieldB, fieldC, fieldLo, fieldImm, extract_extract]

theorem vand (a0) (a1) (a2) (a3) (a4) : Statement (.vand a0 a1 a2 a3 a4) := by
  intro ok w h
  cases h
  delta decode
  dsimp only
  rw [show (fieldOp _).toNat = 37 from by simp [fieldOp]]
  delta decodeVint
  dsimp only
  rw [show (BitVec.extractLsb' 0 6 _).toNat = 6 from by simp [fieldLo, extract_extract]]
  delta Instr.wf at ok
  dsimp only at ok
  simp_all [legal, fieldOp, fieldA, fieldB, fieldC, fieldLo, fieldImm, extract_extract]

theorem vor (a0) (a1) (a2) (a3) (a4) : Statement (.vor a0 a1 a2 a3 a4) := by
  intro ok w h
  cases h
  delta decode
  dsimp only
  rw [show (fieldOp _).toNat = 37 from by simp [fieldOp]]
  delta decodeVint
  dsimp only
  rw [show (BitVec.extractLsb' 0 6 _).toNat = 7 from by simp [fieldLo, extract_extract]]
  delta Instr.wf at ok
  dsimp only at ok
  simp_all [legal, fieldOp, fieldA, fieldB, fieldC, fieldLo, fieldImm, extract_extract]

theorem vxor (a0) (a1) (a2) (a3) (a4) : Statement (.vxor a0 a1 a2 a3 a4) := by
  intro ok w h
  cases h
  delta decode
  dsimp only
  rw [show (fieldOp _).toNat = 37 from by simp [fieldOp]]
  delta decodeVint
  dsimp only
  rw [show (BitVec.extractLsb' 0 6 _).toNat = 8 from by simp [fieldLo, extract_extract]]
  delta Instr.wf at ok
  dsimp only at ok
  simp_all [legal, fieldOp, fieldA, fieldB, fieldC, fieldLo, fieldImm, extract_extract]

theorem vshl (a0) (a1) (a2) (a3) (a4) : Statement (.vshl a0 a1 a2 a3 a4) := by
  intro ok w h
  cases h
  delta decode
  dsimp only
  rw [show (fieldOp _).toNat = 37 from by simp [fieldOp]]
  delta decodeVint
  dsimp only
  rw [show (BitVec.extractLsb' 0 6 _).toNat = 9 from by simp [fieldLo, extract_extract]]
  delta Instr.wf at ok
  dsimp only at ok
  simp_all [legal, fieldOp, fieldA, fieldB, fieldC, fieldLo, fieldImm, extract_extract]

theorem vshr (a0) (a1) (a2) (a3) (a4) : Statement (.vshr a0 a1 a2 a3 a4) := by
  intro ok w h
  cases h
  delta decode
  dsimp only
  rw [show (fieldOp _).toNat = 37 from by simp [fieldOp]]
  delta decodeVint
  dsimp only
  rw [show (BitVec.extractLsb' 0 6 _).toNat = 10 from by simp [fieldLo, extract_extract]]
  delta Instr.wf at ok
  dsimp only at ok
  simp_all [legal, fieldOp, fieldA, fieldB, fieldC, fieldLo, fieldImm, extract_extract]

theorem vsra (a0) (a1) (a2) (a3) (a4) : Statement (.vsra a0 a1 a2 a3 a4) := by
  intro ok w h
  cases h
  delta decode
  dsimp only
  rw [show (fieldOp _).toNat = 37 from by simp [fieldOp]]
  delta decodeVint
  dsimp only
  rw [show (BitVec.extractLsb' 0 6 _).toNat = 11 from by simp [fieldLo, extract_extract]]
  delta Instr.wf at ok
  dsimp only at ok
  simp_all [legal, fieldOp, fieldA, fieldB, fieldC, fieldLo, fieldImm, extract_extract]

theorem vabs (a0) (a1) (a2) (a3) : Statement (.vabs a0 a1 a2 a3) := by
  intro ok w h
  cases h
  delta decode
  dsimp only
  rw [show (fieldOp _).toNat = 37 from by simp [fieldOp]]
  delta decodeVint
  dsimp only
  rw [show (BitVec.extractLsb' 0 6 _).toNat = 12 from by simp [fieldLo, extract_extract]]
  delta Instr.wf at ok
  dsimp only at ok
  simp_all [legal, fieldOp, fieldA, fieldB, fieldC, fieldLo, fieldImm, extract_extract]

theorem vadds (a0) (a1) (a2) (a3) (a4) : Statement (.vadds a0 a1 a2 a3 a4) := by
  intro ok w h
  cases h
  delta decode
  dsimp only
  rw [show (fieldOp _).toNat = 37 from by simp [fieldOp]]
  delta decodeVint
  dsimp only
  rw [show (BitVec.extractLsb' 0 6 _).toNat = 13 from by simp [fieldLo, extract_extract]]
  delta Instr.wf at ok
  dsimp only at ok
  simp_all [legal, fieldOp, fieldA, fieldB, fieldC, fieldLo, fieldImm, extract_extract]

theorem vsubs (a0) (a1) (a2) (a3) (a4) : Statement (.vsubs a0 a1 a2 a3 a4) := by
  intro ok w h
  cases h
  delta decode
  dsimp only
  rw [show (fieldOp _).toNat = 37 from by simp [fieldOp]]
  delta decodeVint
  dsimp only
  rw [show (BitVec.extractLsb' 0 6 _).toNat = 14 from by simp [fieldLo, extract_extract]]
  delta Instr.wf at ok
  dsimp only at ok
  simp_all [legal, fieldOp, fieldA, fieldB, fieldC, fieldLo, fieldImm, extract_extract]

theorem vcmpeq (a0) (a1) (a2) (a3) (a4) : Statement (.vcmpeq a0 a1 a2 a3 a4) := by
  intro ok w h
  cases h
  delta decode
  dsimp only
  rw [show (fieldOp _).toNat = 37 from by simp [fieldOp]]
  delta decodeVint
  dsimp only
  rw [show (BitVec.extractLsb' 0 6 _).toNat = 15 from by simp [fieldLo, extract_extract]]
  delta Instr.wf at ok
  dsimp only at ok
  simp_all [legal, fieldOp, fieldA, fieldB, fieldC, fieldLo, fieldImm, extract_extract]

theorem vcmplt (a0) (a1) (a2) (a3) (a4) : Statement (.vcmplt a0 a1 a2 a3 a4) := by
  intro ok w h
  cases h
  delta decode
  dsimp only
  rw [show (fieldOp _).toNat = 37 from by simp [fieldOp]]
  delta decodeVint
  dsimp only
  rw [show (BitVec.extractLsb' 0 6 _).toNat = 16 from by simp [fieldLo, extract_extract]]
  delta Instr.wf at ok
  dsimp only at ok
  simp_all [legal, fieldOp, fieldA, fieldB, fieldC, fieldLo, fieldImm, extract_extract]

theorem vcmple (a0) (a1) (a2) (a3) (a4) : Statement (.vcmple a0 a1 a2 a3 a4) := by
  intro ok w h
  cases h
  delta decode
  dsimp only
  rw [show (fieldOp _).toNat = 37 from by simp [fieldOp]]
  delta decodeVint
  dsimp only
  rw [show (BitVec.extractLsb' 0 6 _).toNat = 17 from by simp [fieldLo, extract_extract]]
  delta Instr.wf at ok
  dsimp only at ok
  simp_all [legal, fieldOp, fieldA, fieldB, fieldC, fieldLo, fieldImm, extract_extract]

theorem vsel (a0) (a1) (a2) (a3) (a4) : Statement (.vsel a0 a1 a2 a3 a4) := by
  intro ok w h
  cases h
  delta decode
  dsimp only
  rw [show (fieldOp _).toNat = 37 from by simp [fieldOp]]
  delta decodeVint
  dsimp only
  rw [show (BitVec.extractLsb' 0 6 _).toNat = 18 from by simp [fieldLo, extract_extract]]
  delta Instr.wf at ok
  dsimp only at ok
  simp_all [legal, fieldOp, fieldA, fieldB, fieldC, fieldLo, fieldImm, extract_extract]

theorem vfadd (a0) (a1) (a2) (a3) (a4) : Statement (.vfadd a0 a1 a2 a3 a4) := by
  intro ok w h
  cases h
  delta decode
  dsimp only
  rw [show (fieldOp _).toNat = 38 from by simp [fieldOp]]
  delta decodeVfp
  dsimp only
  rw [show (BitVec.extractLsb' 0 6 _).toNat = 0 from by simp [fieldLo, extract_extract]]
  delta Instr.wf at ok
  dsimp only at ok
  simp_all [legal, fieldOp, fieldA, fieldB, fieldC, fieldLo, fieldImm, extract_extract]

theorem vfsub (a0) (a1) (a2) (a3) (a4) : Statement (.vfsub a0 a1 a2 a3 a4) := by
  intro ok w h
  cases h
  delta decode
  dsimp only
  rw [show (fieldOp _).toNat = 38 from by simp [fieldOp]]
  delta decodeVfp
  dsimp only
  rw [show (BitVec.extractLsb' 0 6 _).toNat = 1 from by simp [fieldLo, extract_extract]]
  delta Instr.wf at ok
  dsimp only at ok
  simp_all [legal, fieldOp, fieldA, fieldB, fieldC, fieldLo, fieldImm, extract_extract]

theorem vfmul (a0) (a1) (a2) (a3) (a4) : Statement (.vfmul a0 a1 a2 a3 a4) := by
  intro ok w h
  cases h
  delta decode
  dsimp only
  rw [show (fieldOp _).toNat = 38 from by simp [fieldOp]]
  delta decodeVfp
  dsimp only
  rw [show (BitVec.extractLsb' 0 6 _).toNat = 2 from by simp [fieldLo, extract_extract]]
  delta Instr.wf at ok
  dsimp only at ok
  simp_all [legal, fieldOp, fieldA, fieldB, fieldC, fieldLo, fieldImm, extract_extract]

theorem vfma (a0) (a1) (a2) (a3) (a4) : Statement (.vfma a0 a1 a2 a3 a4) := by
  intro ok w h
  cases h
  delta decode
  dsimp only
  rw [show (fieldOp _).toNat = 38 from by simp [fieldOp]]
  delta decodeVfp
  dsimp only
  rw [show (BitVec.extractLsb' 0 6 _).toNat = 3 from by simp [fieldLo, extract_extract]]
  delta Instr.wf at ok
  dsimp only at ok
  simp_all [legal, fieldOp, fieldA, fieldB, fieldC, fieldLo, fieldImm, extract_extract]

theorem vfnma (a0) (a1) (a2) (a3) (a4) : Statement (.vfnma a0 a1 a2 a3 a4) := by
  intro ok w h
  cases h
  delta decode
  dsimp only
  rw [show (fieldOp _).toNat = 38 from by simp [fieldOp]]
  delta decodeVfp
  dsimp only
  rw [show (BitVec.extractLsb' 0 6 _).toNat = 4 from by simp [fieldLo, extract_extract]]
  delta Instr.wf at ok
  dsimp only at ok
  simp_all [legal, fieldOp, fieldA, fieldB, fieldC, fieldLo, fieldImm, extract_extract]

theorem vfmin (a0) (a1) (a2) (a3) (a4) : Statement (.vfmin a0 a1 a2 a3 a4) := by
  intro ok w h
  cases h
  delta decode
  dsimp only
  rw [show (fieldOp _).toNat = 38 from by simp [fieldOp]]
  delta decodeVfp
  dsimp only
  rw [show (BitVec.extractLsb' 0 6 _).toNat = 5 from by simp [fieldLo, extract_extract]]
  delta Instr.wf at ok
  dsimp only at ok
  simp_all [legal, fieldOp, fieldA, fieldB, fieldC, fieldLo, fieldImm, extract_extract]

theorem vfmax (a0) (a1) (a2) (a3) (a4) : Statement (.vfmax a0 a1 a2 a3 a4) := by
  intro ok w h
  cases h
  delta decode
  dsimp only
  rw [show (fieldOp _).toNat = 38 from by simp [fieldOp]]
  delta decodeVfp
  dsimp only
  rw [show (BitVec.extractLsb' 0 6 _).toNat = 6 from by simp [fieldLo, extract_extract]]
  delta Instr.wf at ok
  dsimp only at ok
  simp_all [legal, fieldOp, fieldA, fieldB, fieldC, fieldLo, fieldImm, extract_extract]

theorem vfdiv (a0) (a1) (a2) (a3) (a4) : Statement (.vfdiv a0 a1 a2 a3 a4) := by
  intro ok w h
  cases h
  delta decode
  dsimp only
  rw [show (fieldOp _).toNat = 38 from by simp [fieldOp]]
  delta decodeVfp
  dsimp only
  rw [show (BitVec.extractLsb' 0 6 _).toNat = 7 from by simp [fieldLo, extract_extract]]
  delta Instr.wf at ok
  dsimp only at ok
  simp_all [legal, fieldOp, fieldA, fieldB, fieldC, fieldLo, fieldImm, extract_extract]

theorem vfrsq (a0) (a1) (a2) (a3) : Statement (.vfrsq a0 a1 a2 a3) := by
  intro ok w h
  cases h
  delta decode
  dsimp only
  rw [show (fieldOp _).toNat = 38 from by simp [fieldOp]]
  delta decodeVfp
  dsimp only
  rw [show (BitVec.extractLsb' 0 6 _).toNat = 8 from by simp [fieldLo, extract_extract]]
  delta Instr.wf at ok
  dsimp only at ok
  simp_all [legal, fieldOp, fieldA, fieldB, fieldC, fieldLo, fieldImm, extract_extract]

theorem vfexp2 (a0) (a1) (a2) (a3) : Statement (.vfexp2 a0 a1 a2 a3) := by
  intro ok w h
  cases h
  delta decode
  dsimp only
  rw [show (fieldOp _).toNat = 38 from by simp [fieldOp]]
  delta decodeVfp
  dsimp only
  rw [show (BitVec.extractLsb' 0 6 _).toNat = 9 from by simp [fieldLo, extract_extract]]
  delta Instr.wf at ok
  dsimp only at ok
  simp_all [legal, fieldOp, fieldA, fieldB, fieldC, fieldLo, fieldImm, extract_extract]

theorem vfcmpeq (a0) (a1) (a2) (a3) (a4) : Statement (.vfcmpeq a0 a1 a2 a3 a4) := by
  intro ok w h
  cases h
  delta decode
  dsimp only
  rw [show (fieldOp _).toNat = 38 from by simp [fieldOp]]
  delta decodeVfp
  dsimp only
  rw [show (BitVec.extractLsb' 0 6 _).toNat = 10 from by simp [fieldLo, extract_extract]]
  delta Instr.wf at ok
  dsimp only at ok
  simp_all [legal, fieldOp, fieldA, fieldB, fieldC, fieldLo, fieldImm, extract_extract]

theorem vfcmplt (a0) (a1) (a2) (a3) (a4) : Statement (.vfcmplt a0 a1 a2 a3 a4) := by
  intro ok w h
  cases h
  delta decode
  dsimp only
  rw [show (fieldOp _).toNat = 38 from by simp [fieldOp]]
  delta decodeVfp
  dsimp only
  rw [show (BitVec.extractLsb' 0 6 _).toNat = 11 from by simp [fieldLo, extract_extract]]
  delta Instr.wf at ok
  dsimp only at ok
  simp_all [legal, fieldOp, fieldA, fieldB, fieldC, fieldLo, fieldImm, extract_extract]

theorem vfcmple (a0) (a1) (a2) (a3) (a4) : Statement (.vfcmple a0 a1 a2 a3 a4) := by
  intro ok w h
  cases h
  delta decode
  dsimp only
  rw [show (fieldOp _).toNat = 38 from by simp [fieldOp]]
  delta decodeVfp
  dsimp only
  rw [show (BitVec.extractLsb' 0 6 _).toNat = 12 from by simp [fieldLo, extract_extract]]
  delta Instr.wf at ok
  dsimp only at ok
  simp_all [legal, fieldOp, fieldA, fieldB, fieldC, fieldLo, fieldImm, extract_extract]

theorem vmovx (a0) (a1) (a2) (a3) : Statement (.vmovx a0 a1 a2 a3) := by
  intro ok w h
  cases h
  delta decode
  dsimp only
  rw [show (fieldOp _).toNat = 39 from by simp [fieldOp]]
  delta decodeVmisc
  dsimp only
  rw [show (BitVec.extractLsb' 0 6 _).toNat = 0 from by simp [fieldLo, extract_extract]]
  simp [legal, fieldOp, fieldA, fieldB, fieldC, fieldLo, fieldImm, extract_extract]

theorem vsplat (a0) (a1) (a2) (a3) : Statement (.vsplat a0 a1 a2 a3) := by
  intro ok w h
  cases h
  delta decode
  dsimp only
  rw [show (fieldOp _).toNat = 39 from by simp [fieldOp]]
  delta decodeVmisc
  dsimp only
  rw [show (BitVec.extractLsb' 0 6 _).toNat = 1 from by simp [fieldLo, extract_extract]]
  delta Instr.wf at ok
  dsimp only at ok
  simp_all [legal, fieldOp, fieldA, fieldB, fieldC, fieldLo, fieldImm, extract_extract]

theorem vins (a0) (a1) (a2) (a3) : Statement (.vins a0 a1 a2 a3) := by
  intro ok w h
  cases h
  delta decode
  dsimp only
  rw [show (fieldOp _).toNat = 39 from by simp [fieldOp]]
  delta decodeVmisc
  dsimp only
  rw [show (BitVec.extractLsb' 0 6 _).toNat = 2 from by simp [fieldLo, extract_extract]]
  simp [legal, fieldOp, fieldA, fieldB, fieldC, fieldLo, fieldImm, extract_extract]

theorem vperm (a0) (a1) (a2) (a3) (a4) : Statement (.vperm a0 a1 a2 a3 a4) := by
  intro ok w h
  cases h
  delta decode
  dsimp only
  rw [show (fieldOp _).toNat = 39 from by simp [fieldOp]]
  delta decodeVmisc
  dsimp only
  rw [show (BitVec.extractLsb' 0 6 _).toNat = 3 from by simp [fieldLo, extract_extract]]
  delta Instr.wf at ok
  dsimp only at ok
  simp_all [legal, fieldOp, fieldA, fieldB, fieldC, fieldLo, fieldImm, extract_extract]

theorem vslide (a0) (a1) (a2) (a3) (a4) : Statement (.vslide a0 a1 a2 a3 a4) := by
  intro ok w h
  cases h
  delta decode
  dsimp only
  rw [show (fieldOp _).toNat = 39 from by simp [fieldOp]]
  delta decodeVmisc
  dsimp only
  rw [show (BitVec.extractLsb' 0 6 _).toNat = 4 from by simp [fieldLo, extract_extract]]
  delta Instr.wf at ok
  dsimp only at ok
  simp_all [legal, fieldOp, fieldA, fieldB, fieldC, fieldLo, fieldImm, extract_extract]

theorem vred (a0) (a1) (a2) (a3) : Statement (.vred a0 a1 a2 a3) := by
  intro ok w h
  cases h
  delta decode
  dsimp only
  rw [show (fieldOp _).toNat = 39 from by simp [fieldOp]]
  delta decodeVmisc
  dsimp only
  rw [show (BitVec.extractLsb' 0 6 _).toNat = 5 from by simp [fieldLo, extract_extract]]
  delta Instr.wf at ok
  dsimp only at ok
  simp_all [legal, fieldOp, fieldA, fieldB, fieldC, fieldLo, fieldImm, extract_extract]

theorem vscan (a0) (a1) (a2) (a3) : Statement (.vscan a0 a1 a2 a3) := by
  intro ok w h
  cases h
  delta decode
  dsimp only
  rw [show (fieldOp _).toNat = 39 from by simp [fieldOp]]
  delta decodeVmisc
  dsimp only
  rw [show (BitVec.extractLsb' 0 6 _).toNat = 6 from by simp [fieldLo, extract_extract]]
  delta Instr.wf at ok
  dsimp only at ok
  simp_all [legal, fieldOp, fieldA, fieldB, fieldC, fieldLo, fieldImm, extract_extract]

theorem vcvt (a0) (a1) (a2) (a3) (a4) : Statement (.vcvt a0 a1 a2 a3 a4) := by
  intro ok w h
  cases h
  delta decode
  dsimp only
  rw [show (fieldOp _).toNat = 39 from by simp [fieldOp]]
  delta decodeVmisc
  dsimp only
  rw [show (BitVec.extractLsb' 0 6 _).toNat = 7 from by simp [fieldLo, extract_extract]]
  delta Instr.wf at ok
  dsimp only at ok
  simp_all [legal, fieldOp, fieldA, fieldB, fieldC, fieldLo, fieldImm, extract_extract, typeField]

theorem vqnt (a0) (a1) (a2) (a3) (a4) : Statement (.vqnt a0 a1 a2 a3 a4) := by
  intro ok w h
  cases h
  delta decode
  dsimp only
  rw [show (fieldOp _).toNat = 39 from by simp [fieldOp]]
  delta decodeVmisc
  dsimp only
  rw [show (BitVec.extractLsb' 0 6 _).toNat = 8 from by simp [fieldLo, extract_extract]]
  delta Instr.wf at ok
  dsimp only at ok
  simp_all [legal, fieldOp, fieldA, fieldB, fieldC, fieldLo, fieldImm, extract_extract]

theorem vnz (a0) (a1) (a2) (a3) (a4) : Statement (.vnz a0 a1 a2 a3 a4) := by
  intro ok w h
  cases h
  delta decode
  dsimp only
  rw [show (fieldOp _).toNat = 39 from by simp [fieldOp]]
  delta decodeVmisc
  dsimp only
  rw [show (BitVec.extractLsb' 0 6 _).toNat = 9 from by simp [fieldLo, extract_extract]]
  delta Instr.wf at ok
  dsimp only at ok
  simp_all [legal, fieldOp, fieldA, fieldB, fieldC, fieldLo, fieldImm, extract_extract]

theorem vcompr (a0) (a1) (a2) (a3) (a4) : Statement (.vcompr a0 a1 a2 a3 a4) := by
  intro ok w h
  cases h
  delta decode
  dsimp only
  rw [show (fieldOp _).toNat = 39 from by simp [fieldOp]]
  delta decodeVmisc
  dsimp only
  rw [show (BitVec.extractLsb' 0 6 _).toNat = 10 from by simp [fieldLo, extract_extract]]
  delta Instr.wf at ok
  dsimp only at ok
  simp_all [legal, fieldOp, fieldA, fieldB, fieldC, fieldLo, fieldImm, extract_extract]

theorem vpopc (a0) (a1) (a2) (a3) : Statement (.vpopc a0 a1 a2 a3) := by
  intro ok w h
  cases h
  delta decode
  dsimp only
  rw [show (fieldOp _).toNat = 39 from by simp [fieldOp]]
  delta decodeVmisc
  dsimp only
  rw [show (BitVec.extractLsb' 0 6 _).toNat = 11 from by simp [fieldLo, extract_extract]]
  delta Instr.wf at ok
  dsimp only at ok
  simp_all [legal, fieldOp, fieldA, fieldB, fieldC, fieldLo, fieldImm, extract_extract]

theorem sopen (a0) (a1) (a2) (a3) (a4) : Statement (.sopen a0 a1 a2 a3 a4) := by
  intro ok w h
  cases h
  delta decode
  dsimp only
  rw [show (fieldOp _).toNat = 40 from by simp [fieldOp]]
  delta decodeStrm
  dsimp only
  rw [show (BitVec.extractLsb' 0 3 _).toNat = 0 from by simp [fieldLo, extract_extract]]
  delta Instr.wf at ok
  dsimp only at ok
  simp_all [legal, fieldOp, fieldA, fieldB, fieldC, fieldLo, fieldImm, extract_extract]

theorem sadv (a0) (a1) : Statement (.sadv a0 a1) := by
  intro ok w h
  cases h
  delta decode
  dsimp only
  rw [show (fieldOp _).toNat = 40 from by simp [fieldOp]]
  delta decodeStrm
  dsimp only
  rw [show (BitVec.extractLsb' 0 3 _).toNat = 1 from by simp [fieldLo, extract_extract]]
  simp [legal, fieldOp, fieldA, fieldB, fieldC, fieldLo, fieldImm, extract_extract]

theorem stend (a0) (a1) : Statement (.stend a0 a1) := by
  intro ok w h
  cases h
  delta decode
  dsimp only
  rw [show (fieldOp _).toNat = 40 from by simp [fieldOp]]
  delta decodeStrm
  dsimp only
  rw [show (BitVec.extractLsb' 0 3 _).toNat = 2 from by simp [fieldLo, extract_extract]]
  simp [legal, fieldOp, fieldA, fieldB, fieldC, fieldLo, fieldImm, extract_extract]

theorem sclose (a0) : Statement (.sclose a0) := by
  intro ok w h
  cases h
  delta decode
  dsimp only
  rw [show (fieldOp _).toNat = 40 from by simp [fieldOp]]
  delta decodeStrm
  dsimp only
  rw [show (BitVec.extractLsb' 0 3 _).toNat = 3 from by simp [fieldLo, extract_extract]]
  simp [legal, fieldOp, fieldA, fieldB, fieldC, fieldLo, fieldImm, extract_extract]

theorem smerge (a0) (a1) : Statement (.smerge a0 a1) := by
  intro ok w h
  cases h
  delta decode
  dsimp only
  rw [show (fieldOp _).toNat = 40 from by simp [fieldOp]]
  delta decodeStrm
  dsimp only
  rw [show (BitVec.extractLsb' 0 3 _).toNat = 4 from by simp [fieldLo, extract_extract]]
  delta Instr.wf at ok
  dsimp only at ok
  simp_all [legal, fieldOp, fieldA, fieldB, fieldC, fieldLo, fieldImm, extract_extract]

theorem spos (a0) (a1) : Statement (.spos a0 a1) := by
  intro ok w h
  cases h
  delta decode
  dsimp only
  rw [show (fieldOp _).toNat = 40 from by simp [fieldOp]]
  delta decodeStrm
  dsimp only
  rw [show (BitVec.extractLsb' 0 3 _).toNat = 5 from by simp [fieldLo, extract_extract]]
  simp [legal, fieldOp, fieldA, fieldB, fieldC, fieldLo, fieldImm, extract_extract]

theorem streamPrefetch (a0) : Statement (.streamPrefetch a0) := by
  intro _ w h
  cases h

theorem repf (a0) (a1) (a2) (a3) (a4) : Statement (.repf a0 a1 a2 a3 a4) := by
  intro ok w h
  cases h
  delta decode
  dsimp only
  rw [show (fieldOp _).toNat = 41 from by simp [fieldOp]]
  simp [legal, fieldOp, fieldA, fieldB, fieldC, fieldLo, fieldImm, extract_extract]

theorem gform (a0) : Statement (.gform a0) := by
  intro ok w h
  cases h
  delta decode
  dsimp only
  rw [show (fieldOp _).toNat = 42 from by simp [fieldOp]]
  delta decodeGang
  dsimp only
  rw [show (BitVec.extractLsb' 0 4 _).toNat = 0 from by simp [fieldLo, extract_extract]]
  simp [legal, fieldOp, fieldA, fieldB, fieldC, fieldLo, fieldImm, extract_extract]

theorem gjoin (a0) : Statement (.gjoin a0) := by
  intro ok w h
  cases h
  delta decode
  dsimp only
  rw [show (fieldOp _).toNat = 42 from by simp [fieldOp]]
  delta decodeGang
  dsimp only
  rw [show (BitVec.extractLsb' 0 4 _).toNat = 1 from by simp [fieldLo, extract_extract]]
  simp [legal, fieldOp, fieldA, fieldB, fieldC, fieldLo, fieldImm, extract_extract]

theorem gleave (a0) : Statement (.gleave a0) := by
  intro ok w h
  cases h
  delta decode
  dsimp only
  rw [show (fieldOp _).toNat = 42 from by simp [fieldOp]]
  delta decodeGang
  dsimp only
  rw [show (BitVec.extractLsb' 0 4 _).toNat = 2 from by simp [fieldLo, extract_extract]]
  simp [legal, fieldOp, fieldA, fieldB, fieldC, fieldLo, fieldImm, extract_extract]

theorem gdet (a0) : Statement (.gdet a0) := by
  intro ok w h
  cases h
  delta decode
  dsimp only
  rw [show (fieldOp _).toNat = 42 from by simp [fieldOp]]
  delta decodeGang
  dsimp only
  rw [show (BitVec.extractLsb' 0 4 _).toNat = 4 from by simp [fieldLo, extract_extract]]
  simp [legal, fieldOp, fieldA, fieldB, fieldC, fieldLo, fieldImm, extract_extract]

theorem gatt (a0) : Statement (.gatt a0) := by
  intro ok w h
  cases h
  delta decode
  dsimp only
  rw [show (fieldOp _).toNat = 42 from by simp [fieldOp]]
  delta decodeGang
  dsimp only
  rw [show (BitVec.extractLsb' 0 4 _).toNat = 5 from by simp [fieldLo, extract_extract]]
  simp [legal, fieldOp, fieldA, fieldB, fieldC, fieldLo, fieldImm, extract_extract]

theorem rjp (a0) : Statement (.rjp a0) := by
  intro ok w h
  cases h
  delta decode
  dsimp only
  rw [show (fieldOp _).toNat = 42 from by simp [fieldOp]]
  delta decodeGang
  dsimp only
  rw [show (BitVec.extractLsb' 0 4 _).toNat = 6 from by simp [fieldLo, extract_extract]]
  simp [legal, fieldOp, fieldA, fieldB, fieldC, fieldLo, fieldImm, extract_extract]

theorem xsh (a0) (a1) (a2) (a3) : Statement (.xsh a0 a1 a2 a3) := by
  intro ok w h
  cases h
  delta decode
  dsimp only
  rw [show (fieldOp _).toNat = 42 from by simp [fieldOp]]
  delta decodeGang
  dsimp only
  rw [show (BitVec.extractLsb' 0 4 _).toNat = 8 from by simp [fieldLo, extract_extract]]
  delta Instr.wf at ok
  dsimp only at ok
  simp_all [legal, fieldOp, fieldA, fieldB, fieldC, fieldLo, fieldImm, extract_extract]

theorem xwrap (a0) (a1) (a2) (a3) : Statement (.xwrap a0 a1 a2 a3) := by
  intro ok w h
  cases h
  delta decode
  dsimp only
  rw [show (fieldOp _).toNat = 42 from by simp [fieldOp]]
  delta decodeGang
  dsimp only
  rw [show (BitVec.extractLsb' 0 4 _).toNat = 9 from by simp [fieldLo, extract_extract]]
  delta Instr.wf at ok
  dsimp only at ok
  simp_all [legal, fieldOp, fieldA, fieldB, fieldC, fieldLo, fieldImm, extract_extract]

theorem xshArrival (a0) : Statement (.xshArrival a0) := by
  intro _ w h
  cases h

theorem mldw (a0) (a1) (a2) (a3) : Statement (.mldw a0 a1 a2 a3) := by
  intro ok w h
  cases h
  delta decode
  dsimp only
  rw [show (fieldOp _).toNat = 43 from by simp [fieldOp]]
  delta decodeMtx
  dsimp only
  rw [show (BitVec.extractLsb' 0 3 _).toNat = 0 from by simp [fieldLo, extract_extract]]
  simp [legal, fieldOp, fieldA, fieldB, fieldC, fieldLo, fieldImm, extract_extract]

theorem mzero (a0) (a1) (a2) : Statement (.mzero a0 a1 a2) := by
  intro ok w h
  cases h
  delta decode
  dsimp only
  rw [show (fieldOp _).toNat = 43 from by simp [fieldOp]]
  delta decodeMtx
  dsimp only
  rw [show (BitVec.extractLsb' 0 3 _).toNat = 1 from by simp [fieldLo, extract_extract]]
  simp [legal, fieldOp, fieldA, fieldB, fieldC, fieldLo, fieldImm, extract_extract]

theorem mma (a0) (a1) (a2) (a3) (a4) (a5) (a6) (a7) : Statement (.mma a0 a1 a2 a3 a4 a5 a6 a7) := by
  intro ok w h
  cases h
  delta decode
  dsimp only
  rw [show (fieldOp _).toNat = 43 from by simp [fieldOp]]
  delta decodeMtx
  dsimp only
  rw [show (BitVec.extractLsb' 0 3 _).toNat = 2 from by simp [fieldLo, extract_extract]]
  simp [legal, fieldOp, fieldA, fieldB, fieldC, fieldLo, fieldImm, extract_extract, octField]

theorem mmas (a0) (a1) (a2) (a3) (a4) (a5) (a6) : Statement (.mmas a0 a1 a2 a3 a4 a5 a6) := by
  intro ok w h
  cases h
  delta decode
  dsimp only
  rw [show (fieldOp _).toNat = 43 from by simp [fieldOp]]
  delta decodeMtx
  dsimp only
  rw [show (BitVec.extractLsb' 0 3 _).toNat = 3 from by simp [fieldLo, extract_extract]]
  delta Instr.wf at ok
  dsimp only at ok
  simp_all [legal, fieldOp, fieldA, fieldB, fieldC, fieldLo, fieldImm, extract_extract, rowField]

theorem msta (a0) (a1) (a2) (a3) (a4) : Statement (.msta a0 a1 a2 a3 a4) := by
  intro ok w h
  cases h
  delta decode
  dsimp only
  rw [show (fieldOp _).toNat = 43 from by simp [fieldOp]]
  delta decodeMtx
  dsimp only
  rw [show (BitVec.extractLsb' 0 3 _).toNat = 4 from by simp [fieldLo, extract_extract]]
  simp [legal, fieldOp, fieldA, fieldB, fieldC, fieldLo, fieldImm, extract_extract, rowField]

theorem mstv (a0) (a1) (a2) (a3) (a4) : Statement (.mstv a0 a1 a2 a3 a4) := by
  intro ok w h
  cases h
  delta decode
  dsimp only
  rw [show (fieldOp _).toNat = 43 from by simp [fieldOp]]
  delta decodeMtx
  dsimp only
  rw [show (BitVec.extractLsb' 0 3 _).toNat = 5 from by simp [fieldLo, extract_extract]]
  delta Instr.wf at ok
  dsimp only at ok
  simp_all [legal, fieldOp, fieldA, fieldB, fieldC, fieldLo, fieldImm, extract_extract]

theorem rgopen (a0) (a1) : Statement (.rgopen a0 a1) := by
  intro ok w h
  cases h
  delta decode
  dsimp only
  rw [show (fieldOp _).toNat = 44 from by simp [fieldOp]]
  delta decodeRule
  dsimp only
  rw [show (BitVec.extractLsb' 0 3 _).toNat = 0 from by simp [fieldLo, extract_extract]]
  simp [legal, fieldOp, fieldA, fieldB, fieldC, fieldLo, fieldImm, extract_extract]

theorem rlift (a0) : Statement (.rlift a0) := by
  intro ok w h
  cases h
  delta decode
  dsimp only
  rw [show (fieldOp _).toNat = 44 from by simp [fieldOp]]
  delta decodeRule
  dsimp only
  rw [show (BitVec.extractLsb' 0 3 _).toNat = 1 from by simp [fieldLo, extract_extract]]
  simp [legal, fieldOp, fieldA, fieldB, fieldC, fieldLo, fieldImm, extract_extract]

theorem reval (a0) (a1) : Statement (.reval a0 a1) := by
  intro ok w h
  cases h
  delta decode
  dsimp only
  rw [show (fieldOp _).toNat = 44 from by simp [fieldOp]]
  delta decodeRule
  dsimp only
  rw [show (BitVec.extractLsb' 0 3 _).toNat = 2 from by simp [fieldLo, extract_extract]]
  simp [legal, fieldOp, fieldA, fieldB, fieldC, fieldLo, fieldImm, extract_extract]

theorem rspine (a0) (a1) (a2) : Statement (.rspine a0 a1 a2) := by
  intro ok w h
  cases h
  delta decode
  dsimp only
  rw [show (fieldOp _).toNat = 44 from by simp [fieldOp]]
  delta decodeRule
  dsimp only
  rw [show (BitVec.extractLsb' 0 3 _).toNat = 3 from by simp [fieldLo, extract_extract]]
  simp [legal, fieldOp, fieldA, fieldB, fieldC, fieldLo, fieldImm, extract_extract]

theorem rscan (a0) (a1) (a2) (a3) : Statement (.rscan a0 a1 a2 a3) := by
  intro ok w h
  cases h
  delta decode
  dsimp only
  rw [show (fieldOp _).toNat = 44 from by simp [fieldOp]]
  delta decodeRule
  dsimp only
  rw [show (BitVec.extractLsb' 0 3 _).toNat = 4 from by simp [fieldLo, extract_extract]]
  simp [legal, fieldOp, fieldA, fieldB, fieldC, fieldLo, fieldImm, extract_extract, allField]

theorem rseek (a0) (a1) : Statement (.rseek a0 a1) := by
  intro ok w h
  cases h
  delta decode
  dsimp only
  rw [show (fieldOp _).toNat = 44 from by simp [fieldOp]]
  delta decodeRule
  dsimp only
  rw [show (BitVec.extractLsb' 0 3 _).toNat = 5 from by simp [fieldLo, extract_extract]]
  delta Instr.wf at ok
  dsimp only at ok
  simp_all [legal, fieldOp, fieldA, fieldB, fieldC, fieldLo, fieldImm, extract_extract]

theorem rmv (a0) (a1) (a2) : Statement (.rmv a0 a1 a2) := by
  intro ok w h
  cases h
  delta decode
  dsimp only
  rw [show (fieldOp _).toNat = 44 from by simp [fieldOp]]
  delta decodeRule
  dsimp only
  rw [show (BitVec.extractLsb' 0 3 _).toNat = 6 from by simp [fieldLo, extract_extract]]
  simp [legal, fieldOp, fieldA, fieldB, fieldC, fieldLo, fieldImm, extract_extract]

theorem rget (a0) (a1) (a2) : Statement (.rget a0 a1 a2) := by
  intro ok w h
  cases h
  delta decode
  dsimp only
  rw [show (fieldOp _).toNat = 44 from by simp [fieldOp]]
  delta decodeRule
  dsimp only
  rw [show (BitVec.extractLsb' 0 3 _).toNat = 7 from by simp [fieldLo, extract_extract]]
  simp [legal, fieldOp, fieldA, fieldB, fieldC, fieldLo, fieldImm, extract_extract]

theorem bsrc (a0) (a1) : Statement (.bsrc a0 a1) := by
  intro ok w h
  cases h
  delta decode
  dsimp only
  rw [show (fieldOp _).toNat = 45 from by simp [fieldOp]]
  delta decodeRiff
  dsimp only
  rw [show (BitVec.extractLsb' 0 4 _).toNat = 0 from by simp [fieldLo, extract_extract]]
  simp [legal, fieldOp, fieldA, fieldB, fieldC, fieldLo, fieldImm, extract_extract, groupField]

theorem bgen (a0) (a1) (a2) (a3) : Statement (.bgen a0 a1 a2 a3) := by
  intro ok w h
  cases h
  delta decode
  dsimp only
  rw [show (fieldOp _).toNat = 45 from by simp [fieldOp]]
  delta decodeRiff
  dsimp only
  rw [show (BitVec.extractLsb' 0 4 _).toNat = 1 from by simp [fieldLo, extract_extract]]
  simp [legal, fieldOp, fieldA, fieldB, fieldC, fieldLo, fieldImm, extract_extract, groupField]

theorem band (a0) (a1) (a2) (a3) : Statement (.band a0 a1 a2 a3) := by
  intro ok w h
  cases h
  delta decode
  dsimp only
  rw [show (fieldOp _).toNat = 45 from by simp [fieldOp]]
  delta decodeRiff
  dsimp only
  rw [show (BitVec.extractLsb' 0 4 _).toNat = 2 from by simp [fieldLo, extract_extract]]
  simp [legal, fieldOp, fieldA, fieldB, fieldC, fieldLo, fieldImm, extract_extract]

theorem bxnor (a0) (a1) (a2) (a3) : Statement (.bxnor a0 a1 a2 a3) := by
  intro ok w h
  cases h
  delta decode
  dsimp only
  rw [show (fieldOp _).toNat = 45 from by simp [fieldOp]]
  delta decodeRiff
  dsimp only
  rw [show (BitVec.extractLsb' 0 4 _).toNat = 3 from by simp [fieldLo, extract_extract]]
  simp [legal, fieldOp, fieldA, fieldB, fieldC, fieldLo, fieldImm, extract_extract]

theorem bmux (a0) (a1) (a2) (a3) (a4) : Statement (.bmux a0 a1 a2 a3 a4) := by
  intro ok w h
  cases h
  delta decode
  dsimp only
  rw [show (fieldOp _).toNat = 45 from by simp [fieldOp]]
  delta decodeRiff
  dsimp only
  rw [show (BitVec.extractLsb' 0 4 _).toNat = 4 from by simp [fieldLo, extract_extract]]
  simp [legal, fieldOp, fieldA, fieldB, fieldC, fieldLo, fieldImm, extract_extract]

theorem bnot (a0) (a1) : Statement (.bnot a0 a1) := by
  intro ok w h
  cases h
  delta decode
  dsimp only
  rw [show (fieldOp _).toNat = 45 from by simp [fieldOp]]
  delta decodeRiff
  dsimp only
  rw [show (BitVec.extractLsb' 0 4 _).toNat = 5 from by simp [fieldLo, extract_extract]]
  simp [legal, fieldOp, fieldA, fieldB, fieldC, fieldLo, fieldImm, extract_extract]

theorem bcnt (a0) (a1) : Statement (.bcnt a0 a1) := by
  intro ok w h
  cases h
  delta decode
  dsimp only
  rw [show (fieldOp _).toNat = 45 from by simp [fieldOp]]
  delta decodeRiff
  dsimp only
  rw [show (BitVec.extractLsb' 0 4 _).toNat = 6 from by simp [fieldLo, extract_extract]]
  simp [legal, fieldOp, fieldA, fieldB, fieldC, fieldLo, fieldImm, extract_extract]

theorem bregen (a0) (a1) (a2) : Statement (.bregen a0 a1 a2) := by
  intro ok w h
  cases h
  delta decode
  dsimp only
  rw [show (fieldOp _).toNat = 45 from by simp [fieldOp]]
  delta decodeRiff
  dsimp only
  rw [show (BitVec.extractLsb' 0 4 _).toNat = 7 from by simp [fieldLo, extract_extract]]
  simp [legal, fieldOp, fieldA, fieldB, fieldC, fieldLo, fieldImm, extract_extract, groupField]

theorem bcls (a0) (a1) : Statement (.bcls a0 a1) := by
  intro ok w h
  cases h
  delta decode
  dsimp only
  rw [show (fieldOp _).toNat = 45 from by simp [fieldOp]]
  delta decodeRiff
  dsimp only
  rw [show (BitVec.extractLsb' 0 4 _).toNat = 8 from by simp [fieldLo, extract_extract]]
  simp [legal, fieldOp, fieldA, fieldB, fieldC, fieldLo, fieldImm, extract_extract]

theorem bmov (a0) (a1) : Statement (.bmov a0 a1) := by
  intro ok w h
  cases h
  delta decode
  dsimp only
  rw [show (fieldOp _).toNat = 45 from by simp [fieldOp]]
  delta decodeRiff
  dsimp only
  rw [show (BitVec.extractLsb' 0 4 _).toNat = 9 from by simp [fieldLo, extract_extract]]
  simp [legal, fieldOp, fieldA, fieldB, fieldC, fieldLo, fieldImm, extract_extract]

theorem homePerformAccess (a0) : Statement (.homePerformAccess a0) := by
  intro _ w h
  cases h

theorem storeAck (a0) : Statement (.storeAck a0) := by
  intro _ w h
  cases h

theorem atomicResultReturn (a0) : Statement (.atomicResultReturn a0) := by
  intro _ w h
  cases h

theorem commutativeMerge (a0) (a1) : Statement (.commutativeMerge a0 a1) := by
  intro _ w h
  cases h

theorem linkCrcError (a0) : Statement (.linkCrcError a0) := by
  intro _ w h
  cases h

theorem selfTestComplete (a0) : Statement (.selfTestComplete a0) := by
  intro _ w h
  cases h

theorem reservationRequest (a0) : Statement (.reservationRequest a0) := by
  intro _ w h
  cases h

theorem reservationGrant (a0) : Statement (.reservationGrant a0) := by
  intro _ w h
  cases h

theorem messageArrival (a0) : Statement (.messageArrival a0) := by
  intro _ w h
  cases h

theorem eventSignalLand (a0) : Statement (.eventSignalLand a0) := by
  intro _ w h
  cases h

theorem broadcastApply (a0) : Statement (.broadcastApply a0) := by
  intro _ w h
  cases h

theorem dmaByteCopy (a0) : Statement (.dmaByteCopy a0) := by
  intro _ w h
  cases h

theorem codebookExpansion (a0) : Statement (.codebookExpansion a0) := by
  intro _ w h
  cases h

theorem entropyExpansion (a0) : Statement (.entropyExpansion a0) := by
  intro _ w h
  cases h

theorem bitPlaneEncoding (a0) : Statement (.bitPlaneEncoding a0) := by
  intro _ w h
  cases h

theorem blockCyclicDeal (a0) : Statement (.blockCyclicDeal a0) := by
  intro _ w h
  cases h

theorem dmaChunkComplete (a0) : Statement (.dmaChunkComplete a0) := by
  intro _ w h
  cases h

theorem dmaCommandComplete (a0) : Statement (.dmaCommandComplete a0) := by
  intro _ w h
  cases h

theorem eddyGather (a0) : Statement (.eddyGather a0) := by
  intro _ w h
  cases h

theorem eddyScatter (a0) : Statement (.eddyScatter a0) := by
  intro _ w h
  cases h

theorem eddyComplete (a0) : Statement (.eddyComplete a0) := by
  intro _ w h
  cases h

theorem waitEventRead (a0) : Statement (.waitEventRead a0) := by
  intro _ w h
  cases h

theorem placementStep (a0) : Statement (.placementStep a0) := by
  intro _ w h
  cases h

theorem starvationBound (a0) : Statement (.starvationBound a0) := by
  intro _ w h
  cases h

theorem quiescenceSweep (a0) : Statement (.quiescenceSweep a0) := by
  intro _ w h
  cases h

theorem launchCompletion (a0) : Statement (.launchCompletion a0) := by
  intro _ w h
  cases h

theorem hostBar2Access (a0) (a1) : Statement (.hostBar2Access a0 a1) := by
  intro _ w h
  cases h

theorem mbdoor (a0) : Statement (.mbdoor a0) := by
  intro _ w h
  cases h

theorem pwrcap (a0) : Statement (.pwrcap a0) := by
  intro _ w h
  cases h

theorem mgmtRegisterWrite (a0) (a1) : Statement (.mgmtRegisterWrite a0 a1) := by
  intro _ w h
  cases h

theorem clockThrottle (a0) : Statement (.clockThrottle a0) := by
  intro _ w h
  cases h

theorem portFailure (a0) : Statement (.portFailure a0) := by
  intro _ w h
  cases h

theorem portFailTimeout (a0) : Statement (.portFailTimeout a0) := by
  intro _ w h
  cases h

theorem powerOn (a0) : Statement (.powerOn a0) := by
  intro _ w h
  cases h

theorem illegalEncoding (a0) : Statement (.illegalEncoding a0) := by
  intro _ w h
  cases h

theorem partitionBuild (a0) : Statement (.partitionBuild a0) := by
  intro _ w h
  cases h

theorem softwareInterrupt (a0) : Statement (.softwareInterrupt a0) := by
  intro _ w h
  cases h

theorem tret : Statement (.tret) := by
  intro ok w h
  cases h
  delta decode
  dsimp only
  rw [show (fieldOp _).toNat = 31 from by simp [fieldOp]]
  delta decodeSys
  dsimp only
  rw [show (BitVec.extractLsb' 0 4 _).toNat = 7 from by simp [fieldLo, extract_extract]]
  simp [legal, fieldOp, fieldA, fieldB, fieldC, fieldLo, fieldImm, extract_extract]

theorem wfi : Statement (.wfi) := by
  intro ok w h
  cases h
  delta decode
  dsimp only
  rw [show (fieldOp _).toNat = 31 from by simp [fieldOp]]
  delta decodeSys
  dsimp only
  rw [show (BitVec.extractLsb' 0 4 _).toNat = 8 from by simp [fieldLo, extract_extract]]
  simp [legal, fieldOp, fieldA, fieldB, fieldC, fieldLo, fieldImm, extract_extract]

theorem wswap : Statement (.wswap) := by
  intro ok w h
  cases h
  delta decode
  dsimp only
  rw [show (fieldOp _).toNat = 31 from by simp [fieldOp]]
  delta decodeSys
  dsimp only
  rw [show (BitVec.extractLsb' 0 4 _).toNat = 9 from by simp [fieldLo, extract_extract]]
  simp [legal, fieldOp, fieldA, fieldB, fieldC, fieldLo, fieldImm, extract_extract]

theorem iflush : Statement (.iflush) := by
  intro ok w h
  cases h
  delta decode
  dsimp only
  rw [show (fieldOp _).toNat = 31 from by simp [fieldOp]]
  delta decodeSys
  dsimp only
  rw [show (BitVec.extractLsb' 0 4 _).toNat = 11 from by simp [fieldLo, extract_extract]]
  simp [legal, fieldOp, fieldA, fieldB, fieldC, fieldLo, fieldImm, extract_extract]

theorem halt : Statement (.halt) := by
  intro ok w h
  cases h
  delta decode
  dsimp only
  rw [show (fieldOp _).toNat = 31 from by simp [fieldOp]]
  delta decodeSys
  dsimp only
  rw [show (BitVec.extractLsb' 0 4 _).toNat = 12 from by simp [fieldLo, extract_extract]]
  simp [legal, fieldOp, fieldA, fieldB, fieldC, fieldLo, fieldImm, extract_extract]

theorem rfence : Statement (.rfence) := by
  intro ok w h
  cases h
  delta decode
  dsimp only
  rw [show (fieldOp _).toNat = 32 from by simp [fieldOp]]
  delta decodeSync
  dsimp only
  rw [show (BitVec.extractLsb' 0 4 _).toNat = 1 from by simp [fieldLo, extract_extract]]
  simp [legal, fieldOp, fieldA, fieldB, fieldC, fieldLo, fieldImm, extract_extract]

theorem mwait : Statement (.mwait) := by
  intro ok w h
  cases h
  delta decode
  dsimp only
  rw [show (fieldOp _).toNat = 32 from by simp [fieldOp]]
  delta decodeSync
  dsimp only
  rw [show (BitVec.extractLsb' 0 4 _).toNat = 3 from by simp [fieldLo, extract_extract]]
  simp [legal, fieldOp, fieldA, fieldB, fieldC, fieldLo, fieldImm, extract_extract]

theorem cellAbandon : Statement (.cellAbandon) := by
  intro _ w h
  cases h

theorem gsplit : Statement (.gsplit) := by
  intro ok w h
  cases h
  delta decode
  dsimp only
  rw [show (fieldOp _).toNat = 42 from by simp [fieldOp]]
  delta decodeGang
  dsimp only
  rw [show (BitVec.extractLsb' 0 4 _).toNat = 3 from by simp [fieldLo, extract_extract]]
  simp [legal, fieldOp, fieldA, fieldB, fieldC, fieldLo, fieldImm, extract_extract]

theorem gbar : Statement (.gbar) := by
  intro ok w h
  cases h
  delta decode
  dsimp only
  rw [show (fieldOp _).toNat = 42 from by simp [fieldOp]]
  delta decodeGang
  dsimp only
  rw [show (BitVec.extractLsb' 0 4 _).toNat = 7 from by simp [fieldLo, extract_extract]]
  simp [legal, fieldOp, fieldA, fieldB, fieldC, fieldLo, fieldImm, extract_extract]

theorem matrixCommandStart : Statement (.matrixCommandStart) := by
  intro _ w h
  cases h

theorem microTileComplete : Statement (.microTileComplete) := by
  intro _ w h
  cases h

theorem matrixCommandComplete : Statement (.matrixCommandComplete) := by
  intro _ w h
  cases h

theorem takeInterrupt : Statement (.takeInterrupt) := by
  intro _ w h
  cases h

theorem timerExpire : Statement (.timerExpire) := by
  intro _ w h
  cases h

theorem loadReturn : Statement (.loadReturn) := by
  intro _ w h
  cases h

theorem pageWalk : Statement (.pageWalk) := by
  intro _ w h
  cases h

theorem contextBufferDrain : Statement (.contextBufferDrain) := by
  intro _ w h
  cases h

theorem weirWindowClose : Statement (.weirWindowClose) := by
  intro _ w h
  cases h

theorem launchAcceptance : Statement (.launchAcceptance) := by
  intro _ w h
  cases h

theorem coreHandoff : Statement (.coreHandoff) := by
  intro _ w h
  cases h

theorem logclr : Statement (.logclr) := by
  intro _ w h
  cases h

theorem ovfClear : Statement (.ovfClear) := by
  intro _ w h
  cases h

theorem go : Statement (.go) := by
  intro _ w h
  cases h

theorem fetchFailure : Statement (.fetchFailure) := by
  intro _ w h
  cases h

theorem mwaitSpuriousReturn : Statement (.mwaitSpuriousReturn) := by
  intro _ w h
  cases h

end Sys2Proof.Laws.RoundTrip

namespace Sys2Proof.Laws.Encoded

/-- An instruction has a word exactly where it is no step of the machine's own. -/
def Statement (i : Instr) : Prop := (encode i).isSome = i.encoded

theorem add (a0) (a1) (a2) : Statement (.add a0 a1 a2) := rfl
theorem sub (a0) (a1) (a2) : Statement (.sub a0 a1 a2) := rfl
theorem and (a0) (a1) (a2) : Statement (.and a0 a1 a2) := rfl
theorem or (a0) (a1) (a2) : Statement (.or a0 a1 a2) := rfl
theorem xor (a0) (a1) (a2) : Statement (.xor a0 a1 a2) := rfl
theorem andn (a0) (a1) (a2) : Statement (.andn a0 a1 a2) := rfl
theorem orn (a0) (a1) (a2) : Statement (.orn a0 a1 a2) := rfl
theorem sll (a0) (a1) (a2) : Statement (.sll a0 a1 a2) := rfl
theorem srl (a0) (a1) (a2) : Statement (.srl a0 a1 a2) := rfl
theorem sra (a0) (a1) (a2) : Statement (.sra a0 a1 a2) := rfl
theorem slli (a0) (a1) (a2) : Statement (.slli a0 a1 a2) := rfl
theorem srli (a0) (a1) (a2) : Statement (.srli a0 a1 a2) := rfl
theorem srai (a0) (a1) (a2) : Statement (.srai a0 a1 a2) := rfl
theorem slt (a0) (a1) (a2) : Statement (.slt a0 a1 a2) := rfl
theorem sltu (a0) (a1) (a2) : Statement (.sltu a0 a1 a2) := rfl
theorem min (a0) (a1) (a2) : Statement (.min a0 a1 a2) := rfl
theorem max (a0) (a1) (a2) : Statement (.max a0 a1 a2) := rfl
theorem minu (a0) (a1) (a2) : Statement (.minu a0 a1 a2) := rfl
theorem maxu (a0) (a1) (a2) : Statement (.maxu a0 a1 a2) := rfl
theorem mul (a0) (a1) (a2) : Statement (.mul a0 a1 a2) := rfl
theorem mulh (a0) (a1) (a2) : Statement (.mulh a0 a1 a2) := rfl
theorem mulhu (a0) (a1) (a2) : Statement (.mulhu a0 a1 a2) := rfl
theorem div (a0) (a1) (a2) : Statement (.div a0 a1 a2) := rfl
theorem divu (a0) (a1) (a2) : Statement (.divu a0 a1 a2) := rfl
theorem rem (a0) (a1) (a2) : Statement (.rem a0 a1 a2) := rfl
theorem remu (a0) (a1) (a2) : Statement (.remu a0 a1 a2) := rfl
theorem clz (a0) (a1) : Statement (.clz a0 a1) := rfl
theorem ctz (a0) (a1) : Statement (.ctz a0 a1) := rfl
theorem popc (a0) (a1) : Statement (.popc a0 a1) := rfl
theorem sextb (a0) (a1) : Statement (.sextb a0 a1) := rfl
theorem sexth (a0) (a1) : Statement (.sexth a0 a1) := rfl
theorem sextw (a0) (a1) : Statement (.sextw a0 a1) := rfl
theorem zextw (a0) (a1) : Statement (.zextw a0 a1) := rfl
theorem csel (a0) (a1) (a2) : Statement (.csel a0 a1 a2) := rfl
theorem ptag (a0) (a1) (a2) : Statement (.ptag a0 a1 a2) := rfl
theorem pfmt (a0) (a1) : Statement (.pfmt a0 a1) := rfl
theorem pblk (a0) (a1) : Statement (.pblk a0 a1) := rfl
theorem pmesh (a0) (a1) (a2) : Statement (.pmesh a0 a1 a2) := rfl
theorem addi (a0) (a1) (a2) : Statement (.addi a0 a1 a2) := rfl
theorem andi (a0) (a1) (a2) : Statement (.andi a0 a1 a2) := rfl
theorem ori (a0) (a1) (a2) : Statement (.ori a0 a1 a2) := rfl
theorem xori (a0) (a1) (a2) : Statement (.xori a0 a1 a2) := rfl
theorem slti (a0) (a1) (a2) : Statement (.slti a0 a1 a2) := rfl
theorem sltiu (a0) (a1) (a2) : Statement (.sltiu a0 a1 a2) := rfl
theorem lui (a0) (a1) : Statement (.lui a0 a1) := rfl
theorem auipc (a0) (a1) : Statement (.auipc a0 a1) := rfl
theorem shori (a0) (a1) (a2) : Statement (.shori a0 a1 a2) := rfl
theorem lb (a0) (a1) (a2) : Statement (.lb a0 a1 a2) := rfl
theorem lbu (a0) (a1) (a2) : Statement (.lbu a0 a1 a2) := rfl
theorem lh (a0) (a1) (a2) : Statement (.lh a0 a1 a2) := rfl
theorem lhu (a0) (a1) (a2) : Statement (.lhu a0 a1 a2) := rfl
theorem lw (a0) (a1) (a2) : Statement (.lw a0 a1 a2) := rfl
theorem lwu (a0) (a1) (a2) : Statement (.lwu a0 a1 a2) := rfl
theorem ld (a0) (a1) (a2) : Statement (.ld a0 a1 a2) := rfl
theorem sb (a0) (a1) (a2) : Statement (.sb a0 a1 a2) := rfl
theorem sh (a0) (a1) (a2) : Statement (.sh a0 a1 a2) := rfl
theorem sw (a0) (a1) (a2) : Statement (.sw a0 a1 a2) := rfl
theorem sd (a0) (a1) (a2) : Statement (.sd a0 a1 a2) := rfl
theorem beq (a0) (a1) (a2) : Statement (.beq a0 a1 a2) := rfl
theorem bne (a0) (a1) (a2) : Statement (.bne a0 a1 a2) := rfl
theorem blt (a0) (a1) (a2) : Statement (.blt a0 a1 a2) := rfl
theorem bge (a0) (a1) (a2) : Statement (.bge a0 a1 a2) := rfl
theorem bltu (a0) (a1) (a2) : Statement (.bltu a0 a1 a2) := rfl
theorem bgeu (a0) (a1) (a2) : Statement (.bgeu a0 a1 a2) := rfl
theorem jal (a0) (a1) : Statement (.jal a0 a1) := rfl
theorem jalr (a0) (a1) (a2) : Statement (.jalr a0 a1 a2) := rfl
theorem loop (a0) (a1) (a2) : Statement (.loop a0 a1 a2) := rfl
theorem csrr (a0) (a1) : Statement (.csrr a0 a1) := rfl
theorem csrw (a0) (a1) : Statement (.csrw a0 a1) := rfl
theorem csrs (a0) (a1) : Statement (.csrs a0 a1) := rfl
theorem csrc (a0) (a1) : Statement (.csrc a0 a1) := rfl
theorem kcall (a0) : Statement (.kcall a0) := rfl
theorem fcall (a0) : Statement (.fcall a0) := rfl
theorem brk (a0) : Statement (.brk a0) := rfl
theorem tlbinv (a0) (a1) : Statement (.tlbinv a0 a1) := rfl
theorem launch (a0) (a1) : Statement (.launch a0 a1) := rfl
theorem fence (a0) (a1) : Statement (.fence a0 a1) := rfl
theorem mon (a0) : Statement (.mon a0) := rfl
theorem evsig (a0) (a1) : Statement (.evsig a0 a1) := rfl
theorem evwait (a0) : Statement (.evwait a0) := rfl
theorem send (a0) (a1) (a2) (a3) : Statement (.send a0 a1 a2 a3) := rfl
theorem recv (a0) (a1) (a2) : Statement (.recv a0 a1 a2) := rfl
theorem recvnb (a0) (a1) (a2) : Statement (.recvnb a0 a1 a2) := rfl
theorem mcast (a0) (a1) (a2) : Statement (.mcast a0 a1 a2) := rfl
theorem amo (a0) (a1) (a2) (a3) (a4) : Statement (.amo a0 a1 a2 a3 a4) := rfl
theorem cas (a0) (a1) (a2) (a3) : Statement (.cas a0 a1 a2 a3) := rfl
theorem lda (a0) (a1) (a2) : Statement (.lda a0 a1 a2) := rfl
theorem str (a0) (a1) (a2) : Statement (.str a0 a1 a2) := rfl
theorem cinit (a0) (a1) : Statement (.cinit a0 a1) := rfl
theorem cst (a0) (a1) : Statement (.cst a0 a1) := rfl
theorem cld (a0) (a1) (a2) : Statement (.cld a0 a1 a2) := rfl
theorem crcl (a0) (a1) : Statement (.crcl a0 a1) := rfl
theorem cver (a0) (a1) : Statement (.cver a0 a1) := rfl
theorem dma (a0) (a1) (a2) (a3) : Statement (.dma a0 a1 a2 a3) := rfl
theorem dmad (a0) (a1) (a2) (a3) : Statement (.dmad a0 a1 a2 a3) := rfl
theorem dmares (a0) : Statement (.dmares a0) := rfl
theorem waitany (a0) : Statement (.waitany a0) := rfl
theorem waitall (a0) : Statement (.waitall a0) := rfl
theorem ffrdy (a0) : Statement (.ffrdy a0) := rfl
theorem tagclr (a0) : Statement (.tagclr a0) := rfl
theorem qpush (a0) (a1) : Statement (.qpush a0 a1) := rfl
theorem qpop (a0) (a1) : Statement (.qpop a0 a1) := rfl
theorem qtry (a0) (a1) : Statement (.qtry a0 a1) := rfl
theorem qcnt (a0) (a1) : Statement (.qcnt a0 a1) := rfl
theorem iceg (a0) : Statement (.iceg a0) := rfl
theorem ices (a0) : Statement (.ices a0) := rfl
theorem iceres (a0) : Statement (.iceres a0) := rfl
theorem vld (a0) (a1) (a2) (a3) (a4) : Statement (.vld a0 a1 a2 a3 a4) := rfl
theorem vlds (a0) (a1) (a2) (a3) : Statement (.vlds a0 a1 a2 a3) := rfl
theorem vldx (a0) (a1) (a2) (a3) : Statement (.vldx a0 a1 a2 a3) := rfl
theorem vst (a0) (a1) (a2) (a3) (a4) : Statement (.vst a0 a1 a2 a3 a4) := rfl
theorem vsts (a0) (a1) (a2) (a3) : Statement (.vsts a0 a1 a2 a3) := rfl
theorem vstx (a0) (a1) (a2) (a3) : Statement (.vstx a0 a1 a2 a3) := rfl
theorem vadd (a0) (a1) (a2) (a3) (a4) : Statement (.vadd a0 a1 a2 a3 a4) := rfl
theorem vsub (a0) (a1) (a2) (a3) (a4) : Statement (.vsub a0 a1 a2 a3 a4) := rfl
theorem vmul (a0) (a1) (a2) (a3) (a4) : Statement (.vmul a0 a1 a2 a3 a4) := rfl
theorem vmulh (a0) (a1) (a2) (a3) (a4) : Statement (.vmulh a0 a1 a2 a3 a4) := rfl
theorem vmin (a0) (a1) (a2) (a3) (a4) : Statement (.vmin a0 a1 a2 a3 a4) := rfl
theorem vmax (a0) (a1) (a2) (a3) (a4) : Statement (.vmax a0 a1 a2 a3 a4) := rfl
theorem vand (a0) (a1) (a2) (a3) (a4) : Statement (.vand a0 a1 a2 a3 a4) := rfl
theorem vor (a0) (a1) (a2) (a3) (a4) : Statement (.vor a0 a1 a2 a3 a4) := rfl
theorem vxor (a0) (a1) (a2) (a3) (a4) : Statement (.vxor a0 a1 a2 a3 a4) := rfl
theorem vshl (a0) (a1) (a2) (a3) (a4) : Statement (.vshl a0 a1 a2 a3 a4) := rfl
theorem vshr (a0) (a1) (a2) (a3) (a4) : Statement (.vshr a0 a1 a2 a3 a4) := rfl
theorem vsra (a0) (a1) (a2) (a3) (a4) : Statement (.vsra a0 a1 a2 a3 a4) := rfl
theorem vabs (a0) (a1) (a2) (a3) : Statement (.vabs a0 a1 a2 a3) := rfl
theorem vadds (a0) (a1) (a2) (a3) (a4) : Statement (.vadds a0 a1 a2 a3 a4) := rfl
theorem vsubs (a0) (a1) (a2) (a3) (a4) : Statement (.vsubs a0 a1 a2 a3 a4) := rfl
theorem vcmpeq (a0) (a1) (a2) (a3) (a4) : Statement (.vcmpeq a0 a1 a2 a3 a4) := rfl
theorem vcmplt (a0) (a1) (a2) (a3) (a4) : Statement (.vcmplt a0 a1 a2 a3 a4) := rfl
theorem vcmple (a0) (a1) (a2) (a3) (a4) : Statement (.vcmple a0 a1 a2 a3 a4) := rfl
theorem vsel (a0) (a1) (a2) (a3) (a4) : Statement (.vsel a0 a1 a2 a3 a4) := rfl
theorem vfadd (a0) (a1) (a2) (a3) (a4) : Statement (.vfadd a0 a1 a2 a3 a4) := rfl
theorem vfsub (a0) (a1) (a2) (a3) (a4) : Statement (.vfsub a0 a1 a2 a3 a4) := rfl
theorem vfmul (a0) (a1) (a2) (a3) (a4) : Statement (.vfmul a0 a1 a2 a3 a4) := rfl
theorem vfma (a0) (a1) (a2) (a3) (a4) : Statement (.vfma a0 a1 a2 a3 a4) := rfl
theorem vfnma (a0) (a1) (a2) (a3) (a4) : Statement (.vfnma a0 a1 a2 a3 a4) := rfl
theorem vfmin (a0) (a1) (a2) (a3) (a4) : Statement (.vfmin a0 a1 a2 a3 a4) := rfl
theorem vfmax (a0) (a1) (a2) (a3) (a4) : Statement (.vfmax a0 a1 a2 a3 a4) := rfl
theorem vfdiv (a0) (a1) (a2) (a3) (a4) : Statement (.vfdiv a0 a1 a2 a3 a4) := rfl
theorem vfrsq (a0) (a1) (a2) (a3) : Statement (.vfrsq a0 a1 a2 a3) := rfl
theorem vfexp2 (a0) (a1) (a2) (a3) : Statement (.vfexp2 a0 a1 a2 a3) := rfl
theorem vfcmpeq (a0) (a1) (a2) (a3) (a4) : Statement (.vfcmpeq a0 a1 a2 a3 a4) := rfl
theorem vfcmplt (a0) (a1) (a2) (a3) (a4) : Statement (.vfcmplt a0 a1 a2 a3 a4) := rfl
theorem vfcmple (a0) (a1) (a2) (a3) (a4) : Statement (.vfcmple a0 a1 a2 a3 a4) := rfl
theorem vmovx (a0) (a1) (a2) (a3) : Statement (.vmovx a0 a1 a2 a3) := rfl
theorem vsplat (a0) (a1) (a2) (a3) : Statement (.vsplat a0 a1 a2 a3) := rfl
theorem vins (a0) (a1) (a2) (a3) : Statement (.vins a0 a1 a2 a3) := rfl
theorem vperm (a0) (a1) (a2) (a3) (a4) : Statement (.vperm a0 a1 a2 a3 a4) := rfl
theorem vslide (a0) (a1) (a2) (a3) (a4) : Statement (.vslide a0 a1 a2 a3 a4) := rfl
theorem vred (a0) (a1) (a2) (a3) : Statement (.vred a0 a1 a2 a3) := rfl
theorem vscan (a0) (a1) (a2) (a3) : Statement (.vscan a0 a1 a2 a3) := rfl
theorem vcvt (a0) (a1) (a2) (a3) (a4) : Statement (.vcvt a0 a1 a2 a3 a4) := rfl
theorem vqnt (a0) (a1) (a2) (a3) (a4) : Statement (.vqnt a0 a1 a2 a3 a4) := rfl
theorem vnz (a0) (a1) (a2) (a3) (a4) : Statement (.vnz a0 a1 a2 a3 a4) := rfl
theorem vcompr (a0) (a1) (a2) (a3) (a4) : Statement (.vcompr a0 a1 a2 a3 a4) := rfl
theorem vpopc (a0) (a1) (a2) (a3) : Statement (.vpopc a0 a1 a2 a3) := rfl
theorem sopen (a0) (a1) (a2) (a3) (a4) : Statement (.sopen a0 a1 a2 a3 a4) := rfl
theorem sadv (a0) (a1) : Statement (.sadv a0 a1) := rfl
theorem stend (a0) (a1) : Statement (.stend a0 a1) := rfl
theorem sclose (a0) : Statement (.sclose a0) := rfl
theorem smerge (a0) (a1) : Statement (.smerge a0 a1) := rfl
theorem spos (a0) (a1) : Statement (.spos a0 a1) := rfl
theorem streamPrefetch (a0) : Statement (.streamPrefetch a0) := rfl
theorem repf (a0) (a1) (a2) (a3) (a4) : Statement (.repf a0 a1 a2 a3 a4) := rfl
theorem gform (a0) : Statement (.gform a0) := rfl
theorem gjoin (a0) : Statement (.gjoin a0) := rfl
theorem gleave (a0) : Statement (.gleave a0) := rfl
theorem gdet (a0) : Statement (.gdet a0) := rfl
theorem gatt (a0) : Statement (.gatt a0) := rfl
theorem rjp (a0) : Statement (.rjp a0) := rfl
theorem xsh (a0) (a1) (a2) (a3) : Statement (.xsh a0 a1 a2 a3) := rfl
theorem xwrap (a0) (a1) (a2) (a3) : Statement (.xwrap a0 a1 a2 a3) := rfl
theorem xshArrival (a0) : Statement (.xshArrival a0) := rfl
theorem mldw (a0) (a1) (a2) (a3) : Statement (.mldw a0 a1 a2 a3) := rfl
theorem mzero (a0) (a1) (a2) : Statement (.mzero a0 a1 a2) := rfl
theorem mma (a0) (a1) (a2) (a3) (a4) (a5) (a6) (a7) : Statement (.mma a0 a1 a2 a3 a4 a5 a6 a7) := rfl
theorem mmas (a0) (a1) (a2) (a3) (a4) (a5) (a6) : Statement (.mmas a0 a1 a2 a3 a4 a5 a6) := rfl
theorem msta (a0) (a1) (a2) (a3) (a4) : Statement (.msta a0 a1 a2 a3 a4) := rfl
theorem mstv (a0) (a1) (a2) (a3) (a4) : Statement (.mstv a0 a1 a2 a3 a4) := rfl
theorem rgopen (a0) (a1) : Statement (.rgopen a0 a1) := rfl
theorem rlift (a0) : Statement (.rlift a0) := rfl
theorem reval (a0) (a1) : Statement (.reval a0 a1) := rfl
theorem rspine (a0) (a1) (a2) : Statement (.rspine a0 a1 a2) := rfl
theorem rscan (a0) (a1) (a2) (a3) : Statement (.rscan a0 a1 a2 a3) := rfl
theorem rseek (a0) (a1) : Statement (.rseek a0 a1) := rfl
theorem rmv (a0) (a1) (a2) : Statement (.rmv a0 a1 a2) := rfl
theorem rget (a0) (a1) (a2) : Statement (.rget a0 a1 a2) := rfl
theorem bsrc (a0) (a1) : Statement (.bsrc a0 a1) := rfl
theorem bgen (a0) (a1) (a2) (a3) : Statement (.bgen a0 a1 a2 a3) := rfl
theorem band (a0) (a1) (a2) (a3) : Statement (.band a0 a1 a2 a3) := rfl
theorem bxnor (a0) (a1) (a2) (a3) : Statement (.bxnor a0 a1 a2 a3) := rfl
theorem bmux (a0) (a1) (a2) (a3) (a4) : Statement (.bmux a0 a1 a2 a3 a4) := rfl
theorem bnot (a0) (a1) : Statement (.bnot a0 a1) := rfl
theorem bcnt (a0) (a1) : Statement (.bcnt a0 a1) := rfl
theorem bregen (a0) (a1) (a2) : Statement (.bregen a0 a1 a2) := rfl
theorem bcls (a0) (a1) : Statement (.bcls a0 a1) := rfl
theorem bmov (a0) (a1) : Statement (.bmov a0 a1) := rfl
theorem homePerformAccess (a0) : Statement (.homePerformAccess a0) := rfl
theorem storeAck (a0) : Statement (.storeAck a0) := rfl
theorem atomicResultReturn (a0) : Statement (.atomicResultReturn a0) := rfl
theorem commutativeMerge (a0) (a1) : Statement (.commutativeMerge a0 a1) := rfl
theorem linkCrcError (a0) : Statement (.linkCrcError a0) := rfl
theorem selfTestComplete (a0) : Statement (.selfTestComplete a0) := rfl
theorem reservationRequest (a0) : Statement (.reservationRequest a0) := rfl
theorem reservationGrant (a0) : Statement (.reservationGrant a0) := rfl
theorem messageArrival (a0) : Statement (.messageArrival a0) := rfl
theorem eventSignalLand (a0) : Statement (.eventSignalLand a0) := rfl
theorem broadcastApply (a0) : Statement (.broadcastApply a0) := rfl
theorem dmaByteCopy (a0) : Statement (.dmaByteCopy a0) := rfl
theorem codebookExpansion (a0) : Statement (.codebookExpansion a0) := rfl
theorem entropyExpansion (a0) : Statement (.entropyExpansion a0) := rfl
theorem bitPlaneEncoding (a0) : Statement (.bitPlaneEncoding a0) := rfl
theorem blockCyclicDeal (a0) : Statement (.blockCyclicDeal a0) := rfl
theorem dmaChunkComplete (a0) : Statement (.dmaChunkComplete a0) := rfl
theorem dmaCommandComplete (a0) : Statement (.dmaCommandComplete a0) := rfl
theorem eddyGather (a0) : Statement (.eddyGather a0) := rfl
theorem eddyScatter (a0) : Statement (.eddyScatter a0) := rfl
theorem eddyComplete (a0) : Statement (.eddyComplete a0) := rfl
theorem waitEventRead (a0) : Statement (.waitEventRead a0) := rfl
theorem placementStep (a0) : Statement (.placementStep a0) := rfl
theorem starvationBound (a0) : Statement (.starvationBound a0) := rfl
theorem quiescenceSweep (a0) : Statement (.quiescenceSweep a0) := rfl
theorem launchCompletion (a0) : Statement (.launchCompletion a0) := rfl
theorem hostBar2Access (a0) (a1) : Statement (.hostBar2Access a0 a1) := rfl
theorem mbdoor (a0) : Statement (.mbdoor a0) := rfl
theorem pwrcap (a0) : Statement (.pwrcap a0) := rfl
theorem mgmtRegisterWrite (a0) (a1) : Statement (.mgmtRegisterWrite a0 a1) := rfl
theorem clockThrottle (a0) : Statement (.clockThrottle a0) := rfl
theorem portFailure (a0) : Statement (.portFailure a0) := rfl
theorem portFailTimeout (a0) : Statement (.portFailTimeout a0) := rfl
theorem powerOn (a0) : Statement (.powerOn a0) := rfl
theorem illegalEncoding (a0) : Statement (.illegalEncoding a0) := rfl
theorem partitionBuild (a0) : Statement (.partitionBuild a0) := rfl
theorem softwareInterrupt (a0) : Statement (.softwareInterrupt a0) := rfl
theorem tret : Statement (.tret) := rfl
theorem wfi : Statement (.wfi) := rfl
theorem wswap : Statement (.wswap) := rfl
theorem iflush : Statement (.iflush) := rfl
theorem halt : Statement (.halt) := rfl
theorem rfence : Statement (.rfence) := rfl
theorem mwait : Statement (.mwait) := rfl
theorem cellAbandon : Statement (.cellAbandon) := rfl
theorem gsplit : Statement (.gsplit) := rfl
theorem gbar : Statement (.gbar) := rfl
theorem matrixCommandStart : Statement (.matrixCommandStart) := rfl
theorem microTileComplete : Statement (.microTileComplete) := rfl
theorem matrixCommandComplete : Statement (.matrixCommandComplete) := rfl
theorem takeInterrupt : Statement (.takeInterrupt) := rfl
theorem timerExpire : Statement (.timerExpire) := rfl
theorem loadReturn : Statement (.loadReturn) := rfl
theorem pageWalk : Statement (.pageWalk) := rfl
theorem contextBufferDrain : Statement (.contextBufferDrain) := rfl
theorem weirWindowClose : Statement (.weirWindowClose) := rfl
theorem launchAcceptance : Statement (.launchAcceptance) := rfl
theorem coreHandoff : Statement (.coreHandoff) := rfl
theorem logclr : Statement (.logclr) := rfl
theorem ovfClear : Statement (.ovfClear) := rfl
theorem go : Statement (.go) := rfl
theorem fetchFailure : Statement (.fetchFailure) := rfl
theorem mwaitSpuriousReturn : Statement (.mwaitSpuriousReturn) := rfl

end Sys2Proof.Laws.Encoded
end

