-- ==== Sys2Proof/Tests/Slice0.lean ====
section
/-!
SUPPORT. Tests on small states: terms that are not well formed, words written out from the spec's encodings, single steps, and a witness
for the hypotheses of each statement.
-/

namespace Sys2Proof.Tests

set_option Elab.async false

open Sys2Proof Sys2Proof.Machine

/-- A partition of four by four cores at the origin of die 0. -/
def labPart : PartConfig :=
  { number := 1, dies := 1, die0 := 0, width := 4, height := 4, col0 := 0, rows0 := [0], rows1 := [], stitch := 0
    fvec := 0x1000, fdeleg := 0 }

/-- Granules 0 to 7 of the pool are the context's scratchpad; all registers are declared. -/
def labCtx : Ctx := { Ctx.blank 32 16 8 4 with ppw := 0x0000_0800_0000_0000, pc := 0x2000 }

/-- Core n of the partition's first row, running that context at a level, with the first GiB of its address space mapped to itself. -/
def labCore (n : Nat) (l : Level) : Core :=
  { Core.released n false 0x1000 labCtx with
    part := 1, level := l, ctx := labCtx, col := BitVec.ofNat 6 n, kvec := 0x3000
    tlb := [{ asid := 0, global := true, base := 0, size := 2 ^ 30, pa := 0, perm := 0x7F }] }

/-- Core 0 at a level, core 1 beside it at U. -/
def labAt (l : Level) : State :=
  { core := labCore 0 l, rest := [labCore 1 .u], dev := { Dev.powerOn with parts := [labPart] }, agenda := [], fresh := 0 }

def lab : State := labAt .u

/-- Device memory with bytes written. -/
def put (s : State) (key : Nat) (bs : List Byte) : State := s.setMem (Memory.writeBytes s.dev.mem key bs)

/-- A pointer to byte off of the core's own pool. -/
def own (off : Nat) : Word := BitVec.ofNat 64 (0x008F_FF00_0000_0000 + off)

/-- Cores 0 and 1 as a gang, 0 its leader. -/
def labGang : State := lab.formGang [0, 1] 7 0 0 1 0x2000

/-- The gang of a number, or one of no members. -/
def gangOf (s : State) (n : Nat) : Gang :=
  match s.gang? n with
  | some g => g
  | none => { num := n, gid := 0, lnum := 0, part := 0, width := 0, skew := 2, members := [], stream := [], nextK := 0, now := 0
              hold := .none, parking := false, sent := [], due := [], staged := [] }

/-- The state with core n in focus. -/
def onCore (s : State) (n : Nat) : State := (s.focus n).getD s

/-- The state that a part of an instruction leaves, and what it answers. -/
def after {ε α : Type} (m : EStateM ε State α) (s : State) : State :=
  match m s with
  | .ok _ t => t
  | .error _ t => t

def answer {ε α : Type} [Inhabited α] (m : EStateM ε State α) (s : State) : α :=
  match m s with
  | .ok a _ => a
  | .error _ _ => default

def comesOut {ε α : Type} (m : EStateM ε State α) (s : State) : Bool :=
  match m s with
  | .ok _ _ => true
  | .error _ _ => false

theorem ok_of_comesOut {ε α : Type} [Inhabited α] {m : EStateM ε State α} {s : State} (h : comesOut m s = true) :
    m s = .ok (answer m s) (after m s) := by
  unfold comesOut at h
  unfold answer after
  split at h <;> simp_all

theorem runChk_of_comesOut {α : Type} [Inhabited α] {m : Chk α} {s : State} (h : comesOut m s = true) :
    runChk m s = (.ok (answer m s), after m s) := by
  unfold runChk
  rw [ok_of_comesOut h]

/-- Whether an instruction answers this state. -/
def ends (i : Instr) (s t : State) : Bool :=
  match exec i s with
  | .next u => decide (u = t)
  | .fault _ => false
  | .refused _ => false

theorem next_of_ends {i : Instr} {s t : State} (h : ends i s t = true) : exec i s = .next t := by
  unfold ends at h
  split at h <;> simp_all

/-- Whether an instruction answers a next state, and that state. -/
def goesOn (i : Instr) (s : State) : Bool :=
  match exec i s with
  | .next _ => true
  | .fault _ => false
  | .refused _ => false

def nextOf (i : Instr) (s : State) : State :=
  match exec i s with
  | .next t => t
  | .fault _ => s
  | .refused _ => s

theorem next_of_goesOn {i : Instr} {s : State} (h : goesOn i s = true) : exec i s = .next (nextOf i s) := by
  unfold goesOn at h
  unfold nextOf
  split at h <;> simp_all

/-- Whether a step answers a next state. -/
def stepGoesOn (s : State) : Bool :=
  match step s with
  | .next _ => true
  | .fault _ => false
  | .refused _ => false


theorem reads_of {t : State} {key n : Nat} (h : (regionOf key).offDevice = false ∧ t.quantumOn key n = false ∧
    (t.drainLines t.core.id key n t.dev.seq).dev.badWord key n = none) : t.reads key n (t.drainLines t.core.id key n t.dev.seq) :=
  And.intro h.1 (And.intro h.2.1 (And.intro rfl h.2.2))

/-- An instruction answers the state, by evaluation; a part of one comes out, by evaluation. -/
theorem runs {i : Instr} {s t : State} (h : ends i s t = true := by decide +kernel) : exec i s = .next t := next_of_ends h
theorem comes {ε α : Type} [Inhabited α] {m : EStateM ε State α} {s : State} (h : comesOut m s = true := by decide +kernel) :
    m s = .ok (answer m s) (after m s) := ok_of_comesOut h
theorem checks {α : Type} [Inhabited α] {m : Chk α} {s : State} (h : comesOut m s = true := by decide +kernel) :
    runChk m s = (.ok (answer m s), after m s) := runChk_of_comesOut h

/-- A part of an instruction comes out with a given answer, by evaluation. -/
def comesOutAs {ε α : Type} [DecidableEq α] (m : EStateM ε State α) (s : State) (a : α) : Bool :=
  match m s with
  | .ok b _ => decide (b = a)
  | .error _ _ => false

theorem comesAs {ε α : Type} [DecidableEq α] {m : EStateM ε State α} {s : State} {a : α}
    (h : comesOutAs m s a = true := by decide +kernel) : m s = .ok a (after m s) := by
  unfold comesOutAs at h
  unfold after
  split at h <;> simp_all

/-- A part of an instruction comes out with a given answer and leaves a given state, by evaluation. -/
def comesOutTo {ε α : Type} [DecidableEq α] (m : EStateM ε State α) (s : State) (a : α) (t : State) : Bool :=
  match m s with
  | .ok b u => decide (b = a) && decide (u = t)
  | .error _ _ => false

theorem comesTo {ε α : Type} [DecidableEq α] {m : EStateM ε State α} {s t : State} {a : α}
    (h : comesOutTo m s a t = true := by decide +kernel) : m s = .ok a t := by
  unfold comesOutTo at h
  split at h <;> simp_all
/-! ## Well-formedness: one ill-formed term for each check -/

theorem test_wf_loop : Instr.wf (.loop 0 1 0) = false := by decide
theorem test_wf_amo_comm : Instr.wf (.amo .swap (.relaxed .comm) 0 1 2) = false ∧ Instr.wf (.amo .minu (.relaxed .comm) 0 1 2) = false ∧
    Instr.wf (.amo .maxu (.relaxed .comm) 0 1 2) = false ∧ Instr.wf (.amo .add (.relaxed .comm) 5 1 2) = false ∧
    Instr.wf (.amo .add (.relaxed .comm) 0 1 2) = true := by decide
theorem test_wf_cas_comm : Instr.wf (.cas (.relaxed .comm) 0 1 2) = false := by decide
theorem test_wf_vector_memory : Instr.wf (.vld .w2 1 2 0 .stored) = false ∧ Instr.wf (.vlds .w4 2 2 3) = false ∧
    Instr.wf (.vldx .w8 4 2 3) = false ∧ Instr.wf (.vst .w2 31 2 0 .stored) = false ∧ Instr.wf (.vsts .w4 30 2 3) = false ∧
    Instr.wf (.vstx .w8 28 2 3) = false := by decide
theorem test_wf_integer_lanes : Instr.wf (.vadd .sf .w1 1 2 3) = false ∧ Instr.wf (.vadd .sw .w2 1 2 4) = false ∧
    Instr.wf (.vadd .sw .w2 2 3 4) = false ∧ Instr.wf (.vadd .sw .w2 2 4 5) = false ∧ Instr.wf (.vabs .sb .w2 2 3) = false ∧
    Instr.wf (.vabs .hf .w1 2 3) = false := by decide
theorem test_wf_float_lanes : Instr.wf (.vfma .sw .w1 1 2 3) = false ∧ Instr.wf (.vfma .sf .w4 4 8 14) = false ∧
    Instr.wf (.vfrsq .ub .w1 1 2) = false ∧ Instr.wf (.vfexp2 .sf .w2 2 3) = false := by decide
theorem test_wf_lane_movement : Instr.wf (.vsplat .sb .w2 1 2) = false ∧ Instr.wf (.vperm .sb .w2 2 4 7) = false ∧
    Instr.wf (.vslide .sb .w2 2 5 1) = false ∧ Instr.wf (.vred .sb .w2 1 3) = false ∧ Instr.wf (.vscan .sb .w2 2 3) = false ∧
    Instr.wf (.vnz .sb .w2 1 3 2) = false ∧ Instr.wf (.vcompr .sb .w2 2 4 7) = false ∧ Instr.wf (.vpopc .sb .w2 1 3) = false := by decide
theorem test_wf_conversions : Instr.wf (.vcvt .hf .w4 8 4 .sf) = true ∧ Instr.wf (.vcvt .hf .w4 4 4 .sf) = false ∧
    Instr.wf (.vcvt .hf .w8 8 8 .sf) = false ∧ Instr.wf (.vcvt .hf .w2 4 3 .sf) = false ∧ Instr.wf (.vqnt .sw .w1 1 2 3) = false ∧
    Instr.wf (.vqnt .hf .w4 1 4 3) = false ∧ Instr.wf (.vqnt .sf .w1 1 2 3) = true := by decide
theorem test_wf_streams : Instr.wf (.sopen 0 1 2 .line 3) = false ∧ Instr.wf (.sopen 0 1 2 .list 3) = true ∧ Instr.wf (.smerge 3 true) = false ∧
    Instr.wf (.smerge 28 true) = false ∧ Instr.wf (.smerge 26 true) = true := by decide
theorem test_wf_gangs_matrix_rules : Instr.wf (.xsh .w2 1 2 true) = false ∧ Instr.wf (.xwrap .w4 4 6 true) = false ∧
    Instr.wf (.mmas 0 0 3 0 0 0 0) = false ∧ Instr.wf (.mmas 0 0 0 0 0 0 0) = false ∧ Instr.wf (.mstv 0 6 1 0 0) = false ∧
    Instr.wf (.rseek 5 1) = false ∧ Instr.wf (.rseek 0 1) = false ∧ Instr.wf (.rseek 30 1) = true := by decide

/-! ## Words written out from the spec's encodings and worked examples -/

theorem test_word_opr : decode 0b000001_00101_00110_00111_00_000010011#32 = some (.mul 5 6 7) ∧
    decode 0b000001_00101_00110_00000_00_000011010#32 = some (.clz 5 6) ∧ decode 0b000001_00101_00110_00001_00_000011010#32 = none ∧
    decode 0b000001_00101_00110_100001_0_000001010#32 = some (.slli 5 6 33) ∧ decode 0b000001_00101_00110_00111_00_000100110#32 = none := by
  decide
/-- R307's worked words. -/
theorem test_word_constants : decode 0x20A0_6200#32 = some (.lui 5 0x6200) ∧ decode 0x28A5_1000#32 = some (.shori 5 5 0x1000) ∧
    decode 0x20A1_6200#32 = none := by decide
/-- R317's worked words. -/
theorem test_word_scalar_program : decode 0x08E2_F000#32 = some (.addi 7 2 0xF000) ∧ decode 0x4527_0020#32 = some (.ld 9 7 0x20) ∧
    decode 0x78B0_0005#32 = some (.loop 0 11 5) ∧ decode 0x054A_6000#32 = some (.add 10 10 12) ∧ decode 0x6989_0002#32 = some (.bltu 12 9 2) ∧
    decode 0x7C00_00C1#32 = some (.csrw 0x00C 0) ∧ decode 0x5547_0028#32 = some (.sd 10 7 0x28) ∧ decode 0x7C00_000C#32 = some .halt := by
  decide
/-- The worked encodings of spec 12. -/
theorem test_word_worked_encodings : decode 0x9888_65C3#32 = some (.vfma .sf .w4 4 8 12) ∧ decode 0x9888_75C3#32 = none ∧
    decode 0x8409_6001#32 = some (.amo .add (.relaxed .comm) 0 9 12) ∧ decode 0x84A9_600C#32 = some (.amo .add (.acq .dev) 5 9 12) ∧
    decode 0x8409_6101#32 = none ∧ decode 0x8000_01C0#32 = some (.fence .full .dev) ∧ decode 0x8000_0001#32 = some .rfence ∧
    decode 0x7890_0007#32 = some (.loop 0 9 7) ∧ decode 0xA800_0506#32 = some (.rjp 5) ∧ decode 0xA800_0505#32 = some (.gatt 5) ∧
    decode 0xAC8F_811A#32 = some (.mma 1 0 1 7 16 1 0 3) := by decide
theorem test_word_loads_and_jumps : decode 0b001011_00001_00010_1000000000000000#32 = some (.lb 1 2 0x8000) ∧
    decode 0b010010_00001_00010_0000000000000001#32 = some (.sb 1 2 1) ∧
    decode 0b011100_00001_000000000000000000100#32 = some (.jal 1 4) ∧
    decode 0b011101_00001_00010_0000000000000100#32 = some (.jalr 1 2 4) := by decide
theorem test_word_system : decode 0b011111_00000_00101_000000000010_1010#32 = some (.tlbinv 5 .va) ∧
    decode 0b011111_00000_00101_000000000011_1010#32 = none ∧ decode 0b011111_00011_00101_000000000000_1101#32 = some (.launch 3 5) ∧
    decode 0b011111_00000_00000_101010101010_0100#32 = some (.kcall 0xAAA) ∧ decode 0b011111_00000_00000_000000000000_1110#32 = none := by decide
theorem test_word_sync : decode 0b100000_00011_00101_10001_0000_000_0110#32 = none ∧
    decode 0b100000_00011_00101_00001_1110_000_0110#32 = some (.send 3 5 14 true) ∧
    decode 0b100000_00011_00000_00000_0010_000_1000#32 = some (.recvnb 3 2 false) ∧
    decode 0b100000_00011_00101_00111_0000_000_1001#32 = some (.mcast 3 5 7) := by decide
theorem test_word_cells_and_transfers : decode 0b100010_00011_00101_00000_00000000_100#32 = some (.cver 3 5) ∧
    decode 0b100010_00011_00101_00111_00000000_000#32 = none ∧ decode 0b100011_00011_00000_00101_000000_01001#32 = some (.qtry 3 5) ∧
    decode 0b100011_00011_00000_01000_000000_01001#32 = none ∧ decode 0b100011_00000_00111_00000_000000_01101#32 = some (.iceres 7) := by decide
theorem test_word_vector : decode 0b100100_00100_00010_00011_10_0000_00_101#32 = some (.vstx .w4 4 2 3) ∧
    decode 0b100100_00100_00010_00011_10_0001_00_101#32 = none ∧ decode 0b100100_00100_00010_00011_10_1001_00_000#32 = none ∧
    decode 0b100101_00010_00100_00000_01_000_001100#32 = some (.vabs .sb .w2 2 4) ∧
    decode 0b100111_01000_00100_00111_10_101_000111#32 = some (.vcvt .hf .w4 8 4 .sf) := by decide
theorem test_word_streams_and_frames : decode 0b101000_11100_00001_00010_11_00011_0_000#32 = some (.sopen 0 1 2 .list 3) ∧
    decode 0b101000_11011_00001_0000000000000_001#32 = none ∧ decode 0xA000_000C#32 = some (.smerge 0 true) ∧
    decode 0b101001_0000_0_00111_1111_001_000000000#32 = some (.repf 0 false 7 15 1) := by decide
theorem test_word_gangs_and_matrix : decode 0b101010_00000_00111_00000000_00_0_0_0000#32 = some (.gform 7) ∧
    decode 0b101011_111_01_00010_111_00_111_10_101_011#32 = some (.mmas 7 1 2 7 7 2 5) ∧
    decode 0b101011_000_11_00111_00000_000_01_100_000#32 = some (.mldw 3 7 1 4) := by decide
theorem test_word_rules_and_bits : decode 0b101100_00010_00111_00000_000000_00_101#32 = some (.rseek 2 7) ∧
    decode 0b101100_00011_00111_00000_000000_11_111#32 = some (.rget 3 7 3) ∧ decode 0b101101_00000_00111_00000_0_101_00_0_0000#32 = some (.bsrc 5 7) ∧
    decode 0b101101_10000_00001_00010_0000_00_0_0010#32 = none := by decide

/-! ## Encodings, steps and memory -/

theorem test_witness_decode_of_encode : (Instr.amo .max (.relaxed .comm) 0 31 31).wf = true ∧
    (Instr.amo .max (.relaxed .comm) 0 31 31).encoded = true ∧ (Instr.loop 1 31 0xFFFFF).wf = true ∧ (Instr.loop 1 31 0xFFFFF).encoded = true := by
  decide
theorem test_witness_encode_of_decode : decode 0xA000_000C#32 = some (.smerge 0 true) := by decide
theorem test_witness_step_keeps_memory : State.reset.memOk ∧ goesOn (.illegalEncoding 0) State.reset = true ∧
    stepGoesOn State.reset = true := ⟨by unfold State.memOk; decide, by decide +kernel, by decide +kernel⟩
theorem test_witness_memory : Memory.wf [] = true ∧ Memory.wf [(0, 1), (1, 255), (2 ^ 53, 7)] = true := by decide

/-! ## Witnesses of hypotheses: words, registers and scalar memory -/

def labWord (w : Nat) : State := put lab 0x2000 (leBytes 4 w)

/-- A core of no stream, at an ADD. -/
theorem test_witness_step_alone : ∃ (s t : State) (w : IWord) (i : Instr), s.agenda = [] ∧ s.core.run = .running ∧ s.core.out = none ∧
    s.takeable = none ∧ s.core.inStream = false ∧ runChk (fetchWord s.ctx.pc) s = (.ok w, t) ∧ decode w = some i ∧ t.interlocked i = false :=
  by refine ⟨labWord 0x054A_6000, _, _, .add 10 10 12, ?_, ?_, ?_, ?_, ?_, checks, ?_, ?_⟩ <;> decide +kernel

def labStream : State := put labGang 0x2000 (leBytes 4 0x054A_6000)

theorem test_witness_step_leader : ∃ (s t : State) (w : IWord) (i : Instr) (l : GangLink) (g : Gang), s.agenda = [] ∧
    s.core.run = .running ∧ s.core.out = none ∧ s.takeable = none ∧ s.core.inStream = true ∧ s.core.link = some l ∧
    s.gang? l.gang = some g ∧ s.nextArrival g = none ∧ ((g.member? l.pos).map fun m => m.slotDone) = some false ∧ s.ctx.gangMode = 1 ∧
    g.hold = .none ∧ runChk (fetchWord s.ctx.pc) s = (.ok w, t) ∧ decode w = some i ∧ t.interlocked i = false :=
  by refine ⟨labStream, _, _, .add 10 10 12, { gang := 0, pos := 0, gid := 7, lnum := 0 }, gangOf labStream 0, ?_, ?_, ?_, ?_, ?_, ?_, ?_,
    ?_, ?_, ?_, ?_, checks, ?_, ?_⟩ <;> decide +kernel

/-- The word that the leader executed is due at the member. -/
def labMember : State := (onCore (nextOf (.add 10 10 12) labStream) 1).modGang 0 fun g => { g with
  now := 2, members := g.members.map fun m => { m with slotDone := false } }

theorem test_witness_step_member : ∃ (s : State) (i : Instr) (l : GangLink) (g : Gang) (e : Entry), s.agenda = [] ∧
    s.core.run = .running ∧ s.core.out = none ∧ s.takeable = none ∧ s.core.inStream = true ∧ s.core.link = some l ∧
    s.gang? l.gang = some g ∧ s.nextArrival g = none ∧ ((g.member? l.pos).map fun m => m.slotDone) = some false ∧ s.ctx.gangMode ≠ 1 ∧
    s.entryFor l = some e ∧ e.t + l.pos * g.skew ≤ g.now ∧ decode e.word = some i ∧ (s.setPc e.pc).interlocked i = false :=
  ⟨labMember, .add 10 10 12, { gang := 0, pos := 1, gid := 7, lnum := 0 }, gangOf labMember 0,
    { k := 0, t := 0, pc := 0x2000, word := 0x054A_6000, frame := [], next := 0x2004, moved := false }, by decide +kernel⟩

theorem test_witness_step_event : ∃ (s t : State) (n : Nat) (i : Instr) (ts : List Turn), s.agenda = .event n i :: ts ∧ encode i = none ∧
    ({ s with agenda := ts } : State).focus n = some t :=
  ⟨{ lab with agenda := [.event 1 .timerExpire] }, onCore lab 1, 1, .timerExpire, [], by decide +kernel⟩

/-- Two registers of operands, x1 and x2. -/
def withXs (a b : Word) : State := (lab.setX 1 a).setX 2 b

/-- DivisionResults: a divisor of 0, N ÷ -1, and the smallest operands beside them. -/
theorem test_witness_divisions : (withXs 7 0).completes (.div 3 1 2) .seq ((withXs 7 0).setX 3 0xFFFF_FFFF_FFFF_FFFF) ∧
    (withXs 0x8000_0000_0000_0000 0xFFFF_FFFF_FFFF_FFFF).completes (.div 3 1 2) .seq
      ((withXs 0x8000_0000_0000_0000 0xFFFF_FFFF_FFFF_FFFF).setX 3 0x8000_0000_0000_0000) ∧
    (withXs 0x8000_0000_0000_0001 0xFFFF_FFFF_FFFF_FFFF).completes (.div 3 1 2) .seq
      ((withXs 0x8000_0000_0000_0001 0xFFFF_FFFF_FFFF_FFFF).setX 3 0x7FFF_FFFF_FFFF_FFFF) ∧
    (withXs 0xFFFF_FFFF_FFFF_FFF9 2).completes (.rem 3 1 2) .seq ((withXs 0xFFFF_FFFF_FFFF_FFF9 2).setX 3 0xFFFF_FFFF_FFFF_FFFF) :=
  ⟨runs, runs, runs, runs⟩

/-- CSEL keeps rd where its condition register is 0, and takes rs2 elsewhere. -/
theorem test_witness_csel : (withXs 0 9).completes (.csel 3 1 2) .seq (withXs 0 9) ∧
    (withXs 1 9).completes (.csel 3 1 2) .seq ((withXs 1 9).setX 3 9) := ⟨runs, runs⟩

/-- PointerArithmetic: a plain sum; the last byte of the tagged pointer's space; and one byte beyond. -/
theorem test_witness_pointer_arithmetic : (withXs 5 0).completes (.addi 3 1 0xFFFF) .seq ((withXs 5 0).setX 3 4) ∧
    (withXs 0x3000_0000_0000_0000 0x007F_FFFF_FFFF_FFFF).completes (.add 3 1 2) .seq
      ((withXs 0x3000_0000_0000_0000 0x007F_FFFF_FFFF_FFFF).setX 3 0x307F_FFFF_FFFF_FFFF) ∧
    (withXs 0x3000_0000_0000_0000 1).traps (.sub 3 1 2) 9 0x30FF_FFFF_FFFF_FFFF 0x2000 (withXs 0x3000_0000_0000_0000 1) ∧
    (withXs 0x3000_0000_0000_0000 1).resultsPending = false :=
  ⟨runs, runs, runs, by decide +kernel⟩

/-- A context at 0x2000, which ends the bodies of the two loops as the arguments say, with their counts. -/
def loops (at1 : Bool) (n1 : Word) (at0 : Bool) (n0 : Word) : Ctx :=
  { labCtx with lend1 := if at1 then 0x2000 else 0x2008, lcount1 := n1, lend0 := if at0 then 0x2000 else 0x2008, lcount0 := n0 }

def test1 (c : Ctx) : Prop := testApplies c.lend1 c.lcount1 c.pc
def test0 (c : Ctx) : Prop := testApplies c.lend0 c.lcount0 c.pc

theorem test_witness_retirement : (¬test1 (loops true 0 false 1) ∧ ¬test0 (loops true 0 false 1)) ∧
    (test1 (loops true 2 false 0) ∧ 1 < countOf 2) ∧ (test1 (loops true 1 false 1) ∧ ¬test0 (loops true 1 false 1)) ∧
    (test1 (loops true 1 true 2) ∧ test0 (loops true 1 true 2)) ∧ (test1 (loops true 1 true 1) ∧ test0 (loops true 1 true 1)) ∧
    (¬test1 (loops false 5 true 2) ∧ test0 (loops false 5 true 2)) ∧ (¬test1 (loops false 5 true 1) ∧ test0 (loops false 5 true 1)) := by
  unfold test1 test0 testApplies
  decide +kernel

/-- A load of n bytes, the last of the scratchpad, which all hold 0x80. -/
def labEnd (n : Nat) : State := (put lab (poolKey 0 0x7FF8) (List.replicate 8 0x80)).setX 1 (own (0x8000 - n - 0x7FF0))

def loadsLast (i : Instr) (n : Nat) (v : Word) : Prop := ∃ (t u : State) (ea : Word) (key : Nat),
  addressOf ((labEnd n).ctx.getX 1) 0x7FF0 = some ea ∧ (labEnd n).admits .load ea n key t ∧ t.reads key n u ∧
    (labEnd n).completes i .seq (u.setX 5 v)

theorem test_witness_scalar_loads : loadsLast (.lb 5 1 0x7FF0) 1 0xFFFF_FFFF_FFFF_FF80 ∧ loadsLast (.lhu 5 1 0x7FF0) 2 0x8080 ∧
    loadsLast (.lw 5 1 0x7FF0) 4 0xFFFF_FFFF_8080_8080 ∧ loadsLast (.ld 5 1 0x7FF0) 8 0x8080_8080_8080_8080 :=
  by refine ⟨⟨_, _, own 0x7FFF, _, ?_, checks, reads_of (?_), runs⟩, ⟨_, _, own 0x7FFE, _, ?_, checks, reads_of (?_), runs⟩, ⟨_, _, own
    0x7FFC, _, ?_, checks, reads_of (?_), runs⟩, ⟨_, _, own 0x7FF8, _, ?_, checks, reads_of (?_), runs⟩⟩ <;> decide +kernel

/-- x1 and x2 hold a pointer and a datum. -/
def labStore (p : Word) (s : State) : State := (s.setX 1 p).setX 2 0x1122_3344_5566_7788

/-- A store at offset 0 of x1 that completes in the core's own pool, leaves the core, or waits for room in UNACK. -/
def storesOwn (i : Instr) (s : State) (n : Nat) : Prop := ∃ (t : State) (ea : Word) (key : Nat), scalarStoreOf i = some (2, 1, 0, n) ∧
  addressOf (s.ctx.getX 1) 0 = some ea ∧ s.admits .store ea n key t ∧ t.quantumOn key n = false ∧ key % 128 + n ≤ 128 ∧
  regionOf key = .pool t.core.id ∧ t.memOk ∧ t.dev.cells = [] ∧
  s.completes i .seq (t.poke key (leBytes n (s.ctx.getX 2).toNat))

theorem memOk_of {s : State} (h : Memory.wf s.dev.mem = true) : s.memOk := h

theorem test_witness_scalar_stores : storesOwn (.sb 2 1 0) (labStore (own 0x7FFF) lab) 1 ∧ storesOwn (.sh 2 1 0) (labStore (own 0x7FFE) lab) 2 ∧
    storesOwn (.sw 2 1 0) (labStore (own 0) lab) 4 ∧ storesOwn (.sd 2 1 0) (labStore (own 0x7F78) lab) 8 :=
  by refine ⟨⟨_, own 0x7FFF, _, by decide, ?_, checks, ?_, ?_, ?_, memOk_of (?_), ?_, runs⟩, ⟨_, own 0x7FFE, _, by decide, ?_, checks, ?_,
    ?_, ?_, memOk_of (?_), ?_, runs⟩, ⟨_, own 0, _, by decide, ?_, checks, ?_, ?_, ?_, memOk_of (?_), ?_, runs⟩, ⟨_, own 0x7F78, _, by
    decide, ?_, checks, ?_, ?_, ?_, memOk_of (?_), ?_, runs⟩⟩ <;> decide +kernel

def labFull : State := labStore 0x4000 (lab.modCore fun c => { c with unack := 256 })

/-- A store to device memory leaves the core; with 256 not acknowledged it waits. -/
theorem test_witness_remote_stores : (∃ (t : State) (key : Nat), (labStore 0x4000 lab).admits .store 0x4000 8 key t ∧
      t.quantumOn key 8 = false ∧ key % 128 + 8 ≤ 128 ∧ regionOf key ≠ .pool t.core.id ∧ t.core.unack < 256 ∧
      (labStore 0x4000 lab).completes (.sd 2 1 0) .seq
        (t.launchFlight key (.store (leBytes 8 ((labStore 0x4000 lab).ctx.getX 2).toNat)) false false none)) ∧
    (∃ (t : State) (key : Nat), labFull.admits .store 0x4000 8 key t ∧ t.quantumOn key 8 = false ∧ regionOf key ≠ .pool t.core.id ∧
      256 ≤ t.core.unack ∧ labFull.waits (.sd 2 1 0) .retry t) :=
  by refine ⟨⟨_, _, checks, ?_, ?_, ?_, ?_, runs⟩, ⟨_, _, checks, ?_, ?_, ?_, runs⟩⟩ <;> decide +kernel

/-- ScalarAccessChecks: the first address beyond the space, the first block format, the lowest non-canonical address, and an odd one. -/
theorem test_witness_access_checks : lab.resultsPending = false ∧
    (lab.setX 1 0x3080_0000_0000_0000).traps (.lb 5 1 0xFFFF) 9 0x307F_FFFF_FFFF_FFFF 0x2000 (lab.setX 1 0x3080_0000_0000_0000) ∧
    (lab.setX 1 0x5000_0000_0000_0000).traps (.lw 5 1 0) 23 0x5000_0000_0000_0000 0x2000 (lab.setX 1 0x5000_0000_0000_0000) ∧
    (lab.setX 1 0x0001_0000_0000_0000).traps (.lw 5 1 0) 10 0x0001_0000_0000_0000 0x2000 (lab.setX 1 0x0001_0000_0000_0000) ∧
    (lab.setX 1 (own 1)).traps (.lh 5 1 0) 4 (own 1) 0x2000 (lab.setX 1 (own 1)) :=
  ⟨by decide +kernel, runs, runs, runs,
    runs⟩

/-- ControlTransferResults: each condition where it holds by the least and where it just fails, and LOOP with no iteration. -/
theorem test_witness_control_transfers :
    (withXs 0xFFFF_FFFF_FFFF_FFFF 0).completes (.blt 1 2 0x8000) (.jump 0xFFFF_FFFF_FFFE_2000) (withXs 0xFFFF_FFFF_FFFF_FFFF 0) ∧
    (withXs 0xFFFF_FFFF_FFFF_FFFF 0).completes (.bltu 1 2 1) .seq (withXs 0xFFFF_FFFF_FFFF_FFFF 0) ∧
    (withXs 5 5).completes (.bgeu 1 2 1) (.jump 0x2004) (withXs 5 5) ∧ (withXs 5 5).completes (.bne 1 2 1) .seq (withXs 5 5) ∧
    (withXs 0 0).completes (.loop 1 1 2) (.jump 0x200C)
      ((withXs 0 0).modCtx fun c => { c with lstart1 := 0x2004, lend1 := 0x2008, lcount1 := 0 }) :=
  ⟨runs, runs, runs, runs,
    runs⟩

/-- CsrInstructionResults: the last user number, the last kernel number and the last firmware number, each at the lowest level. -/
theorem test_witness_csr_instructions : lab.csrGet 0x014 = some 0 ∧ lab.completes (.csrr 5 0x014) .seq (lab.setX 5 0) ∧
    (labAt .k).csrGet 0x10C = some 0 ∧ badArea 0x7FFF_FFE001 = false ∧
    ((labAt .k).setX 1 0x7FFF_FFE001).completes (.csrw 0x10C 1) .seq (((labAt .k).setX 1 0x7FFF_FFE001).csrPut 0x10C 0x7FFF_FFE001) ∧
    (labAt .f).csrGet 0x306 = some 0 ∧
    ((labAt .f).setX 1 1).completes (.csrs 0x306 1) .seq (((labAt .f).setX 1 1).csrPut 0x306 (1 &&& csrRw 0x306)) :=
  ⟨by decide +kernel, runs, by decide +kernel, by decide +kernel, runs,
    by decide +kernel, runs⟩

/-- PrivilegeAndCsrTraps: the first number of each level above, the first numbers not assigned, and TRET at U. -/
theorem test_witness_privilege : lab.traps (.csrr 5 0x100) 3 0x100 0x2000 lab ∧ (labAt .k).traps (.csrw 0x300 1) 3 0x300 0x2000 (labAt .k) ∧
    lab.traps (.csrr 5 0x015) 1 (BitVec.ofNat 64 (wordOf (.csrr 5 0x015)).toNat) 0x2000 lab ∧
    (labAt .f).traps (.csrr 5 0x307) 1 (BitVec.ofNat 64 (wordOf (.csrr 5 0x307)).toNat) 0x2000 (labAt .f) ∧
    lab.traps .tret 3 0x7C00_0007 0x2000 lab :=
  ⟨runs, runs, runs, runs,
    runs⟩

/-- CsrReadsBackWhatWasWritten holds of states with every number of its list; KTCMP clears TIMER by its write. -/
theorem test_witness_csr_read_back : lab.csrGet 0x10B = some 0xFFFF_FFFF_FFFF_FFFF ∧ 0xFFFF_FFFF_FFFF_FFFF &&& ~~~csrRw 0x10B = 0 ∧
    (lab.csrPut 0x10B (csrValue .write 0x10B 0xFFFF_FFFF_FFFF_FFFF 5)).csrGet 0x10B = some 5 ∧
    lab.csrGet 0x00D = some 0 ∧ (lab.csrPut 0x00D (csrValue .write 0x00D 0 0xFFFF_FFFF_FFFF_FFFF)).csrGet 0x00D = some 0xFFFF_FFFF_FFFC := by
  decide +kernel

def labDeleg (l : Level) (kstat : Word) : State := (labAt l).modCore fun c => { c with fdeleg := 0xFFFF_FFFF, kstat := kstat }

theorem test_witness_trap_enters_k : (labDeleg .u 1).core.level ≠ .f ∧ (labDeleg .u 1).core.fdeleg.getLsbD 31 = true ∧
    (labDeleg .u 1).core.kstat.getLsbD 3 = false ∧ ((labDeleg .u 1).takeTrap false 31 5 0x2000 none).core.kstat = 10 ∧
    ((labDeleg .k 0).takeTrap false 0 5 0x2000 none).core.kstat = 12 := by decide +kernel

theorem test_witness_trap_enters_f : (labAt .f).core.level = .f ∧ (labAt .u).core.fdeleg.getLsbD 0 = false ∧
    ((labDeleg .u 8).core.level ≠ .f ∧ (labDeleg .u 8).core.fdeleg.getLsbD 31 = true ∧ (labDeleg .u 8).core.kstat.getLsbD 3 = true) ∧
    (labAt .f).core.fstatus.getLsbD 4 = false ∧ ((labDeleg .u 8).takeTrap false 31 5 0x2000 none).core.fstatus = 48 ∧
    ((labAt .f).takeTrap false 31 5 0x2000 none).core.fstatus = 24 ∧
    ((labAt .f).modCore fun c => { c with fstatus := 16 }).core.fstatus.getLsbD 4 = true := by decide +kernel

/-- A context that reset started: it has no PPW. -/
def bootCtx (s : State) : State := s.modCtx fun c => { c with ppw := 0 }

theorem test_witness_calls_and_return : (lab.resultsPending = false ∧ lab.traps (.kcall 0xFFF) 11 0x7C00_FFF4 0x2004 lab) ∧
    ((bootCtx (labDeleg .k 10)).core.level = .k ∧ (bootCtx (labDeleg .k 10)).core.link = none ∧ goesOn .tret (bootCtx (labDeleg .k 10)) = true ∧
      (nextOf .tret (bootCtx (labDeleg .k 10))).core.level = .u ∧ (nextOf .tret (bootCtx (labDeleg .k 10))).core.kstat = 3) ∧
    ((bootCtx (labAt .f)).core.level = .f ∧ (bootCtx (labAt .f)).core.link = none ∧ (nextOf .tret (bootCtx (labAt .f))).core.level = .f) :=
  ⟨⟨by decide +kernel, runs⟩, by decide +kernel, by decide +kernel⟩

/-- TRET where the active context's PPW is one that an activation accepts, and where it is not. -/
theorem test_witness_return_activates : ppwActivates 0x0001_0000_0000_0F00 0 32 16 = true ∧
    ppwActivates 0x0003_0000_0400_0F00 0 32 16 = false ∧
    (nextOf .tret ((labAt .k).modCtx fun c => { c with ppw := 0x0001_0000_0000_0F00 })).core.level = .u ∧
    (labAt .k).resultsPending = false ∧ (labAt .k).traps .tret 8 0x0000_0800_0000_0000 0x2000 (labAt .k) := by
  refine ⟨?_, ?_, ?_, ?_, runs⟩ <;> decide +kernel

/-! ## Witnesses: waits, interrupts and the environment -/

def labTimer (l : Level) : State := (labAt l).modCore fun c => { c with kie := 6, ktcmp := 0 }

/-- A unit of launch 5. -/
def labUnit (l : Level) : State := (labAt l).modCtx fun c => { c with lnum := 5 }

theorem test_witness_wait_and_halt : (labTimer .k).completes .wfi .seq (labTimer .k) ∧ (labAt .k).waits .wfi .completes (labAt .k) ∧
    (labTimer .u).completes .halt .seq (labTimer .u) ∧ lab.waits .halt .completes lab ∧
    ((labUnit .u).core.inStream = false ∧ (labUnit .u).unitBusy (labUnit .u).core = false ∧ (labUnit .u).completes .halt (.jump 0x2004)
      (((labUnit .u).leaveGang 0).modCore fun c => { c with run := .ended, kip := c.kip &&& 0b11101 })) ∧
    ((labUnit .u).modCore fun c => { c with unack := 1 }).waits .halt .retry ((labUnit .u).modCore fun c => { c with unack := 1 }) ∧
    (labUnit .k).completes .halt .stay ((labUnit .k).faultEvent 0 false 0 0) ∧
    (labUnit .f).completes .halt .stay ((labUnit .f).faultEvent 0 false 0 0) :=
  ⟨runs, runs, runs, runs,
    ⟨by decide +kernel, by decide +kernel, runs⟩, runs,
    runs, runs⟩

def labUnitGang : State := labGang.modCtx fun c => { c with lnum := 5 }

theorem test_witness_halt_in_stream : labUnitGang.core.inStream = true ∧
    labUnitGang.waits .halt .retry (labUnitGang.splitGang.bookSlot labUnitGang.core (wordOf .halt)) :=
  ⟨by decide +kernel, runs⟩

theorem test_witness_invalidations : (labAt .k).core.level ≠ .u ∧ (labAt .k).releaseMet .dev = true ∧
    (labAt .k).accessesInFlight = false ∧ (labAt .k).commPending 0 = false ∧ (labAt .k).core.tlb ≠ [] ∧
    (nextOf (.tlbinv 1 .all) (labAt .k)).core.tlb = [] ∧ (nextOf (.tlbinv 1 .asid) (labAt .k)).core.tlb ≠ [] ∧
    (nextOf (.tlbinv 1 .va) ((labAt .k).setX 1 0x3FFF_FFFF)).core.tlb = [] ∧
    (nextOf (.tlbinv 1 .va) ((labAt .k).setX 1 0x4000_0000)).core.tlb ≠ [] ∧ goesOn .iflush (labAt .k) = true := by decide +kernel

/-- Every interrupt pending at U, where each is enabled, at K with IE 0, where none is, and at F. -/
def labInts (l : Level) (kip : BitVec 5) : State :=
  (labAt l).modCore fun c => { c with kip := kip, kie := 0x1F, ktcmp := if kip.getLsbD 2 then 0 else c.ktcmp, fdeleg := 0x1F_0000_0000 }

theorem test_witness_interrupts : (labInts .u 0x1F).canTake 1 = true ∧ (labInts .u 0x1D).canTake 1 = false ∧ (labInts .u 0x1D).canTake 0 = true ∧
    (labInts .u 0x1C).canTake 4 = true ∧ (labInts .u 0xC).canTake 2 = true ∧ (labInts .u 8).canTake 3 = true ∧ (labInts .u 8).canTake 2 = false ∧
    (labInts .k 0x1F).canTake 1 = false ∧ (labInts .f 0x1F).canTake 0 = false ∧ (labInts .u 0x1F).mustFinish = false ∧
    (nextOf .takeInterrupt (labInts .u 0x1F)).core.kcause = 0x8000_0000_0000_0021 ∧
    (nextOf .takeInterrupt (labInts .u 8)).core.kcause = 0x8000_0000_0000_0023 := by decide +kernel

theorem test_witness_fetch_and_encoding : (∃ (t : State) (n : Nat) (info : Word),
      runChk (fetchWord (lab.setPc 0x4000_0000).ctx.pc) (lab.setPc 0x4000_0000) = (.error (n, info), t) ∧ t.resultsPending = false ∧ n = 7) ∧
    lab.resultsPending = false ∧ exec (.illegalEncoding 0) lab = .next (lab.takeTrap false 1 0 0x2000 (some 0)) :=
  ⟨⟨_, _, _, rfl, by decide +kernel, by decide +kernel⟩, by decide +kernel, runs⟩

def labLink (n : Nat) : State := lab.modDev fun d => { d with linkErrs := [(4, n)], tests := [{ unit := 0, place := 0, memSide := false }] }

theorem test_witness_links_and_tests : (∀ x ∈ lab.dev.linkErrs, x.1 ≠ 4) ∧
    ((labLink 7).dev.linkErrs.find? fun x => x.1 == 4) = some (4, 7) ∧
    exec (.linkCrcError 4) (labLink 7) =
      .next (((labLink 7).modDev fun d => { d with linkErrs := d.linkErrs.filter fun x => x.1 != 4 }).startTest 5 (physCoord (4 / 4))) ∧
    (labLink 7).dev.tests.head? = some { unit := 0, place := 0, memSide := false } ∧
    exec (.selfTestComplete true) (labLink 7) = .next (((labLink 7).modDev fun d => { d with tests := d.tests.drop 1 }).log 0 0 0) ∧
    exec (.selfTestComplete false) (labLink 7) = .next ((((labLink 7).modDev fun d => { d with tests := d.tests.drop 1 }).log 1 0 0).fenceCore
      (coordId 0) (logWord 1 0 0)) :=
  ⟨by decide +kernel, by decide +kernel, runs, by decide +kernel, runs,
    runs⟩

/-! ## Witnesses: synchronisation and messages -/

/-- A relaxed store of the core on its way. -/
def labFlight : State := lab.launchFlight 0x4000 (.store [1]) false false none

/-- An unpaired atomic's result is on its way to x5. -/
def labPending : State := lab.launchFlight 0x4000 (.amo .add 1) false false (some 5)

theorem test_witness_fences : lab.completes (.fence .full .sys) .seq (lab.modCtx fun c => { c with pieces := [] }) ∧
    lab.completes (.fence .rel .core) .seq lab ∧ labFlight.releaseMet .dev = false ∧ labFlight.waits (.fence .rel .dev) .retry labFlight ∧
    labFlight.waits (.fence .full .dev) .retry labFlight ∧ labPending.resultsPending = true ∧
    labPending.waits (.fence .acq .core) .retry labPending ∧ lab.completes .rfence .seq lab ∧ labFlight.core.unack = 1 ∧
    labFlight.waits .rfence .retry labFlight :=
  ⟨runs, runs, by decide +kernel, runs, runs, by decide +kernel, runs, runs, by decide +kernel, runs⟩

def labMon (off : Nat) : State := lab.setX 1 (own off)

theorem test_witness_mon : ∃ (t u : State) (key : Nat), (labMon 0x7FFF).admits .load (own 0x7FFF) 1 key t ∧ t.reads key 1 u ∧
    (labMon 0x7FFF).completes (.mon 1) .seq (u.modCtx fun c => { c with
      mon := ((own 0x7FFF) &&& 0x00FF_FFFF_FFFF_FF80) ||| 1, monLine := some (key / 128), monHit := false }) :=
  ⟨_, _, _, checks, reads_of (by decide +kernel), runs⟩

/-- A page of the host window at 1 GiB. -/
def labHost (s : State) : State := s.modCore fun c => { c with
  tlb := { asid := 0, global := true, base := 2 ^ 30, size := 2 ^ 30, pa := 2 ^ 50, perm := 0x7F } :: c.tlb }

theorem test_witness_mon_off_device : ∃ (t : State) (key : Nat), ((labHost lab).setX 1 0x4000_0000).admits .load 0x4000_0000 1 key t ∧
    (regionOf key).offDevice = true ∧ t.resultsPending = false ∧ ((labHost lab).setX 1 0x4000_0000).traps (.mon 1) 8 0x4000_0000 0x2000 t :=
  ⟨_, _, checks, by decide +kernel, by decide +kernel, runs⟩

def labArmed : State := lab.modCtx fun c => { c with mon := 1, monLine := some 5 }
def labSleep : State := labArmed.modCore fun c => { c with hold := .mwait }

theorem test_witness_mwait : labArmed.ctx.mon.getLsbD 0 = true ∧ labArmed.waits .mwait .mwait labArmed ∧ lab.ctx.mon.getLsbD 0 = false ∧
    lab.completes .mwait .seq (lab.modCtx fun c => { c with mon := c.mon &&& 0xFFFF_FFFF_FFFF_FFFE, monLine := none, monHit := false }) ∧
    labSleep.core.hold = .mwait ∧ exec .mwaitSpuriousReturn labSleep = .next (labSleep.retired .mwait .seq
      (labSleep.modCtx fun c => { c with mon := c.mon &&& 0xFFFF_FFFF_FFFF_FFFE, monLine := none, monHit := false })) :=
  ⟨by decide +kernel, runs, by decide +kernel, runs, by decide +kernel, runs⟩

theorem names_of {s : State} {v : Word} {n : Nat} (h : runChk (coordCore s.who v) s = (.ok n, s)) : s.names v n := h

/-- x1 names core 1: row 0, column 1. -/
def labName : State := lab.setX 1 1

/-- Two signals of core 0 to core 1, the first of them in front. -/
def labSignals : State := lab.modDev fun d => { d with signals := [{ core := 0, target := 1, ev := 7 }, { core := 0, target := 0, ev := 0 }] }

theorem test_witness_events : labName.names (labName.ctx.getX 1) 1 ∧ labName.core.unack < 256 ∧
    labName.completes (.evsig 1 7) .seq ((labName.modDev fun d => { d with
      signals := d.signals ++ [{ core := 0, target := 1, ev := 7 }] }).modCore fun c => { c with unack := c.unack + 1 }) ∧
    labSignals.dev.signals[1]? = some { core := 0, target := 0, ev := 0 } ∧
    (∀ f ∈ labSignals.dev.signals.take 1, f.core ≠ 0 ∨ f.target ≠ 0) ∧
    exec (.eventSignalLand 1) labSignals = .next (((labSignals.modDev fun d => { d with signals := d.signals.eraseIdx 1 }).modCtxId 0
      fun c => { c with evPend := c.evPend ||| BitVec.ofNat 8 1 }).acknowledge 0) ∧
    (lab.modCtx fun c => { c with evPend := 0x81 }).completes (.evwait 7) .seq (lab.modCtx fun c => { c with evPend := 1 }) ∧
    lab.waits (.evwait 0) .retry lab :=
  ⟨names_of rfl, by decide +kernel, runs, by decide +kernel, by decide +kernel, runs, runs, runs⟩

/-- x3 holds the datum of a SEND to core 1 on channel 15; and the stages of its reservation. -/
def labSend : State := labName.setX 3 0xABCD
def labResv : Reservation := { core := 0, target := 1, hdr := labSend.msgHeader 15 false, reached := true, granted := false, toBuffer := false
                               word := wordOf (.send 3 1 15 false) }
def labAsked : State := labSend.modDev fun d => { d with resvs := [labResv] }
def labGranted : State := (labSend.modDev fun d => { d with resvs := [{ labResv with granted := true }] }).modCore fun c => { c with hold := .send }

theorem test_witness_send : (∀ q ∈ labSend.dev.resvs, q.core ≠ labSend.core.id) ∧ labSend.names (labSend.ctx.getX 1) 1 ∧
    labSend.core.unack < 256 ∧ labSend.waits (.send 3 1 15 false) .send (labSend.modDev fun d => { d with
      resvs := d.resvs ++ [{ labResv with reached := false }] }) :=
  ⟨by decide +kernel, names_of rfl, by decide +kernel, runs⟩

theorem test_witness_reservation : labAsked.dev.resvs[0]? = some labResv ∧ labAsked.grantAt 1 (hdrLnum labResv.hdr) = some false ∧
    ((labAsked.dev.resvs.filter fun q => q.target == 1 && q.reached && !q.granted).find?
      fun q => (labAsked.grantAt q.target (hdrLnum q.hdr)).isSome) = some labResv ∧
    exec (.reservationRequest 0) labAsked = .next (labSend.modDev fun d => { d with resvs := [{ labResv with granted := true }] }) :=
  ⟨by decide +kernel, by decide +kernel, by decide +kernel, runs⟩

theorem test_witness_grant : ∃ (payload : VWord) (t : State), labGranted.dev.resvs[0]? = some { labResv with granted := true } ∧ labGranted.core.hold = .send ∧
    decode labResv.word = some (.send 3 1 15 false) ∧
    sendPayload 3 false (labGranted.modDev fun d => { d with resvs := d.resvs.filter fun q => q.core != 0 }) = .ok payload t ∧
    payload = 0xABCD ∧ exec (.reservationGrant 0) labGranted = .next (labGranted.retired (.send 3 1 15 false) .seq ((t.modDev fun d => { d with
      payloads := d.payloads ++ [{ core := 0, target := 1, msg := { hdr := labResv.hdr, payload := payload }, toBuffer := false }] }).modCore
        fun c => { c.countMsg (hdrLnum labResv.hdr) 1 0 with unack := c.unack + 1 })) :=
  ⟨_, _, by decide +kernel, by decide +kernel, by decide +kernel, comes, by decide +kernel, runs⟩

def labPayload : Payload := { core := 0, target := 1, msg := { hdr := labResv.hdr, payload := 5 }, toBuffer := false }
def labSent : State := lab.modDev fun d => { d with payloads := [labPayload] }

theorem test_witness_arrival : ∃ t, labSent.dev.payloads[0]? = some labPayload ∧ labSent.deliver 0 1 labPayload.msg = some t ∧
    exec (.messageArrival 0) labSent = .next (((t.modDev fun d => { d with payloads := d.payloads.eraseIdx 0 }).modCoreId 1
      fun c => c.countMsg (hdrLnum labPayload.msg.hdr) 0 1).acknowledge 0) :=
  ⟨labSent.modCtxId 1 fun c => { c with rbuf := c.rbuf ++ [labPayload.msg] }, by decide +kernel, by decide +kernel, runs⟩

/-- Two messages: channel 0 first, then channel 15, as narrow mode says. -/
def labReceived (narm : Bool) : State := lab.modCtx fun c => { c with
  rbuf := [{ hdr := 0, payload := 7 }, { hdr := BitVec.ofNat 64 (15 * 2 ^ 22 + if narm then 2 ^ 27 else 0), payload := 9 }] }

theorem test_witness_receive : ((labReceived false).ctx.rbuf[1]?.map fun m => m.hdr.extractLsb' 22 4) = some 15 ∧
    (∀ q ∈ (labReceived false).ctx.rbuf.take 1, q.hdr.extractLsb' 22 4 ≠ 15#4) ∧
    (labReceived false).completes (.recv 5 15 false) .seq
      (((labReceived false).modCtx fun c => { c with rbuf := c.rbuf.eraseIdx 1 }).setX 5 9) ∧
    (labReceived true).traps (.recvnb 5 15 false) 14 (BitVec.ofNat 64 (15 * 2 ^ 22 + 2 ^ 27)) 0x2000 (labReceived true) ∧
    lab.waits (.recv 5 15 false) (.recv 15) lab ∧ lab.completes (.recvnb 5 15 false) .seq (lab.setX 5 0) ∧
    exec .contextBufferDrain lab = .next lab.replayBuffer :=
  ⟨by decide +kernel, by decide +kernel, runs, runs, runs, runs, runs⟩

theorem test_witness_receive_vector : ∃ t, ((labReceived false).modCtx fun c => { c with rbuf := c.rbuf.eraseIdx 1 }).takesGroup 31 1 9 t ∧
    (labReceived false).completes (.recv 31 15 true) .seq t := ⟨_, comes, runs⟩

/-! ## Witnesses: broadcasts, atomics and cells -/

/-- x1 is an address in the pools, x2 the set of cores 0 and 1, x3 the datum. -/
def labCast : State := ((lab.setX 1 (own 0x7FF8)).setX 2 0x0100_0000).setX 3 0x55
def labCastFull : State := labCast.modCore fun c => { c with bq := List.replicate 16 0 }

theorem test_witness_mcast : own 0x7FF8 < 10 * 2 ^ 59 ∧ (0x0100_0000 : Word) &&& targetReserved = 0 ∧ (own 0x7FF8).getLsbD 55 = true ∧
    (own 0x7FF8).toNat % 2 ^ 40 < 0x60000 ∧ labCast.targetSet labCast.who 0x0100_0000 = some [0, 1] ∧
    labCast.completes (.mcast 3 1 2) .seq (labCast.broadcast (.mcast 0x7FF8 0x55 [0, 1]) [0, 1]) ∧
    labCastFull.waits (.mcast 3 1 2) .retry labCastFull :=
  ⟨by decide +kernel, by decide +kernel, by decide +kernel, by decide +kernel, by decide +kernel, runs, runs⟩

/-- The broadcast, announced and to be applied at both of its targets, or at the last. -/
def labBcast (todo : List Nat) : Bcast :=
  { id := 0, core := 0, part := 1, lnum := 0, index := 0, op := .mcast 0x7FF8 0x55 [0, 1], retired := 0, window := some 1, ordered := some 0, todo := todo }
def labCasts (todo : List Nat) : State := lab.modDev fun d => { d with bcasts := [labBcast todo], window := 1 }

theorem test_witness_broadcast_apply : (labCasts [0, 1]).dev.applications[1]? = some (labBcast [0, 1], 1) ∧
    (labCasts [0, 1]).dev.earlierPending (labBcast [0, 1]) 1 = false ∧
    exec (.broadcastApply 1) (labCasts [0, 1]) = .next (((labCasts [0, 1]).poke (poolKey 1 0x7FF8) (leBytes 8 0x55)).modDev fun d => { d with
      bcasts := [labBcast [0]] }) ∧
    (labCasts [1]).dev.applications[0]? = some (labBcast [1], 1) ∧
    exec (.broadcastApply 0) (labCasts [1]) = .next ((((labCasts [1]).poke (poolKey 1 0x7FF8) (leBytes 8 0x55)).modDev fun d => { d with
      bcasts := [] }).acknowledge 0) :=
  ⟨by decide +kernel, by decide +kernel, runs, by decide +kernel, runs⟩

/-- Window 0 is over, and is not over, with 16 broadcasts at the interface, the last of which retires too late. -/
def labWindow (cycles : Nat) : State := (labCast.modCore fun c => { c with bq := List.replicate 3 0 ++ [1] }).modDev fun d => { d with
  bcasts := [{ labBcast [0] with window := none, ordered := none }, { labBcast [0] with id := 1, retired := 1, window := none, ordered := none }]
  cycles := cycles }

theorem test_witness_window_close : ((labWindow 32).dev.window + 1) * 32 ≤ (labWindow 32).dev.cycles ∧ goesOn .weirWindowClose (labWindow 32) = true ∧
    (nextOf .weirWindowClose (labWindow 32)).core.bq = [1] ∧ (labWindow 31).dev.cycles < ((labWindow 31).dev.window + 1) * 32 ∧
    (nextOf .weirWindowClose (labWindow 31)).core.bq.length = 4 := by
  decide +kernel

/-- x1 points to the last doubleword of the scratchpad, which holds 7; x2 is 5, x3 what CAS compares with. -/
def labAtom (c : Word) : State := (((put lab (poolKey 0 0x7FF8) [7]).setX 1 (own 0x7FF8)).setX 2 5).setX 3 c

theorem test_witness_atomics : ∃ (t u : State) (key : Nat), (labAtom 7).admits .rmw (own 0x7FF8) 8 key t ∧
    (regionOf key).offDevice = false ∧ t.reads key 8 u ∧ BitVec.ofNat 64 (u.value key 8) = 7#64 ∧
    (labAtom 7).completes (.amo .add (.relaxed .nord) 3 1 2) .seq ((u.poke key (leBytes 8 12)).setX 3 7) ∧
    (labAtom 7).completes (.cas (.relaxed .nord) 3 1 2) .seq ((u.poke key (leBytes 8 5)).setX 3 7) ∧
    t.releaseMet .sys = true ∧ t.commPending t.core.id = false ∧
    (labAtom 7).completes (.amo .swap (.rel .sys) 3 1 2) .seq ((u.poke key (leBytes 8 5)).setX 3 7) ∧
    (u.poke key (leBytes 8 5)).resultsPending = false ∧
    (labAtom 7).completes (.amo .swap (.acq .core) 3 1 2) .seq (((u.poke key (leBytes 8 5)).modCtx fun c => { c with pieces := [] }).setX 3 7) ∧
    t.quantumOn key 8 = false ∧ t.dev.badWord key 8 = none ∧ t.core.unack < 256 ∧ t.core.bq.length < 16 ∧
    (labAtom 7).completes (.cas (.relaxed .unp) 3 1 2) .seq (t.launchFlight key (.cas 7 5) false false (some 3)) ∧
    (labAtom 7).completes (.amo .or (.relaxed .comm) 0 1 2) .seq (t.launchFlight key (.amo .or 5) true false none) ∧
    (labAtom 7).completes (.amo .or (.relaxed .quant) 3 1 2) .seq (t.broadcast (.quantum key (.amo .or 5) 3) [0]) :=
  by refine ⟨_, _, _, checks, ?_, reads_of (?_), ?_, runs, runs, ?_, ?_, runs, ?_, runs, ?_, ?_, ?_, ?_, runs, runs, runs⟩ <;> decide +kernel

/-- A CAS whose compared value is not there stores nothing. -/
theorem test_cas_differs : (nextOf (.cas (.relaxed .nord) 3 1 2) (labAtom 6)).dev.mem = (labAtom 6).dev.mem ∧
    (nextOf (.cas (.relaxed .nord) 3 1 2) (labAtom 6)).ctx.getX 3 = 7 := by decide +kernel

theorem test_witness_lda : ∃ (t u : State) (key : Nat), (labAtom 7).admits .load (own 0x7FF8) 8 key t ∧ t.reads key 8 u ∧
    u.resultsPending = false ∧
    (labAtom 7).completes (.lda .dev 5 1) .seq ((u.modCtx fun c => { c with pieces := [] }).setX 5 (BitVec.ofNat 64 (u.value key 8))) :=
  ⟨_, _, _, checks, reads_of (by decide +kernel), by decide +kernel, runs⟩

theorem test_witness_str : ∃ (t u : State) (key key' : Nat), lab.releaseMet .dev = true ∧ lab.commPending lab.core.id = false ∧
    (labStore (own 0x7FF8) lab).admits .store (own 0x7FF8) 8 key t ∧ t.quantumOn key 8 = false ∧ key % 128 + 8 ≤ 128 ∧
    regionOf key = .pool t.core.id ∧
    (labStore (own 0x7FF8) lab).completes (.str .dev 1 2) .seq (t.poke key (leBytes 8 0x1122_3344_5566_7788)) ∧
    (labStore 0x4078 lab).admits .store 0x4078 8 key' u ∧ regionOf key' ≠ .pool u.core.id ∧ u.core.unack < 256 ∧
    (labStore 0x4078 lab).completes (.str .dev 1 2) .seq (u.launchFlight key' (.store (leBytes 8 0x1122_3344_5566_7788)) false false none) :=
  by refine ⟨_, _, _, _, ?_, ?_, checks, ?_, ?_, ?_, runs, checks, ?_, ?_, runs⟩ <;> decide +kernel

def labRemote : State := (labHost lab).setX 1 0x4000_0000

theorem test_witness_remote_load : ∃ (t : State) (key : Nat), addressOf (labRemote.ctx.getX 1) 0x78 = some 0x4000_0078 ∧
    labRemote.admits .load 0x4000_0078 8 key t ∧ (regionOf key).offDevice = true ∧
    labRemote.waits (.ld 5 1 0x78) .load (t.modCore fun c => { c with
      out := some { word := some (wordOf (.ld 5 1 0x78)), home := key, width := 8, value := none, failed := false } }) :=
  ⟨_, _, by decide +kernel, checks, by decide +kernel, runs⟩

def labOut : State := (put lab (2 ^ 50) [9]).modCore fun c => { c with
  out := some { word := some (wordOf (.ld 5 1 0)), home := 2 ^ 50, width := 8, value := none, failed := false } }

theorem test_witness_load_return : decode (wordOf (.ld 5 1 0)) = some (.ld 5 1 0) ∧
    labOut.quantumOn (2 ^ 50) 8 = false ∧ labOut.dev.cutOff (2 ^ 50) = false ∧ labOut.dev.badWord (2 ^ 50) 8 = none ∧
    (labOut.modCore fun c => { c with out := none }).drainLines 0 (2 ^ 50) 8 0 = (labOut.modCore fun c => { c with out := none }) ∧
    exec .loadReturn labOut = .next (labOut.retired (.ld 5 1 0) .seq ((labOut.modCore fun c => { c with out := none }).setX 5 9)) :=
  ⟨by decide +kernel, by decide +kernel, by decide +kernel, by decide +kernel, by decide +kernel, runs⟩

/-- Two commutative additions to one address, a store performed, and an unpaired swap performed. -/
def labFlights : State := lab.modDev fun d => { d with
  flights := [
    { id := 0, core := 0, lnum := 0, home := 0x4000, op := .amo .add 1, comm := true, append := false, rd := none, done := false, acked := false, old := 0, merged := [] },
    { id := 1, core := 1, lnum := 0, home := 0x4000, op := .amo .add 2, comm := true, append := false, rd := none, done := false, acked := false, old := 0, merged := [] },
    { id := 2, core := 0, lnum := 0, home := 0x8000, op := .store [1], comm := false, append := false, rd := none, done := true, acked := false, old := 0, merged := [] },
    { id := 3, core := 0, lnum := 0, home := 0x9000, op := .amo .swap 1, comm := false, append := false, rd := some 31, done := true, acked := false, old := 8
      merged := [] }]
  seq := 4 }

theorem test_witness_flights : ∃ f g : Flight, labFlights.dev.flights[0]? = some f ∧ labFlights.dev.flights[1]? = some g ∧ f.done = false ∧
    labFlights.dev.behind f = false ∧ exec (.homePerformAccess 0) labFlights = .next (labFlights.performFlight f) ∧
    (∀ h ∈ (labFlights.dev.flights.take 1).drop 1, h.done = false → f.ahead h = false) ∧
    exec (.commutativeMerge 0 1) labFlights = .next (labFlights.modDev fun d => { d with
      flights := { g with op := .amo .add 3, merged := [(0, 0)] } :: d.flights.drop 2 }) ∧
    exec (.storeAck 2) labFlights = .next ((labFlights.modDev fun d => { d with flights := d.flights.eraseIdx 2 }).acknowledge 0) ∧
    exec (.atomicResultReturn 3) labFlights = .next ((labFlights.modDev fun d => { d with flights := d.flights.eraseIdx 3 }).modCoreId 0
      fun c => { c with ctx := c.ctx.setX 31 8, pendReg := c.pendReg.filter fun p => p.1 != 3 }) :=
  ⟨{ id := 0, core := 0, lnum := 0, home := 0x4000, op := .amo .add 1, comm := true, append := false, rd := none, done := false, acked := false, old := 0, merged := [] },
   { id := 1, core := 1, lnum := 0, home := 0x4000, op := .amo .add 2, comm := true, append := false, rd := none, done := false, acked := false, old := 0, merged := [] },
   by decide +kernel, by decide +kernel, by decide +kernel, by decide +kernel, runs, by decide +kernel, runs, runs, runs⟩

theorem cellNamed_of {s : State} {p : Word} {key : Nat} (h : p.toNat / 2 ^ 59 < 10 ∧ p.toNat % 64 = 0 ∧ p.getLsbD 55 = true ∧
    p.toNat / 2 ^ 53 % 4 < 2 ∧ s.meshKey s.who p 64 = some key) : s.cellNamed p key := h

/-- x1 points to a cell at the end of the own scratchpad, or to one of core 1; HEAD and TAIL as given; x2 holds n. -/
def labCell (key : Nat) (p : Word) (head tail : Nat) (n : Word) : State :=
  ((put lab (key + 0x20) (leBytes 8 head ++ leBytes 8 tail)).setX 1 p).setX 2 n
def other (off : Nat) : Word := BitVec.ofNat 64 (0x0080_0100_0000_0000 + off)

theorem test_witness_cells_elsewhere : (labCell (poolKey 1 0) (other 0) 0 0 5).cellNamed (other 0) (poolKey 1 0) ∧
    regionOf (poolKey 1 0) ≠ .pool (labCell (poolKey 1 0) (other 0) 0 0 5).core.id ∧
    (labCell (poolKey 1 0) (other 0) 0 0 5).quantumOn (poolKey 1 0) 8 = false ∧
    (labCell (poolKey 1 0) (other 0) 0 0 5).completes (.cinit 1 2) .seq
      ((labCell (poolKey 1 0) (other 0) 0 0 5).launchFlight (poolKey 1 0) (.cinit 5) false false none) ∧
    (labCell (poolKey 1 0) (other 0) 0 0 5).completes (.crcl 1 2) .seq
      ((labCell (poolKey 1 0) (other 0) 0 0 5).launchFlight (poolKey 1 0) (.crcl 5) false false none) :=
  ⟨cellNamed_of (by decide +kernel), by decide +kernel, by decide +kernel, runs, runs⟩

def labOwnCell (head tail : Nat) (n : Word) : State := labCell (poolKey 0 0x7FC0) (own 0x7FC0) head tail n

theorem test_witness_cver : ∃ u, (labOwnCell 9 8 0).cellNamed (own 0x7FC0) (poolKey 0 0x7FC0) ∧ (labOwnCell 9 8 0).reads (poolKey 0 0x7FC0) 64 u ∧
    (labOwnCell 9 8 0).completes (.cver 5 1) .seq (u.setX 5 9) :=
  ⟨_, cellNamed_of (by decide +kernel), reads_of (by decide +kernel), runs⟩

/-- CST with two versions live, and with three, where it waits. -/
theorem test_witness_cst : (labOwnCell 9 7 5).cellOf 0 = none ∧ (labOwnCell 9 7 5).releaseMet .dev = true ∧
    (labOwnCell 9 7 5).commPending 0 = false ∧ (labOwnCell 9 7 5).cellHead (poolKey 0 0x7FC0) = 9 ∧
    (labOwnCell 9 7 5).cellTail (poolKey 0 0x7FC0) = 7 ∧
    (labOwnCell 9 7 5).drainLines 0 (poolKey 0 0x7FC0) 64 (labOwnCell 9 7 5).dev.seq = labOwnCell 9 7 5 ∧
    (labOwnCell 9 7 5).completes (.cst 1 2) .seq
      (((labOwnCell 9 7 5).pokeRaw (poolKey 0 0x7FC0 + 16) (leBytes 8 5)).pokeRaw (poolKey 0 0x7FC0 + 0x20) (leBytes 8 10)) ∧
    (labOwnCell 9 6 5).waits (.cst 1 2) .cell ((labOwnCell 9 6 5).modDev fun d => { d with
      cells := [{ core := 0, home := poolKey 0 0x7FC0, store := true, arg := 5, rd := 0, result := none }] }) :=
  by refine ⟨?_, ?_, ?_, ?_, ?_, ?_, runs, runs⟩ <;> decide +kernel

/-- CLD of the newest and of the oldest version, of one retired, and of one not there yet, where it waits until it is abandoned. -/
theorem test_witness_cld : (labOwnCell 9 7 9).completes (.cld 5 1 2) .seq (((labOwnCell 9 7 9).modCtx fun c => { c with pieces := [] }).setX 5 0) ∧
    (labOwnCell 9 7 7).completes (.cld 5 1 2) .seq (((labOwnCell 9 7 7).modCtx fun c => { c with pieces := [] }).setX 5 0) ∧
    (labOwnCell 9 7 6).traps (.cld 5 1 2) 19 6 0x2000 (labOwnCell 9 7 6) ∧ goesOn (.cld 5 1 2) (labOwnCell 9 7 10) = true ∧
    (nextOf (.cld 5 1 2) (labOwnCell 9 7 10)).core.hold = .cell ∧
    ((nextOf (.cld 5 1 2) (labOwnCell 9 7 10)).cellOf 0).map (fun w => w.result) = some none ∧
    (nextOf .cellAbandon (nextOf (.cld 5 1 2) (labOwnCell 9 7 10))).dev.cells = [] :=
  ⟨runs, runs, runs, by decide +kernel, by decide +kernel, by decide +kernel, by decide +kernel⟩

def labPerformed : State := lab.modDev fun d => { d with
  cells := [{ core := 0, home := poolKey 0 0, store := false, arg := 0, rd := 5, result := some (.value 3) }] }

theorem test_witness_cell_performed : labPerformed.cellOf 0 =
    some { core := 0, home := poolKey 0 0, store := false, arg := 0, rd := 5, result := some (.value 3) } ∧
    exec .cellAbandon labPerformed = .next labPerformed := ⟨by decide +kernel, runs⟩

/-! ## Witnesses: the DMA engine, the queues and the eddy -/

theorem dmaPasses_of {s : State} {c : DmaCmd} {op : DmaOp}
    (h : s.core.dmaTags.getLsbD c.tag.toNat = false ∧ c.ctl.toNat / 2 ^ 10 = 0 ∧ c.kind < 2 ∧ (c.toff = 0 ∨ hasTable c.src = true) ∧
      (c.isDeal = true → c.dest.toNat % 2 ^ 56 = 0) ∧ dmaOp c.src c.dest = some op := by decide +kernel)
    (plain : c.isDeal = false ∧ hasTable c.src = false ∧ c.ctl.getLsbD 8 = false := by decide +kernel)
    (h1 : comesOut (firstByte .store c.dest (startAlign (fmtOf c.dest))) s = true := by decide +kernel)
    (h2 : comesOut (firstByte .load c.src (startAlign (fmtOf c.src))) (after (firstByte .store c.dest (startAlign (fmtOf c.dest))) s) = true :=
      by decide +kernel)
    (h3 : c.len32 % dmaUnit op c.src c.dest = 0 ∧ c.toff % 16 = 0 ∧ (after (firstByte .load c.src (startAlign (fmtOf c.src)))
      (after (firstByte .store c.dest (startAlign (fmtOf c.dest))) s)).core.q0Waiting < 16 := by decide +kernel) :
    s.dmaPasses c op [] (after (firstByte .load c.src (startAlign (fmtOf c.src))) (after (firstByte .store c.dest (startAlign (fmtOf c.dest))) s)) := by
  unfold State.dmaPasses
  obtain ⟨p1, p2, p3⟩ := plain
  simp only [p1, p2, p3]
  exact ⟨h.1, h.2.1, h.2.2.1, by simpa [p2] using h.2.2.2.1, by simp, h.2.2.2.2.2,
    ⟨_, _, _, by simp only [Bool.false_eq_true, if_false]; exact ok_of_comesOut h1, ok_of_comesOut h2, by simp; rfl, by simp⟩, h3.1, h3.2.1, by simp, h3.2.2⟩

/-- A command that copies the last 64 bytes of the scratchpad to its start, with tag 63. -/
def labCopy : DmaCmd := { dest := own 0, src := own 0x7FC0, len := 64, ctl := 63, arrive := 0, deal := 0 }
def labDma : State := ((lab.setX 1 (own 0)).setX 2 (own 0x7FC0)).setX 3 64

theorem test_witness_dma : ∃ t, labDma.dmaPasses labCopy .copy [] t ∧ labDma.completes (.dma 1 2 3 63) .seq (t.queueDma labCopy 0 []) :=
  ⟨_, dmaPasses_of, runs⟩

theorem test_witness_tag_busy : (labDma.modCore fun c => { c with dmaTags := 2 ^ 63 }).waits (.dma 1 2 3 63) .retry
    (labDma.modCore fun c => { c with dmaTags := 2 ^ 63 }) := runs

/-- A record of the command at x4, resumed from a chunk or pushed afresh. -/
def labRecord (w : Word) : State := (put lab (poolKey 0 0x1000)
  (leBytes 8 (own 0).toNat ++ leBytes 8 (own 0x7FC0).toNat ++ leBytes 8 64 ++ leBytes 8 63 ++ leBytes 16 0 ++ leBytes 8 w.toNat)).setX 4 (own 0x1000)

def labKept (n : Nat) : State := labRecord (BitVec.ofNat 64 n)

theorem test_witness_dmares : ∃ (bytes : List Byte) (u t : State), (labKept (2 ^ 41 + 1)).gives (readRecord (own 0x1000) 64) bytes u ∧
    (wordAt bytes 6).toNat / 2 ^ 40 = 2 ∧ u.dmaPasses labCopy .copy [] t ∧
    (labKept (2 ^ 41 + 1)).completes (.dmares 4) .seq (t.queueDma labCopy 1 []) ∧ goesOn (.dmares 4) (labKept (2 ^ 40)) = true ∧
    (nextOf (.dmares 4) (labKept (2 ^ 40))).core.dma.map (fun j => j.next) = [0] :=
  ⟨_, _, _, comes, by decide +kernel, dmaPasses_of, runs, by decide +kernel, by decide +kernel⟩

theorem test_witness_qpush_dma : ∃ (bytes : List Byte) (u t : State), (labKept 0).gives (readRecord (own 0x1000) 64) bytes u ∧
    wordAt bytes 6 = 0 ∧ u.dmaPasses labCopy .copy [] t ∧ (labKept 0).completes (.qpush 0 4) .seq (t.queueDma labCopy 0 []) :=
  ⟨_, _, _, comes, by decide +kernel, dmaPasses_of, runs⟩

/-- Tags 0 and 63 ready, 63 in error; x1 is a mask. -/
def labTags (mask : Word) : State := (lab.modCtx fun c => { c with tagrdy := 0x8000_0000_0000_0001, tagerr := 0x8000_0000_0000_0000 }).setX 1 mask

theorem test_witness_tags : (labTags 0).completes (.waitany 1) .seq (labTags 0) ∧ (labTags 3).completes (.waitany 1) .seq (labTags 3) ∧
    (labTags 2).waits (.waitany 1) .retry (labTags 2) ∧ (labTags 1).completes (.waitall 1) .seq (labTags 1) ∧
    (labTags 3).waits (.waitall 1) .retry (labTags 3) ∧ (labTags 0x8000_0000_0000_0000).traps (.waitany 1) 22 0x8000_0000_0000_0000 0x2004
      (labTags 0x8000_0000_0000_0000) ∧ (labTags 0).completes (.ffrdy 5) .seq ((labTags 0).setX 5 0) ∧
    lab.completes (.ffrdy 5) .seq (lab.setX 5 0xFFFF_FFFF_FFFF_FFFF) ∧
    (lab.modCtx fun c => { c with tagrdy := 0x8000_0000_0000_0000 }).completes (.ffrdy 5) .seq
      ((lab.modCtx fun c => { c with tagrdy := 0x8000_0000_0000_0000 }).setX 5 63) :=
  ⟨runs, runs, runs, runs, runs, runs, runs, runs, runs⟩

def labQueues : State := lab.modCtx fun c => { c with q1 := [3, 4], q3 := [5], q5 := [6], q6 := [7] }

theorem test_witness_queues : labQueues.completes (.qpop 5 1) .seq ((labQueues.modCtx fun c => { c with q1 := [4] }).setX 5 3) ∧
    labQueues.completes (.qtry 5 3) .seq ((labQueues.modCtx fun c => { c with q3 := [] }).setX 5 5) ∧
    labQueues.completes (.qpop 5 5) .seq ((labQueues.modCtx fun c => { c with q5 := [] }).setX 5 6) ∧
    labQueues.completes (.qcnt 5 6) .seq (labQueues.setX 5 1) ∧ lab.waits (.qpop 5 6) .retry lab ∧
    lab.completes (.qtry 5 1) .seq (lab.setX 5 0xFFFF_FFFF_FFFF_FFFF) ∧ lab.completes (.qcnt 5 4) .seq (lab.setX 5 0) :=
  ⟨runs, runs, runs, runs, runs, runs, runs⟩

/-- The command being worked on, at a chunk and a stage. -/
def labJob (c : DmaCmd) (next : Nat) (st : Stage) (failed : Option (Nat × Nat)) (ms : List Nat) : DmaJob :=
  { cmd := c, started := false, next := next, stage := st, failed := failed, seq := 0, narm := false, kptb := 0, level := .u, members := ms }
def labWork (j : DmaJob) : State := lab.modCore fun c => { c with dma := [j], dmaTags := 2 ^ 63 }

theorem test_witness_dma_copy : ∃ (out : List Byte) (t : State),
    (labWork (labJob labCopy 0 .idle none [])).dmaMayRun (labJob labCopy 0 .idle none []) = true ∧
    (labWork (labJob labCopy 0 .idle none [])).leaving 0 = false ∧ labCopy.op = .copy ∧ 0 < labCopy.chunks ∧
    (labWork (labJob labCopy 0 .idle none [])).engineGives (engRead ((labJob labCopy 0 .idle none []).party 0) (ptrAt labCopy.src 0) 64) out t ∧
    exec (.dmaByteCopy 63) (labWork (labJob labCopy 0 .idle none [])) =
      .next (t.modDma 63 fun k => { k with started := true, stage := .read out 0 0 }) :=
  ⟨_, _, by decide +kernel, by decide +kernel, by decide +kernel, by decide +kernel, comes, runs⟩

/-- Sixteen indices of four bits, the second of them 15, and a table of sixteen values, the last of them 0x3F80. -/
def labBook : DmaCmd :=
  { dest := 0x4000_0000_0000_0000 ||| own 0, src := 0xA000_0000_0000_0000 ||| own 0x1000, len := 0x0000_0100_0000_0020, ctl := 63, arrive := 0
    deal := 0 }
def labBookJob : DmaJob := labJob labBook 0 .idle none []
def labCode : State := put (put (labWork labBookJob) (poolKey 0 0x1000) [0xF0]) (poolKey 0 0x111E) [0x80, 0x3F]

theorem test_witness_codebook : ∃ (block table out : List Byte) (t u : State), labCode.dmaMayRun labBookJob = true ∧ labBook.op = .codebook ∧
    0 < labBook.chunks ∧
    labCode.engineGives (engRead (labBookJob.party 0) (ptrAt labBook.src 0) (codebookStride labBook.src)) block t ∧
    t.engineGives (engRead (labBookJob.party 0) (ptrAt labBook.src labBook.toff) (2 * 2 ^ indexBits labBook.src)) table u ∧
    table.length = 2 * 2 ^ indexBits labBook.src ∧ out.length = 2 * blockLen labBook.src ∧
    (∀ i, i < blockLen labBook.src → (out.drop (2 * i)).take 2 =
      (table.drop (2 * (leNat block / 2 ^ (indexBits labBook.src * i) % 2 ^ indexBits labBook.src))).take 2) ∧
    exec (.codebookExpansion 63) labCode = .next (u.modDma 63 fun k => { k with started := true, stage := .read out 0 0 }) :=
  by refine ⟨_, _, [0, 0, 0x80, 0x3F] ++ List.replicate 28 0, _, _, ?_, ?_, ?_, comes, comes, ?_, ?_, ?_, runs⟩ <;> decide +kernel

/-- A RILL object whose header is all zero bytes, which is refused with a status. -/
def labRill : DmaCmd := { dest := own 0, src := 0xA800_0000_0000_0000 ||| own 0x1000, len := 512, ctl := 63, arrive := 0, deal := 0 }
def labRillJob : DmaJob := labJob labRill 0 .idle none []

theorem test_witness_entropy : ∃ (r : List Byte × Nat × Nat) (t : State), labRill.op = .entropy ∧ 0 < labRill.chunks ∧
    (labWork labRillJob).engineGives (readEntropy (labRillJob.party 0) labRill.src (ptrAt labRill.src labRill.toff) labRill.len32 0 fun inner =>
      fmtOf labRill.dest == 0 || inner == fmtOf labRill.dest) r t ∧
    exec (.entropyExpansion 63) (labWork labRillJob) = .next (t.modDma 63 fun k => { k with started := true, stage := .read r.1 r.2.1 r.2.2 }) :=
  ⟨_, _, by decide +kernel, by decide +kernel, comes, runs⟩

/-- Sixteen binary32 values to a block of two planes; the first is 1. -/
def labPlanes : DmaCmd :=
  { dest := 0x5000_0000_0000_0000 ||| own 0, src := 0x4800_0000_0000_0000 ||| own 0x1000, len := 64, ctl := 63, arrive := 0, deal := 0 }
def labPlanesJob : DmaJob := labJob labPlanes 0 .idle none []
def labEncode : State := put (labWork labPlanesJob) (poolKey 0 0x1000) [0, 0, 0x80, 0x3F]

theorem test_witness_encoding : ∃ (block : List Byte) (t : State), labPlanes.op = .encode ∧ 0 < labPlanes.chunks ∧
    labEncode.engineGives (engRead (labPlanesJob.party 0) (ptrAt labPlanes.src 0) 64) block t ∧
    exec (.bitPlaneEncoding 63) labEncode = .next (t.modDma 63 fun k => { k with
      started := true, stage := .read (encodeBlock ((List.range 16).map fun i => fmtSF.decode (leNat ((block.drop (4 * i)).take 4))) 2 false) 0 0 }) :=
  ⟨_, _, by decide +kernel, by decide +kernel, comes, runs⟩

def labChunk : DmaJob := labJob labCopy 0 (.read [1, 2] 0 0) none []
def labBroken : DmaJob := labJob labCopy 0 (.read [1, 2] 2 5) none []

theorem test_witness_chunk_complete : ∃ t u : State, (labWork labChunk).engineGives (engWrite (labChunk.party 0) (ptrAt labCopy.dest 0) [1, 2]) () t ∧
    exec (.dmaChunkComplete 63) (labWork labChunk) = .next (t.modDma 63 fun k => { k with stage := .idle, next := 1 }) ∧
    (labWork labBroken).engineGives (engWrite (labBroken.party 0) (ptrAt labCopy.dest 0) [1, 2]) () u ∧
    exec (.dmaChunkComplete 63) (labWork labBroken) = .next (u.modDma 63 fun k => { k with stage := .idle, failed := some (2, 5) }) :=
  ⟨_, _, comes, runs, comes, runs⟩

/-- Blocks of 64 bytes dealt to two members from the second on, at the end of the scratchpad of each. -/
def labDeal : DmaCmd := { dest := 0, src := own 0, len := 128, ctl := 64 + 63, arrive := 0, deal := 0x0000_7FC0_0102_0006 }
def labDealt : DmaJob := labJob labDeal 0 (.read (List.replicate 128 7) 0 0) none [0, 1]
def labPlaced : DmaJob := labJob labDeal 0 (.placed [(poolKey 0 0x7FC0, [7, 8])] 0 0) none [0, 1]

theorem test_witness_deal : (∀ b ∈ dealBlocks labDeal.deal 129 0 (List.replicate 128 7),
      ((labWork labDealt).poolRange .u ([0, 1].getD b.1 0) b.2.1 b.2.2.length).isSome = true) ∧ labDeal.isDeal = true ∧
    goesOn (.blockCyclicDeal 63) (labWork labDealt) = true ∧
    ((nextOf (.blockCyclicDeal 63) (labWork labDealt)).dmaJob 63).map (fun j => j.stage) =
      some (.placed [(poolKey 1 0x7FC0, List.replicate 64 7), (poolKey 0 0x7FC0, List.replicate 64 7)] 0 0) ∧
    exec (.dmaChunkComplete 63) (labWork labPlaced) = .next (((labWork labPlaced).pokePieces [(poolKey 0 0x7FC0, 2)] [7, 8]).modDma 63
      fun k => { k with stage := .idle, next := 1 }) :=
  ⟨by decide +kernel, by decide +kernel, by decide +kernel, by decide +kernel, runs⟩

/-- A command with its chunk done and no status element, one with an element, and one that failed. -/
def labDone : DmaJob := labJob labCopy 1 .idle none []
def labDoneQ : DmaJob := labJob { labCopy with ctl := 512 + 63 } 1 .idle none []
def labFailed : DmaJob := labJob labCopy 0 .idle (some (2, 5)) []

theorem test_witness_dma_complete : ∃ t u v : State, (labWork labDone).dmaMayRun labDone = true ∧
    (labWork labDone).engineGives (dmaArrival (labDone.party 0) labDone) () t ∧
    exec (.dmaCommandComplete 63) (labWork labDone) = .next ((t.modCore fun c => { c with dma := [] }).tagDone 0 63 false) ∧
    (labWork labDoneQ).engineGives (dmaArrival (labDoneQ.party 0) labDoneQ) () u ∧
    exec (.dmaCommandComplete 63) (labWork labDoneQ) = .next (((u.modCore fun c => { c with dma := [] }).modCtx fun c => { c with
      q1 := [0x1_003F] }).tagDone 0 63 false) ∧
    (labWork labFailed).engineGives (dmaArrival (labFailed.party 0) labFailed) () v ∧
    exec (.dmaCommandComplete 63) (labWork labFailed) = .next (((v.modCore fun c => { c with dma := [] }).modCtx fun c => { c with
      q1 := [0x523F] }).tagDone 0 63 true) :=
  ⟨_, _, _, by decide +kernel, comes, runs, comes, runs, comes, runs⟩

theorem eddyPasses_of {s : State} {idx base w10 w18 : Word} {scatter resumed : Bool}
    (h : s.dev.eddyBusy s.core.id (w18.toNat / 2 ^ 32 % 16) = false ∧
      (resumed = false → s.core.eddyTags.getLsbD (w18.toNat / 2 ^ 32 % 16) = false) := by decide +kernel)
    (h1 : comesOut (eddyChecks idx base w10 w18 scatter) s = true := by decide +kernel)
    (h2 : (after (eddyChecks idx base w10 w18 scatter) s).dev.q4Waiting (after (eddyChecks idx base w10 w18 scatter) s).core.id < 4 := by
      decide +kernel) :
    s.eddyPasses idx base w10 w18 scatter resumed (after (eddyChecks idx base w10 w18 scatter) s) :=
  And.intro h.1 (And.intro h.2 (And.intro (ok_of_comesOut h1) h2))

/-- Two rows of 8 bytes at offset 64 of cluster memory; indices at 0x100 of the pool, 1 and 0; rows at 0x200; tag 15, event line 7. -/
def idxPtr : Word := 0x3000_0000_0000_0000 ||| own 0x100
def basePtr : Word := own 0x200
def labRows : Word := 0x0000_0002_0000_0040
def labTag : Word := 0x0000_000F_0007_0008
def labBlock (state : Nat) : State := (put (put lab (poolKey 0 0x100) [1]) (poolKey 0 0x1000)
  (leBytes 8 idxPtr.toNat ++ leBytes 8 basePtr.toNat ++ leBytes 8 labRows.toNat ++ leBytes 8 labTag.toNat ++ leBytes 8 state)).setX 4 (own 0x1000)

theorem test_witness_iceg : ∃ (bytes : List Byte) (u t v : State), (labBlock 0).gives (readRecord (own 0x1000) 32) bytes u ∧
    wordAt bytes 0 = idxPtr ∧ wordAt bytes 1 = basePtr ∧ wordAt bytes 2 = labRows ∧ wordAt bytes 3 = labTag ∧
    u.eddyPasses idxPtr basePtr labRows labTag false false t ∧
    (labBlock 0).completes (.iceg 4) .seq (t.queueEddy idxPtr basePtr labRows labTag false 0) ∧
    (labBlock 0).completes (.qpush 4 4) .seq (t.queueEddy idxPtr basePtr labRows labTag false 0) ∧
    u.eddyPasses idxPtr basePtr labRows labTag true false v ∧
    (labBlock 0).completes (.ices 4) .seq (v.queueEddy idxPtr basePtr labRows labTag true 0) :=
  ⟨_, _, _, _, comes, by decide +kernel, by decide +kernel, by decide +kernel, by decide +kernel, eddyPasses_of, runs, runs, eddyPasses_of, runs⟩

/-- A record that resumes a gather at row 1, and one that resumes a scatter at row 0. -/
theorem test_witness_iceres : ∃ (bytes bytes' : List Byte) (u t u' t' : State),
    (labBlock (2 ^ 40 + 1)).gives (readRecord (own 0x1000) 64) bytes u ∧ (wordAt bytes 4).toNat / 2 ^ 40 % 2 ^ 8 = 1 ∧
    u.eddyPasses idxPtr basePtr labRows labTag false true t ∧
    (labBlock (2 ^ 40 + 1)).completes (.iceres 4) .seq (t.queueEddy idxPtr basePtr labRows labTag false 1) ∧
    (labBlock (2 ^ 48 + 2 ^ 41)).gives (readRecord (own 0x1000) 64) bytes' u' ∧ (wordAt bytes' 4).toNat / 2 ^ 40 % 2 ^ 8 = 2 ∧
    u'.eddyPasses idxPtr basePtr labRows labTag true true t' ∧
    (labBlock (2 ^ 48 + 2 ^ 41)).completes (.iceres 4) .seq (t'.queueEddy idxPtr basePtr labRows labTag true 0) :=
  ⟨_, _, _, _, _, _, comes, by decide +kernel, eddyPasses_of, runs, comes, by decide +kernel, eddyPasses_of, runs⟩

def labRow (scatter : Bool) (next : Nat) : EddyJob :=
  { core := 0, idx := idxPtr, base := basePtr, w10 := labRows, w18 := labTag, scatter := scatter, started := false, next := next
    failed := none, seq := 0, kptb := 0, level := .u }
def labEddy (j : EddyJob) : State :=
  (put (put (put lab (poolKey 0 0x100) [1]) (poolKey 0 0x208) [9, 9]) (clusterKey 0 64) [4]).modDev fun d => { d with eddy := [j] }

theorem test_witness_eddy_rows : ∃ (row bytes row' bytes' : List Byte) (t u t' u' x : State),
    (labEddy (labRow false 0)).dev.eddyMayRun (labRow false 0) = true ∧ (labEddy (labRow false 0)).leaving 0 = false ∧
    (labEddy (labRow false 0)).engineGives (engRead (labRow false 0).party (ptrAt idxPtr 0) 2) row t ∧ leNat row = 1 ∧
    t.engineGives (engRead (labRow false 0).party (own 0x208) 8) bytes u ∧
    exec (.eddyGather 0) (labEddy (labRow false 0)) =
      .next ((u.pokePieces [(clusterKey 0 64, 8)] bytes).modEddy (labRow false 0) fun q => { q with started := true, next := 1 }) ∧
    (labEddy (labRow true 0)).engineGives (engRead (labRow true 0).party (ptrAt idxPtr 0) 2) row' t' ∧
    t'.engineGives (engPeek (labRow true 0).party (clusterKey 0 64) 8) bytes' u' ∧
    u'.engineGives (engWrite (labRow true 0).party (own 0x208) bytes') () x ∧
    exec (.eddyScatter 0) (labEddy (labRow true 0)) = .next (x.modEddy (labRow true 0) fun q => { q with started := true, next := 1 }) :=
  ⟨_, _, _, _, _, _, _, _, _, by decide +kernel, by decide +kernel, comes, by decide +kernel, comes, runs, comes, comes, comes, runs⟩

theorem test_witness_eddy_complete : (labRow false 2).count ≤ 2 ∧ (labEddy (labRow false 2)).dev.eddyMayRun (labRow false 2) = true ∧
    exec (.eddyComplete 0) (labEddy (labRow false 2)) =
      .next (((labEddy (labRow false 2)).modDev fun d => { d with eddy := [] }).modCoreId 0 fun c => { c with
        eddyTags := c.eddyTags &&& ~~~(1#16 <<< 15)
        ctx := { c.ctx with q5 := putElement 0xF c.ctx.q5 (BitVec.ofNat 64 (2 * 2 ^ 24 + 15)), evPend := c.ctx.evPend ||| (1#8 <<< 7) } }) :=
  ⟨by decide +kernel, by decide +kernel, runs⟩

/-! ## Witnesses: vectors -/

/-- x1 is a pointer with a format, x2 a stride; v31 holds 5 in its lowest lane and v30 the indices. -/
def labVec (fmt : Nat) (off : Nat) (stride : Word) : State :=
  (((put lab (poolKey 0 0x7FC0) [1, 2, 3]).setX 1 (BitVec.ofNat 64 (fmt * 2 ^ 59) ||| own off)).setX 2 stride).modCtx fun c => c.setV 31 5

/-- The last 64 bytes of the scratchpad, by an offset of 15 registers. -/
theorem test_witness_vld : ∃ (ps : List Word) (keys : List (List (Nat × Nat))) (bytes : List (List Byte)) (t u x y : State),
    (labVec 9 0x7C00 0).gives (copyAddresses ((labVec 9 0x7C00 0).ctx.getX 1) 15 1) ps t ∧ t.gives (checkAll .load ps 64 4) keys u ∧
    u.gives (keys.mapM coreReadSpan) bytes x ∧ leNat bytes.flatten = 0x030201 ∧
    x.takesGroup 31 keys.length (leNat bytes.flatten) y ∧ (labVec 9 0x7C00 0).completes (.vld .w1 31 1 15 .stored) .seq y :=
  ⟨_, _, _, _, _, _, _, comes, comes, comes, by decide +kernel, comes, runs⟩

theorem test_witness_vlds : ∃ (ps : List Word) (keys : List (List (Nat × Nat))) (bytes : List (List Byte)) (t u x y : State),
    (labVec 0 0x7FC0 0xFFFF_FFFF_FFFF_FFC0).gives (strideAddresses (own 0x7FC0) 0xFFFF_FFFF_FFFF_FFC0 2) ps t ∧
    t.gives (checkAll .load ps 64 1) keys u ∧ u.gives (keys.mapM coreReadSpan) bytes x ∧
    x.takesGroup 30 keys.length (leNat bytes.flatten) y ∧
    (labVec 0 0x7FC0 0xFFFF_FFFF_FFFF_FFC0).completes (.vlds .w2 30 1 2) .seq y :=
  ⟨_, _, _, _, _, _, _, comes, comes, comes, comes, runs⟩

theorem test_witness_vld_planes : ∃ y z : State, 10 ≤ ((labVec 16 0 0).ctx.getX 1).toNat / 2 ^ 59 ∧
    ((labVec 16 0 0).ctx.getX 1).toNat / 2 ^ 59 ≤ 16 ∧ (labVec 16 0 0).gives (loadPlanes 31 1 ((labVec 16 0 0).ctx.getX 1) 0 0) () y ∧
    (labVec 16 0 0).completes (.vld .w1 31 1 0 .stored) .seq y ∧
    (labVec 10 0 0).gives (loadPlanes 31 1 ((labVec 10 0 0).ctx.getX 1) 0 1) () z ∧
    (labVec 10 0 0).completes (.vld .w1 31 1 0 (.planes 0)) .seq z :=
  ⟨_, _, by decide +kernel, by decide +kernel, comes, runs, comes, runs⟩

theorem test_witness_vst : ∃ (ps : List Word) (keys : List (List (Nat × Nat))) (x u t y : State),
    (labVec 9 0x7FC0 0).givesGroups [(31, 1)] [5] x ∧ x.gives (copyAddresses ((labVec 9 0x7FC0 0).ctx.getX 1) 0 1) ps u ∧
    u.gives (checkAll .store ps 64 4) keys t ∧ t.core.unack + 2 * keys.length ≤ 256 ∧
    t.gives ((keys.zipIdx).forM fun (ks, j) => coreWriteSpan false ks (leBytes 64 (lane 5 512 j))) () y ∧
    (labVec 9 0x7FC0 0).completes (.vst .w1 31 1 0 .stored) .seq y :=
  ⟨_, _, _, _, _, _, comesAs, comes, comes, by decide +kernel, comesAs, runs⟩

theorem test_witness_vsts : ∃ (ps : List Word) (keys : List (List (Nat × Nat))) (x u t y : State),
    (labVec 0 0 64).givesGroups [(30, 2)] [5 * 2 ^ 512] x ∧ x.gives (strideAddresses (own 0) 64 2) ps u ∧
    u.gives (checkAll .store ps 64 1) keys t ∧ t.core.unack + 2 * keys.length ≤ 256 ∧
    t.gives ((keys.zipIdx).forM fun (ks, j) => coreWriteSpan false ks (leBytes 64 (lane (5 * 2 ^ 512) 512 j))) () y ∧
    (labVec 0 0 64).completes (.vsts .w2 30 1 2) .seq y :=
  ⟨_, _, _, _, _, _, comesAs, comes, comes, by decide +kernel, comesAs, runs⟩

theorem test_witness_vst_planes : ∃ x y z : State, (labVec 16 0 0).givesGroups [(31, 1)] [5] x ∧
    x.gives (storePlanes 5 1 ((labVec 16 0 0).ctx.getX 1) 0 0) () y ∧ (labVec 16 0 0).completes (.vst .w1 31 1 0 .stored) .seq y ∧
    x.gives (storePlanes 5 1 ((labVec 16 0 0).ctx.getX 1) 0 8) () z ∧ (labVec 16 0 0).completes (.vst .w1 31 1 0 (.planes 7)) .seq z :=
  ⟨_, _, _, comesAs, comesAs, runs, comesAs, runs⟩

/-- Sixteen words, all of the last line of the scratchpad. -/
theorem test_witness_indexed : ∃ (ps : List Word) (keys : List (List (Nat × Nat))) (bytes : List (List Byte)) (t u x y z : State),
    (labVec 9 0x7FC0 0).givesGroups [(30, 1)] [0] t ∧ t.gives (indexAddresses ((labVec 9 0x7FC0 0).ctx.getX 1) 0 1 4) ps u ∧
    u.gives (checkAll .load ps 4 4) keys x ∧ keys.length = 16 ∧ x.gives (keys.mapM coreReadSpan) bytes z ∧
    z.takesGroup 29 1 (leNat bytes.flatten) y ∧ (labVec 9 0x7FC0 0).completes (.vldx .w1 29 1 30) .seq y :=
  ⟨_, _, _, _, _, _, _, _, comesAs, comes, comes, by decide +kernel, comes, comesAs, runs⟩

theorem test_witness_indexed_store : ∃ (ps : List Word) (keys : List (List (Nat × Nat))) (x u t y : State),
    (labVec 9 0x7FC0 0).givesGroups [(31, 1), (30, 1)] [5, 0] x ∧ x.gives (indexAddresses ((labVec 9 0x7FC0 0).ctx.getX 1) 0 1 4) ps u ∧
    u.gives (checkAll .store ps 4 4) keys t ∧ t.core.unack + 2 * keys.length ≤ 256 ∧
    t.gives ((keys.zipIdx).forM fun (ks, j) => coreWriteSpan false ks (leBytes 4 (lane 5 32 j))) () y ∧
    (labVec 9 0x7FC0 0).completes (.vstx .w1 31 1 30) .seq y :=
  ⟨_, _, _, _, _, _, comesAs, comes, comes, by decide +kernel, comesAs, runs⟩

/-- Lanes of v1, v2 and v3: the least and the greatest of their types among them. -/
def labLanes (a b d : Nat) : State := lab.modCtx fun c => ((c.setV 1 (BitVec.ofNat 512 a)).setV 2 (BitVec.ofNat 512 b)).setV 3 (BitVec.ofNat 512 d)

/-- Lanes 0x80 and 0x7F of sb: VADDS saturates, VADD wraps, VSRA and VSHR differ, and VSEL takes each side. -/
theorem test_witness_integer_lanes : ∃ t u y : State, (labLanes 0x7F80 0x01FF 0x0100).givesGroups [(1, 1), (2, 1)] [0x7F80, 0x01FF] t ∧
    t.takesGroup 3 1 0x7F80 u ∧ (labLanes 0x7F80 0x01FF 0x0100).completes (.vadds .sb .w1 3 1 2) .seq u ∧
    t.takesGroup 3 1 0x807F y ∧ (labLanes 0x7F80 0x01FF 0x0100).completes (.vadd .sb .w1 3 1 2) .seq y :=
  ⟨_, _, _, comesAs, comes, runs, comes, runs⟩

theorem test_witness_integer_shifts : ∃ t u y : State, (labLanes 0x7F80 0x0107 0).givesGroups [(1, 1), (2, 1)] [0x7F80, 0x0107] t ∧
    t.takesGroup 3 1 0x3FFF u ∧ (labLanes 0x7F80 0x0107 0).completes (.vsra .ub .w1 3 1 2) .seq u ∧
    t.takesGroup 3 1 0x3F01 y ∧ (labLanes 0x7F80 0x0107 0).completes (.vshr .sb .w1 3 1 2) .seq y :=
  ⟨_, _, _, comesAs, comes, runs, comes, runs⟩

theorem test_witness_integer_select : ∃ t u y z : State, (labLanes 0x7F80 0x01FF 0x0100).givesGroups [(1, 1), (2, 1), (3, 1)]
      [0x7F80, 0x01FF, 0x0100] t ∧ t.takesGroup 3 1 0x7FFF u ∧ (labLanes 0x7F80 0x01FF 0x0100).completes (.vsel .sb .w1 3 1 2) .seq u ∧
    (labLanes 0x7F80 0x01FF 0x0100).givesGroups [(1, 1)] [0x7F80] y ∧ y.takesGroup 3 1 0x7F80 z ∧
    (labLanes 0x7F80 0x01FF 0x0100).completes (.vabs .sb .w1 3 1) .seq z :=
  ⟨_, _, _, _, comesAs, comes, runs, comesAs, comes, runs⟩

/-- 1 + 2^-24 is a tie to even in sf, and inexact; the square of the least subnormal of hf underflows; a signalling NaN is invalid. -/
theorem test_witness_float_add : ∃ t u : State, (labLanes 0x3F80_0000 0x3380_0000 0).givesGroups [(1, 1), (2, 1)] [0x3F80_0000, 0x3380_0000] t ∧
    t.takesGroup 3 1 0x3F80_0000 u ∧ (labLanes 0x3F80_0000 0x3380_0000 0).completes (.vfadd .sf .w1 3 1 2) .seq
      (u.modCtx fun c => { c with fstat := c.fstat ||| 1 }) :=
  ⟨_, _, comesAs, comes, runs⟩

theorem test_witness_float_multiply : ∃ t u : State, (labLanes 1 1 0).givesGroups [(1, 1), (2, 1)] [1, 1] t ∧ t.takesGroup 3 1 0 u ∧
    (labLanes 1 1 0).completes (.vfmul .hf .w1 3 1 2) .seq (u.modCtx fun c => { c with fstat := c.fstat ||| 3 }) :=
  ⟨_, _, comesAs, comes, runs⟩

theorem test_witness_float_compare : ∃ t u : State, (labLanes 0x7F81 0 0).givesGroups [(1, 1), (2, 1)] [0x7F81, 0] t ∧
    t.takesGroup 3 1 (2 ^ 512 - 2 ^ 16) u ∧ (labLanes 0x7F81 0 0).completes (.vfcmpeq .bf .w1 3 1 2) .seq
      (u.modCtx fun c => { c with fstat := c.fstat ||| 16 }) :=
  ⟨_, _, comesAs, comes, runs⟩

/-- 1 × 1 + 1 in three operands, and the unary operations on 1 and 0 lanes. -/
theorem test_witness_float_fused : ∃ t u : State, (labLanes 0x3C00 0x3C00 0x3C00).givesGroups [(1, 1), (2, 1), (3, 1)] [0x3C00, 0x3C00, 0x3C00] t ∧
    t.takesGroup 3 1 0x4000 u ∧ (labLanes 0x3C00 0x3C00 0x3C00).completes (.vfma .hf .w1 3 1 2) .seq
      (u.modCtx fun c => { c with fstat := c.fstat ||| 0 }) :=
  ⟨_, _, comesAs, comes, runs⟩

theorem test_witness_float_unary : ∃ t u y : State, (labLanes 0x3C00 0 0).givesGroups [(1, 1)] [0x3C00] t ∧
    t.takesGroup 3 1 (ofLanes 16 (0x4000 :: List.replicate 31 0x3C00)) u ∧ (labLanes 0x3C00 0 0).completes (.vfexp2 .hf .w1 3 1) .seq
      (u.modCtx fun c => { c with fstat := c.fstat ||| 0 }) ∧
    t.takesGroup 3 1 (ofLanes 16 (0x3C00 :: List.replicate 31 0x7C00)) y ∧ (labLanes 0x3C00 0 0).completes (.vfrsq .hf .w1 3 1) .seq
      (y.modCtx fun c => { c with fstat := c.fstat ||| 8 }) :=
  ⟨_, _, _, comesAs, comes, runs, comes, runs⟩

/-- RoundingToNearest speaks of every non-zero value: the largest finite hf, half an ulp above it, and below the least subnormal. -/
theorem test_witness_rounding : fmtHF ∈ [fmtHF, fmtBF, fmtSF] ∧ (2047 : Nat) ≠ 0 ∧ fmtHF.round .rne false 2047 5 false = (0x7BFF, 0) ∧
    fmtHF.round .rne true 4095 4 false = (0xFC00, 5) ∧ fmtHF.round .rne false 4095 3 false = (0x7800, 1) ∧
    fmtHF.round .rne false 1 (-25) false = (0, 3) := by decide +kernel

/-! ## Witnesses: lane movement, streams, frames and gangs -/

/-- v1 and v2 as given, x1 a lane index or a pointer, v3's lanes 9 in the lowest. -/
def labMove (a b : Nat) (x : Word) : State := (labLanes a b 9).setX 1 x

theorem test_witness_vmovx : ∃ t u : State, (labMove 0x8000 0 1).givesGroups [(1, 1)] [0x8000] t ∧
    (labMove 0x8000 0 1).completes (.vmovx .sb 5 1 1) .seq (t.setX 5 0xFFFF_FFFF_FFFF_FF80) ∧
    (labMove 0x8000 0 64).givesGroups [(1, 1)] [0x8000] u ∧ (labMove 0x8000 0 64).completes (.vmovx .sb 5 1 1) .seq (u.setX 5 0) :=
  ⟨_, _, comesAs, runs, comesAs, runs⟩

theorem test_witness_vsplat_vins : ∃ u v : State, (labMove 0 0 63).takesGroup 3 1 (ofLanes 8 (List.replicate 64 63)) u ∧
    (labMove 0 0 63).completes (.vsplat .ub .w1 3 1) .seq u ∧ (labMove 0 0 63).ctx.getGroup 3 1 = 9 ∧
    (labMove 0 0 63).takesGroup 3 1 (9 + 63 * 2 ^ 504) v ∧ (labMove 0 0 63).completes (.vins .ub 3 1 1) .seq v ∧
    (labMove 0 0 64).completes (.vins .ub 3 1 1) .seq (labMove 0 0 64) :=
  ⟨_, _, comes, runs, by decide +kernel, comes, runs, runs⟩

/-- VPERM by indices 15 and 16, which is lane 0 again; VCOMPR by the same mask; VSLIDE by one past the end. -/
theorem test_witness_vperm_vcompr : ∃ t u v : State, (labMove 5 (2 ^ 32 * 16 + 15) 0).givesGroups [(1, 1), (2, 1)] [5, 2 ^ 32 * 16 + 15] t ∧
    t.takesGroup 3 1 (ofLanes 32 (0 :: List.replicate 15 5)) u ∧ (labMove 5 (2 ^ 32 * 16 + 15) 0).completes (.vperm .sw .w1 3 1 2) .seq u ∧
    t.takesGroup 3 1 5 v ∧ (labMove 5 (2 ^ 32 * 16 + 15) 0).completes (.vcompr .sw .w1 3 1 2) .seq v :=
  ⟨_, _, _, comesAs, comes, runs, comes, runs⟩

theorem test_witness_vslide_vscan : ∃ t u v w : State, (labMove (1 + 2 ^ 32 * 2) 0 1).givesGroups [(1, 1)] [1 + 2 ^ 32 * 2] t ∧
    t.takesGroup 3 1 2 u ∧ (labMove (1 + 2 ^ 32 * 2) 0 1).completes (.vslide .sw .w1 3 1 1) .seq u ∧
    t.takesGroup 3 1 (ofLanes 32 (1 :: List.replicate 15 3)) v ∧
    (labMove (1 + 2 ^ 32 * 2) 0 1).completes (.vscan .uh .w1 3 1) .seq
      ((after (writeGroup 3 1 (ofLanes 16 ([1, 1] ++ List.replicate 30 3))) t).modCtx fun c => { c with fstat := c.fstat ||| 0 }) ∧
    t.takesGroup 3 1 (ofLanes 32 (scanFrom .sf .rne 10 1 (lanes (1 + 2 ^ 32 * 2) 32 16)).1) w ∧
    (labMove (1 + 2 ^ 32 * 2) 0 1).completes (.vscan .sf .w1 3 1) .seq (w.modCtx fun c => { c with
      fstat := c.fstat ||| ((scanFrom .sf .rne 10 1 (lanes (1 + 2 ^ 32 * 2) 32 16)).2).setWidth 9 }) :=
  ⟨_, _, _, _, comesAs, comes, runs, comes, runs, comes, runs⟩

theorem test_witness_vred_vpopc : ∃ t u v : State, (labMove (255 + 2 ^ 8) 0 0).givesGroups [(1, 1)] [255 + 2 ^ 8] t ∧
    (labMove (255 + 2 ^ 8) 0 0).completes (.vpopc .sb .w1 5 1) .seq (t.setX 5 2) ∧ t.takesGroup 3 1 0 u ∧
    (labMove (255 + 2 ^ 8) 0 0).completes (.vred .ub .w1 3 1) .seq (u.modCtx fun c => { c with fstat := c.fstat ||| 0 }) ∧
    t.takesGroup 3 1 (redTree .hf .rne 10 (lanes (255 + 2 ^ 8) 16 32)).1 v ∧
    (labMove (255 + 2 ^ 8) 0 0).completes (.vred .hf .w1 3 1) .seq (v.modCtx fun c => { c with
      fstat := c.fstat ||| ((redTree .hf .rne 10 (lanes (255 + 2 ^ 8) 16 32)).2).setWidth 9 }) :=
  ⟨_, _, _, comesAs, runs, comes, runs, comes, runs⟩

/-- -1 in sb to sw fills four registers; sf 200 to sb saturates and is invalid; VQNT of hf 1 by the scale 1. -/
theorem test_witness_vcvt : ∃ t u v w : State, (labMove 255 0 0).givesGroups [(1, 1)] [255] t ∧ derivedWidth 1 4 1 = 4 ∧
    t.takesGroup 28 4 0xFFFF_FFFF u ∧ (labMove 255 0 0).completes (.vcvt .sb .w1 28 1 .sw) .seq
      (u.modCtx fun c => { c with fstat := c.fstat ||| 0 }) ∧
    (labMove 0x4348_0000 0 0).givesGroups [(1, 1)] [0x4348_0000] v ∧ v.takesGroup 3 1 127 w ∧
    (labMove 0x4348_0000 0 0).completes (.vcvt .sf .w1 3 1 .sb) .seq
      (w.modCtx fun c => { c with fstat := c.fstat ||| (convertLane .sf .sb .rne 0x4348_0000).2.setWidth 9 }) :=
  ⟨_, _, _, _, comesAs, by decide +kernel, comes, runs, comesAs, comes, runs⟩

theorem test_witness_vqnt : ∃ t u : State, (labMove 0x3C00 0x3F80_0000 0).givesGroups [(1, 1), (2, 1)] [0x3C00, 0x3F80_0000] t ∧
    t.takesGroup 3 1 1 u ∧ (labMove 0x3C00 0x3F80_0000 0).completes (.vqnt .hf .w1 3 1 2) .seq
      (u.modCtx fun c => { c with fstat := c.fstat ||| 0 }) :=
  ⟨_, _, comesAs, comes, runs⟩

/-- An empty scan, and one whose list of two indices ends with the scratchpad. -/
def labScan (a : Nat) (off : Nat) : State := labMove a 0 (0x3000_0000_0000_0000 ||| own off)

theorem test_witness_vnz_empty : ∃ (first : List (Nat × Nat)) (t u : State), (labScan 0 0x7FFE).givesGroups [(1, 1)] [0] t ∧
    t.gives (spanKeys .store (0x3000_0000_0000_0000 ||| own 0x7FFE) 1 2) first u ∧
    (labScan 0 0x7FFE).completes (.vnz .sb .w1 5 1 1) .seq ((u.setX 5 0).modCtx fun c => { c with q6 := [0xFFFF_FFFF] }) :=
  ⟨_, _, _, comesAs, comes, runs⟩

theorem test_witness_vnz : ∃ (first more keys : List (Nat × Nat)) (t s1 s2 s3 s4 : State),
    (labScan (1 + 2 ^ 504) 0x7FFC).givesGroups [(1, 1)] [1 + 2 ^ 504] t ∧
    t.gives (spanKeys .store (0x3000_0000_0000_0000 ||| own 0x7FFC) 1 2) first s1 ∧
    s1.gives (spanKeys .store (ptrAt (0x3000_0000_0000_0000 ||| own 0x7FFC) 3) 1 1) more s2 ∧
    s2.gives (spanKeys .store (0x3000_0000_0000_0000 ||| own 0x7FFC) 4 2) keys s3 ∧
    s3.gives (coreWriteSpan false keys [0, 0, 63, 0]) () s4 ∧
    (labScan (1 + 2 ^ 504) 0x7FFC).completes (.vnz .sb .w1 5 1 1) .seq ((s4.setX 5 2).modCtx fun c => { c with q6 := [0x2_0000_003F] }) :=
  ⟨_, _, _, _, _, _, _, _, comesAs, comes, comes, comes, comesAs, runs⟩

/-- x1 is stream data with a format, x2 the limit, x3 the coordinates; x4 a count. -/
def labOpen (fmt : Nat) : State :=
  (((lab.setX 1 (BitVec.ofNat 64 (fmt * 2 ^ 59) ||| own 0x7F80)).setX 2 2).setX 3 (0x1800_0000_0000_0000 ||| own 0x1000)).setX 4 1

theorem test_witness_sopen_dense : ∃ (ks : List (Nat × Nat)) (t : State), kindAccepts .denseRead 9 = true ∧
    (labOpen 9).gives (spanKeys .load ((labOpen 9).ctx.getX 1) 1 1) ks t ∧
    (labOpen 9).completes (.sopen 3 1 2 .denseRead 0) .seq (t.modCtx fun c => (c.dropPieces 3).setSd 3
      { val := c.getX 1, coord := 0, pos := 0, limit := 2, kind := .denseRead, bound := true }) :=
  ⟨_, _, by decide +kernel, comes, runs⟩

theorem test_witness_sopen_list : ∃ (ks k : List (Nat × Nat)) (t u : State), kindAccepts .list 9 = true ∧ fmtOf ((labOpen 9).ctx.getX 3) = 3 ∧
    (labOpen 9).gives (spanKeys .load ((labOpen 9).ctx.getX 1) 1 1) ks t ∧ t.gives (spanKeys .load ((labOpen 9).ctx.getX 3) 1 1) k u ∧
    (labOpen 9).completes (.sopen 2 1 2 .list 3) .seq (u.modCtx fun c => ((c.dropPieces 2).setSd 2
      { val := c.getX 1, coord := c.getX 3, pos := 0, limit := 2, kind := .list, bound := true }).setSd 3
        { StreamDesc.zero with kind := .list, bound := true }) :=
  ⟨_, _, _, _, by decide +kernel, by decide +kernel, comes, comes, runs⟩

def labDense (kind : StreamKind) (pos limit : Word) : State := lab.modCtx fun c => c.setSd 0
  { val := 0x4800_0000_0000_0000 ||| own 0x7F80, coord := 0, pos := pos, limit := limit, kind := kind, bound := true }

theorem test_witness_stream_position : ((labDense .denseRead 1 2).setX 4 5).completes (.sadv 0 4) .seq ((labDense .denseRead 2 2).setX 4 5) ∧
    (labDense .denseRead 2 2).completes (.stend 0 0x1000) (.jump 0xFFFF_FFFF_FFFF_E000) (labDense .denseRead 2 2) ∧
    (labDense .denseRead 1 2).completes (.stend 0 0) .seq (labDense .denseRead 1 2) ∧
    (labDense .denseRead 1 2).completes (.spos 5 0) .seq ((labDense .denseRead 1 2).setX 5 1) ∧ lab.completes (.sclose 0) .seq lab ∧
    (labDense .denseRead 1 2).completes (.sclose 0) .seq ((labDense .denseRead 1 2).modCtx fun c =>
      c.setSd 0 { c.getSd 0 with bound := false }) := ⟨runs, runs, runs, runs, runs, runs⟩

/-- A fibre of compressed lines, none of which holds an entry. -/
def labLine (limit : Word) : State := lab.modCtx fun c => (c.setSd 0
  { val := 0x8800_0000_0000_0000 ||| own 0x7F80, coord := 0, pos := 0, limit := limit, kind := .line, bound := true }).setSd 1
  { StreamDesc.zero with kind := .line, bound := true }

theorem test_witness_line_streams : ∃ (r : List FibreEntry × Nat × Nat) (t u v : State), (labLine 1).gives
      (lineNext 0 ((labLine 1).ctx.getSd 0) 1) r t ∧ r = ([], (1, 0)) ∧
    (labLine 1).completes (.stend 0 4) (.jump 0x2010) t ∧ ((labLine 1).setX 4 1).gives (lineNext 0 ((labLine 1).ctx.getSd 0) 1) ([], (1, 0)) u ∧
    u.gives (moveTo 0 ((labLine 1).ctx.getSd 0) 0) () v ∧ ((labLine 1).setX 4 1).completes (.sadv 0 4) .seq v :=
  ⟨_, _, _, _, comes, by decide +kernel, runs, comesAs, comesAs, runs⟩

theorem test_witness_pop : ∃ (bytes : List Byte) (t : State), (labDense .denseRead 2 2).gives (popStream 0) ()
      ((labDense .denseRead 2 2).modCtx fun c => c.setV 28 0) ∧
    (labDense .denseRead 1 2).gives (loadBytes (ptrAt ((labDense .denseRead 1 2).ctx.getSd 0).val 64) 64 64) bytes t ∧
    t.ctx = (labDense .denseRead 1 2).ctx ∧
    (after (popStream 0) (labDense .denseRead 1 2)).ctx = (t.ctx.setV 28 (BitVec.ofNat 512 (leNat bytes))).setSd 0
      { (labDense .denseRead 1 2).ctx.getSd 0 with pos := 2 } :=
  ⟨_, _, by unfold State.gives; rfl, comes, by decide +kernel, by decide +kernel⟩

theorem test_witness_prefetch : ∃ (bytes bytes' : List Byte) (t u : State),
    (labDense .denseRead 1 2).gives (fetchBytes (ptrAt ((labDense .denseRead 1 2).ctx.getSd 0).val 64) 64 64) bytes t ∧
    exec (.streamPrefetch 0) (labDense .denseRead 1 2) = .next (t.modCtx fun c => { c with
      pieces := c.pieces ++ [{ stream := 0, index := 1, ptr := ptrAt ((labDense .denseRead 1 2).ctx.getSd 0).val 64, bytes := bytes }] }) ∧
    (labLine 1).gives (fetchBytes (ptrAt ((labLine 1).ctx.getSd 0).val 0) 128 128) bytes' u ∧
    exec (.streamPrefetch 0) (labLine 1) = .next (u.modCtx fun c => { c with
      pieces := c.pieces ++ [{ stream := 0, index := 0, ptr := ptrAt ((labLine 1).ctx.getSd 0).val 0, bytes := bytes' }] }) ∧
    exec (.streamPrefetch 0) lab = .next lab := ⟨_, _, _, _, comes, runs, comes, runs, runs⟩

/-- R376's second example: coordinates 2, 5, 9 and 5, 7, 9 with values in sf; the intersection is (5, 8.0) and (9, 18.0). -/
def labMerge : State :=
  (put (put (put (put lab (poolKey 0 0) (leBytes 4 2 ++ leBytes 4 5 ++ leBytes 4 9)) (poolKey 0 0x100) (leBytes 4 5 ++ leBytes 4 7 ++ leBytes 4 9))
    (poolKey 0 0x200) (leBytes 4 0x3F80_0000 ++ leBytes 4 0x4000_0000 ++ leBytes 4 0x4040_0000))
    (poolKey 0 0x300) (leBytes 4 0x4080_0000 ++ leBytes 4 0x40A0_0000 ++ leBytes 4 0x40C0_0000)).modCtx fun c =>
    (((c.setSd 0 { val := 0x4800_0000_0000_0000 ||| own 0x200, coord := 0x1800_0000_0000_0000 ||| own 0, pos := 0, limit := 3, kind := .list
                   bound := true }).setSd 1 { StreamDesc.zero with kind := .list, bound := true }).setSd 2
      { val := 0x4800_0000_0000_0000 ||| own 0x300, coord := 0x1800_0000_0000_0000 ||| own 0x100, pos := 0, limit := 3, kind := .list
        bound := true }).setSd 3 { StreamDesc.zero with kind := .list, bound := true }

theorem test_witness_smerge : labMerge.resultsPending = false ∧ (0 : Reg).toNat + 2 ≤ labMerge.ctx.vregs ∧ (labMerge.ctx.getSd 0).bound = true ∧
    (labMerge.ctx.getSd 2).kind.isFibre = true ∧ comesOut (headAt 0 (labMerge.ctx.getSd 0) 0) labMerge = true ∧
    goesOn (.smerge 0 false) labMerge = true ∧
    ((nextOf (.smerge 0 false) labMerge).ctx.getV 0).toNat % 2 ^ 64 = 0x4190_0000_4100_0000 ∧
    ((nextOf (.smerge 0 false) labMerge).ctx.getV 1).toNat % 2 ^ 96 = 0xFFFF_FFFF_0000_0009_0000_0005 ∧
    (nextOf (.smerge 0 false) labMerge).ctx.pc = 0x2004 := by decide +kernel

/-- A frame of one word, ADD x1, x1, x2, whose destination and first source move by one register a replay. -/
def labFrame (count : Nat) : State := ((put lab 0x2004 (leBytes 4 0b000001_00001_00001_00010_00_000000000)).setX 7 (BitVec.ofNat 64 count)).setX 2 3

def labCaptured (count : Nat) : State := (after (captureWords 1) (labFrame count)).modCore fun c => { c with captured := [0x0421_1000] }

theorem test_witness_frame : ∃ u : State, (labFrame 2).core.frame = none ∧
    (labFrame 2).gives (captureWords 1) [0x0421_1000] (after (captureWords 1) (labFrame 2)) ∧
    isCaptured 0x0421_1000 = true ∧ (labCaptured 2).gives (frameFrom [0x0421_1000] 6 1 0x2008 2 5 0 0) () u ∧
    (labFrame 2).completes (.repf 0 false 7 1 6) .seq ((u.modCtx fun c => { c with pc := 0x2004 }).modCore fun c => { c with frame := none }) ∧
    u.ctx.getX 2 = 6 := ⟨_, by decide +kernel, comesAs, by decide +kernel, comesAs, runs, by decide +kernel⟩

theorem test_witness_frame_of_none : (labFrame 0).completes (.repf 0 false 7 1 6) .seq
    (((labCaptured 0).modCtx fun c => { c with pc := 0x2004 }).modCore fun c => { c with frame := none }) := runs

/-- Field 0 at its least and field 2 at its greatest value. -/
theorem test_witness_stagger : staggered 0b000001_11110_00001_00010_00_000000000 7 1 1 = some 0b000001_11111_00010_00011_00_000000000 ∧
    staggered 0b000001_11110_00001_00010_00_000000000 1 15 2 = none ∧
    staggered 0b000001_11110_00001_00010_00_000000000 1 (-1) 2 = some 0b000001_11110_00001_00000_00_000000000 := by decide +kernel

def labLink0 : GangLink := { gang := 0, pos := 0, gid := 7, lnum := 0 }
def labLink1 : GangLink := { gang := 0, pos := 1, gid := 7, lnum := 0 }
def labAttached : State := onCore labGang 1
def labDetached : State := labAttached.detach labLink1

/-- Core 1 waits to join gang 7, or does not. -/
def labForm (joined : Bool) : State := (lab.modCoreId 1 fun c => { c with hold := if joined then .gjoin 7 else .none }).setX 1 0x7_0002

theorem test_witness_gform : lab.ctx.gangMode = 0 ∧ lab.core.link = none ∧ (labForm true).rangeOf 2 = some [0, 1] ∧
    (∀ m ∈ [1], (labForm true).rangeCore 7 0 m = .ready) ∧
    (labForm true).completes (.gform 1) .seq ((labForm true).formGang [0, 1] 7 0 0 1 0x2004) ∧ (labForm false).waits (.gform 1) .gform (labForm false) ∧
    (lab.setX 1 0xFF_0000).waits (.gjoin 1) (.gjoin 0xFF) (lab.setX 1 0xFF_0000) ∧
    (labGang.coreById 1).map (fun c => c.ctx.gang) = some 0x07_2081 :=
  ⟨by decide +kernel, by decide +kernel, by decide +kernel, by decide +kernel, runs, runs, runs, by decide +kernel⟩

theorem test_witness_gang_leaving : (lab.setX 1 1).completes (.gleave 1) .seq (lab.setX 1 1) ∧
    (labAttached.setX 1 1).completes (.gleave 1) .seq ((labAttached.setX 1 1).leaveGang 1) ∧ labGang.completes .gsplit .seq labGang.splitGang ∧
    labDetached.completes .gsplit .seq labDetached ∧ labGang.completes (.gdet 1) .seq labGang ∧ labAttached.completes (.rjp 255) .seq labAttached :=
  ⟨runs, runs, runs, runs, runs, runs⟩

theorem test_witness_gang_modes : labAttached.ctx.gangMode = 2 ∧ labAttached.core.link = some labLink1 ∧ labAttached.core.heldAt = none ∧
    (labAttached.memberAt labLink1).bind (fun m => m.poison) = none ∧ (labAttached.setX 1 1).completes (.gdet 1) .seq ((labAttached.setX 1 1).detach labLink1) ∧
    labGang.ctx.gangMode = 1 ∧ labGang.core.link = some labLink0 ∧ labGang.completes (.gatt 5) .seq labGang ∧ labDetached.ctx.gangMode = 3 ∧
    ((labDetached.modGang 0 fun g => g.modMember 1 fun m => { m with parked := some 5 }).gangTick 0).ctx.gangMode = 3 ∧
    labDetached.waits (.gatt 5) (.gatt 5) ((labDetached.modGang 0 fun g => g.modMember 1 fun m => { m with parked := some 5 }).gangTick 0) ∧
    labGang.completes (.rjp 5) .seq (labGang.modGang 0 fun g => { g with hold := .rjp 5 g.nextK 0x2004 }) :=
  by refine ⟨?_, ?_, ?_, ?_, runs, ?_, ?_, runs, ?_, ?_, runs, runs⟩ <;> decide +kernel

/-- The leader waits at the same RJP, and no other member is attached: GATT attaches its core there. -/
def labRejoin : State := labDetached.modGang 0 fun g => { g with hold := .rjp 5 0 0x2004, now := 9 }

theorem test_witness_rejoin : ((labRejoin.modGang 0 fun g => g.modMember 1 fun m => { m with parked := some 5 }).gangTick 0).ctx.gangMode ≠ 3 ∧
    labRejoin.completes (.gatt 5) .stay ((labRejoin.modGang 0 fun g => g.modMember 1 fun m => { m with parked := some 5 }).gangTick 0) :=
  ⟨by decide +kernel, runs⟩

def arrived (s : State) (l : GangLink) : State := (s.modCtx fun c => { c with pieces := [] }).arriveBar l
def atBarrier (s : State) (l : GangLink) : Bool := (s.memberAt l).any fun m => m.atBar

/-- A barrier outside a gang, at an attached member, at a detached member that comes first, and at one that comes last. -/
def labBarLast : State := labDetached.modGang 0 fun g => g.modMember 0 fun m => { m with atBar := true }
def labBarTwice : State := labDetached.modGang 0 fun g => g.modMember 1 fun m => { m with atBar := true }
def labHolds (s : State) (h : Hold) : State := s.modCore fun c => { c with hold := h }

theorem test_witness_barriers : lab.releaseMet .gang = true ∧ lab.commPending 0 = false ∧ lab.resultsPending = false ∧
    lab.completes .gbar .seq (lab.modCtx fun c => { c with pieces := [] }) ∧ labAttached.completes .gbar .seq ((arrived labAttached labLink1).gangTick 0) ∧
    atBarrier (arrived labDetached labLink1) labLink1 = true ∧ labDetached.waits .gbar .gbar (arrived labDetached labLink1) ∧
    atBarrier (arrived labBarLast labLink1) labLink1 = false ∧ labBarLast.completes .gbar .seq ((arrived labBarLast labLink1).gangTick 0) ∧
    (labHolds labBarLast .gbar).completes .gbar .stay ((arrived (labHolds labBarLast .gbar) labLink1).gangTick 0) ∧
    (labBarTwice.memberAt labLink1).any (fun m => m.atBar) = true ∧ labBarTwice.waits .gbar .retry labBarTwice :=
  ⟨by decide +kernel, by decide +kernel, by decide +kernel, runs, runs, by decide +kernel, runs, by decide +kernel, runs, runs, by decide +kernel, runs⟩

/-- What a member sends, and what it makes of the values that others await. -/
def sends (s : State) (l : GangLink) (a : Nat) : State := s.modGang l.gang fun g => { g with
  sent := g.sent ++ [{ k := s.slotOf l, pos := l.pos, value := BitVec.ofNat 4096 a }]
  due := g.due.map fun d => if d.k = s.slotOf l ∧ d.src = l.pos ∧ d.value.isNone then
    { d with value := some (BitVec.ofNat 4096 a), arrive := g.now + d.dist } else d }

def labShift (s : State) : State := s.modCtx fun c => c.setV 1 5

/-- The leader has no member to its west: it gets zero, and by XWRAP the value of member 1, which comes later. -/
theorem test_witness_shift_leader : ∃ t u : State, (labShift labGang).givesGroups [(1, 1)] [5] t ∧
    shiftSource ((gangOf (sends t labLink0 5) 0).parties 0) 0 false false = none ∧ (sends t labLink0 5).takesGroup 2 1 0 u ∧
    (labShift labGang).completes (.xsh .w1 2 1 false) .seq u ∧
    shiftSource ((gangOf (sends t labLink0 5) 0).parties 0) 0 false true = some 1 ∧
    (gangOf (sends t labLink0 5) 0).sent.find? (fun y => y.k == 0 && y.pos == 1) = none ∧
    (labShift labGang).completes (.xwrap .w1 2 1 false) .seq ((sends t labLink0 5).modGang 0 fun g => { g with
      due := [{ k := 0, dst := 0, src := 1, dist := 1, wd := .w1, vd := 2, value := none, arrive := 0 }] }) :=
  ⟨_, _, comesAs, by decide +kernel, comes, runs, by decide +kernel, by decide +kernel, runs⟩

/-- Member 1 gets what the leader sent in the same slot. -/
def labShifted : State := labShift (labAttached.modGang 0 fun g => { g with sent := [{ k := 0, pos := 0, value := 9 }] })

theorem test_witness_shift_member : ∃ t u : State, labShifted.givesGroups [(1, 1)] [5] t ∧
    shiftSource ((gangOf (sends t labLink1 5) 0).parties 0) 1 false false = some 0 ∧ (sends t labLink1 5).takesGroup 2 1 9 u ∧
    labShifted.completes (.xsh .w1 2 1 false) .seq u :=
  ⟨_, _, comesAs, by decide +kernel, comes, runs⟩

def labDue : ShiftDue := { k := 0, dst := 0, src := 1, dist := 1, wd := .w1, vd := 31, value := some 6, arrive := 3 }
def labArriving : State := labGang.modGang 0 fun g => { g with due := [labDue], now := 3 }

theorem test_witness_shift_arrival : labArriving.core.link = some labLink0 ∧ (gangOf labArriving 0).due[0]? = some labDue ∧
    labDue.arrive ≤ (gangOf labArriving 0).now ∧ ((gangOf labArriving 0).member? 0).map (fun m => (m.core, m.state)) = some (0, .attached) ∧
    exec (.xshArrival 0) labArriving = .next ((labArriving.modGang 0 fun g => { g with due := [] }).modCtxId 0 fun c => c.setGroup 31 6 1) :=
  ⟨by decide +kernel, by decide +kernel, by decide +kernel, by decide +kernel, runs⟩

/-! ## Witnesses: the matrix engine, rules and bit streams -/

/-- What a push makes of a state: the lowest slot is free. -/
def pushed (t : State) (w : IWord) (bval cval : Word) (slot : Nat) : State :=
  ((t.modDev fun d => { d with seq := d.seq + 1 }).modCtx fun c => { c with
      tagrdy := setBit c.tagrdy (56 + w.toNat / 8 % 8) false, tagerr := setBit c.tagerr (56 + w.toNat / 8 % 8) false }).modCore fun c => { c with
    dmaTags := setBit c.dmaTags (56 + w.toNat / 8 % 8) true
    mtx := c.mtx ++ [{ slot := BitVec.ofNat 4 slot, word := w, bval := bval, cval := cval, mask := 0, state := .waiting, fresh := true
                       started := false, restart := none, prio := 0, since := t.dev.cycles, seq := t.dev.seq, narm := t.ctx.narm, kptb := t.core.kptb
                       level := t.core.level, act := 0, joint := none }] }

/-- The checks of a push on a core of no gang. -/
def pushes (s t : State) (w : IWord) (bval cval : Word) (slot : Nat) : Prop :=
  s.ctx.hasMtxRegs w = true ∧ s.ctx.gangMode = 0 ∧ s.core.link = none ∧ s.mtxBlocks 0 [] [] = false ∧
    s.gives (mtxOperands w bval cval) () t ∧ t.core.dmaTags.getLsbD (56 + w.toNat / 8 % 8) = false ∧
    lowestSlot (t.heldSlots t.core.id) = some (BitVec.ofNat 4 slot)

theorem test_witness_mma : ∃ t, pushes lab t (wordOf (.mma 7 3 3 7 23 7 3 7)) 0 0 0 ∧
    lab.completes (.mma 7 3 3 7 23 7 3 7) .seq (pushed t (wordOf (.mma 7 3 3 7 23 7 3 7)) 0 0 0) :=
  by refine ⟨_, And.intro (?_) (And.intro (?_) (And.intro (?_) (And.intro (?_) (And.intro comesAs (And.intro (?_) (?_)))))), runs⟩ <;> decide +kernel

theorem test_witness_mzero : ∃ t, pushes lab t (wordOf (.mzero 7 0 0)) 0 0 0 ∧
    lab.completes (.mzero 7 0 0) .seq (pushed t (wordOf (.mzero 7 0 0)) 0 0 0) :=
  by refine ⟨_, And.intro (?_) (And.intro (?_) (And.intro (?_) (And.intro (?_) (And.intro comesAs (And.intro (?_) (?_)))))), runs⟩ <;> decide +kernel

/-- x1 and x2 for the pushes that take a pointer: MLDW of a block of eight planes, MMAS of rows at both ends of the scratchpad, MSTA, MSTV. -/
def labTile (p q : Word) : State := (lab.setX 2 p).setX 3 q

theorem test_witness_mldw : ∃ t, pushes (labTile (0x8200_0000_0000_0000 ||| own 0) 0) t (wordOf (.mldw 3 2 3 7)) (0x8200_0000_0000_0000 ||| own 0) 0 0 ∧
    (labTile (0x8200_0000_0000_0000 ||| own 0) 0).completes (.mldw 3 2 3 7) .seq
      (pushed t (wordOf (.mldw 3 2 3 7)) (0x8200_0000_0000_0000 ||| own 0) 0 0) :=
  by refine ⟨_, And.intro (?_) (And.intro (?_) (And.intro (?_) (And.intro (?_) (And.intro comesAs (And.intro (?_) (?_)))))), runs⟩ <;> decide +kernel

theorem test_witness_msta : ∃ t, pushes (labTile (0x4800_0000_0000_0000 ||| own 0) 0) t (wordOf (.msta 7 2 7 0 0)) (0x4800_0000_0000_0000 ||| own 0) 0 0 ∧
    (labTile (0x4800_0000_0000_0000 ||| own 0) 0).completes (.msta 7 2 7 0 0) .seq
      (pushed t (wordOf (.msta 7 2 7 0 0)) (0x4800_0000_0000_0000 ||| own 0) 0 0) :=
  by refine ⟨_, And.intro (?_) (And.intro (?_) (And.intro (?_) (And.intro (?_) (And.intro comesAs (And.intro (?_) (?_)))))), runs⟩ <;> decide +kernel

theorem test_witness_mstv : ∃ t, pushes (labTile 63 0) t (wordOf (.mstv 0 28 2 0 0)) 0 63 0 ∧
    (labTile 63 0).completes (.mstv 0 28 2 0 0) .seq (pushed t (wordOf (.mstv 0 28 2 0 0)) 0 63 0) :=
  by refine ⟨_, And.intro (?_) (And.intro (?_) (And.intro (?_) (And.intro (?_) (And.intro comesAs (And.intro (?_) (?_)))))), runs⟩ <;> decide +kernel

/-- A record of an MZERO for QPUSH, and the push itself with slot 0 taken. -/
def labMtxRecord : State := ((put lab (poolKey 0 0x1000) (leBytes 8 (wordOf (.mzero 7 0 0)).toNat)).setX 4 (own 0x1000)).modCore fun c => { c with
  mtx := [{ slot := 0, word := wordOf (.mzero 0 0 1), bval := 0, cval := 0, mask := 0, state := .waiting, fresh := true, started := false, restart := none
            prio := 0, since := 0, seq := 0, narm := false, kptb := 0, level := .u, act := 0, joint := none }] }

theorem test_witness_qpush_matrix : ∃ (bytes : List Byte) (u t : State), labMtxRecord.gives (readRecord (own 0x1000) 64) bytes u ∧
    (wordAt bytes 0).setWidth 32 = wordOf (.mzero 7 0 0) ∧ isMtxWord (wordOf (.mzero 7 0 0)) = true ∧ wordAt bytes 3 = 0 ∧ wordAt bytes 4 = 0 ∧
    pushes u t (wordOf (.mzero 7 0 0)) 0 0 1 ∧ labMtxRecord.completes (.qpush 2 4) .seq (pushed t (wordOf (.mzero 7 0 0)) 0 0 1) :=
  by refine ⟨_, _, _, comes, ?_, ?_, ?_, ?_, And.intro (?_) (And.intro (?_) (And.intro (?_) (And.intro (?_) (And.intro comesAs (And.intro
    (?_) (?_)))))), runs⟩ <;> decide +kernel

/-- A command in q2 in a state; wt0 of eight planes, weight [0][0] = 3; the octet holds 2 in its lowest byte, the scales 1. -/
def labCommand (i : Instr) (st : MtxState) (mask : BitVec 32) : MtxJob :=
  { slot := 0, word := wordOf i, bval := 0, cval := 63, mask := mask, state := st, fresh := true, started := false, restart := none, prio := 0
    since := 0, seq := 0, narm := false, kptb := 0, level := .u, act := 2, joint := none }
def labMatrix (i : Instr) (st : MtxState) (mask : BitVec 32) : State := lab.modCore fun c => { c with mtx := [labCommand i st mask] }

theorem test_witness_matrix_start : (labMatrix (.mma 0 0 0 0 8 7 0 7) .waiting 0).mtxChoice (labMatrix (.mma 0 0 0 0 8 7 0 7) .waiting 0).core = some (labCommand (.mma 0 0 0 0 8 7 0 7) .waiting 0) ∧
    (labMatrix (.mma 0 0 0 0 8 7 0 7) .waiting 0).core.mtxRunning = none ∧ (labMatrix (.mma 0 0 0 0 8 7 0 7) .waiting 0).core.mtxStops = false ∧
    exec .matrixCommandStart (labMatrix (.mma 0 0 0 0 8 7 0 7) .waiting 0) = .next ((labMatrix (.mma 0 0 0 0 8 7 0 7) .waiting 0).modCore fun c =>
      c.startSlice (labCommand (.mma 0 0 0 0 8 7 0 7) .waiting 0) 0 (c.ctx.actOf (wordOf (.mma 0 0 0 0 8 7 0 7)))) :=
  ⟨by decide +kernel, by decide +kernel, by decide +kernel, runs⟩

def matrixEnds (i : Instr) (t : State) : State := (t.tagDone 0 (56 + (wordOf i).toNat / 8 % 8) false).modCore fun c => { c with
  mtx := []
  ctx := { c.ctx with mtmask := 0, q3 := putElement 7 c.ctx.q3 (BitVec.ofNat 64 ((wordOf i).toNat % 8 * 2 ^ 5 + (wordOf i).toNat / 8 % 8)) } }

theorem test_witness_matrix_complete : (labMatrix (.mma 0 0 0 0 8 7 0 7) .running 1).core.mtxRunning = some (labCommand (.mma 0 0 0 0 8 7 0 7) .running 1) ∧
    exec .matrixCommandComplete (labMatrix (.mma 0 0 0 0 8 7 0 7) .running 1) =
      .next (matrixEnds (.mma 0 0 0 0 8 7 0 7) (labMatrix (.mma 0 0 0 0 8 7 0 7) .running 1)) ∧
    exec .matrixCommandComplete (labMatrix (.mzero 7 0 0) .running 0) =
      .next (matrixEnds (.mzero 7 0 0) ((labMatrix (.mzero 7 0 0) .running 0).modCtx fun c => c.setAc 7 0)) ∧
    exec .matrixCommandComplete (labMatrix (.mstv 0 28 2 0 0) .running 0) =
      .next (matrixEnds (.mstv 0 28 2 0 0) ((labMatrix (.mstv 0 28 2 0 0) .running 0).modCtx fun c => c.setGroup 28 0 4)) :=
  ⟨by decide +kernel, runs, runs, runs⟩

theorem test_witness_micro_tile : (labMatrix (.mma 0 0 0 0 8 0 0 7) .running 0).core.mtxRunning = some (labCommand (.mma 0 0 0 0 8 0 0 7) .running 0) ∧
    goesOn .microTileComplete (labMatrix (.mma 0 0 0 0 8 0 0 7) .running 0) = true ∧
    (nextOf .microTileComplete (labMatrix (.mma 0 0 0 0 8 0 0 7) .running 0)).ctx.mtmask = 1 := by decide +kernel

/-- The bytes of a GRZG header: kind, matrix flag, rules, spine length, rows, columns, tables, body length and expanded length. -/
def labHeader (kind matrix rules spine rows cols rowOff body len crc : Nat) : List Byte :=
  leBytes 4 0x4D52475A ++ leBytes 1 kind ++ leBytes 1 1 ++ leBytes 2 matrix ++ leBytes 4 rules ++ leBytes 4 spine ++ leBytes 4 rows ++
    leBytes 4 cols ++ leBytes 4 0x40 ++ leBytes 4 (0x40 + 8 * rules) ++ leBytes 4 rowOff ++ leBytes 4 body ++ leBytes 8 len ++ leBytes 4 crc ++
    leBytes 12 0

/-- One rule, (3, 4), and the spine rule 0, 7: the sequence 3, 4, 7 of integers. -/
def labBody : List Byte := leBytes 4 3 ++ leBytes 4 4 ++ leBytes 4 0x80000000 ++ leBytes 4 7
def labObject : List Byte := labHeader 4 0 1 2 0 0 0 16 3 (crc32c labBody)
def labGrammar : Word := 0xB000_0000_0000_0000 ||| own 0x1000
def labSource : State := ((put lab (poolKey 0 0x1000) (labObject ++ labBody)).setX 1 labGrammar).setX 2 (own 0x7FF0)

theorem test_witness_rgopen : ∃ (bytes body : List Byte) (key : Nat) (t u v : State), labGrammar.toNat / 2 ^ 59 = 22 ∧
    labSource.gives (loadBytes labGrammar 64 64) bytes t ∧ headerOk (BitVec.ofNat 512 (leNat bytes)) = true ∧
    t.gives (loadBytes (ptrAt labGrammar 0x40) 16 1) body u ∧ bodyOk (BitVec.ofNat 512 (leNat bytes)) body = true ∧
    u.gives (ownKey .store (own 0x7FF0) 1 16) key v ∧ v.isScratch 0 7 = true ∧
    labSource.completes (.rgopen 1 2) .seq (v.modCtx fun c => { c with
      gptr := labGrammar, rrt := own 0x7FF0, ghdr := BitVec.ofNat 512 (leNat bytes), rprog := 0 }) :=
  ⟨_, _, _, _, _, _, by decide +kernel, comes, by decide +kernel, comes, by decide +kernel, comes, by decide +kernel, runs⟩

/-- The object bound, with the rule's record of length 2 and sum 7, under a descriptor. -/
def labBound (opd : Word) : State := (put labSource (poolKey 0 0x7FF0) (leBytes 4 2 ++ leBytes 4 7)).modCtx fun c => { c with
  gptr := labGrammar, rrt := own 0x7FF0, ghdr := BitVec.ofNat 512 (leNat labObject), opd := opd }
def labSum : State := labBound 0x4_0001
def withRange (s : State) (a b c : Word) : State := ((s.setX 5 a).setX 6 b).setX 7 c

theorem test_witness_rlift : opdReserved 0x4_0091 = false ∧ opdNotLiftable 0x4_0091 = false ∧ opdClash 0x4_0091 = false ∧
    (lab.setX 5 0x4_0091).completes (.rlift 5) .seq ((lab.setX 5 0x4_0091).modCtx fun c => { c with opd := 0x4_0091 }) :=
  ⟨by decide +kernel, by decide +kernel, by decide +kernel, runs⟩

def ruleDone (t : State) : State := t.modCore fun c => { c with ruleRun := none, ctx := { c.ctx with rprog := 0 } }

theorem test_witness_reval : ∃ (a r c : RuleRes) (t u v x y : State), opdTerm labSum.ctx.opd = hdrKind labSum.ctx.ghdr ∧
    (withRange labSum 1 0 0).completes (.reval 5 6) .seq (ruleDone (withRange labSum 1 0 0)) ∧
    (withRange labSum 0 1 0).gives (ruleAt 0) (3, 4) t ∧ t.gives (valueOf 0 3) a u ∧ u.gives (valueOf 0 4) r v ∧ v.gives (combine 0 a r) c x ∧
    c = { len := 2, s0 := 7, s1 := 0, s2 := 0 } ∧ x.gives (writeRes (recordPtr x.ctx 0) c) () y ∧
    (withRange labSum 0 1 0).completes (.reval 5 6) .seq (ruleDone y) :=
  ⟨{ len := 1, s0 := 3, s1 := 0, s2 := 0 }, { len := 1, s0 := 4, s1 := 0, s2 := 0 }, { len := 2, s0 := 7, s1 := 0, s2 := 0 }, _, _, _, _, _,
    by decide +kernel, runs, comesAs, comesAs, comesAs, comesAs, rfl, comesAs, runs⟩

theorem test_witness_rspine : ∃ (key k2 sym : Nat) (a : RuleRes) (t u v w x y : State),
    (withRange labSum (own 0) 2 2).gives (ownKey .store (own 0) 16 16) key t ∧ t.gives (writeRes (own 0) (emptyRes t.ctx.opd)) () u ∧
    (withRange labSum (own 0) 2 2).completes (.rspine 5 6 7) .seq (ruleDone u) ∧
    (withRange labSum (own 0) 0 1).gives (ownKey .store (own 0) 16 16) k2 v ∧ v.gives (spineAt 0) sym w ∧
    w.gives (valueOf (spineInfo 0) sym) a x ∧ x.gives (writeRes (own 0) a) () y ∧
    (withRange labSum (own 0) 0 1).completes (.rspine 5 6 7) .seq (ruleDone y) ∧ a.s0 = 7 :=
  ⟨_, _, _, { len := 2, s0 := 7, s1 := 0, s2 := 0 }, _, _, _, _, _, _, comes, comesAs, runs, comes, comes, comesAs, comesAs, runs, by decide +kernel⟩

theorem test_witness_rscan : ∃ (key : Nat) (run : RuleRun) (t u : State), (withRange labSum (own 0) 0 1).gives (ownKey .store (own 0) 1 16) key t ∧
    t.gives (rscanUnit true (own 0) 0 0 none) run u ∧ (withRange labSum (own 0) 0 1).completes (.rscan 5 6 7 true) .seq (ruleDone u) :=
  ⟨_, { acc := { len := 2, s0 := 7, s1 := 0, s2 := 0 }, record := none, pos := 2 }, _, _, comes, comesAs, runs⟩

/-- Element 1 is the terminal 4 inside rule 0; the fold up to it is 7. -/
theorem test_witness_rseek : ∃ (leaf r : RuleRes) (t u v x : State),
    (withRange labSum 0 1 0).gives (seekSpine 1 2 3 0 1 none) (none, 1, 0, 0x80000000) t ∧
    t.gives (seekDown 1 2 (spineInfo 0) 1 0x80000000 none) (some { len := 1, s0 := 3, s1 := 0, s2 := 0 }, 4, 0) u ∧
    u.gives (leafRes 0 4) leaf v ∧ v.gives (foldRes 0 (some { len := 1, s0 := 3, s1 := 0, s2 := 0 }) leaf) r x ∧
    (withRange labSum 0 1 0).completes (.rseek 8 6) .seq ((x.setX 8 4).setX 9 7) :=
  ⟨{ len := 1, s0 := 4, s1 := 0, s2 := 0 }, { len := 2, s0 := 7, s1 := 0, s2 := 0 }, _, _, _, _, comesAs, comesAs, comesAs, comesAs, runs⟩

theorem test_witness_rget : ∃ (key : Nat) (out : List Byte) (t u : State),
    (withRange labSum 0 0 0).gives (ownKey .load (ptrAt labSum.ctx.rrt 4) 4 4) key t ∧ t.gives (coreRead key 4) out u ∧
    (withRange labSum 0 0 0).completes (.rget 5 6 1) .seq (u.setX 5 7) :=
  ⟨_, _, _, _, comes, comes, runs⟩

/-- A matrix of one row, whose one column holds 1.0 in hf; x is 2.0 at 0x100, y at 0x200. -/
def labRow1 : List Byte := labHeader 5 1 0 1 1 1 0x44 12 1 0
def labMatrixRule : State := (put lab (poolKey 0 0x1000) (labRow1 ++ leBytes 4 0x3C00 ++ leBytes 4 0 ++ leBytes 4 1)).modCtx fun c => { c with
  gptr := labGrammar, rrt := own 0x7FF0, ghdr := BitVec.ofNat 512 (leNat labRow1), opd := 0x0000_0100_0005_000B }
def labProduct : State := withRange (put labMatrixRule (poolKey 0 0x100) (leBytes 4 0x40000000)) (own 0x200) (own 0x100) 0x1_0000_0000

theorem test_witness_rmv : ∃ (key k : Nat) (t u v : State), hdrMatrix labProduct.ctx.ghdr = true ∧ isColval (hdrKind labProduct.ctx.ghdr) = true ∧
    opdOp labProduct.ctx.opd 0 = 11 ∧ labProduct.gives (ownKey .store (own 0x200) 1 4) key t ∧ t.gives (ownKey .load (own 0x100) 1 4) k u ∧
    opdXoff labProduct.ctx.opd = 0x100 ∧ u.gives (rmvUnit (own 0x200) 0 0) () v ∧ labProduct.completes (.rmv 5 6 7) .seq (ruleDone v) ∧
    v.value (poolKey 0 0x200) 4 = 0x40000000 :=
  ⟨_, _, _, _, _, by decide +kernel, by decide +kernel, by decide +kernel, comes, comes, by decide +kernel, comesAs, runs, by decide +kernel⟩

/-- b1 and b2 of 64 bits with masks, and a select b3. -/
def labBits (m1 m2 m3 : Byte) : State := lab.modCtx fun c => ((c.setB 1 { bits := 0xC, len := 0, mask := m1 }).setB 2
  { bits := 0xA, len := 0, mask := m2 }).setB 3 { bits := 1, len := 0, mask := m3 }

theorem test_witness_combining : ∃ t u : State, (labBits 1 2 0x80).gives (countReads ([1, 2].map fun r => streamReads r ((labBits 1 2 0x80).ctx.getB r))) () t ∧
    (labBits 1 2 0x80).completes (.band 15 1 2 false) .seq (t.modCtx fun c => c.setB 15 { bits := 8, len := 0, mask := 3 }) ∧
    (labBits 1 2 0x80).completes (.bxnor 15 1 2 true) .seq (t.modCtx fun c => c.setB 15 { bits := 0xFFFF_FFFF_FFFF_FFF9, len := 0, mask := 3 }) ∧
    (labBits 1 2 0x80).gives (countReads ([1, 2, 3].map fun r => streamReads r ((labBits 1 2 0x80).ctx.getB r))) () u ∧
    (labBits 1 2 0x80).completes (.bmux 15 1 2 3 false) .seq (u.modCtx fun c => c.setB 15 { bits := 0xC, len := 0, mask := 0x83 }) :=
  ⟨_, _, comesAs, runs, runs, comesAs, runs⟩

theorem test_witness_correlation : (labBits 3 2 0).traps (.band 15 1 2 false) 17 0x203 0x2000 (labBits 3 2 0) ∧
    (labBits 1 1 1).traps (.bmux 15 1 2 3 false) 17 0x101 0x2000 (labBits 1 1 1) ∧ (labBits 3 2 0).resultsPending = false := ⟨runs, runs, by decide +kernel⟩

/-- A counter source, a stream of 0.5 from it, and the instructions of one register. -/
theorem test_witness_single_streams : ∃ t : State, sourceOk 0x0000_0000_FFFF_FFFF = true ∧
    (lab.setX 1 0xFFFF_FFFF).completes (.bsrc 7 1) .seq ((lab.setX 1 0xFFFF_FFFF).modCtx fun c => { c with src := c.src.set 7 0xFFFF_FFFF }) ∧
    (labLanes 0x3F00_0000 0 0).givesGroups [(1, 1)] [0x3F00_0000] t ∧
    (labLanes 0x3F00_0000 0 0).completes (.bgen 15 1 7 0) .seq (t.modCtx fun c => c.setB 15 { bits := 0xFFFF_FFFF, len := 0, mask := 0x80 }) ∧
    (labBits 1 2 0).completes (.bnot 15 1) .seq ((labBits 1 2 0).modCtx fun c => c.setB 15 { bits := 0xFFFF_FFFF_FFFF_FFF3, len := 0, mask := 1 }) ∧
    (labBits 1 2 0).completes (.bregen 15 1 7) .seq ((labBits 1 2 0).modCtx fun c => c.setB 15 { bits := 3, len := 0, mask := 0x80 }) ∧
    (labBits 1 2 0).completes (.bcnt 5 1) .seq ((labBits 1 2 0).setX 5 2) ∧ (labBits 1 2 0).completes (.bcls 5 2) .seq ((labBits 1 2 0).setX 5 2) ∧
    (labBits 1 2 0).completes (.bmov 15 2) .seq ((labBits 1 2 0).modCtx fun c => c.setB 15 { bits := 0xA, len := 0, mask := 2 }) :=
  ⟨_, by decide +kernel, runs, comesAs, runs, runs, runs, runs, runs, runs⟩

/-! ## Witnesses: contexts, launches, the distributor, the host and the boot -/

/-- Core 0 at K; for a switch to itself, with its workspace in granule 8 and no vector or bit-stream registers declared; with a store in flight; and
at the switch of its workspace to granule 9, which holds an image of zero bytes with a PPW. -/
def labK : State := labAt .k
def labKSmall : State := (labK.modCore fun c => { c with wp := 0x8000, kscr := 0x8000 }).modCtx fun c => { c with
  vregs := 0, bregs := 0, ppw := makePpw 8 1 9 0 0 8 0 0 }
def labKBusy : State := labKSmall.modCore fun c => { c with unack := 1 }

theorem test_witness_wswap : labKSmall.core.level ≠ .u ∧ labKSmall.core.hold ≠ .wswap ∧ labKSmall.selfSwitch = true ∧ labKSmall.resultsPending = false ∧
    labKSmall.incoming = some ({ labKSmall.ctx with pc := labKSmall.core.kretpc }, 0, 0x8000) ∧
    labKSmall.gives wswapChecks () labKSmall ∧ labKSmall.suspendIdle.mayLeave = true ∧
    exec .wswap labKSmall = .next (labKSmall.suspendIdle.switchContext (wordOf .wswap)) ∧
    labKBusy.gives wswapChecks () labKBusy ∧ labKBusy.suspendIdle.mayLeave = false ∧ labKBusy.waits .wswap .wswap labKBusy.suspendIdle :=
  ⟨by decide, by decide, by decide +kernel, by decide +kernel, by decide +kernel, comesTo, by decide +kernel, runs, comesTo, by decide +kernel, runs⟩

/-- Core 0's pool by its address, which the distributor may name. -/
def named (off : Nat) : Nat := 0x0080_0000_0000_0000 + off

/-- A launch parameter block: its image, count, first id, priority, gang width, flags, record and counter. -/
def labLpb (image count first gw flags record : Nat) : List Byte :=
  leBytes 8 image ++ leBytes 8 (named 0x4000) ++ leBytes 4 count ++ leBytes 4 first ++ leBytes 1 1 ++ leBytes 1 0 ++ leBytes 1 gw ++ leBytes 1 flags ++
    leBytes 36 0 ++ leBytes 8 record ++ leBytes 56 0

/-- A kernel header: one vector register, one granule of scratchpad, and an entry at 0x40. -/
def labKernel : List Byte := leBytes 3 0x494B5A ++ [1, 1, 0, 0, 0, 1, 0, 0, 0] ++ leBytes 4 0x40 ++ leBytes 4 0x44 ++ leBytes 44 0

def labAsk (lpb : List Byte) : Submission :=
  { core := 0, word := wordOf (.launch 31 1), rd := 31, lpb := BitVec.ofNat 1024 (leNat lpb), kptb := 0, lnum := 0 }
def labSubmitted (lpb : List Byte) : State :=
  ((put labK (poolKey 0 0x1000) labKernel).modDev fun d => { d with submits := [labAsk lpb] }).modCore fun c => { c with hold := .launch }

theorem test_witness_submit : ∃ (bytes : List Byte) (t : State), labK.core.level ≠ .u ∧ labK.submission labK.core.id = none ∧
    labK.releaseMet .dev = true ∧ labK.commPending labK.core.id = false ∧
    (labK.setX 1 (own 0x7F80)).gives (readRecord (own 0x7F80) 128) bytes t ∧
    (labK.setX 1 (own 0x7F80)).waits (.launch 31 1) .launch (t.modDev fun d => { d with submits := d.submits ++
      [{ core := t.core.id, word := wordOf (.launch 31 1), rd := 31, lpb := BitVec.ofNat 1024 (leNat bytes), kptb := t.core.kptb
         lnum := t.ctx.lnum }] }) :=
  ⟨_, _, by decide, by decide +kernel, by decide +kernel, by decide +kernel, comes, runs⟩

def labTaken (lpb : List Byte) : State := (labSubmitted lpb).modDev fun d => { d with submits := d.submits.filter fun x => x.core != 0 }
def labFresh (lpb : List Byte) : Launch := Launch.fresh 1 (labAsk lpb)
def kept (t : State) (l : Launch) : State := t.modDev fun d => { d with launches := d.launches ++ [l] }
def answered (s : State) (v : Word) (t : State) : Prop := exec .launchAcceptance s = .next (t.retired (.launch 31 1) .seq (t.setX 31 v))

/-- Gang width 0; partition refused by its width 48; ids beyond 2^24; an image that is no kernel; and one accepted. -/
def lpbWidth : List Byte := labLpb (named 0x1000) 1 0 0 0 (named 0x7F40)
def lpbPart : List Byte := labLpb (named 0x1000) 1 0 48 0 (named 0x7F40)
def lpbRange : List Byte := labLpb (named 0x1000) 1 0x1000000 1 0 (named 0x7F40)
def lpbImage : List Byte := labLpb (named 0x2000) 1 0 1 0 (named 0x7F40)
def lpbGood : List Byte := labLpb (named 0x1000) 1 0xFFFFFF 1 0 (named 0x7F40)

theorem test_witness_acceptance_asked : (labSubmitted lpbGood).submission 0 = some (labAsk lpbGood) ∧ (labSubmitted lpbGood).core.hold = .launch ∧
    decode (labAsk lpbGood).word = some (.launch 31 1) ∧ (labTaken lpbGood).freeNumber = some 1 ∧ (labFresh lpbGood).badLpb = false := by
  decide +kernel

theorem test_witness_refused_block : (labFresh lpbWidth).badLpb = true ∧ answered (labSubmitted lpbWidth) 0x8000_0000_0000_0001
    (kept (labTaken lpbWidth) ((labFresh lpbWidth).reject 1 labK.dev.time)) := ⟨by decide +kernel, runs⟩

theorem test_witness_refused_partition : ∃ (key : Nat) (t : State), (labFresh lpbPart).badLpb = false ∧ (labFresh lpbPart).recordPtr ≠ 0 ∧
    runChk (distKey (labFresh lpbPart).who .store (labFresh lpbPart).recordPtr 64) (labTaken lpbPart) = (.ok key, t) ∧
    t.badPartition (labFresh lpbPart) = true ∧
    answered (labSubmitted lpbPart) 0x8000_0000_0000_0002 (kept t ((labFresh lpbPart).reject 2 t.dev.time)) :=
  ⟨_, _, by decide +kernel, by decide +kernel, checks, by decide +kernel, runs⟩

theorem test_witness_refused_range : ∃ (key : Nat) (t : State), (labFresh lpbRange).badLpb = false ∧ (labFresh lpbRange).recordPtr ≠ 0 ∧
    runChk (distKey (labFresh lpbRange).who .store (labFresh lpbRange).recordPtr 64) (labTaken lpbRange) = (.ok key, t) ∧
    t.badPartition (labFresh lpbRange) = false ∧ 2 ^ 24 < (labFresh lpbRange).first + (labFresh lpbRange).count ∧
    answered (labSubmitted lpbRange) 0x8000_0000_0000_0003 (kept t ((labFresh lpbRange).reject 3 t.dev.time)) :=
  ⟨_, _, by decide +kernel, by decide +kernel, checks, by decide +kernel, by decide +kernel, runs⟩

theorem test_witness_refused_image : ∃ (key : Nat) (image : List Byte) (t u : State),
    runChk (distKey (labFresh lpbImage).who .store (labFresh lpbImage).recordPtr 64) (labTaken lpbImage) = (.ok key, t) ∧
    t.badPartition (labFresh lpbImage) = false ∧ (labFresh lpbImage).first + (labFresh lpbImage).count ≤ 2 ^ 24 ∧
    runChk (distRead (labFresh lpbImage).who (labFresh lpbImage).image 64 4096) t = (.ok image, u) ∧
    ({ labFresh lpbImage with hdr := BitVec.ofNat 512 (leNat image) } : Launch).badHeader = true ∧
    answered (labSubmitted lpbImage) 0x8000_0000_0000_0004
      (kept u ({ labFresh lpbImage with hdr := BitVec.ofNat 512 (leNat image) }.reject 4 u.dev.time)) :=
  ⟨_, _, _, _, checks, by decide +kernel, by decide +kernel, checks, by decide +kernel, runs⟩

theorem test_witness_accepted : ∃ (key : Nat) (image : List Byte) (t u : State),
    runChk (distKey (labFresh lpbGood).who .store (labFresh lpbGood).recordPtr 64) (labTaken lpbGood) = (.ok key, t) ∧
    t.badPartition (labFresh lpbGood) = false ∧ (labFresh lpbGood).first + (labFresh lpbGood).count = 2 ^ 24 ∧
    runChk (distRead (labFresh lpbGood).who (labFresh lpbGood).image 64 4096) t = (.ok image, u) ∧
    ({ labFresh lpbGood with hdr := BitVec.ofNat 512 (leNat image) } : Launch).badHeader = false ∧ (labFresh lpbGood).ev 0 = 0 ∧
    (labFresh lpbGood).ev 1 = 0 ∧ answered (labSubmitted lpbGood) 1 (kept u { labFresh lpbGood with
      hdr := BitVec.ofNat 512 (leNat image), ev0 := true, ev1 := true, state := .eligible, tElig := u.dev.cycles }) :=
  ⟨_, _, _, _, checks, by decide +kernel, by decide +kernel, checks, by decide +kernel, by decide +kernel, by decide +kernel, runs⟩

/-- A launch of number 1 with a header, in a state; it waits for the counter at 0x7F00 to reach 5 where ev says so. -/
def labLaunch (count flags ev : Nat) : Launch :=
  { Launch.fresh 1 (labAsk (labLpb (named 0x1000) count 3 1 flags (named 0x7F40))) with
    hdr := BitVec.ofNat 512 (leNat labKernel)
    lpb := BitVec.ofNat 1024 (leNat ((labLpb (named 0x1000) count 3 1 flags (named 0x7F40)).take 32 ++ leBytes 8 ev ++ leBytes 4 5 ++
      (labLpb (named 0x1000) count 3 1 flags (named 0x7F40)).drop 44)) }
def labWaiting (ev : Nat) (counter : List Byte) : State :=
  (put lab (poolKey 0 0x7F00) counter).modDev fun d => { d with launches := [labLaunch 1 0 ev] }
def ready (l : Launch) (now : Nat) : Launch := { l with ev0 := true, ev1 := true, state := .eligible, tElig := now }

theorem test_witness_wait_none : (labWaiting 0 []).launch? 1 = some (labLaunch 1 0 0) ∧ (labLaunch 1 0 0).state = .waiting ∧
    (labLaunch 1 0 0).ev 1 = 0 ∧ (labLaunch 1 0 0).ev 0 = 0 ∧ exec (.waitEventRead 1) (labWaiting 0 []) =
      .next ((labWaiting 0 []).modLaunch 1 fun _ => ready (labLaunch 1 0 0) 0) :=
  ⟨by decide +kernel, by decide +kernel, by decide +kernel, by decide +kernel, runs⟩

theorem test_witness_wait_poisoned : ∃ (key : Nat) (t : State), (labLaunch 1 0 (named 0x7F00)).ev 0 ≠ 0 ∧
    runChk (distKey (labLaunch 1 0 (named 0x7F00)).who .load ((labLaunch 1 0 (named 0x7F00)).ev 0) 8) (labWaiting (named 0x7F00) (leBytes 8 (2 ^ 63))) =
      (.ok key, t) ∧ t.value key 8 = 2 ^ 63 ∧ exec (.waitEventRead 1) (labWaiting (named 0x7F00) (leBytes 8 (2 ^ 63))) =
      .next (t.modLaunch 1 fun _ => (labLaunch 1 0 (named 0x7F00)).reject 6 t.dev.time) :=
  ⟨_, _, by decide +kernel, checks, by decide +kernel, runs⟩

theorem test_witness_wait_met : ∃ (key : Nat) (t : State),
    runChk (distKey (labLaunch 1 0 (named 0x7F00)).who .load ((labLaunch 1 0 (named 0x7F00)).ev 0) 8) (labWaiting (named 0x7F00) [5]) =
      (.ok key, t) ∧ t.value key 8 = 5 ∧ (labLaunch 1 0 (named 0x7F00)).target 0 = 5 ∧ exec (.waitEventRead 1) (labWaiting (named 0x7F00) [5]) =
      .next (t.modLaunch 1 fun _ => ready (labLaunch 1 0 (named 0x7F00)) t.dev.cycles) :=
  ⟨_, _, checks, by decide +kernel, by decide +kernel, runs⟩

theorem test_witness_wait_on : ∃ (key : Nat) (t : State),
    runChk (distKey (labLaunch 1 0 (named 0x7F00)).who .load ((labLaunch 1 0 (named 0x7F00)).ev 0) 8) (labWaiting (named 0x7F00) [4]) =
      (.ok key, t) ∧ t.value key 8 = 4 ∧ exec (.waitEventRead 1) (labWaiting (named 0x7F00) [4]) =
      .next (t.modLaunch 1 fun _ => { labLaunch 1 0 (named 0x7F00) with ev0 := false, ev1 := true }) :=
  ⟨_, _, checks, by decide +kernel, runs⟩

/-- An eligible launch in a state whose core 0 is free. -/
def labEligible (l : Launch) (r : Run) : State := (lab.modCore fun c => { c with run := r }).modDev fun d => { d with
  launches := [l], cycles := 70000 }
def labPlace : Launch := ready (labLaunch 1 0 0) 0

theorem test_witness_placement : (labEligible labPlace .free).part? 1 = some labPart ∧ (labEligible labPlace .free).dev.preempts = [] ∧
    (labEligible labPlace .free).ranked 1 = [labPlace] ∧ labPlace.restarts = [] ∧
    ((List.range (min labPlace.gw (labPlace.count - labPlace.nextUnit))).map fun k => labPlace.first + labPlace.nextUnit + k) = [3] ∧
    (labEligible labPlace .free).fitRun labPlace labPart 1 = some [0] ∧
    exec (.placementStep 1) (labEligible labPlace .free) = .next ((labEligible labPlace .free).placeGroup labPlace .start [0] [3]) :=
  by refine ⟨?_, ?_, ?_, ?_, ?_, ?_, runs⟩ <;> decide +kernel

theorem test_placed : (nextOf (.placementStep 1) (labEligible labPlace .free)).ctx.getX 4 = 3 ∧
    (nextOf (.placementStep 1) (labEligible labPlace .free)).core.run = .running := by decide +kernel

theorem test_witness_starvation : (labEligible { labPlace with noFit := some 4464 } .running).ranked 1 = [{ labPlace with noFit := some 4464 }] ∧
    exec (.starvationBound 1) (labEligible { labPlace with noFit := some 4464 } .running) =
      .next ((labEligible { labPlace with noFit := some 4464 } .running).modLaunch 1 fun k => { k with starved := true }) ∧
    exec (.starvationBound 1) (labEligible labPlace .running) = .next (labEligible labPlace .running) := ⟨by decide +kernel, runs, runs⟩

def labEnded : State := lab.modCore fun c => { c with run := .ended }

theorem test_witness_handoff : labEnded.unitBusy labEnded.core = false ∧ labEnded.dev.preempts = [] ∧
    (labEnded.countDone labEnded.core).ranked labEnded.core.part = [] ∧ labEnded.core.residents = [] ∧
    (labEnded.countDone labEnded.core).core = labEnded.core ∧
    exec .coreHandoff labEnded = .next ((labEnded.countDone labEnded.core).modCore fun c => { c with
      run := .free, hold := .none, issued := none, record := [], trapDue := none, frame := none, captured := [], ruleRun := none
      ctx := { c.ctx with ppw := 0, lnum := 0, gang := gangIndependent, rbuf := [], q1 := [], q3 := [], q5 := [], q6 := [], pieces := [] } }) :=
  ⟨by decide +kernel, by decide +kernel, by decide +kernel, by decide +kernel, by decide +kernel, runs⟩

/-- A launch of quiescence all of whose units are placed, before a sweep and in one. -/
def labQuiet (w : Option Sweep) : Launch := { ready (labLaunch 1 4 0) 0 with nextUnit := 1, sweep := w }
def labSweep (todo : List Nat) : Sweep := { todo := todo, idle := true, sent := 2, received := 1 }

theorem test_witness_quiescence : ∃ c : Core, (labQuiet none).quiet = true ∧ (labQuiet none).allPlaced = true ∧
    exec (.quiescenceSweep 1) (labEligible (labQuiet none) .running) = .next ((labEligible (labQuiet none) .running).modLaunch 1 fun k => { k with
      nextSweep := 71024, sweep := some { todo := [0, 1], idle := true, sent := 0, received := 0 } }) ∧
    (labEligible (labQuiet (some (labSweep [1]))) .running).coreById 1 = some c ∧
    exec (.quiescenceSweep 1) (labEligible (labQuiet (some (labSweep [1]))) .running) =
      .next ((labEligible (labQuiet (some (labSweep [1]))) .running).modLaunch 1 fun k => { k with
        sweep := some { todo := [], idle := true && (labEligible (labQuiet (some (labSweep [1]))) .running).idleOn c 1, sent := 2 + (c.countOf 1).1
                        received := 1 + (c.countOf 1).2 } }) ∧
    exec (.quiescenceSweep 1) (labEligible (labQuiet (some (labSweep []))) .running) =
      .next ((labEligible (labQuiet (some (labSweep []))) .running).modLaunch 1 fun k => { k with
        sweep := none, sweeps := k.sweeps + 1, lastSweep := none }) :=
  ⟨labCore 1 .u, by decide +kernel, by decide +kernel, runs, by decide +kernel, runs, runs⟩

theorem test_witness_completion : (labPlace.reject 4 0).ended = true ∧ (labEligible (labPlace.reject 4 0) .running).launch? 1 = some (labPlace.reject 4 0) ∧
    (∀ c ∈ (labEligible (labPlace.reject 4 0) .running).cores, (labEligible (labPlace.reject 4 0) .running).handsOff 1 c = false) ∧
    exec (.launchCompletion 1) (labEligible (labPlace.reject 4 0) .running) =
      .next ((((labEligible (labPlace.reject 4 0) .running).discardLaunch 1).signal (labPlace.reject 4 0)).modDev fun d => { d with
        launches := d.launches.filter fun k => k.lnum != 1 }) :=
  ⟨by decide +kernel, by decide +kernel, by decide +kernel, runs⟩

theorem test_witness_host : (0x1000 : BitVec 39).toNat + 8 ≤ localBytes ∧ lab.dev.badWord 0x1000 8 = none ∧
    exec (.hostBar2Access 0x1000 (.write [7])) lab = .next (lab.poke 0x1000 [7]) ∧
    exec (.hostBar2Access 0x1000 (.read 8)) lab = .next (lab.modDev fun d => { d with hostRead := lab.peek 0x1000 8 }) ∧
    exec (.pwrcap 299) lab = .next lab ∧ exec (.pwrcap 1501) lab = .next lab ∧ (nextOf (.pwrcap 300) lab).dev.pwrcap = 300 ∧
    goesOn (.pwrcap 1500) lab = true ∧ exec (.mgmtRegisterWrite 0x0008 287) lab = .next (lab.modDev fun d => { d with podidx := 287 }) ∧
    exec (.mgmtRegisterWrite 0x0058 1) lab = .next lab ∧ exec (.clockThrottle 1) lab = .next (lab.modDev fun d => { d with clock := min nominalClock 1 }) :=
  ⟨by decide +kernel, by decide +kernel, runs, runs, runs, runs, by decide +kernel, by decide +kernel, runs, runs, runs⟩

/-- A store on its way to a peer through port 0, which is down, and a load that waits for one. -/
def labStoreFlight : Flight := { id := 0, core := 0, lnum := 0, home := 2 ^ 51, op := .store [1], comm := false, append := false, rd := none, done := false, acked := false, old := 0
                                 merged := [] }
def labLoadOut : Outstanding := { word := some (wordOf (.ld 5 1 0)), home := 2 ^ 51, width := 8, value := none, failed := false }
def labPortDown : State := { (lab.modDev fun d => { d with flights := [labStoreFlight], portDown := 1 }).modCore fun c => { c with
  out := some labLoadOut, unack := 1 } with rest := [] }

theorem test_witness_port : labPortDown.dev.portDown.getLsbD (0 : BitVec 4).toNat = true ∧ throughPort 0 labStoreFlight.home = true ∧
    exec (.portFailTimeout 0) labPortDown = .next ((((labPortDown.modCore fun c => { c with out := some { labLoadOut with failed := true } }).modDev
      fun d => { d with flights := [] }).acknowledge 0).log 2 7 ((0 : BitVec 4).setWidth 52)) ∧
    lab.dev.portDown.getLsbD (15 : BitVec 4).toNat = false ∧ exec (.portFailTimeout 15) lab = .next lab :=
  ⟨by decide +kernel, by decide +kernel, runs, by decide +kernel, runs⟩

/-- A boot image with its signature found good, or not. -/
def labImage (ok : Bool) : BootImage := { digest := 5, verified := ok, entry := 0x1000, host := none }
def labGo : State := lab.modDev fun d => { d with goBit := true, bootState := 1 }

theorem test_witness_boot : goesOn (.powerOn (labImage true)) lab = true ∧ (nextOf (.powerOn (labImage true)) lab).dev.bootState = 1 ∧
    goesOn (.powerOn (labImage false)) lab = true ∧ (nextOf (.powerOn (labImage false)) lab).dev.bootState = 3 := by decide +kernel

theorem test_witness_partition_refused : lab.dev.goBit = false ∧ exec (.partitionBuild labPart) lab = .next lab := ⟨by decide +kernel, runs⟩

theorem test_witness_partition_built : labGo.dev.goBit = true ∧ labGo.dev.bootState = 1 ∧ labGo.partOk labPart = true ∧
    labGo.partBusy labPart.number = false ∧ (145, 0, 3, 1) ∈ partCores labPart ∧
    (((nextOf (.partitionBuild labPart) labGo).coreById 145).map fun c => (c.level, c.run, c.fvec, c.ctx.pc)) = some (.f, .running, 0x1000, 0x1000) := by
  decide +kernel

/-- An instruction of registers alone, on a core that is in no trap at F. -/
theorem test_witness_register_frame : registerTarget (.addi 1 1 5) = some 1 ∧ lab.core.fstatus.getLsbD 4 = false ∧ goesOn (.addi 1 1 5) lab = true ∧
    registerTarget (.mulhu 31 1 2) = some 31 ∧ addsPointer (.mulhu 31 1 2) = false ∧ goesOn (.mulhu 31 1 2) lab = true := by decide +kernel

/-! ## Witnesses: clauses beside the plain case -/

/-- An instruction that holds the core goes on with the word that was fetched; and the clauses of a core's turn beside it. -/
theorem test_witness_step_held : ∃ (s : State) (w : IWord) (i : Instr), s.agenda = [] ∧ s.core.run = .running ∧ s.core.out = none ∧
    s.core.trapDue = none ∧ s.takeable = none ∧ s.core.inStream = false ∧ s.core.hold ≠ .none ∧ s.core.issued = some w ∧ decode w = some i ∧
    s.interlocked i = false :=
  ⟨lab.modCore fun c => { c with hold := .retry, issued := some 0x7C00_000C }, 0x7C00_000C, .halt, by decide +kernel⟩

theorem test_witness_step_plain : lab.core.trapDue = none ∧ lab.core.hold = .none ∧ labStream.core.trapDue = none ∧ labStream.core.hold = .none ∧
    labMember.core.trapDue = none := by decide +kernel

theorem region_ne {a b : Region} (h : decide (a = b) = false) : ¬a = b := of_decide_eq_false h

/-- A store to the own pool by a core in no gang, with none of its accesses in flight, and one to device memory. -/
theorem test_witness_store_frame : ∃ (t u t' u' : State) (key key' : Nat), scalarStoreOf (.sd 2 1 0) = some (2, 1, 0, 8) ∧
    (labStore (own 0x7F78) lab).admits .store (own 0x7F78) 8 key t ∧ t.quantumOn key 8 = false ∧ key % 128 + 8 ≤ 128 ∧ t.memOk ∧
    exec (.sd 2 1 0) (labStore (own 0x7F78) lab) = .next u ∧ regionOf key = .pool t.core.id ∧ t.dev.cells = [] ∧ t.dev.flights = [] ∧
    t.core.link = none ∧ (labStore 0x4000 lab).admits .store 0x4000 8 key' t' ∧ regionOf key' ≠ .pool t'.core.id ∧ t'.memOk ∧
    exec (.sd 2 1 0) (labStore 0x4000 lab) = .next u' :=
  by refine ⟨_, _, _, _, _, _, by decide, checks, ?_, ?_, memOk_of (?_), next_of_goesOn (?_), ?_, ?_, ?_, ?_, checks, ?_, memOk_of (?_),
    next_of_goesOn (?_)⟩ <;> decide +kernel

/-! A page table whose root is at 2^20, with a table of each lower level a page further on; the last maps the page at 0x5000 of the address space. -/

/-- The entry of the walk's table of a level for address 0x5000. -/
def labPte (level e : Nat) (s : State) : State := put s (2 ^ 20 + 4096 * (3 - level) + (if level = 0 then 40 else 0)) (leBytes 8 e)
def labWalk (leaf : Nat) : State :=
  labPte 0 leaf (labPte 1 (2 ^ 20 + 0x3001) (labPte 2 (2 ^ 20 + 0x2001) (labPte 3 (2 ^ 20 + 0x1001)
    (lab.modCore fun c => { c with tlb := [], kptb := 256 }))))

/-- A leaf for the page at 0x7000, readable and writable at U; and a 1 GiB leaf. -/
def labLeaf : Nat := 0x7000 + 0x117
def labGiant : State := labPte 2 (2 ^ 30 + 0x117) (labWalk labLeaf)

/-- What a walk for address 0x5000 ends with: the fault, or where the translation puts it. -/
def walked (acc : Acc) (s : State) : (Nat × Word) ⊕ Nat :=
  match (runChk (pageWalk s.who acc 0x30 0x5000) s).1 with
  | .error f => .inl f
  | .ok e => .inr (e.pa + (0x5000 - e.base))

/-- Every way in which a walk ends, at a table and at a leaf. -/
theorem test_witness_walks : walked .load (labWalk labLeaf) = .inr 0x7000 ∧ walked .load labGiant = .inr (2 ^ 30 + 0x5000) ∧
    walked .load (labWalk 0) = .inl (5, 0x3000_0000_0000_5000) ∧ walked .store (labWalk (labLeaf + 0x400)) = .inl (6, 0x3020_0000_0000_5000) ∧
    walked .fetch (labWalk (labLeaf - 0x100)) = .inl (7, 0x3020_0000_0000_5000) ∧
    walked .rmw (labWalk (labLeaf + 0x200)) = .inl (6, 0x3020_0000_0000_5000) ∧
    walked .load (labPte 1 (0x7000 + 0x117) (labWalk labLeaf)) = .inl (5, 0x3060_0000_0000_5000) ∧
    walked .load (labPte 3 (2 ^ 39 + 1) (labWalk labLeaf)) = .inl (5, 0x30E0_0000_0000_5000) ∧
    walked .load (labPte 3 0x117 (labWalk labLeaf)) = .inl (5, 0x30E0_0000_0000_5000) ∧
    walked .load ((labWalk labLeaf).modCore fun c => { c with kptb := 2 ^ 27 }) = .inl (5, 0x30E0_0000_0000_5000) := by decide +kernel

/-- The state and the key or fault that a translation of the lab's address 0x5000 + off leaves. -/
def translated (acc : Acc) (off : Word) (s : State) : State := after (translate s.who acc (0x5000 + off)) s

/-- The walker sets A by a load and D too by a store, and the TLB serves the page after. -/
theorem test_walker_updates : (translated .load 0 (labWalk labLeaf)).value (2 ^ 20 + 0x3028) 8 = labLeaf + 0x40 ∧
    (translated .store 0 (labWalk labLeaf)).value (2 ^ 20 + 0x3028) 8 = labLeaf + 0xC0 ∧
    (((translated .load 0 (labWalk labLeaf)).tlbFind (labWalk labLeaf).who 0x5FFF false).map fun e => e.pa) = some 0x7000 ∧
    (translated .load 0 (labWalk labLeaf)).tlbFind (labWalk labLeaf).who 0x5000 true = none := by decide +kernel

/-- A translation that the TLB serves, with and without permission; a page fault; a physical address that names no byte; a mesh place that is none. -/
theorem test_witness_translations : ¬(lab.who.mgmt = true ∧ lab.who.kptb = 0) ∧ (lab.tlbFind lab.who 0x5000 false).isSome = true ∧
    (answer (translate lab.who .load 0x5000) lab).getLeft? = some 0x5000 ∧ permits 0x08 .u .load = false ∧ permits 0x01 .u .load = false ∧
    permits 0x09 .u .load = true ∧ permits 0x04 .k .fetch = true ∧ (labWalk 0).resultsPending = false ∧
    ((labWalk 0).setX 1 0x5000).traps (.ld 5 1 0) 5 0x5000 0x2000 (translated .load 0 ((labWalk 0).setX 1 0x5000)) ∧
    lab.meshKey lab.who (own 0x60000) 8 = none ∧ (lab.setX 1 (own 0x60000)).traps (.ld 5 1 0) 8 (own 0x60000) 0x2000 (lab.setX 1 (own 0x60000)) :=
  by refine ⟨?_, ?_, ?_, ?_, ?_, ?_, ?_, ?_, runs, ?_, runs⟩ <;> decide +kernel

/-- A leaf of the first page beyond the device's memory. -/
def labHole : Nat := 2 ^ 39 + 0x117

theorem runChk_ok {α : Type} {m : Chk α} {s t : State} {a : α} (h : m s = .ok a t) : runChk m s = (.ok a, t) := by
  unfold runChk
  rw [h]

theorem test_witness_no_byte : ∃ (pa : Nat) (t : State), runChk (translate (labWalk labHole).who .load 0x5008) ((labWalk labHole).setX 1 0x5000) =
      (.ok (.inl pa), t) ∧ t.dev.paKey pa = none ∧ t.resultsPending = false ∧
    ((labWalk labHole).setX 1 0x5000).traps (.ld 5 1 8) 8 0x5008 0x2000 t :=
  ⟨2 ^ 39 + 8, translated .load 8 ((labWalk labHole).setX 1 0x5000), runChk_ok (comesAs (by decide +kernel)), by decide +kernel, by decide +kernel, runs⟩

/-- A leader that traps is held at its instruction; the trap of a core that is in a trap at F already is fatal, and goes on. -/
theorem test_witness_trap_in_stream : labGang.core.inStream = true ∧ labGang.core.link = some labLink0 ∧
    ((labGang.modCore fun c => { c with fdeleg := 0xFFFF_FFFF }).takeTrap false 31 5 0x2000 (some 9)).core.heldAt =
      some { k := labGang.slotOf labLink0, pc := 0x2000, word := some 9, stream := true, depth := 0 } := by decide +kernel

theorem test_witness_fatal_trap : ((labAt .f).modCore fun c => { c with fstatus := 16 }).core.fstatus.getLsbD 4 = true ∧
    (((labAt .f).modCore fun c => { c with fstatus := 16 }).takeTrap false 31 5 0x2000 none).core.fcause = 31 ∧
    (((labAt .f).modCore fun c => { c with fstatus := 16 }).takeTrap false 31 5 0x2000 none).dev.tests.length = 1 := by decide +kernel

/-- An interrupt is not taken by a core that executes nothing, and at a member of a gang it is taken at the slot that is due. -/
theorem test_witness_interrupt_places : exec .takeInterrupt ((labInts .u 0x1F).modCore fun c => { c with run := .ended }) =
      .next ((labInts .u 0x1F).modCore fun c => { c with run := .ended }) ∧ (labInts .u 0x1F).core.link = none ∧
    (labInts .u 0x1F).atSlot = labInts .u 0x1F ∧ ((labInts .u 0x1D).core.faults.drop 1 = []) ∧
    (nextOf .takeInterrupt (labInts .u 0x1D)).core.kcause = 0x8000_0000_0000_0020 ∧
    (nextOf .takeInterrupt (labInts .u 0x1C)).core.kcause = 0x8000_0000_0000_0024 ∧
    (nextOf .takeInterrupt (labInts .u 0xC)).core.kcause = 0x8000_0000_0000_0022 := ⟨runs, by decide +kernel⟩

/-- A pc in mesh space, one that is not canonical, and a page that does not translate. -/
theorem test_witness_fetch_faults : exec .fetchFailure (lab.setPc 0x0080_0000_0000_0000) =
      .next ((lab.setPc 0x0080_0000_0000_0000).takeTrap false 8 0x0080_0000_0000_0000 0x0080_0000_0000_0000 none) ∧
    exec .fetchFailure (lab.setPc 0x0001_0000_0000_0000) =
      .next ((lab.setPc 0x0001_0000_0000_0000).takeTrap false 10 0x0001_0000_0000_0000 0x0001_0000_0000_0000 none) ∧
    (translated .fetch 0 (labWalk 0)).resultsPending = false ∧
    (runChk (translate (labWalk 0).who .fetch 0x5000) (labWalk 0)).1.toBool = false ∧
    exec .fetchFailure ((labWalk 0).setPc 0x5000) = .next ((translated .fetch 0 ((labWalk 0).setPc 0x5000)).takeTrap false 7 0x5000 0x5000 none) :=
  ⟨runs, runs, by decide +kernel, by decide +kernel, runs⟩

/-- The test at the head of the queue, of a unit of cluster 0 or of a part of the memory side. -/
def labTest (unit : BitVec 6) (side : Bool) : State := lab.modDev fun d => { d with tests := [{ unit := unit, place := 0, memSide := side }] }

/-- What a failed test of it fences: a core or a cluster's cores. -/
def fenced (unit : BitVec 6) (side : Bool) : List Nat := (nextOf (.selfTestComplete false) (labTest unit side)).dev.fencedCores

theorem test_witness_failed_tests : fenced 1 false = [0] ∧ fenced 2 false = clusterCores 0 ∧ fenced 3 false = clusterCores 0 ∧ fenced 5 false = clusterCores 0 ∧
    (nextOf (.selfTestComplete false) (labTest 2 false)).dev.fencedRows = [(0, 0)] ∧ fenced 3 true = [] ∧ fenced 4 false = [] ∧
    (nextOf (.selfTestComplete false) (labTest 4 false)).dev.errlog.length = 1 ∧
    (labTest 6 false).coreById (coordId 0) = some (labTest 6 false).core ∧ exec (.selfTestComplete true) (labTest 6 false) = .next (labTest 6 false) ∧
    ((labTest 6 false).fenceCore 0 5).dev.fencedCores = [0] :=
  by refine ⟨?_, ?_, ?_, ?_, ?_, ?_, ?_, ?_, ?_, runs, ?_⟩ <;> decide +kernel

/-- Core 1 names launch 9 in KCTXB, at device address 0x8000; its own context is of launch 0. The buffer holds n messages. -/
def labBuffer (lnum n : Nat) : State :=
  put (lab.modCoreId 1 fun c => { c with kctxb := BitVec.ofNat 64 (lnum * 2 ^ 52 + 0x8001) }) (0x8000 + 0x1600) (leBytes 8 n)
def labMsg (lnum : Nat) : Msg := { hdr := BitVec.ofNat 64 (lnum * 2 ^ 28), payload := 5 }

/-- A message for the context that executes, with and without its buffer; for a parked one, in its last slot; and a grant in each case. -/
theorem test_witness_deliveries : lab.deliver 0 1 (labMsg 0) = some (lab.modCtxId 1 fun c => { c with rbuf := c.rbuf ++ [labMsg 0] }) ∧
    (labBuffer 0 0).deliver 0 1 (labMsg 0) = some ((labBuffer 0 0).modCtxId 1 fun c => { c with rbuf := c.rbuf ++ [labMsg 0] }) ∧
    ((labBuffer 9 63).deliver 0 1 (labMsg 9)).map (fun t => t.value 0x9600 8) = some 64 ∧
    ((labBuffer 9 63).deliver 0 1 (labMsg 9)).map (fun t => t.value (0x8000 + 64 * 63) 64) = some 5 ∧
    lab.grantAt 1 0 = some false ∧ (labBuffer 9 31).grantAt 1 9 = some true ∧ (labBuffer 9 32).grantAt 1 9 = none ∧ lab.grantAt 1 9 = none ∧
    lab.dev.reservedAt 1 false = 0 := by decide +kernel

/-- The context in focus takes 1 of its 2 buffered messages, for its receive buffer holds 31; the other moves up. -/
def labReplay (held n : Nat) : State :=
  put (put ((lab.modCore fun c => { c with kctxb := 0x8001 }).modCtx fun c => { c with rbuf := List.replicate held (labMsg 0) })
    0x8000 (leBytes 64 7 ++ leBytes 64 8)) 0x9600 (leBytes 8 n)

theorem test_witness_replay : (labReplay 31 2).core.kctxb.getLsbD 0 = true ∧ ((labReplay 31 2).replayBuffer.ctx.rbuf.drop 31).map (fun m => m.payload) = [7] ∧
    (labReplay 31 2).replayBuffer.value 0x8000 64 = 8 ∧ (labReplay 31 2).replayBuffer.value 0x9600 8 = 1 ∧
    (labReplay 32 2).replayBuffer = labReplay 32 2 ∧ (labReplay 0 0).replayBuffer = labReplay 0 0 ∧
    lab.core.kctxb.getLsbD 0 = false ∧ lab.replayBuffer = lab ∧
    exec .contextBufferDrain ((labReplay 0 2).modCore fun c => { c with run := .ended }) =
      .next ((labReplay 0 2).modCore fun c => { c with run := .ended }) := by
  refine ⟨?_, ?_, ?_, ?_, ?_, ?_, ?_, ?_, runs⟩ <;> decide +kernel

/-- A quantum addition of 5 to the last doubleword of core 0's scratchpad, announced and due at its home. -/
def labQuantum : Bcast := { id := 0, core := 0, part := 1, lnum := 0, index := 0, op := .quantum (poolKey 0 0x7FF8) (.amo .add 5) 3, retired := 0
                            window := some 1, ordered := some 0, todo := [0] }
def labQuantums : State := (labAtom 0).modDev fun d => { d with bcasts := [labQuantum], window := 1 }

theorem test_witness_quantum_apply : labQuantums.dev.applications[0]? = some (labQuantum, 0) ∧ labQuantums.dev.earlierPending labQuantum 0 = false ∧
    exec (.broadcastApply 0) labQuantums = .next ((((labQuantums.poke (poolKey 0 0x7FF8) (leBytes 8 12))).modDev fun d => { d with
      bcasts := []
      flights := [{ id := 0, core := 0, lnum := 0, home := poolKey 0 0x7FF8, op := .amo .add 5, comm := false, append := false, rd := some 3, done := true
                    acked := false, old := 7, merged := [] }] }).acknowledge 0) := ⟨by decide +kernel, by decide +kernel, runs⟩

/-- The same atomics of other orders, with a store on its way, and with a result on its way. -/
def labAtomBusy (rd : Option Reg) : State := (labAtom 7).launchFlight 0x4000 (.amo .add 1) false false rd

theorem test_witness_ordered_atomics : ∃ (t u : State) (key : Nat), (labAtom 7).admits .rmw (own 0x7FF8) 8 key t ∧ t.reads key 8 u ∧
    (labAtom 7).completes (.amo .add (.acqrel .dev) 3 1 2) .seq (((u.poke key (leBytes 8 12)).modCtx fun c => { c with pieces := [] }).setX 3 7) ∧
    (labAtom 7).completes (.cas (.rel .dev) 3 1 2) .seq ((u.poke key (leBytes 8 5)).setX 3 7) ∧
    (labAtom 7).completes (.cas (.acq .dev) 3 1 2) .seq (((u.poke key (leBytes 8 5)).modCtx fun c => { c with pieces := [] }).setX 3 7) ∧
    (labAtom 7).completes (.cas (.acqrel .dev) 3 1 2) .seq (((u.poke key (leBytes 8 5)).modCtx fun c => { c with pieces := [] }).setX 3 7) ∧
    (labAtomBusy none).releaseMet .dev = false ∧ (labAtomBusy none).waits (.cas (.acqrel .dev) 3 1 2) .retry (labAtomBusy none) ∧
    (labAtomBusy (some 9)).resultsPending = true ∧ (labAtomBusy (some 9)).waits (.amo .add (.acq .dev) 3 1 2) .load
      (((labAtomBusy (some 9)).poke key (leBytes 8 12)).modCore fun c => { c with
        out := some { word := wordOf (.amo .add (.acq .dev) 3 1 2), home := key, width := 8, value := some 7, failed := false } }) :=
  ⟨_, _, poolKey 0 0x7FF8, runChk_ok comesAs, reads_of (by decide +kernel), runs, runs, runs, runs, by decide +kernel, runs, by decide +kernel, runs⟩

/-- The lab with its data at 0x4000 of device memory, behind a TLB entry; a core whose quantum atomic to the line is on its way. -/
def labSpec : State := (((put lab 0x4000 [7]).setX 1 0x4000).setX 2 5).setX 3 7
def labSpecBehind : State := labSpec.modDev fun d => { d with bcasts := [{ labQuantum with op := .quantum 0x4000 (.amo .add 5) 3 }] }

/-- A speculative atomic fails behind the core's own quantum atomic. -/
theorem test_witness_speculative : labSpecBehind.missesTlb 0x4000 = false ∧ labSpecBehind.quantumOn 0x4000 8 = true ∧
    labSpecBehind.completes (.amo .add (.relaxed .spec) 3 1 2) .seq ({ labSpecBehind with fresh := labSpecBehind.fresh + 1 }.setX 3 0) ∧
    labSpecBehind.completes (.cas (.relaxed .spec) 3 1 2) .seq ({ labSpecBehind with fresh := labSpecBehind.fresh + 1 }.setX 3 0) :=
  ⟨by decide +kernel, by decide +kernel, runs, runs⟩

/-- Where it is not declined, a free choice, it reads the line and is performed. -/
theorem test_witness_speculative_read : ∃ (t u : State), labSpec.admits .rmw 0x4000 8 0x4000 t ∧ labSpec.missesTlb 0x4000 = false ∧
    t.quantumOn 0x4000 8 = false ∧ ({ t with fresh := t.fresh + 1 } : State).reads 0x4000 8 u :=
  ⟨_, _, runChk_ok comesAs, by decide +kernel, by decide +kernel, reads_of (by decide +kernel)⟩

/-- It misses: it starts a walk, or takes the fault that an earlier walk of the address space kept for the page. -/
def labMiss : State := ((labWalk 0).setX 1 0x5000)
def labFaultKept : State := labMiss.modCore fun c => { c with specFault := [{ kptb := 256, page := 5, cause := 6, info := 0x5000 }] }

theorem test_witness_speculative_miss : labMiss.missesTlb 0x5000 = true ∧ labMiss.core.specFault = [] ∧
    labMiss.completes (.cas (.relaxed .spec) 3 1 2) .seq ((labMiss.endSpecWalk.modCore fun c => { c with specWalk := some (256, 0x5000) }).setX 3 0) ∧
    labFaultKept.resultsPending = false ∧
    labFaultKept.traps (.amo .max (.relaxed .spec) 3 1 2) 6 0x5000 0x2000 (labFaultKept.modCore fun c => { c with specFault := [] }) ∧
    (labFaultKept.modCore fun c => { c with kptb := 257 }).completes (.amo .max (.relaxed .spec) 3 1 2) .seq
      (((labFaultKept.modCore fun c => { c with kptb := 257 }).modCore fun c => { c with specWalk := some (257, 0x5000) }).setX 3 0) :=
  ⟨by decide +kernel, by decide +kernel, runs, by decide +kernel, runs, runs⟩

/-- A walk that is under way ends: with a translation, with a page fault that is kept, and with another failure. -/
def labWalking (leaf : Nat) : State := (labWalk leaf).modCore fun c => { c with specWalk := some (256, 0x5000) }
def labBadTable : State := (labWalking labLeaf).modDev fun d => { d with bad := [2 ^ 17] }

theorem test_witness_walk_ends : exec .pageWalk lab = .next lab ∧ goesOn .pageWalk (labWalking labLeaf) = true ∧
    ((nextOf .pageWalk (labWalking labLeaf)).core.tlb.head?.map fun e => e.pa) = some 0x7000 ∧ goesOn .pageWalk (labWalking 0) = true ∧
    (nextOf .pageWalk (labWalking 0)).core.specFault = [{ kptb := 256, page := 5, cause := 6, info := 0x5000 }] ∧
    goesOn .pageWalk labBadTable = true ∧ (nextOf .pageWalk labBadTable).core.specFault = [] :=
  ⟨runs, by decide +kernel⟩

/-- Two stores of core 0 to one line, and one to the host that stands behind none; what is performed at a home. -/
def labOrdered : State := ((lab.launchFlight 0x4000 (.store [1]) false false none).launchFlight 0x4008 (.store [2]) false false none).launchFlight
  (2 ^ 50) (.store [3]) false false none

theorem test_witness_flight_order : (labOrdered.dev.flights[1]?.map labOrdered.dev.behind) = some true ∧
    exec (.homePerformAccess 1) labOrdered = .next labOrdered ∧ goesOn (.homePerformAccess 0) labOrdered = true ∧
    (nextOf (.homePerformAccess 0) labOrdered).byte 0x4000 = 1 ∧
    exec (.storeAck 2) labOrdered = .next ((labOrdered.modDev fun d => { d with
      flights := (d.flights.drop 2).map (fun f => { f with acked := true }) ++ d.flights.take 2 }).acknowledge 0) := by
  refine ⟨?_, runs, ?_, ?_, runs⟩ <;> decide +kernel

theorem test_witness_home_operations : lab.dev.bad = [] ∧ lab.dev.cells = [] ∧ (labAtom 7).dev.badWord (poolKey 0 0x7FF8) 8 = none ∧
    (labAtom 7).performOp (poolKey 0 0x7FF8) (.cas 6 5) = (7, labAtom 7) ∧
    ((labOwnCell 9 7 0).performOp (poolKey 0 0x7FC0) (.crcl 8)).2.value (poolKey 0 0x7FE8) 8 = 9 ∧
    ((labOwnCell 9 7 0).performOp (poolKey 0 0x7FC0) (.crcl 20)).2.value (poolKey 0 0x7FE8) 8 = 10 ∧
    ((labOwnCell 9 7 0).performOp (poolKey 0 0x7FC0) (.crcl 5)).2.value (poolKey 0 0x7FE8) 8 = 7 := by decide +kernel

/-- Chunks that end otherwise: a source page that does not translate, uncorrectable data, and an arrival counter that is uncorrectable. -/
def labFar : DmaCmd := { labCopy with src := 0x4000_5000 }
def labFarJob : DmaJob := { labJob labFar 0 .idle none [] with kptb := 256 }
def labFarWork (bad : List Nat) : State := (put (labWork labFarJob) (2 ^ 20) []).modDev fun d => { d with bad := bad }
def labSpoilt : State := (labWork (labJob labCopy 0 .idle none [])).modDev fun d => { d with bad := [poolKey 0 0x7FC0 / 8] }
def labArrive : DmaJob := labJob { labCopy with ctl := 256 + 63, arrive := own 0x4000 } 1 .idle none []
def labArriveBad : State := (labWork labArrive).modDev fun d => { d with bad := [poolKey 0 0x4000 / 8] }

/-- How a part of an engine's work ends: well, by a fault, or by uncorrectable data. -/
def engEnds {α : Type} (m : Eng α) (s : State) : Option EngErr :=
  match m s with
  | .ok _ _ => none
  | .error e _ => some e

theorem test_witness_dma_stops : engEnds (readChunk (labFarJob.party 0) labFarJob) (labFarWork []) = some (.fault 5 0x4000_5000) ∧
    (labFarWork []).dmaJob 63 = some labFarJob ∧ (labFarWork []).dmaMayRun labFarJob = true ∧
    (nextOf (.dmaByteCopy 63) (labFarWork [])).core.dma = [] ∧
    engEnds (readChunk (labChunk.party 0) (labJob labCopy 0 .idle none [])) labSpoilt = some .ecc ∧
    ((nextOf (.dmaByteCopy 63) labSpoilt).dmaJob 63).map (fun j => j.stage) = some (.read [] 4 0) ∧
    engEnds (dmaArrival (labArrive.party 0) labArrive) labArriveBad = some .ecc ∧ labArriveBad.dmaMayRun labArrive = true ∧
    (nextOf (.dmaCommandComplete 63) labArriveBad).ctx.q1 = [0x1_043F] ∧ (nextOf (.dmaCommandComplete 63) labArriveBad).ctx.tagerr = 2 ^ 63 := by
  decide +kernel

/-- Its record, in an area at 0x2000 of device memory, and the fault it leaves there. -/
def labArea : State := (labWork labFarJob).modCore fun c => { c with kefr := 0x2001 }

theorem test_witness_dma_record : labArea.core.recordArea = some 0x2000 ∧ labArea.dev.bad = [] ∧ labArea.dev.cells = [] ∧
    (labArea.stopDma labFarJob 2 5 0x5000).value (0x2000 + 64 * 63 + 48) 8 = 2 * 2 ^ 40 + 5 * 2 ^ 32 ∧
    (labArea.stopDma labFarJob 2 5 0x5000).core.faults = [(0, 63)] ∧ (labArea.stopDma labFarJob 2 5 0x5000).core.kip.getLsbD 0 = true := by
  decide +kernel

/-! Blocks of sixteen elements: two planes, the scale 1 in bf, and codes -2 and 1 in elements 0 and 1. -/

def labBlk : List Byte := [0x80, 0x3F, 0, 0, 0, 0, 0, 0, 1, 0, 2, 0]
def labPlaneVec (fmt : Nat) : State :=
  ((put lab (poolKey 0 0x1000) labBlk).setX 1 (BitVec.ofNat 64 (fmt * 2 ^ 59) ||| own 0x1000)).modCtx fun c => c.setV 31 0x3F80_0000

/-- All planes of a block read -2, 1 and 0; the top plane alone the middle of each half; NaR in narrow mode. -/
theorem test_witness_plane_codes : planeCode labBlk 2 16 0 = -2 ∧ planeCode labBlk 2 16 1 = 1 ∧ readPlanes (-2) 2 2 false = some (-2) ∧
    readPlanes (-2) 2 1 false = some (-1) ∧ readPlanes 1 2 1 false = some 1 ∧ readPlanes (-2) 2 2 true = none ∧ readPlanes (-8) 4 2 true = none ∧
    readPlanes (-7) 4 2 true = some (-2) ∧ readPlanes 1 2 1 true = readPlanes 1 2 2 true ∧
    planeLane labBlk 2 16 2 false 0 = (0xC000_0000, 0) ∧ planeLane labBlk 2 16 2 true 0 = (0x7FC0_0000, 0) := by decide +kernel

theorem test_witness_encode_block : encodeBlock ((List.range 16).map fun i => if i = 0 then .fin true 1 1 else if i = 1 then .fin false 1 0 else .fin false 0 0) 3 false =
      [0x2B, 0x3F, 0, 0, 0, 0, 0, 0, 1, 0, 0, 0, 3, 0, 0, 0] ∧ planeCode [0x2B, 0x3F, 0, 0, 0, 0, 0, 0, 1, 0, 0, 0, 3, 0, 0, 0] 3 16 0 = -3 := by
  decide +kernel

/-- The plane load's and the plane store's blocks, their checks, and the traps of a store of other planes and of fewer lanes than a block. -/
theorem test_witness_plane_memory : ∃ (ps : List Word) (keys : List (List (Nat × Nat))) (blocks : List (List Byte)) (t u x : State),
    (labPlaneVec 10).gives (blockPointers ((labPlaneVec 10).ctx.getX 1) 2 16 0 16) ps t ∧ t.gives (checkAll .load ps 12 8) keys u ∧
    u.gives (keys.mapM fun ks => fetchBlock ks 2 16 2 false) blocks x ∧ (labPlaneVec 10).completes (.vld .w1 31 1 0 .stored) .seq
      ((after (writeGroup 31 1 0x3F80_0000_C000_0000) x).modCtx fun c => { c with fstat := c.fstat ||| 0 }) :=
  ⟨_, _, _, _, _, _, comes, comes, comes, runs⟩

theorem test_witness_plane_store : goesOn (.vst .w1 31 1 0 .stored) (labPlaneVec 10) = true ∧
    (nextOf (.vst .w1 31 1 0 .stored) (labPlaneVec 10)).value (poolKey 0 0x1000) 16 = 0x0001_0000_0000_0000_0000_3F80 ∧
    (labPlaneVec 10).traps (.vst .w1 31 1 0 (.planes 0)) 23 ((labPlaneVec 10).ctx.getX 1) 0x2000 (labPlaneVec 10) ∧
    ((labPlaneVec 10).setX 1 (0x5100_0000_0000_0000 ||| own 0x1000)).traps (.vst .w1 31 1 0 .stored) 23 (0x5100_0000_0000_0000 ||| own 0x1000) 0x2000
      ((labPlaneVec 10).setX 1 (0x5100_0000_0000_0000 ||| own 0x1000)) := ⟨by decide +kernel, by decide +kernel, runs, runs⟩

/-- The directed modes at the largest value, above it, and below the least. -/
theorem test_witness_directed : fmtHF.round .rtz false 4095 4 false = (0x7BFF, 1) ∧ fmtHF.round .rtz false 1 16 false = (0x7BFF, 5) ∧
    fmtHF.round .rup false 2047 5 false = (0x7BFF, 0) ∧ fmtHF.round .rup false 4095 4 false = (0x7C00, 5) ∧
    fmtHF.round .rdn false 4095 4 false = (0x7BFF, 1) ∧ fmtHF.round .rdn true 1 (-30) false = (0x8001, 3) ∧
    fmtHF.round .rup true 1 (-30) false = (0x8000, 3) := by decide +kernel

/-! Streams, frames and gangs: what traps. -/

/-- A fibre on an odd descriptor, one whose partner is open, a kind that the format does not fit; and a fibre opened over itself, which traps too. -/
theorem test_witness_sopen_traps : (labOpen 9).traps (.sopen 3 1 2 .list 3) 2 (BitVec.ofNat 64 (wordOf (.sopen 3 1 2 .list 3)).toNat) 0x2000 (labOpen 9) ∧
    (labLine 1).traps (.sopen 0 1 2 .list 3) 2 (BitVec.ofNat 64 (wordOf (.sopen 0 1 2 .list 3)).toNat) 0x2000 (labLine 1) ∧
    kindAccepts .denseRead 17 = false ∧ (labOpen 17).traps (.sopen 0 1 2 .denseRead 0) 23 ((labOpen 17).ctx.getX 1) 0x2000 (labOpen 17) := ⟨runs, runs, by decide +kernel, runs⟩

/-- A dense read opened over the odd descriptor of a fibre takes it; over itself it is closed first. -/
theorem test_witness_sopen_over : ¬(((labLine 1).ctx.getSd 1).bound = true ∧ ¬((1 : Nat) % 2 = 1 ∧ ((labLine 1).ctx.getSd 1).kind.isFibre = true)) ∧
    goesOn (.sopen 1 1 2 .denseRead 0) ((labLine 1).setX 1 (0x4800_0000_0000_0000 ||| own 0)) = true ∧
    ((nextOf (.sopen 1 1 2 .denseRead 0) ((labLine 1).setX 1 (0x4800_0000_0000_0000 ||| own 0))).ctx.getSd 1).kind = .denseRead ∧
    goesOn (.sopen 0 1 2 .denseRead 0) ((labDense .denseRead 1 2).setX 1 (0x4800_0000_0000_0000 ||| own 0)) = true ∧
    ((nextOf (.sopen 0 1 2 .denseRead 0) ((labDense .denseRead 1 2).setX 1 (0x4800_0000_0000_0000 ||| own 0))).ctx.getSd 0).pos = 0 := by
  decide +kernel

/-- The second input's coordinates fall from 7 to 6. -/
def labFalls : State := put labMerge (poolKey 0 0x108) [6]

theorem test_witness_fibre_order : (nextOf (.smerge 0 true) labFalls).core.fcause = 18 ∧ (nextOf (.smerge 0 true) labFalls).core.finfo = 0x1_0000_0002 := by
  decide +kernel

/-- A frame of a word outside the capture set, and one whose second replay has a register beyond 31. -/
def labFrameOf (w : IWord) : State := (put lab 0x2004 (leBytes 4 w.toNat)).setX 7 2

theorem test_witness_frame_illegal : isCaptured (wordOf .halt) = false ∧
    (labFrameOf (wordOf .halt)).traps (.repf 0 false 7 1 0) 20 0 0x2000 ((after (captureWords 1) (labFrameOf (wordOf .halt))).modCore fun c => { c with frame := none }) ∧
    staggered 0b000001_11111_00001_00010_00_000000000 4 1 1 = none ∧
    (nextOf (.repf 0 false 7 1 4) (labFrameOf 0b000001_11111_00001_00010_00_000000000)).core.finfo = 0x8000_0000_0000_0001 ∧
    (nextOf (.repf 0 false 7 1 4) (labFrameOf 0b000001_11111_00001_00010_00_000000000)).core.fretpc = 0x2008 :=
  ⟨by decide +kernel, runs, by decide +kernel, by decide +kernel, by decide +kernel⟩


/-- A member of a gang that is held at its stream's instruction. -/
def labHeldMember : State := labAttached.modCore fun c => { c with heldAt := some { k := 0, pc := 0x2000, word := none, stream := true, depth := 0 } }
def gangTrap (n : Nat) (i : Instr) (x : Word) (s : State) : Prop :=
  s.traps i 21 (x ||| BitVec.ofNat 64 (n * 2 ^ 56)) 0x2000 s

theorem test_witness_gang_held : labHeldMember.resultsPending = false ∧ gangTrap 7 (.gform 1) 0 labHeldMember ∧ gangTrap 7 (.gleave 1) 0 labHeldMember ∧
    gangTrap 7 .gsplit 0 labHeldMember ∧ gangTrap 7 .gbar 0 labHeldMember ∧ gangTrap 7 (.xsh .w1 2 1 false) 0 labHeldMember :=
  ⟨by decide +kernel, runs, runs, runs, runs, runs⟩

/-- A request in a gang, malformed ones, a range that is not there, one in conflict; GATT out of a gang, and when its gang was dissolved; GLEAVE. -/
theorem test_witness_gang_traps : gangTrap 1 (.gform 1) 0 labAttached ∧ gangTrap 2 (.gform 1) 0 lab ∧
    gangTrap 2 (.gjoin 1) 0x1_0001 (lab.setX 1 0x1_0001) ∧ (lab.setX 1 5).rangeOf 5 = none ∧ gangTrap 3 (.gform 1) 5 (lab.setX 1 5) ∧
    (labForm false).rangeOf 2 = some [0, 1] ∧ ((labForm false).modCoreId 1 fun c => { c with hold := .gjoin 8 }).rangeCore 7 0 1 = .conflict ∧
    gangTrap 4 (.gform 1) 0x7_0002 ((labForm false).modCoreId 1 fun c => { c with hold := .gjoin 8 }) ∧ gangTrap 8 (.gatt 5) 0 lab ∧
    gangTrap 5 (.gatt 5) 0 (lab.modCore fun c => { c with hold := .gatt 5 }) ∧ gangTrap 6 (.gleave 1) 0 (labGang.setX 1 1) :=
  ⟨runs, runs, runs, by decide +kernel, runs, by decide +kernel, by decide +kernel, runs, runs, runs, runs⟩

theorem test_witness_shift_traps : gangTrap 11 (.xwrap .w1 2 1 false) 0 lab ∧ gangTrap 12 (.xsh .w1 2 1 true) 0 labDetached ∧
    labDetached.core.heldAt = none ∧ labArriving.focus 0 = some labArriving ∧
    (∃ u, (labArriving.modGang 0 fun g => { g with due := [] }).takesGroup 31 1 6 u) ∧
    exec (.xshArrival 0) (labArriving.modGang 0 fun g => g.modMember 0 fun m => { m with state := .gone }) =
      .next ((labArriving.modGang 0 fun g => g.modMember 0 fun m => { m with state := .gone }).modGang 0 fun g => { g with due := [] }) :=
  ⟨runs, runs, by decide +kernel, by decide +kernel, ⟨_, comes⟩, runs⟩

/-- One slot of a replay runs the word's body, and the frame goes on behind it; behind the last slot comes the next replay, and behind the last
replay nothing. -/
theorem test_witness_frame_from : staggered 0x0421_1000 0 1 0 = some 0x0421_1000 ∧ decode 0x0421_1000 = some (.add 1 1 2) ∧
    capturedBody (.add 1 1 2) = some (bodyAdd 1 1 2) ∧ (labFrame 2).gives (bodyAdd 1 1 2) () ((labFrame 2).setX 1 3) ∧
    (labFrame 2).interlocked (.add 1 1 2) = false ∧
    (labFrame 2).gives (frameFrom [0x0421_1000] 0 1 0x200C 1 2 0 0) () ((labFrame 2).setX 1 3) ∧
    (labFrame 2).gives (frameFrom [0x0421_1000] 0 1 0x200C 1 1 1 0) () (labFrame 2) :=
  ⟨by decide +kernel, by decide +kernel, rfl, comesTo, by decide +kernel, comesTo, comesTo⟩

/-! Switches of context: core 0's other context has its workspace in granule 9 and no registers declared. -/

def labOther (mode : Nat) : Ctx := { labKSmall.ctx with ppw := makePpw 9 1 10 0 0 8 0 0, pc := 0x2400, wuid := 77, gang := BitVec.ofNat 24 (mode * 2 ^ 12 + 0x40) }
def labBeside : Resident := { wp := 0x9000, ppw := (labOther 0).ppw, vregs := 0, bregs := 0, lnum := 0, wuid := 77, kptb := 0, parked := true
                              shadow := false, idle := false }
/-- Core 0 at K, about to switch to that context by a KSCR, its image written; or with no image there. -/
def labSwitch (mode : Nat) (kscr : Word) : State := (labKSmall.writeBack 0 0x9000 (labOther mode) 1).modCore fun c => { c with
  kscr := kscr, residents := [labBeside], kretpc := 0x2004, banksel := 5 }
def labNoImage : State := labKSmall.modCore fun c => { c with kscr := 0x9000, residents := [labBeside] }

theorem test_witness_wswap_traps : (labSwitch 0 0x9000).resultsPending = false ∧ (labSwitch 0 0x9000).selfSwitch = false ∧
    (labSwitch 0 0x9000).incoming.isSome = true ∧ labNoImage.traps .wswap 8 0 0x2000 labNoImage ∧
    (labSwitch 2 0x9000).traps .wswap 21 0x0A00_0000_0000_0000 0x2000 (labSwitch 2 0x9000) ∧
    ((labSwitch 0 0x9000).modCtx fun c => { c with rbuf := [labMsg 0] }).movesEntries = true ∧
    ((labSwitch 0 0x9000).modCtx fun c => { c with rbuf := [labMsg 0] }).traps .wswap 8 0 0x2000 ((labSwitch 0 0x9000).modCtx fun c => { c with rbuf := [labMsg 0] }) ∧
    (∃ t, (labSwitch 0 0x9000).gives wswapChecks () t) :=
  ⟨by decide +kernel, by decide +kernel, by decide +kernel, runs, runs, by decide +kernel, runs, ⟨_, comesAs⟩⟩

/-- The switch with the outgoing context parked in its image, dropped, and in the shadow slot; and one that has waited. -/
theorem test_witness_wswap_parks : (labSwitch 0 0x9000).ctx.gangMode = 0 ∧ (labSwitch 0 0x9000).movesEntries = false ∧
    ((labSwitch 0 0x2000_0000_0000_9000).switchContext 0).ctx.wuid = 77 ∧ ((labSwitch 0 0x9000).switchContext 0).core.residents.map (fun r => r.wp) = [0x8000] ∧
    ((labSwitch 0 0x2000_0000_0000_9000).switchContext 0).core.residents = [] ∧
    ((labSwitch 0 0xC000_0000_0000_9000).switchContext 0).core.residents.map (fun r => r.shadow) = [true] ∧
    ((labSwitch 0 0xC000_0000_0000_9000).switchContext 0).core.shadow.map (fun i => i.wp) = some 0x8000 := by decide +kernel

theorem test_witness_wswap_waited : ((labSwitch 0 0x9000).modCore fun c => { c with hold := .wswap }).suspendIdle.mayLeave = true ∧
    exec .wswap ((labSwitch 0 0x9000).modCore fun c => { c with hold := .wswap }) =
      .next (((labSwitch 0 0x9000).modCore fun c => { c with hold := .wswap }).switchContext (wordOf .wswap)) ∧
    (labKBusy.modCore fun c => { c with hold := .wswap }).waits .wswap .wswap (labKBusy.modCore fun c => { c with hold := .wswap }) :=
  ⟨by decide +kernel, rfl, runs⟩

/-- An image reads back, at the greatest and the least declared counts; a unit placed beside starts with BANKSEL 0. -/
theorem test_witness_image : ppwWellFormed (labOther 0).ppw = true ∧ workspaceFits (labOther 0).ppw 0x9000 0 0 = true ∧ (labOther 0).mtxSaved.length ≤ 31 ∧
    ((labSwitch 0 0).readImage 0 0x9000 0 0 0).1.wuid = 77 ∧ ((labSwitch 0 0).readImage 0 0x9000 0 0 0).2 = 1 ∧
    ((labSwitch 0 0x9000).modCore fun c => { c with residents := [{ labBeside with parked := false }] }).residentAt 0x9000 =
      some { labBeside with parked := false } ∧
    ((((labSwitch 0 0x9000).modCore fun c => { c with residents := [{ labBeside with parked := false }] }).activate (labOther 0) 1 0x9000 false).core.banksel = 0) ∧
    ((labSwitch 0 0x9000).activate (labOther 0) 1 0x9000 false).core.banksel = 5 := by decide +kernel

/-! The matrix engine: a command by its instruction, pointer and descriptor. -/

def labMtx (i : Instr) (bval cval : Word) (mask : BitVec 32) : MtxJob := { labCommand i .running mask with bval := bval, cval := cval }
def labMtxAt (i : Instr) (bval cval : Word) (mask : BitVec 32) : State := lab.modCore fun c => { c with mtx := [labMtx i bval cval mask] }

/-- The state and the mark of the command that completes in the lab's core. -/
def elementOf (s : State) : List Word := (nextOf .matrixCommandComplete s).ctx.q3

def labMldw : Instr := .mldw 3 2 3 7
def labPlanePtr : Word := 0x5200_0000_0000_0000 ||| own 0
def labLoading : State := labMtxAt labMldw labPlanePtr 0 0

/-- MLDW of two planes in the scratchpad; with an uncorrectable word in them; and of an entropy-coded object whose header is zeros. -/
theorem test_witness_mldw_complete : ∃ (r : List Byte × Nat × Nat × Nat) (u : State), labLoading.core.mtxRunning = some (labMtx labMldw labPlanePtr 0 0) ∧
    labLoading.engineGives (tileFetch ((labMtx labMldw labPlanePtr 0 0).party 0) labPlanePtr) r u ∧ r.2 = (2, 0, 0) ∧ u.core.mtx = labLoading.core.mtx ∧
    goesOn .matrixCommandComplete labLoading = true ∧ (nextOf .matrixCommandComplete labLoading).ctx.wtPlanes.toList = [0, 0, 0, 2] ∧
    elementOf labLoading = [0x7] ∧
    engEnds (tileFetch ((labMtx labMldw labPlanePtr 0 0).party 0) labPlanePtr) (labLoading.modDev fun d => { d with bad := [poolKey 0 0 / 8] }) = some .ecc ∧
    elementOf (labLoading.modDev fun d => { d with bad := [poolKey 0 0 / 8] }) = [0x4007] ∧
    elementOf (labMtxAt labMldw (0xA800_0000_0000_0000 ||| own 0) 0 0) = [0x3007] :=
  by refine ⟨_, _, ?_, comes, ?_, ?_, ?_, ?_, ?_, ?_, ?_, ?_⟩ <;> decide +kernel

/-- MMAS of one k-step on eight rows in cluster memory; and its completion. -/
def labMmas : Instr := .mmas 0 0 4 0 7 0 1
def labClusterPtr : Word := 0x00AF_FF00_0000_0040

theorem test_witness_mmas : ∃ (rows : List (List Int × Nat)) (u : State), microTiles (wordOf labMmas) = [0] ∧
    (labMtxAt labMmas labClusterPtr 0x200_0040 0).engineGives ((List.range 8).mapM fun r =>
      mmasRow ((labMtx labMmas labClusterPtr 0x200_0040 0).party 0) [] (labMtx labMmas labClusterPtr 0x200_0040 0) 0 r) rows u ∧
    u.core.mtx = (labMtxAt labMmas labClusterPtr 0x200_0040 0).core.mtx ∧
    goesOn .microTileComplete (labMtxAt labMmas labClusterPtr 0x200_0040 0) = true ∧
    (nextOf .microTileComplete (labMtxAt labMmas labClusterPtr 0x200_0040 0)).ctx.mtmask = 1 ∧
    elementOf (labMtxAt labMmas labClusterPtr 0x200_0040 1) = [0x61] :=
  ⟨_, _, by decide +kernel, comes, by decide +kernel, by decide +kernel, by decide +kernel, by decide +kernel⟩

/-- MSTA of eight rows to the scratchpad, and to a page that does not translate, whose record is kept. -/
def labMsta : Instr := .msta 7 2 0 0 1
def labStaPtr : Word := 0x4800_0000_0000_0000 ||| own 0
def labStaFault : State := (lab.modCore fun c => { c with mtx := [{ labMtx labMsta 0x4800_0000_4000_5000 0 0 with kptb := 256 }], kefr := 0x2001 })

theorem test_witness_msta_complete : goesOn .matrixCommandComplete (labMtxAt labMsta labStaPtr 0 0) = true ∧
    elementOf (labMtxAt labMsta labStaPtr 0 0) = [0x81] ∧ engEnds (writeAscending ((labMtx labMsta labStaPtr 0 0).party 0) labStaPtr
      (staBytes (lab.ctx.getAc 7) 8 labStaPtr)) (labMtxAt labMsta labStaPtr 0 0) = none ∧
    goesOn .matrixCommandComplete labStaFault = true ∧ (nextOf .matrixCommandComplete labStaFault).core.mtx.map (fun j => j.state) = [.faulted] ∧
    (nextOf .matrixCommandComplete labStaFault).core.faults = [(2, 0)] ∧
    (nextOf .matrixCommandComplete labStaFault).value (0x2000 + 0x1400 + 24) 8 = 0x602 := by decide +kernel

/-- MSTV to a quad one of whose registers a write stream is bound to: the stream stores it. -/
def labMstv : Instr := .mstv 0 28 2 0 1
def labStvBound : State := (labMtxAt labMstv 0 63 0).modCtx fun c => c.setSd 1
  { val := 0x4800_0000_0000_0000 ||| own 0x7F80, coord := 0, pos := 0, limit := 2, kind := .denseWrite, bound := true }

theorem test_witness_mstv_append : engEnds (writeQuad ((labMtx labMstv 0 63 0).party 0) 28 (lane (lab.ctx.getAc 0).toNat 2048 63)) labStvBound = none ∧
    goesOn .matrixCommandComplete labStvBound = true ∧ ((nextOf .matrixCommandComplete labStvBound).ctx.getSd 1).pos = 1 ∧
    elementOf labStvBound = [0xA1] := by decide +kernel

/-- An MMA whose octet holds a read stream's register pops it at the push; and a push of a leader waits in the stream. -/
def labMmaPops : State := labDense .denseRead 1 2

theorem test_witness_mma_pops : (wordOf (.mma 7 3 3 7 31 7 3 7)).toNat % 8 = 2 ∧ mmaOctet (wordOf (.mma 7 3 3 7 31 7 3 7)) = 24 ∧
    labMmaPops.core.heldAt = none ∧ goesOn (.mma 7 3 3 7 31 7 3 7) labMmaPops = true ∧
    ((nextOf (.mma 7 3 3 7 31 7 3 7) labMmaPops).ctx.getSd 0).pos = 2 ∧ (nextOf (.mma 7 3 3 7 31 7 3 7) labMmaPops).core.mtx.length = 1 := by
  decide +kernel

theorem test_witness_leader_push : labGang.ctx.gangMode = 1 ∧ labGang.core.heldAt = none ∧ lowestSlot (labGang.heldSlots 0) = some 0 ∧
    labGang.mtxBlocks 0 [] [] = false ∧ comesOut (mtxOperands (wordOf (.mzero 7 0 0)) 0 0) labGang = true ∧
    comesOut (popOperands []) labGang = true ∧ goesOn (.mzero 7 0 0) labGang = true ∧ (nextOf (.mzero 7 0 0) labGang).core.mtx = [] ∧
    (gangOf (nextOf (.mzero 7 0 0) labGang) 0).staged.map (fun x => x.k) = [0] := by decide +kernel

/-! Launches: refusals that the block's record, a wait counter and the numbers in use make. -/

/-- A block with its record elsewhere, with a wait counter, or of another partition. -/
def lpbOf (record ev : Nat) (part : Byte) : List Byte :=
  let b := labLpb (named 0x1000) 1 0 1 0 record
  b.take 24 ++ [part] ++ (b.take 32).drop 25 ++ leBytes 8 ev ++ leBytes 4 5 ++ b.drop 44
def lpbRecord : List Byte := lpbOf (named 0x60000) 0 1
def lpbWaits (ev : Nat) : List Byte := lpbOf (named 0x7F40) ev 1

theorem test_witness_refused_record : (labFresh lpbRecord).badLpb = false ∧
    (runChk ((labFresh lpbRecord).signalKey .store (labFresh lpbRecord).recordPtr 64) (labTaken lpbRecord)).1.toBool = false ∧
    answered (labSubmitted lpbRecord) 0x8000_0000_0000_0007 (kept (labTaken lpbRecord) ((labFresh lpbRecord).reject 7 labK.dev.time)) ∧
    63 < (labFresh (lpbOf (named 0x7F40) 0 64)).partNo ∧ isMesh (labFresh (lpbOf (named 0x7F40) 0 64)).recordPtr = true :=
  ⟨by decide +kernel, by decide +kernel, runs, by decide +kernel, by decide +kernel⟩

/-- The counter is poisoned, cannot be read, and is not reached. -/
def labPoisoned (lpb : List Byte) : State := put (labSubmitted lpb) (poolKey 0 0x7F00) (leBytes 8 (2 ^ 63))

theorem test_witness_acceptance_waits : (nextOf .launchAcceptance (labPoisoned (lpbWaits (named 0x7F00)))).ctx.getX 31 = 0x8000_0000_0000_0006 ∧
    (nextOf .launchAcceptance (labSubmitted (lpbWaits (named 0x60000)))).ctx.getX 31 = 0x8000_0000_0000_0008 ∧
    (nextOf .launchAcceptance (labSubmitted (lpbWaits (named 0x7F00)))).ctx.getX 31 = 1 ∧
    (nextOf .launchAcceptance (labSubmitted (lpbWaits (named 0x7F00)))).dev.launches.map (fun l => l.state) = [.waiting] ∧
    (nextOf (.waitEventRead 1) ((labWaiting (named 0x60000) []))).dev.launches.map (fun l => l.reason) = [8] := by decide +kernel

/-- A partition that is being rebuilt takes no unit; a unit placed alone, and one whose arguments cannot be read. -/
def labRebuild : State := (labEligible labPlace .free).modDev fun d => { d with rebuilds := [1] }
def labNoArgs : Launch := { labPlace with lpb := labPlace.lpb &&& ~~~(0xFFFF_FFFF_FFFF_FFFF#1024 <<< 64) ||| 0x0080_0000_0006_0000#1024 <<< 64 }
def labLoad (l : Launch) : Except (Nat × Word) (List Word) :=
  (runChk (l.loadUnit 0 ((l.ppwOn (labEligible l .free).core).getD 0) false) (((labEligible l .free).modLaunch 1 Launch.takeGroup).bookUnit l 0 3)).1

theorem test_witness_place_unit : exec (.placementStep 1) labRebuild = .next labRebuild ∧ (labEligible labPlace .free).dev.preempts = [] ∧
    (labPlace.ppwOn (labEligible labPlace .free).core).isSome = true ∧ labPlace.attached = false ∧ (labLoad labPlace).toBool = true ∧ (labLoad labNoArgs).toBool = false :=
  ⟨runs, by decide +kernel, by decide +kernel, by decide +kernel, by decide +kernel, by decide +kernel⟩

/-- A core whose unit has ended takes up the context that is parked on it. -/
def labParkedUnit : Resident := { labBeside with lnum := 1 }
def labHandoff : State := (labEligible labPlace .ended).modCore fun c => { c with residents := [labParkedUnit] }
def labHandoffDone : State := { labHandoff with dev := { labHandoff.dev with launches := [{ labPlace with state := .ending }] } }

theorem test_witness_handoff_parked : (labHandoffDone.countDone labHandoffDone.core).ranked 1 = [] ∧
    labHandoffDone.unitBusy labHandoffDone.core = false ∧ labHandoffDone.dev.scanDue 0 = false ∧
    (((labHandoffDone.countDone labHandoffDone.core).parkedChoice labHandoffDone.core).map fun x => x.1) = some labParkedUnit ∧
    (nextOf .coreHandoff labHandoffDone).core.run = .running ∧ (nextOf .coreHandoff labHandoffDone).core.preemptInfo = 0x10_9002 := by decide +kernel

/-- The last sweep of two that agree declares the launch quiescent: its unit is dropped. -/
def labStill (last : Option Nat) : Launch := { labQuiet (some { todo := [], idle := true, sent := 2, received := 2 }) with
  lastSweep := last, units := [{ wuid := 3, core := 0, group := 0, order := 0, active := true }] }

theorem test_witness_quiescence_declared : (labStill none).count ≠ 0 ∧
    exec (.quiescenceSweep 1) (labEligible (labStill none) .running) = .next ((labEligible (labStill none) .running).modLaunch 1 fun k => { k with
      sweep := none, sweeps := k.sweeps + 1, lastSweep := some 2 }) ∧
    (nextOf (.quiescenceSweep 1) (labEligible (labStill (some 2)) .running)).dev.launches.map (fun l => (l.state, l.doneCount)) = [(.ending, 1)] := by
  refine ⟨?_, runs, ?_⟩ <;> decide +kernel

/-- A launch that has ended waits for a core to be handed off, and drops the message in flight to it; then its record is written. -/
def labEnding : State := ((labEligible (labPlace.reject 4 0) .ended).modCtx fun c => { c with lnum := 1 }).modDev fun d => { d with
  payloads := [{ labPayload with msg := labMsg 1 }] }

theorem test_witness_completion_waits : (∃ c ∈ labEnding.cores, labEnding.handsOff 1 c = true) ∧
    exec (.launchCompletion 1) labEnding = .next (labEnding.dropMessages 1) ∧ (labEnding.dropMessages 1).dev.payloads = [] ∧
    (labEnding.discardLaunch 1).dev.payloads = [] ∧ (labPlace.reject 4 0).msg < 2 ^ 31 ∧ (labPlace.reject 4 0).counter = 0 ∧
    ((labEligible (labPlace.reject 4 0) .running).signal (labPlace.reject 4 0)).value (poolKey 0 0x7F40) 8 = 0x1_0403 := by
  refine ⟨⟨labEnding.core, ?_⟩, runs, ?_⟩ <;> decide +kernel

/-! The host, the boot and the partitions. -/

def labHostWord : State := put lab 0x1000 [7]
def hostGets (s : State) (op : FlightOp) : State := (s.performOp 0x1000 op).2.modDev fun d => { d with hostRead := leBytes 8 7 }

theorem test_witness_host_atomics : exec (.hostBar2Access 0x1000 (.fetchAdd 5)) labHostWord = .next (hostGets labHostWord (.amo .add 5)) ∧
    exec (.hostBar2Access 0x1000 (.swap 5)) labHostWord = .next (hostGets labHostWord (.amo .swap 5)) ∧
    exec (.hostBar2Access 0x1000 (.cas 7 5)) labHostWord = .next (hostGets labHostWord (.cas 7 5)) ∧
    localBytes < (0x7F_FFFF_FFFF : BitVec 39).toNat + 2 ∧ exec (.hostBar2Access 0x7F_FFFF_FFFF (.write [1, 2])) lab = .next lab ∧
    exec (.hostBar2Access 0x7F_FFFF_FFFF (.write [1])) lab = .next (lab.poke 0x7F_FFFF_FFFF [1]) := ⟨runs, runs, runs, by decide, runs, runs⟩

theorem test_witness_registers : exec (.mgmtRegisterWrite 0x0008 288) lab = .next lab ∧ exec (.mgmtRegisterWrite 0x0008 512) lab = .next lab ∧
    exec (.mgmtRegisterWrite 0x0028 1) lab = .next lab ∧ (nextOf (.mgmtRegisterWrite 0 0xC0) lab).dev.goBit = true ∧
    exec (.mbdoor 63) (lab.modDev fun d => { d with mbbase := 0x4000 }) = exec (.mgmtRegisterWrite 0x0018 63) (lab.modDev fun d => { d with mbbase := 0x4000 }) ∧
    (nextOf (.mbdoor 63) (lab.modDev fun d => { d with mbbase := 0x4000 })).value 0x8000 8 = 2 ^ 63 :=
  ⟨runs, runs, runs, by decide +kernel, rfl, by decide +kernel⟩

/-- The access on its way to the peer is an atomic. -/
def labPortAtomic : State := { labPortDown with dev := { labPortDown.dev with flights := [{ labStoreFlight with op := .amo .add 1, rd := some 5 }] } }

theorem test_witness_port_atomic : labPortAtomic.core.run = .running ∧ labPortAtomic.core.lost = [] ∧
    (nextOf (.portFailTimeout 0) labPortAtomic).core.lost = [{ level := .u, info := 2 ^ 51 }] ∧
    (nextOf (.portFailTimeout 0) labPortAtomic).dev.flights = [] := by decide +kernel

/-- A boot from an image that the host has written, whose digest is computed from its bytes. -/
def labHosted : BootImage := { labImage true with host := some [1, 2, 3] }

theorem test_witness_boot_from_host : goesOn (.powerOn labHosted) lab = true ∧ (nextOf (.powerOn labHosted) lab).dev.hostImg = true ∧
    (nextOf (.powerOn labHosted) lab).byte 2 = 3 ∧ (nextOf (.powerOn labHosted) lab).rest.map (fun c => c.id) = [mgmtId 1, mgmtId 2, mgmtId 3] := by
  decide +kernel

/-- A partition is not rebuilt while a core of it has an access in flight; a fenced row is not exposed, and a fenced core comes up fenced. -/
def labFencedRow : State := labGo.modDev fun d => { d with fencedRows := [(0, 0)] }
def labFencedCore : State := labGo.modDev fun d => { d with fencedCores := [145] }

theorem test_witness_partition_guards : labGo.unitBusy (labGo.modCore fun c => { c with unack := 1 }).core = true ∧
    exec (.partitionBuild labPart) (labGo.modCore fun c => { c with unack := 1 }) = .next (labGo.modCore fun c => { c with unack := 1 }) ∧
    labFencedRow.partOk labPart = false ∧ exec (.partitionBuild labPart) labFencedRow = .next labFencedRow ∧
    labFencedCore.partOk labPart = true ∧ ((nextOf (.partitionBuild labPart) labFencedCore).coreById 145).map (fun c => c.run) = some .fenced ∧
    (rowsUsed labPart).length = 1 := ⟨by decide +kernel, runs, by decide +kernel, runs, by decide +kernel, by decide +kernel, by decide +kernel⟩

/-- Every launch number is in use: a block that passes the checks before is refused for want of one. -/
def labCrowd : State := (labSubmitted lpbGood).modDev fun d => { d with
  launches := (List.range 4095).map fun i => Launch.fresh (BitVec.ofNat 12 (i + 1)) (labAsk lpbGood) }

theorem test_witness_no_number : labCrowd.freeNumber = none ∧ (Launch.fresh 0 (labAsk lpbGood)).badLpb = false ∧
    comesOut ((Launch.fresh 0 (labAsk lpbGood)).signalKey .store (Launch.fresh 0 (labAsk lpbGood)).recordPtr 64) labCrowd = true ∧
    (after ((Launch.fresh 0 (labAsk lpbGood)).signalKey .store (Launch.fresh 0 (labAsk lpbGood)).recordPtr 64) labCrowd).badPartition
      (Launch.fresh 0 (labAsk lpbGood)) = false := by
  refine ⟨?_, by decide +kernel, by decide +kernel, by decide +kernel⟩
  unfold State.freeNumber
  rw [List.find?_eq_none]
  intro n hn
  simp only [List.mem_map, List.mem_range] at hn
  have hl : labCrowd.dev.launches = (List.range 4095).map fun i => Launch.fresh (BitVec.ofNat 12 (i + 1)) (labAsk lpbGood) := by
    simp only [labCrowd, State.modDev]
  obtain ⟨i, hi, rfl⟩ := hn
  have h : (labCrowd.dev.launches.any fun l => l.lnum.toNat == i + 1) = true := by
    rw [hl, List.any_eq_true]
    refine ⟨Launch.fresh (BitVec.ofNat 12 (i + 1)) (labAsk lpbGood), List.mem_map.mpr ⟨i, List.mem_range.mpr hi, rfl⟩, ?_⟩
    show ((BitVec.ofNat 12 (i + 1)).toNat == i + 1) = true
    rw [BitVec.toNat_ofNat, Nat.mod_eq_of_lt (by omega)]
    simp
  simp [h]

/-! ## Words that hold an uncorrectable error, and accesses that are lost -/

/-- The first word of a range holds an uncorrectable error. -/
def spoilt (s : State) (key : Nat) : State := s.modDev fun d => { d with bad := [key / 8] }

/-- Sixteen entries of a 16 GiB leaf at the third level of the walk; and one of them of another place. -/
def labSpan (last : Nat) : State := put (put (labWalk 0) (2 ^ 20 + 0x1000) (List.replicate 15 (leBytes 8 (2 ^ 34 + 0x317))).flatten)
  (2 ^ 20 + 0x1078) (leBytes 8 (last + 0x317))

theorem test_witness_span16 : walked .load (labSpan (2 ^ 34)) = .inr (2 ^ 34 + 0x5000) ∧
    walked .load (labSpan (2 ^ 35)) = .inl (5, 0x30A0_0000_0000_5000) ∧
    walked .load (labPte 2 (2 ^ 30 + 0x317) (labWalk 0)) = .inl (5, 0x30A0_0000_0000_5000) := by decide +kernel

/-- Mesh addresses by coordinates, by the self alias and of the cluster, at U and at K; and places that are none. -/
theorem test_witness_mesh_keys : lab.meshKey lab.who (other 0x8000) 8 = none ∧
    (labAt .k).meshKey (labAt .k).who (other 0x8000) 8 = some (poolKey 1 0x8000) ∧
    lab.meshKey lab.who (own 0x7FF8) 8 = some (poolKey 0 0x7FF8) ∧ lab.meshKey lab.who 0x00AF_FF00_001F_FFF8 8 = some (clusterKey 0 0x1F_FFF8) ∧
    lab.meshKey lab.who 0x00AF_FF00_001F_FFF9 8 = none ∧ lab.meshKey lab.who 0x00CF_FF00_0000_0000 8 = none ∧
    (labAt .k).meshKey (labAt .k).who 0x0080_0400_0000_0000 8 = none := by decide +kernel

/-- What physical addresses name. -/
theorem test_witness_physical : lab.dev.paKey (2 ^ 39 - 1) = some (2 ^ 39 - 1) ∧ lab.dev.paKey (2 ^ 39) = none ∧ lab.dev.paKey (2 ^ 50 + 5) = some (2 ^ 50 + 5) ∧
    lab.dev.paKey (2 ^ 50 + 2 ^ 48) = none ∧ lab.dev.paKey (2 ^ 51 + 288 * 2 ^ 40) = none ∧
    (lab.modDev fun d => { d with podidx := 3 }).dev.paKey (2 ^ 51 + 3 * 2 ^ 40 + 9) = some 9 := by decide +kernel

/-- The message's target has handed its core off, or waits for that, or holds its context for a rebuild. -/
def labGone (r : Run) : State := lab.modCoreId 1 fun c => { c with run := r, ctx := { c.ctx with lnum := 9 } }

theorem test_witness_gone : (labGone .ended).deliver 0 1 (labMsg 9) =
      some ((labGone .ended).modCtxId 1 fun c => { c with rbuf := c.rbuf ++ [labMsg 9] }) ∧
    (labGone .running).deliver 0 1 (labMsg 8) = some (labGone .running) ∧ (labGone .heldForRebuild).deliver 0 1 (labMsg 9) = none := by
  decide +kernel

/-- An empty channel and a message of the other narrow mode, for vectors; the words of a buffer that is read. -/
theorem test_witness_vector_receives : (∃ t, lab.takesGroup 31 1 0 t ∧ lab.completes (.recvnb 31 15 true) .seq t) ∧
    (labReceived true).traps (.recv 31 15 true) 14 (BitVec.ofNat 64 (15 * 2 ^ 22 + 2 ^ 27)) 0x2000 (labReceived true) ∧
    lab.waits (.recv 31 15 true) (.recv 15) lab ∧ (spoilt (labReplay 31 2) 0x8000).replayBuffer.dev.tests.length = 2 :=
  ⟨⟨_, comes, runs⟩, runs, runs, by decide +kernel⟩

theorem test_witness_lost_quantum : (spoilt labQuantums (poolKey 0 0x7FF8)).dev.opBad (poolKey 0 0x7FF8) (.amo .add 5) = some (poolKey 0 0x7FF8) ∧
    (nextOf (.broadcastApply 0) (spoilt labQuantums (poolKey 0 0x7FF8))).core.lost.map (fun a => a.level) = [.u] ∧
    (nextOf (.broadcastApply 0) (spoilt labQuantums (poolKey 0 0x7FF8))).dev.bcasts = [] := by decide +kernel

/-- The word of an atomic is in device memory. -/
def labAtomFar : State := spoilt ((((put lab 0x4000 [7]).setX 1 0x4000).setX 2 5).setX 3 7) 0x4000

theorem test_witness_spoilt_atomic : ∃ (t : State) (key : Nat), labAtomFar.admits .rmw 0x4000 8 key t ∧
    (t.dev.badWord key 8).isSome = true ∧ t.quantumOn key 8 = false ∧ (t.meetError key).2.resultsPending = false ∧
    labAtomFar.traps (.amo .add (.relaxed .unp) 3 1 2) 24 (t.meetError key).1 0x2000 (t.meetError key).2 := by
  refine ⟨_, _, checks, ?_, ?_, ?_, runs⟩ <;> decide +kernel

/-- An atomic on its way meets the error at its home. -/
def labLostFlight : State := spoilt ((labAtom 7).launchFlight 0x4000 (.amo .add 1) false false (some 5)) 0x4000

theorem test_witness_lost_flight : (labLostFlight.dev.flights.map fun f => labLostFlight.dev.opBad f.home f.op) = [some 0x4000] ∧
    (nextOf (.homePerformAccess 0) labLostFlight).dev.flights = [] ∧ (nextOf (.homePerformAccess 0) labLostFlight).core.pendReg = [] ∧
    (nextOf (.homePerformAccess 0) labLostFlight).core.lost.map (fun a => a.level) = [.u] := by decide +kernel

/-- The trap of a lost access is taken at the instruction that is not started. -/
theorem test_lost_traps : stepGoesOn (labLostFlight.modCore fun c => { c with unack := 0, pendReg := [], lost := [{ level := .u, info := 9 }] }) = true := by
  decide +kernel

theorem test_witness_spoilt_cells : (spoilt (labOwnCell 9 7 5) (poolKey 0 0x7FE0)).dev.badWord (poolKey 0 0x7FE0) 16 = some (poolKey 0 0x7FE0) ∧
    (nextOf (.cst 1 2) (spoilt (labOwnCell 9 7 5) (poolKey 0 0x7FE0))).core.fcause = 24 ∧
    (nextOf (.cld 5 1 2) (spoilt (labOwnCell 9 7 9) (poolKey 0 0x7FC8))).core.fcause = 24 ∧
    goesOn (.cld 5 1 2) (spoilt (labOwnCell 9 7 9) (poolKey 0 0x7FC0)) = true ∧
    (nextOf (.cld 5 1 2) (spoilt (labOwnCell 9 7 9) (poolKey 0 0x7FC0))).core.level = .u := by decide +kernel

/-- A quantum atomic to a peer is lost with the port; a write that is whole words clears their errors. -/
def labPortQuantum : State := { labPortDown with
  core := { labPortDown.core with out := none }
  dev := { labPortDown.dev with flights := [], bcasts := [{ labQuantum with op := .quantum (2 ^ 51) (.amo .add 5) 3 }] } }

theorem test_witness_port_quantum : throughPort 0 (2 ^ 51) = true ∧ labPortQuantum.rest = [] ∧ (nextOf (.portFailTimeout 0) labPortQuantum).dev.bcasts = [] ∧
    (nextOf (.portFailTimeout 0) labPortQuantum).core.lost = [{ level := .u, info := 2 ^ 51 }] := by decide +kernel

theorem test_whole_words_replace : ((spoilt lab 0x4000).poke 0x4000 (leBytes 8 5)).dev.bad = [] ∧ ((spoilt lab 0x4000).poke 0x4000 [5]).dev.bad = [0x800] := by
  decide +kernel

/-! ## Floating point, matrices and rules -/

/-- Special cases of the float operations, from IEEE 754-2019: infinities that cancel, a zero divisor, 0/0, an infinity times zero beside a NaN. -/
theorem test_witness_float_special : fmtSF.addV .rne (.inf false) (.inf true) = (fmtSF.qnan, 16) ∧ fmtSF.divV .rne (.fin true 1 0) (.fin false 0 0) =
      (fmtSF.infinity true, 8) ∧ fmtSF.divV .rne (.fin false 0 0) (.fin false 0 0) = (fmtSF.qnan, 16) ∧
    fmtSF.fmaV .rne (.inf false) (.fin false 0 0) (.nan false) = (fmtSF.qnan, 16) ∧ fmtSF.addV .rdn (.fin false 1 0) (.fin true 1 0) = (fmtSF.sign true, 0) ∧
    fmtSF.rsqrtV .rne (.fin true 1 0) = (fmtSF.qnan, 16) ∧ fmtSF.exp2V .rup (.fin true 1 12) = (1, 3) ∧
    fmtSF.minMax false 0 0x8000_0000 = (0x8000_0000, 0) := by decide +kernel

theorem test_witness_exact_sum : fmtSF.rounds .rne 3 (fmtSF.addV .rne (.fin false 1 0) (.fin false 2 0)) :=
  ⟨3, 0, by decide, by norm_num, by decide +kernel⟩

theorem test_witness_quotient : fmtSF.roundsBits .rne false (fun q => q ≤ 1 / 2) (fun q => q = 1 / 2) (fmtSF.divV .rne (.fin false 1 0) (.fin false 2 0)) :=
  ⟨2 ^ 25, -26, false, by decide, by norm_num, by norm_num, by norm_num, by decide +kernel⟩

/-- Halves round to even, towards zero, up and down. -/
theorem test_witness_picks : Rm.rne.picks (5 / 2) 2 ∧ Rm.rtz.picks (-5 / 2) (-2) ∧ Rm.rup.picks (5 / 2) 3 ∧ Rm.rdn.picks (5 / 2) 2 := by
  refine ⟨⟨?_, ?_⟩, ⟨?_, ?_⟩, ⟨?_, ?_⟩, ?_, ?_⟩ <;> norm_num [abs_of_nonneg, abs_of_neg]

/-- A tree of three levels adds neighbours first: in sf, 2^24 and 1 are lost where 1 and 1 are not. -/
theorem test_tree_order : (redTree .sf .rne 10 [0x4B80_0000, 0x3F80_0000, 0x3F80_0000, 0x3F80_0000]).1 = 0x4B80_0001 ∧
    (scanFrom .sf .rne 10 1 [0x3F80_0000, 0x3F80_0000, 0x3F80_0000]).1 = [0x3F80_0000, 0x4000_0000, 0x4040_0000] := by decide +kernel

/-- A scan whose stores find no room beyond the first: it holds with the other one listed, and goes on with that, whatever its pointer now is. -/
def labScanFar : State := ((labMove (1 + 2 ^ 504) 0 0x3000_0000_0000_4000).modCore fun c => { c with unack := 255 })

theorem test_witness_vnz_waits : (nextOf (.vnz .sb .w1 5 1 1) labScanFar).core.hold = .completes ∧
    (nextOf (.vnz .sb .w1 5 1 1) labScanFar).core.listing = some [(0x4002, [63, 0])] ∧ (nextOf (.vnz .sb .w1 5 1 1) labScanFar).dev.flights.length = 1 ∧
    (let t := nextOf (.vnz .sb .w1 5 1 1) (((nextOf (.vnz .sb .w1 5 1 1) labScanFar).modCore fun c => { c with unack := 0 }).setX 1 1)
     (t.dev.flights.map fun f => f.home) = [0x4000, 0x4002] ∧ t.ctx.getX 5 = 2 ∧ t.ctx.q6 = [0x2_0000_003F] ∧ t.core.listing = none) ∧
    elementKeys 2 (8, 4) = [8, 10] := by decide +kernel

/-- Commands that restart: in their own slot, in the lowest free one, and not while all are held. -/
def labStopped : MtxJob := { labCommand (.mzero 7 0 0) .faulted 0 with restart := some 256 }

theorem test_witness_restart : restartJobs [] [labStopped] = [{ labStopped with state := .waiting, restart := none, kptb := 256 }] ∧
    restartJobs [0] [labStopped] = [{ labStopped with state := .waiting, restart := none, kptb := 256, slot := 1 }] ∧
    restartJobs ((List.range 16).map (BitVec.ofNat 4)) [labStopped] = [labStopped] := by decide +kernel

/-- 64 products of 1 and 2, the scale 1, on 1: 129; a weight column that holds a NaR. -/
theorem test_witness_mac : macElement 0x3F80_0000 (List.replicate 64 1, 0x3F80_0000) (some (List.replicate 64 2), 0x3F80_0000) = 0x4301_0000 ∧
    macElement 0x3F80_0000 (List.replicate 64 1, 0x3F80_0000) (none, 0x3F80_0000) = 0x7FC0_0000 := by decide +kernel

/-- The spine of two elements: both units of a fold and of a scan, from RPROG and the kept record, and without that. -/
def labStands (fn d : Nat) (run : Option RuleRun) (s : State) : State :=
  (s.modCtx fun c => { c with rprog := BitVec.ofNat 64 (fn * 2 ^ 32 + d) }).modCore fun c => { c with ruleRun := run }
def labRun (pos : Nat) : RuleRun := { acc := { len := 2, s0 := 7, s1 := 0, s2 := 0 }, record := some (poolKey 0 0), pos := pos }
def labFold : State := withRange (put labSum (poolKey 0 0) (leBytes 4 2 ++ leBytes 4 7)) (own 0) 0 2

theorem test_witness_rspine_units : (nextOf (.rspine 5 6 7) labFold).ctx.rprog = 0x3_0000_0001 ∧
    (nextOf (.rspine 5 6 7) labFold).core.hold = .retry ∧ (nextOf (.rspine 5 6 7) labFold).core.ruleRun = some (labRun 0) ∧
    (nextOf (.rspine 5 6 7) (labStands 3 1 (some (labRun 0)) labFold)).value (poolKey 0 0) 8 = 14 * 2 ^ 32 + 3 ∧
    (nextOf (.rspine 5 6 7) (labStands 3 1 none labFold)).value (poolKey 0 0) 8 = 14 * 2 ^ 32 + 3 ∧
    (nextOf (.rspine 5 6 7) (labStands 3 1 none labFold)).ctx.rprog = 0 := by decide +kernel

theorem test_witness_rscan_units : (nextOf (.rscan 5 6 7 true) labFold).ctx.rprog = 0x4_0000_0001 ∧
    (nextOf (.rscan 5 6 7 true) labFold).core.ruleRun.map (fun r => r.pos) = some 2 ∧
    (nextOf (.rscan 5 6 7 true) (labStands 4 1 (some (labRun 2)) labFold)).value (poolKey 0 32) 8 = 14 * 2 ^ 32 + 3 ∧
    (nextOf (.rscan 5 6 7 false) (labStands 4 1 none labFold)).value (poolKey 0 16) 8 = 14 * 2 ^ 32 + 3 ∧
    comesOutAs (positionsOf 0 1) labFold 2 = true := by decide +kernel

/-- Two rules, (3, 4) and (rule 0, 4), of which RPROG says none or the first is done. -/
def labTwoBody : List Byte := leBytes 4 3 ++ leBytes 4 4 ++ leBytes 4 0x80000000 ++ leBytes 4 4 ++ leBytes 4 0x80000001
def labTwo : List Byte := labHeader 4 0 2 1 0 0 0 20 3 (crc32c labTwoBody)
def labRules : State := withRange ((put (put lab (poolKey 0 0x1000) (labTwo ++ labTwoBody)) (poolKey 0 0x6000) []).modCtx fun c => { c with
  gptr := labGrammar, rrt := own 0x6000, ghdr := BitVec.ofNat 512 (leNat labTwo), opd := 0x4_0001 }) 0 2 0

theorem test_witness_reval_units : (nextOf (.reval 5 6) labRules).ctx.rprog = 0x2_0000_0001 ∧ (nextOf (.reval 5 6) labRules).core.hold = .retry ∧
    (nextOf (.reval 5 6) (labStands 2 1 none (nextOf (.reval 5 6) labRules))).value (poolKey 0 0x6010) 8 = 11 * 2 ^ 32 + 3 ∧
    (nextOf (.reval 5 6) (labStands 2 1 none (nextOf (.reval 5 6) labRules))).ctx.rprog = 0 := by decide +kernel

/-! ## Engines, streams and the distributor -/

/-- A chunk of four bytes whose table array is at 0x1200: its descriptor, and what its slot and its code-length table hold. -/
def labTiny : DmaCmd := { labRill with len := 0x200_0000_0004 }
def labTinyJob : DmaJob := labJob labTiny 0 .idle none []
def labDesc (stored clen : Nat) (slot out : List Byte) : State :=
  put (put (labWork labTinyJob) (poolKey 0 0x1000) slot) (poolKey 0 0x1200)
    (leBytes 4 (0x4C52 + 2 ^ 24 * stored) ++ leBytes 4 0x10 ++ leBytes 4 clen ++ leBytes 4 (crc32c out))
/-- Code lengths of 1 for the byte 65 and for the end. -/
def labLens : List Nat := (List.range 273).map fun y => if y = 65 ∨ y = 256 then 1 else 0
def labCoded (slot : Byte) : State :=
  put (put (labDesc 0 1 [slot] (List.replicate 4 65)) (poolKey 0 (0x1210 + 32)) [0x10]) (poolKey 0 (0x1210 + 128)) [1]
def labRead (r : List Byte × Nat × Nat) (t : State) : State := t.modDma 63 fun k => { k with started := true, stage := .read r.1 r.2.1 r.2.2 }

theorem test_witness_stored_chunk : (∃ t, exec (.entropyExpansion 63) (labDesc 1 4 [1, 2, 3, 4] [1, 2, 3, 4]) = .next (labRead ([1, 2, 3, 4], 0, 0) t)) ∧
    (∃ t, exec (.entropyExpansion 63) (labDesc 1 4 [1, 2, 3, 4] [9]) = .next (labRead ([1, 2, 3, 4], 2, 0) t)) ∧
    (∃ t, exec (.entropyExpansion 63) (labDesc 1 3 [1, 2, 3, 4] []) = .next (labRead ([], 3, 0) t)) :=
  ⟨⟨after (engRead (labTinyJob.party 0) (own 0x1000) 4) (labDesc 1 4 [1, 2, 3, 4] [1, 2, 3, 4]), runs⟩,
    ⟨after (engRead (labTinyJob.party 0) (own 0x1000) 4) (labDesc 1 4 [1, 2, 3, 4] [9]), runs⟩,
    ⟨after (engRead (labTinyJob.party 0) (own 0x1200) 16) (labDesc 1 3 [1, 2, 3, 4] []), runs⟩⟩

/-- Four times 0 and the code of the end are AAAA. -/
theorem test_witness_expands : Expands [0x10] 8 4 labLens 0 [] (List.replicate 4 65, 0, 0) := by
  have e (n : Nat) (h : n < 4) : Spells [0x10] 8 labLens n 65 := by
    have : ∀ n : Fin 4, Spells [0x10] 8 labLens n 65 := by unfold Spells; decide +kernel
    exact this ⟨n, h⟩
  have f : Spells [0x10] 8 labLens 4 256 := by unfold Spells; decide +kernel
  have one : labLens.getD 65 0 = 1 := by decide +kernel
  have go (n : Nat) (out : List Byte) (r : List Byte × Nat × Nat) (hn : n < 4) (ho : out.length < 4)
      (h : Expands [0x10] 8 4 labLens (n + 1) (out ++ [65]) r) : Expands [0x10] 8 4 labLens n out r :=
    .literal (by decide) (e n hn) ho (one.symm ▸ h)
  exact go 0 _ _ (by decide) (by decide) (go 1 _ _ (by decide) (by decide) (go 2 _ _ (by decide) (by decide) (go 3 _ _ (by decide) (by decide)
    (.finish f (by decide)))))

theorem test_expands_in_machine : ((nextOf (.entropyExpansion 63) (labCoded 0x10)).dmaJob 63).map (fun j => j.stage) =
      some (.read (List.replicate 4 65) 0 0) ∧
    ((nextOf (.entropyExpansion 63) (labCoded 0x08)).dmaJob 63).map (fun j => j.stage) = some (.read (List.replicate 3 65) 1 3) := by
  decide +kernel

/-- A 4-byte index of 2^31 or more, a word of a row that is bad, and what a failed command leaves. -/
def labWide : EddyJob := { labRow false 0 with idx := 0x1800_0000_0000_0000 ||| own 0x100 }
def labTooFar : State := put (labEddy labWide) (poolKey 0 0x103) [0x80]
def labEddyFailed : EddyJob := { labRow false 1 with failed := some 4 }

theorem test_witness_eddy_data_errors : ((nextOf (.eddyGather 0) labTooFar).dev.eddy.map fun j => j.failed) = [some 5] ∧
    ((nextOf (.eddyGather 0) (spoilt (labEddy (labRow false 0)) (poolKey 0 0x100))).dev.eddy.map fun j => j.failed) = [some 4] ∧
    ((nextOf (.eddyGather 0) (spoilt (labEddy (labRow false 0)) (poolKey 0 0x208))).dev.eddy.map fun j => j.failed) = [some 4] ∧
    ((nextOf (.eddyScatter 0) (spoilt (labEddy (labRow true 0)) (clusterKey 0 64))).dev.eddy.map fun j => j.failed) = [some 4] ∧
    (nextOf (.eddyComplete 0) (labEddy labEddyFailed)).ctx.q5 = [0x100_400F] ∧
    (nextOf (.eddyComplete 0) (labEddy labEddyFailed)).dev.eddy = [] := by decide +kernel

def labUnderWay : State := lab.modCore fun c => { c with mtx := [{ labCommand (.mzero 7 0 0) .running 0 with started := true }] }

theorem test_witness_count_of_q2 : (labMatrix (.mzero 7 0 0) .waiting 0).completes (.qcnt 5 2) .seq ((labMatrix (.mzero 7 0 0) .waiting 0).setX 5 1) ∧
    labUnderWay.completes (.qcnt 5 2) .seq (labUnderWay.setX 5 0) := ⟨runs, runs⟩

/-- No append where no stream is bound; and where the group covers a bound write register whose next place is not to be written. -/
def labAppends (val : Word) : State := (labVec 9 0x7C00 0).modCtx fun c => c.setSd 3 { val := val, coord := 0, pos := 0, limit := 1, kind := .denseWrite, bound := true }

theorem test_witness_appends : (labVec 9 0x7C00 0).gives (checkAppends 31 1) () (labVec 9 0x7C00 0) ∧
    comesOut (checkAppends 31 1) (labAppends (own 0)) = true ∧ goesOn (.vld .w1 31 1 15 .stored) (labAppends (own 0)) = true ∧
    comesOut (checkAppends 31 1) (labAppends 1) = false ∧ (nextOf (.vld .w1 31 1 15 .stored) (labAppends 1)).core.level = .f :=
  ⟨comesAs, by decide +kernel⟩

theorem test_witness_vstx_operands : ∃ (ps : List Word) (keys : List (List (Nat × Nat))) (t u x a z : State),
    (labVec 9 0x7FC0 0).gives (popOperands [30]) () t ∧ t.gives (indexAddresses ((labVec 9 0x7FC0 0).ctx.getX 1) (t.ctx.getV 30).toNat 1 4) ps u ∧
    u.gives (checkAll .store ps 4 4) keys x ∧ x.gives (popOperands [31]) () a ∧ a.gives (countReads [groupReads 31 1, groupReads 30 1]) () z ∧
    goesOn (.vstx .w1 31 1 30) (labVec 9 0x7FC0 0) = true := by
  refine ⟨_, _, _, _, _, _, _, comesAs, comes, comes, comesAs, comesAs, ?_⟩
  decide +kernel

/-- Fibres: equal coordinates of a merge, the smaller one of a union and of an intersection, and a coordinate that falls at each input. -/
def labFibres (d : Nat) : State := (put labMerge (poolKey 0 (0x100 * d + 4)) [0, 0, 0, 0])
def labHead (sd : BitVec 2) (pos : Nat) (s : State) : Option FibreEntry := answer (headAt sd (s.ctx.getSd sd) pos) s
def labMerges (uni : Bool) (p0 p1 : Nat) (s : State) : MergeEnd :=
  match mergeFrom uni (s.ctx.getSd 0) (s.ctx.getSd 2) 33 (labHead 0 p0 s) (labHead 2 p1 s) [] p0 p1 0 s with
  | .ok m _ => m
  | .error _ _ => { out := [], p0 := 99, p1 := 99, bad := none }

theorem test_witness_merges : (labMerges false 1 0 labMerge).out.map (fun e => e.1) = [5, 9] ∧ (labMerges true 0 0 labMerge).out.map (fun e => e.1) = [2, 5, 7, 9] ∧
    (labMerges true 0 0 labMerge).out.map (fun e => e.2) = [0x3F80_0000, 0x40C0_0000, 0x40A0_0000, 0x4110_0000] ∧ (labMerges true 3 2 labMerge).out.length = 1 ∧
    (labMerges false 3 0 labMerge).out = [] ∧ (labMerges true 0 0 (labFibres 0)).bad = some (0, 1) ∧ (labMerges true 0 0 (labFibres 1)).bad = some (1, 1) ∧
    (labMerges false 0 0 labMerge).bad = none := by decide +kernel

/-- A run of a row of four; round the row; along the ring, whose odd rows run back; and along a tree's path. -/
def stitched (n : Nat) : PartConfig := { labPart with stitch := BitVec.ofNat 2 n }

theorem test_witness_gang_ranges : gangRange (stitched 0) 0 0 2 2 = some ([2, 3].map fun c => (partCoreAt labPart 0 0 c).getD 0) ∧
    gangRange (stitched 0) 0 0 3 2 = none ∧ gangRange (stitched 1) 0 0 3 2 = some ([3, 0].map fun c => (partCoreAt labPart 0 0 c).getD 0) ∧
    gangRange (stitched 2) 0 0 3 3 = some ([(0, 3), (1, 3), (1, 2)].map fun c => (partCoreAt labPart 0 c.1 c.2).getD 0) ∧
    gangRange (stitched 3) 0 0 3 3 = some ([3, 1, 0].map fun c => (partCoreAt labPart 0 0 c).getD 0) ∧ gangRange (stitched 3) 0 0 3 4 = none := by
  decide +kernel

/-- Reserved rounding modes and previous levels are not kept; the fields beside them are. -/
theorem test_witness_reserved_fields : (nextOf (.csrw 0x005 1) ((withXs 0x1A3 0).modCtx fun c => { c with fstat := 0x040 })).ctx.fstat = 0x143 ∧
    (nextOf (.csrw 0x304 1) ((labAt .f).setX 1 0xF)).core.fstatus.toNat / 4 % 4 = (labAt .f).core.fstatus.toNat / 4 % 4 ∧
    (nextOf (.csrw 0x304 1) ((labAt .f).setX 1 0x5)).core.fstatus.toNat % 16 = 5 := by decide +kernel

/-- Counts of ones: a tie to even, beyond the length, below 0, and no number. -/
theorem test_witness_counts : genCount (.fin false 1 (-7)) 0 = 0 ∧ genCount (.fin false 3 (-7)) 0 = 2 ∧ genCount (.fin false 2 0) 0 = 64 ∧
    genCount (.fin true 1 0) 0 = 0 ∧ genCount (.nan false) 1 = 0 ∧ genCount (.inf false) 1 = 256 ∧ genCount (.inf true) 1 = 0 := by decide +kernel

/-- The bit-reversed counter from 1, and the shift register from 1, each against half the length. -/
theorem test_witness_source_kinds : ((List.range 4).map fun j => (genStream 7 0x4000_0000_0000_0001 0 32).bits.getLsbD j) = [false, true, false, true] ∧
    ((List.range 2).map fun j => (genStream 7 0x8000_0000_8000_0000 0 33).bits.getLsbD j) = [true, true] ∧
    (genStream 7 0x8000_0000_8000_0000 0 32).bits.getLsbD 0 = false ∧ (genStream 7 1 0 32).bits.getLsbD 0 = true := by decide +kernel

/-- The cleared memories of a partition hold no error. -/
def labDirty : State := (put labGo (poolKey 145 8) [7]).modDev fun d => { d with bad := [poolKey 145 8 / 8, clusterKey (clusterOfId 145) 16 / 8, 0x800] }

theorem test_witness_partition_clears : (nextOf (.partitionBuild labPart) labDirty).byte (poolKey 145 8) = 0 ∧
    (nextOf (.partitionBuild labPart) labDirty).dev.bad = [0x800] := by decide +kernel

/-- The order of launches, and the cores that one finds. -/
def labSecond : Launch := { labPlace with lnum := 2, tElig := 4000 }
def labTwoLaunches : State := (labEligible labPlace .free).modDev fun d => { d with launches := [labSecond, labPlace] }

theorem test_witness_ranking : labTwoLaunches.ranked 1 = [labPlace, labSecond] ∧ labTwoLaunches.freeCore 0 = true ∧ labTwoLaunches.freeCore 1 = true ∧
    (labEligible labPlace .running).fitRun labPlace labPart 2 = (labEligible labPlace .free).fitRun labPlace labPart 2 ∧
    (labEligible labPlace .free).fitsOn labPlace 0 = true ∧ lowestRun [0x0000_0800_0000_0000] [(9, 1)] 2 = some 10 ∧
    lowestRun [] [(0, 95)] 2 = none := by decide +kernel

/-- The counter of an EVENT wait is bad; and a launch that ends waits for a host store of its core. -/
theorem test_witness_event_errors : ((nextOf (.waitEventRead 1) (spoilt (labWaiting (named 0x7F00) [5]) (poolKey 0 0x7F00))).launch? 1).map
      (fun l => (l.status, l.reason)) = some (3, 8) := by decide +kernel

/-- Rows 0 and 1 of a matrix of two, of which RPROG says none or the first is done. -/
def labRow2 : List Byte := labHeader 5 1 0 2 2 2 0x48 16 1 0
def labMatrixTwo : State := (put (put lab (poolKey 0 0x1000) (labRow2 ++ leBytes 4 0x3C00 ++ leBytes 4 0x0001_3C00 ++ leBytes 4 0 ++ leBytes 4 1 ++ leBytes 4 2))
    (poolKey 0 0x100) (leBytes 4 0x40000000 ++ leBytes 4 0x40400000)).modCtx fun c => { c with
  gptr := labGrammar, rrt := own 0x7FF0, ghdr := BitVec.ofNat 512 (leNat labRow2), opd := 0x0000_0100_0005_000B }
def labRows2 : State := withRange labMatrixTwo (own 0x200) (own 0x100) 0x2_0000_0000

theorem test_witness_rmv_units : (nextOf (.rmv 5 6 7) labRows2).ctx.rprog = 0x6_0000_0001 ∧ (nextOf (.rmv 5 6 7) labRows2).core.hold = .retry ∧
    (nextOf (.rmv 5 6 7) labRows2).value (poolKey 0 0x200) 4 = 0x40000000 ∧
    (nextOf (.rmv 5 6 7) (labStands 6 1 none labRows2)).value (poolKey 0 0x204) 4 = 0x40400000 ∧
    (nextOf (.rmv 5 6 7) (labStands 6 1 none labRows2)).ctx.rprog = 0 := by decide +kernel

/-- A launch that has ended, one of whose cores has a host store acknowledged and not performed. -/
def labAckedLaunch : Launch := { labPlace.reject 4 0 with units := [{ wuid := 3, core := 0, group := 0, order := 0, active := false }] }
def labAckedHost : State := (labEligible labAckedLaunch .running).modDev fun d => { d with
  flights := [{ labStoreFlight with acked := true, home := 2 ^ 50, lnum := 1 }] }

theorem test_witness_acked_store : labAckedLaunch.ended = true ∧ labAckedHost.launch? 1 = some labAckedLaunch ∧
    exec (.launchCompletion 1) labAckedHost = .next (labAckedHost.dropMessages 1) := ⟨by decide +kernel, by decide +kernel, runs⟩

/-! ## Accesses off the device, what waits for a quantum atomic, streams that stand within a line, and hand-offs -/

theorem test_witness_store_behind_quantum : ∃ (t : State) (key : Nat), (labStore (own 0x7FF8) labQuantums).admits .store (own 0x7FF8) 8 key t ∧
    regionOf key = .pool t.core.id ∧ t.quantumOn key 8 = true ∧ (labStore (own 0x7FF8) labQuantums).waits (.sd 2 1 0) .retry t ∧
    (labStore (own 0x7FF8) labQuantums).waits (.str .dev 1 2) .retry t ∧ t.releaseMet .core = true :=
  ⟨_, _, checks, by decide +kernel, by decide +kernel, runs, runs, by decide +kernel⟩

/-- The word of a quantum atomic on its way is bad: a later atomic there is issued, and a later store to another core's pool leaves the core. -/
theorem test_witness_atomic_behind_quantum : ∃ (t : State) (key : Nat), (spoilt labQuantums (poolKey 0 0x7FF8)).admits .rmw (own 0x7FF8) 8 key t ∧
    t.quantumOn key 8 = true ∧ (t.dev.badWord key 8).isSome = true ∧
    (spoilt labQuantums (poolKey 0 0x7FF8)).completes (.amo .add (.relaxed .unp) 3 1 2) .seq (t.launchFlight key (.amo .add 5) false false (some 3)) ∧
    (spoilt labQuantums (poolKey 0 0x7FF8)).completes (.amo .add (.relaxed .quant) 3 1 2) .seq (t.broadcast (.quantum key (.amo .add 5) 3) [0]) :=
  ⟨_, _, checks, by decide +kernel, by decide +kernel, runs, runs⟩

/-- Port 0 is down: what goes through it is not performed and does not return; what has failed traps with its home. -/
def labPortFailed : State := labPortDown.modCore fun c => { c with out := some { labLoadOut with failed := true } }

theorem test_witness_cut_off : labPortDown.dev.cutOff (2 ^ 51) = true ∧ exec (.homePerformAccess 0) labPortDown = .next labPortDown ∧
    exec .loadReturn labPortDown = .next labPortDown ∧ labPortQuantum.dev.applications.map (fun x => x.2) = [0] ∧
    exec (.broadcastApply 0) labPortQuantum = .next labPortQuantum ∧ labPortFailed.resultsPending = false ∧
    exec .loadReturn labPortFailed = .next ((labPortFailed.modCore fun c => { c with out := none }).takeTrap false 24 (2 ^ 51) labPortFailed.ctx.pc
      (some (wordOf (.ld 5 1 0)))) := ⟨by decide +kernel, runs, runs, by decide +kernel, runs, by decide +kernel, runs⟩

/-- A vector load from host memory: its line leaves the core, comes, and ends the load. -/
def labFarHost : State := (put (labHost lab) (2 ^ 50) [1, 2, 3]).setX 1 0x4800_0000_4000_0000
def labFarSent : State := nextOf (.vld .w1 31 1 0 .stored) labFarHost
def labFarIn : State := nextOf .loadReturn labFarSent

theorem test_witness_far_load : labFarSent.core.hold = .completes ∧
    labFarSent.core.out = some { word := none, home := 2 ^ 50, width := 64, value := none, failed := false } ∧ labFarSent.core.run = .running ∧
    labFarSent.quantumOn (2 ^ 50) 64 = false ∧ labFarSent.dev.cutOff (2 ^ 50) = false ∧ labFarIn.core.out = none ∧
    labFarIn.core.arrived.map (fun a => (a.key, a.bytes.take 3, a.error)) = [(2 ^ 50, [1, 2, 3], none)] ∧
    (nextOf (.vld .w1 31 1 0 .stored) labFarIn).ctx.getV 31 = 0x030201 ∧ (nextOf (.vld .w1 31 1 0 .stored) labFarIn).core.arrived = [] := by
  decide +kernel

/-- The same line, whose access has failed. -/
def labFarFails : State := nextOf .loadReturn (labFarSent.modCore fun c => { c with out := c.out.map fun o => { o with failed := true } })

theorem test_witness_far_lost : labFarFails.core.arrived.map (fun a => a.error) = [some (2 ^ 50)] ∧
    (nextOf (.vld .w1 31 1 0 .stored) labFarFails).core.fcause = 24 ∧ (nextOf (.vld .w1 31 1 0 .stored) labFarFails).core.finfo = 2 ^ 50 ∧
    coreRead (2 ^ 50) 64 labFarFails = .error (.trap 24 (2 ^ 50) .here) labFarFails := by
  refine ⟨?_, ?_, ?_, rfl⟩ <;> decide +kernel

theorem test_witness_own_cells : regionOf (poolKey 0 0x7FC0) = .pool (labOwnCell 9 7 8).core.id ∧
    (labOwnCell 9 7 8).completes (.cinit 1 2) .seq (((labOwnCell 9 7 8).performOp (poolKey 0 0x7FC0) (.cinit 8)).2) ∧
    (nextOf (.crcl 1 2) (labOwnCell 9 7 8)).cellTail (poolKey 0 0x7FC0) = 9 ∧
    ((labOwnCell 9 7 8).modDev fun d => { d with bcasts := [{ labQuantum with op := .quantum (poolKey 0 0x7FC0) (.amo .add 5) 3 }] }).waits (.crcl 1 2) .retry
      ((labOwnCell 9 7 8).modDev fun d => { d with bcasts := [{ labQuantum with op := .quantum (poolKey 0 0x7FC0) (.amo .add 5) 3 }] }) :=
  ⟨by decide +kernel, runs, by decide +kernel, runs⟩

/-- CVER looks at HEAD alone: a bad value slot is none of its words. -/
theorem test_witness_cver_head : ∃ u, (spoilt (labOwnCell 9 8 0) (poolKey 0 0x7FC0)).reads (poolKey 0 0x7FE0) 8 u ∧
    (spoilt (labOwnCell 9 8 0) (poolKey 0 0x7FC0)).completes (.cver 5 1) .seq (u.setX 5 9) := ⟨_, reads_of (by decide +kernel), runs⟩

/-- A line of 20 entries with values 0 to 19: a pop takes 16, and the line stays as it was read for the next. -/
def labLongLine : State := (put (labLine 1) (poolKey 0 0x7F80) (leBytes 32 (2 ^ 20 - 1) ++ ((List.range 20).map (leBytes 2)).flatten)).modCtx fun c =>
  c.setSd 0 { c.getSd 0 with val := 0x8900_0000_0000_0000 ||| own 0x7F80 }
def labPopped : State := after (popStream 0) labLongLine

theorem test_witness_part_of_line : (answer (lineEntries 0 (labLongLine.ctx.getSd 0) 0) labLongLine).length = 20 ∧
    (labPopped.ctx.getSd 0).pos = 16 ∧ (labPopped.ctx.getSd 0).lineAt = some (0, 16) ∧ (labPopped.ctx.pieces.map fun p => p.index) = [0] ∧
    (let t := after (popStream 0) (put labPopped (poolKey 0 0x7F80) (leBytes 32 0))
     (t.ctx.getSd 0).pos = 20 ∧ (t.ctx.getSd 0).lineAt = some (1, 0) ∧ t.ctx.pieces = []) ∧
    (answer (lineSkip 0 (labLongLine.ctx.getSd 0) 1 0 16) labLongLine) = (0, 16) ∧ (labPopped.ctx.dropPiece 0) = labPopped.ctx := by
  decide +kernel

/-- A piece fetched ahead is what the pop takes; SADV past it forgets it, and a stream may give it up before. -/
def labAhead : State := (nextOf (.streamPrefetch 0) (labDense .denseRead 0 2))
theorem test_witness_piece : (labAhead.ctx.pieces.map fun p => p.index) = [0] ∧
    (let t := after (popStream 0) (put labAhead (poolKey 0 0x7F80) [9])
     t.ctx.getV 28 = 0 ∧ t.ctx.pieces = [] ∧ (t.ctx.getSd 0).pos = 1) ∧
    ((nextOf (.streamPrefetch 0) labAhead).ctx.pieces.map fun p => p.index) = [0, 1] ∧
    ((nextOf (.sadv 0 4) ((nextOf (.streamPrefetch 0) labAhead).setX 4 1)).ctx.pieces.map fun p => p.index) = [1] ∧
    (labAhead.ctx.dropPiece 0).pieces = [] := by decide +kernel

/-- The quad of an MSTV holds a write stream that is full: the trap is at the push. -/
theorem test_witness_mstv_full : (labTile 63 0).ctx.hasMtxRegs (wordOf labMstv) = true ∧
    (let s := (labTile 63 0).modCtx fun c => c.setSd 1
      { val := 0x4800_0000_0000_0000 ||| own 0x7F80, coord := 0, pos := 2, limit := 2, kind := .denseWrite, bound := true }
     s.ctx.writeStreams [28, 29, 30, 31] = [1] ∧ s.mtxBlocks 0 [] [28, 29, 30, 31] = false ∧
     s.traps labMstv 8 (descAddress s.core.wp 1) 0x2000 s) := ⟨by decide +kernel, by decide +kernel, by decide +kernel, runs⟩

theorem test_witness_queues_kept : labQueues.core.bufferOf labQueues.ctx.lnum = none ∧ labQueues.ctx.holdsElements = true ∧
    (let t := labQueues.leaveContext false false
     t.ctx.rbuf = labQueues.ctx.rbuf ∧ t.ctx.q1 = labQueues.ctx.q1 ∧ t.ctx.q3 = labQueues.ctx.q3 ∧ t.ctx.q5 = labQueues.ctx.q5 ∧
     t.ctx.q6 = labQueues.ctx.q6) := by decide +kernel

/-- A command that another context of the core has executed in a gang is none of the active one's. -/
def labStagedOther : State := labGang.modGang 0 fun g => { g with
  staged := [{ k := 0, core := 0, lnum := 0, wuid := 5, job := labCommand (.mzero 7 0 0) .waiting 0 }] }

theorem test_witness_staged_other : (gangOf labStagedOther 0).staged.length = 1 ∧ labStagedOther.ctx.wuid = 0 ∧
    labStagedOther.completes (.qcnt 5 2) .seq (labStagedOther.setX 5 0) := ⟨by decide +kernel, by decide +kernel, runs⟩

/-- A core whose host store stands in the posted queue is not handed off; and the cores of a group stand in the order of its ids. -/
theorem test_witness_posted : (∃ f ∈ ((labHandoffDone.modDev fun d => { d with flights := labAckedHost.dev.flights }).dev.flights), f.acked = true ∧ f.core = 0) ∧
    exec .coreHandoff (labHandoffDone.modDev fun d => { d with flights := labAckedHost.dev.flights }) =
      .next (labHandoffDone.modDev fun d => { d with flights := labAckedHost.dev.flights }) :=
  ⟨⟨{ labStoreFlight with acked := true, home := 2 ^ 50, lnum := 1 }, by decide +kernel, by decide +kernel, by decide +kernel⟩, runs⟩

/-- An uncorrectable error of a vector register in the mirror: the register is open, and the self-test of unit 1 begins. -/
theorem test_mirror_error : ((lab.mirrorError 0 (.vreg 3)).dev.tests.map fun t => t.unit) = [1] ∧
    (lab.mirrorError 0 (.vreg 3)).ctx.getV 4 = lab.ctx.getV 4 ∧ (lab.mirrorError 0 (.vreg 3)).fresh = 1 := by
  decide +kernel

/-! ## Witnesses: switches, CSR traps, checks of blocks and headers, and what a fence, a port or a fault leaves -/

theorem test_witness_wswap_completes : labKSmall.core.level ≠ .u ∧ labKSmall.core.hold ≠ .wswap ∧ labKSmall.movesEntries = false ∧
    labKSmall.incoming = some ({ labKSmall.ctx with pc := labKSmall.core.kretpc }, 0, 0x8000) ∧ ppwWellFormed labKSmall.ctx.ppw = true ∧
    workspaceFits labKSmall.ctx.ppw 0x8000 0 0 = true ∧ labKSmall.core.retains labKSmall.ctx = true ∧ labKSmall.core.unack = 0 ∧
    labKSmall.core.dma = [] ∧ labKSmall.dev.eddy = [] ∧ labKSmall.core.mtx = [] ∧ labKSmall.stagedOf labKSmall.core = [] ∧
    labKSmall.appendsPending = false ∧ labKSmall.resultsPending = false ∧ exec .wswap labKSmall = .next (labKSmall.switchContext (wordOf .wswap)) ∧
    exec .wswap (labSwitch 0 0x9000) = .next ((labSwitch 0 0x9000).switchContext (wordOf .wswap)) :=
  ⟨by decide, by decide, by decide +kernel, by decide +kernel, by decide +kernel, by decide +kernel, by decide +kernel, rfl, rfl, rfl, rfl,
    by decide +kernel, by decide +kernel, by decide +kernel, runs, runs⟩

/-- A message that came in the wait, and KCTXB names no buffer for it. -/
def labCameIn : State := ((labSwitch 0 0x9000).modCtx fun c => { c with rbuf := [labMsg 0] }).modCore fun c => { c with hold := .wswap }
theorem test_witness_wswap_came : labCameIn.suspendIdle.mayLeave = true ∧ labCameIn.movesEntries = true ∧
    labCameIn.core.bufferOf labCameIn.ctx.lnum = none ∧ labCameIn.traps .wswap 8 0 0x2000 labCameIn.suspendIdle :=
  ⟨by decide +kernel, by decide +kernel, by decide +kernel, runs⟩

theorem test_witness_image_sorted : labKSmall.dev.cells = [] ∧ labKSmall.memOk ∧ (labOther 0).vregs ≤ 32 ∧ (labOther 0).bregs ≤ 16 :=
  ⟨rfl, memOk_of (by decide +kernel), by decide, by decide⟩

/-- The first address that is no longer the device's, and the last that is; a loop whose DELTA is at its end. -/
def labLoopEnd : State := (withXs 0 0).modCtx fun c => { c with lcount0 := 0x7FFF_FFFF_0000_0001, lend0 := 4 }
theorem test_witness_csr_refused :
    ((labAt .k).setX 1 0x80_0000_0001).traps (.csrw 0x10A 1) 8 0x80_0000_0001 0x2000 ((labAt .k).setX 1 0x80_0000_0001) ∧
    ((labAt .k).setX 1 0x80_0000_0001).traps (.csrs 0x10C 1) 8 0x80_0000_0001 0x2000 ((labAt .k).setX 1 0x80_0000_0001) ∧
    goesOn (.csrw 0x10A 1) ((labAt .k).setX 1 0x7F_FFFF_F001) = true ∧
    (nextOf (.csrw 0x10A 1) ((labAt .k).setX 1 0x7F_FFFF_F001)).core.kctxb = 0x7F_FFFF_F001 ∧
    labLoopEnd.traps (.csrw 0x00E 1) 8 0 0x2000 labLoopEnd ∧
    (nextOf (.csrw 0x00E 1) (labLoopEnd.setX 1 8)).ctx.lcount0 = 0x7FFF_FFFE_0000_0001 ∧
    (nextOf (.csrw 0x011 1) (labLoopEnd.setX 1 8)).ctx.lcount1 = labLoopEnd.ctx.lcount1 :=
  ⟨runs, runs, by decide +kernel, by decide +kernel, runs, by decide +kernel, by decide +kernel⟩

/-- A logic scan of a core that executes nothing, behind one that waits: passed and failed. -/
def labScans : State := (lab.modCoreId 1 fun c => { c with run := .ended }).modDev fun d => { d with
  tests := [{ unit := 6, place := physCoord 0, memSide := false }, { unit := 6, place := physCoord 1, memSide := false }] }
theorem test_witness_scan_ends : (nextOf (.selfTestComplete true) labScans).dev.tests.map (fun x => x.place) = [physCoord 0] ∧
    (nextOf (.selfTestComplete true) labScans).dev.fencedCores = [] ∧ (nextOf (.selfTestComplete true) labScans).dev.errlog.length = 1 ∧
    (nextOf (.selfTestComplete false) labScans).dev.fencedCores = [1] ∧
    (nextOf (.selfTestComplete false) labScans).dev.tests.map (fun x => x.place) = [physCoord 0] := by
  refine ⟨?_, ?_, ?_, ?_, ?_⟩ <;> decide +kernel

/-- Blocks at the bounds of R211 and R212: a gang of 48 and of 49, a reserved bit, and a record not aligned; and partitions. -/
theorem test_witness_block_bounds : (labFresh (labLpb (named 0x1000) 1 0 48 0 (named 0x7F40))).badLpb = false ∧
    (labFresh (labLpb (named 0x1000) 1 0 49 0 (named 0x7F40))).badLpb = true ∧ (labFresh (labLpb (named 0x1000) 1 0 1 8 (named 0x7F40))).badLpb = true ∧
    (labFresh (labLpb (named 0x1000) 1 0 1 0 (named 0x7F48))).badLpb = true ∧ (labFresh (labLpb (named 0x1000) 1 0 1 0 0)).badLpb = true := by
  decide +kernel

/-- Kernel headers at the bounds of R210 and R62: an entry below the code, and vector registers up to 32. -/
def labKernelOf (vregs entry code : Nat) : Launch := { labFresh lpbGood with
  hdr := BitVec.ofNat 512 (leNat (leBytes 3 0x494B5A ++ [1, BitVec.ofNat 8 vregs, 0, 0, 0, 1, 0, 0, 0] ++ leBytes 4 entry ++ leBytes 4 code ++ leBytes 44 0)) }
theorem test_witness_header_bounds : (labKernelOf 32 0x40 0x44).badHeader = false ∧ (labKernelOf 33 0x40 0x44).badHeader = true ∧
    (labKernelOf 1 0x3C 0x44).badHeader = true ∧ (labKernelOf 1 0x44 0x44).badHeader = true ∧ (labKernelOf 1 0x42 0x48).badHeader = true := by
  decide +kernel

/-- Grammar headers: the last kind and the one after it, and a body whose CRC is another. -/
def labHeaderOk (kind rules cols : Nat) : Bool := headerOk (BitVec.ofNat 512 (leNat (labHeader kind 0 rules 2 0 cols 0 16 3 0)))
theorem test_witness_grammar_checks : labHeaderOk 4 1 0 = true ∧ labHeaderOk 6 1 32768 = true ∧ labHeaderOk 6 1 32769 = false ∧ labHeaderOk 7 1 0 = false ∧
    labHeaderOk 4 2 0 = false ∧ labHeaderOk 4 1 1 = false ∧ bodyOk (BitVec.ofNat 512 (leNat labObject)) labBody = true ∧
    bodyOk (BitVec.ofNat 512 (leNat labObject)) (labBody ++ [0]) = false := by decide +kernel

/-- RSCAN inside rule 1, whose left child is a terminal and whose right is rule 1 itself: the terminal's record is written, then the trap. -/
def labInside : State := (put lab (poolKey 0 0x1000) (labTwo ++ (leBytes 4 3 ++ leBytes 4 4 ++ leBytes 4 9 ++ leBytes 4 0x80000001 ++ leBytes 4 0x80000001))).modCtx
  fun c => { c with gptr := labGrammar, rrt := own 0x6000, ghdr := BitVec.ofNat 512 (leNat labTwo), opd := 0x4_0001 }
def labLate : EStateM.Result Stop State (Nat × Option RuleRes) := interior 0 (own 0) none 3 true (spineInfo 0) 0x80000001 (0, none) labInside
theorem test_witness_interior : comesOutAs (interior 0 (own 0) none 1 true (spineInfo 0) 9 (0, none)) labInside (0, none) = true ∧
    comesOutAs (interior 0 (own 0) none 1 false (spineInfo 0) 9 (0, none)) labInside (1, some { len := 1, s0 := 9, s1 := 0, s2 := 0 }) = true ∧
    comesOutAs (interior 0 (own 0) none 2 true (spineInfo 0) 0x80000000 (0, none)) labInside (1, some { len := 1, s0 := 3, s1 := 0, s2 := 0 }) = true ∧
    (match labLate with
      | .ok _ _ => false
      | .error e t => decide (e = .trap 16 1 .here) && t.value (poolKey 0 0) 8 == 9 * 2 ^ 32 + 1) = true := by decide +kernel

/-- A column terminal whose column is the first that the header does not have. -/
def labColumns : State := labInside.modCtx fun c => { c with ghdr := BitVec.ofNat 512 (leNat (labHeader 5 0 2 1 0 1 0 20 3 0)) }
theorem test_witness_column : (match leafRes 1 0x10000 labColumns with
    | .ok _ _ => false
    | .error e _ => decide (e = .trap 23 1 .here)) = true ∧ comesOut (leafRes 1 0) labColumns = true := by decide +kernel

/-- The management core's mesh addresses are physical; the scratchpads of a core are the active context's and the parked ones'. -/
theorem test_witness_mesh_management : lab.meshKey { lab.who with mgmt := true, level := .k } 0x0080_0100_0000_0008 8 = some (poolKey 1 8) ∧
    lab.meshKey { lab.who with mgmt := true, level := .k } (0x0080_0000_0000_0000 ||| (2 ^ 40 * 48)) 8 = none ∧
    ((labSwitch 0 0x9000).isScratch 0 9 = false) ∧
    (((labSwitch 0 0x9000).modCore fun c => { c with residents := [{ labBeside with ppw := makePpw 9 1 10 0 8 4 0 0 }] }).isScratch 0 11 = true) := by
  decide +kernel

/-- The tag of an MSTA that faulted, with its record kept and with the record lost. -/
theorem test_witness_fault_tags : (nextOf .matrixCommandComplete (labStaFault.modCore fun c => { c with dmaTags := 2 ^ 57 })).core.dmaTags = 0 ∧
    (nextOf .matrixCommandComplete (labStaFault.modCore fun c => { c with dmaTags := 2 ^ 57, kefr := 0 })).core.dmaTags = 2 ^ 57 := by decide +kernel

/-- PREEMPT stands while the result of an atomic is outstanding: the next word is not started (R279); without that, the interrupt is taken. -/
def labPreempt : State := lab.modCore fun c => { c with kip := 2 }
def rests (s : State) : Bool := match s.planCore with
  | .rest _ => true
  | .run _ _ => false
theorem test_interrupt_first : labPreempt.takeable = some 1 ∧ rests (labPreempt.launchFlight (poolKey 1 0) (.store [1]) false false (some 5)) = true ∧
    rests labPreempt = false ∧ rests (lab.launchFlight (poolKey 1 0) (.store [1]) false false (some 5)) = false := by
  refine ⟨?_, ?_, ?_, ?_⟩ <;> decide +kernel

/-- An RMV whose row has lines that came is abandoned by PREEMPT with its row, and a load of other instructions is not (R411). -/
def labCame (i : Instr) : State := labPreempt.modCore fun c => { c with
  hold := .completes, issued := some (wordOf i), arrived := [{ key := 0, bytes := [1], error := none }], ctx := { c.ctx with rprog := 0x5_0000_0003 } }
theorem test_rule_abandoned : (labCame (.rmv 1 2 3)).mustFinish = false ∧ (nextOf .takeInterrupt (labCame (.rmv 1 2 3))).ctx.rprog = 0x6_0000_0000 ∧
    (nextOf .takeInterrupt (labCame (.rmv 1 2 3))).core.kip = 2 ∧ (labCame (.rgopen 1 2)).mustFinish = false ∧
    (labCame (.vld .w1 1 2 0 .stored)).mustFinish = true := by decide +kernel

/-- What a mirror's error leaves in a bit-stream register stays below its length (R424). -/
theorem test_mirror_length (n : Nat) (len : BitVec 2) (mask : Byte) : (BReg.of n len mask).bits.toNat < 2 ^ streamLen len := by
  refine Nat.lt_of_le_of_lt ?_ (Nat.mod_lt n (Nat.two_pow_pos (streamLen len)))
  simpa [BReg.of] using Nat.mod_le _ _

/-- A launch with a unit to restart on a core that is fenced, or that is fenced while it waits: the unit ends failed (R255). -/
def labRestarting (fenced : List Nat) : State := lab.modDev fun d => { d with
  fencedCores := fenced, launches := [{ labLaunch 1 0 0 with state := .eligible, units := [{ wuid := 0, core := 1, group := 0, order := 0, active := true }] }] }
def failedOf (s : State) : List Nat × List Nat := (s.dev.launches.map fun l => l.failedCount, s.dev.launches.map fun l => l.restarts.length)
theorem test_restart_fenced : failedOf ((labRestarting [1]).restartUnits 1 [{ wuid := 0, core := 1, group := 0, order := 0, active := true }]) = ([1], [0]) ∧
    failedOf ((labRestarting []).restartUnits 1 [{ wuid := 0, core := 1, group := 0, order := 0, active := true }]) = ([0], [1]) ∧
    failedOf (((labRestarting []).restartUnits 1 [{ wuid := 0, core := 1, group := 0, order := 0, active := true }]).fenceCore 1 0) = ([1], [0]) := by
  refine ⟨?_, ?_, ?_⟩ <;> decide +kernel

/-- A store that VNZ has still to make holds TLBINV.DEV (R327); a load that left before its port failed counts as left, a later one not (R464). -/
theorem test_left : lab.accessesInFlight = false ∧ (lab.modCore fun c => { c with listing := some [(0, [1])] }).accessesInFlight = true ∧
    (let far := 2 ^ 50
     let s := (lab.notePassed [(far, 8)]).modCore fun c => { c with arrived := [{ key := far, bytes := [1], error := none }] }
     s.haveLeft [(far, 8)] = true ∧ s.haveLeft [(far + 128, 8)] = false ∧ (lab.notePassed [(far, 8)]).haveLeft [(far, 8)] = false) := by
  decide +kernel

/-- The gang of cores 0 and 1 has a joint command and dissolves by its leader's GSPLIT: a former member is pre-empted with the others still (R448). -/
def labJoint : State := ((onCore labDetached 0).modCore fun c => { c with
  mtx := [{ labCommand (.mma 0 0 0 0 8 7 0 7) .running 0 with joint := some { id := 0, lead := 0, gang := 0, cores := [0], former := [] } }] })
theorem test_former_members : labJoint.ctx.gangMode = 1 ∧ (labJoint.splitGang.coreById 1).map (fun c => c.link) = some none ∧
    (labJoint.splitGang.coreById 1).map (fun c => (labJoint.splitGang.partners c).contains 0) = some true ∧
    ((labJoint.splitGang.modCore fun c => { c with mtx := [] }).coreById 1).map
      (fun c => ((labJoint.splitGang.modCore fun c => { c with mtx := [] }).partners c).contains 0) = some false := by decide +kernel

end Sys2Proof.Tests
end

section
/-!
PROOFS. The special registers (R5, R298, R299, R319): what a CSR instruction does, what a write of a register leaves of the others, and the fields whose
reserved values a write does not take.
-/

namespace Sys2Proof.Machine

/-! ## Fields of words -/

/-- Two words whose bits agree over a field hold the same value in it. -/
theorem field_eq_of_getLsbD_eq {w w' : Nat} {x : BitVec w} {y : BitVec w'} (lo n : Nat)
    (h : ∀ i, i < n → x.getLsbD (lo + i) = y.getLsbD (lo + i)) : x.toNat / 2 ^ lo % 2 ^ n = y.toNat / 2 ^ lo % 2 ^ n := by
  apply Nat.eq_of_testBit_eq
  intro i
  rw [Nat.testBit_mod_two_pow, Nat.testBit_mod_two_pow, Nat.testBit_div_two_pow, Nat.testBit_div_two_pow]
  by_cases hi : i < n
  · simpa [hi, Nat.add_comm, BitVec.getLsbD] using h i hi
  · simp [hi]

theorem toNat_keepLow (w : Word) {n : Nat} (hn : n ≤ 64) : (keepLow w n).toNat = w.toNat % 2 ^ n := by
  have hp : 2 ^ n ≤ 2 ^ 64 := Nat.pow_le_pow_right (by decide) hn
  have : (2 ^ n - 1) % 2 ^ 64 = 2 ^ n - 1 := Nat.mod_eq_of_lt (by have := Nat.two_pow_pos n; omega)
  rw [keepLow, BitVec.toNat_and, BitVec.toNat_ofNat, this, Nat.and_two_pow_sub_one_eq_mod]

theorem keepLow_eq_low48 (w : Word) : keepLow w 48 = low48 w := by
  apply BitVec.eq_of_toNat_eq
  rw [toNat_keepLow w (by decide), low48, BitVec.toNat_ofNat]
  omega

theorem keepLow_eq_zero_iff (w : Word) : keepLow w 32 = 0 ↔ w.toNat % 2 ^ 32 = 0 := by
  rw [← toNat_keepLow w (by decide), ← BitVec.toNat_inj]
  rfl

/-- A word with its upper half replaced. -/
theorem putBits_upper (w : Word) {v : Nat} (hv : v < 2 ^ 32) : putBits w 32 32 v = BitVec.ofNat 64 (w.toNat % 2 ^ 32 + v * 2 ^ 32) := by
  apply BitVec.eq_of_getLsbD_eq
  intro i hi
  have hlow : w.toNat % 2 ^ 32 < 2 ^ 32 := Nat.mod_lt _ (by decide)
  rw [Nat.add_comm, Nat.mul_comm, BitVec.getLsbD_ofNat, Nat.testBit_two_pow_mul_add _ hlow, putBits, Nat.mod_eq_of_lt hv]
  simp only [BitVec.getLsbD_or, BitVec.getLsbD_and, BitVec.getLsbD_not, BitVec.getLsbD_shiftLeft, BitVec.getLsbD_ofNat]
  by_cases h : i < 32
  · rw [if_pos h, Nat.testBit_mod_two_pow]
    simp [h, hi, BitVec.getLsbD]
  · have hi' : i - 32 < 32 := by omega
    have hmask : Nat.testBit 4294967295 (i - 32) = true := (Nat.testBit_two_pow_sub_one 32 (i - 32)).trans (decide_eq_true hi')
    rw [if_neg h]
    simp [h, hi, hmask, Nat.lt_trans hi' (by decide : 32 < 64)]

/-! ## What the registers read (R299) -/

/-- The assigned registers with what they read, in the order of their numbers. -/
def State.csrReads (s : State) : List (Nat × Word) :=
  let c := s.ctx
  let k := s.core
  [(0x000, k.cycle), (0x001, s.dev.time), (0x002, k.coreId), (0x003, c.wuid), (0x004, c.gang.setWidth 64), (0x005, c.fstat.setWidth 64),
   (0x006, c.tagrdy), (0x007, c.tagerr), (0x008, BitVec.ofNat 64 k.unack), (0x009, c.mtmask.setWidth 64), (0x00A, c.rprog), (0x00B, c.dealpat),
   (0x00C, c.lcount0), (0x00D, c.lstart0), (0x00E, c.lend0), (0x00F, c.lcount1), (0x010, c.lstart1), (0x011, c.lend1),
   (0x012, c.evEn.setWidth 64 ||| (c.evPend.setWidth 64 <<< 8)),
   (0x013, (k.banksel.setWidth 64 <<< 48) ||| (k.bankcf[k.banksel.toNat]'(k.banksel.isLt)).setWidth 64), (0x014, k.expstall.setWidth 64),
   (0x100, k.kvec), (0x101, k.kcause), (0x102, k.kinfo), (0x103, k.kretpc), (0x104, k.kstat), (0x105, k.kscr), (0x106, k.wp.setWidth 64),
   (0x107, k.kptb), (0x108, k.kieRead.setWidth 64), (0x109, s.kip.setWidth 64), (0x10A, k.kctxb), (0x10B, k.ktcmp), (0x10C, k.kefr),
   (0x300, k.fvec), (0x301, k.fcause), (0x302, k.finfo), (0x303, k.fretpc), (0x304, k.fstatus), (0x305, k.fscr), (0x306, k.fdeleg)]

/-- Reading a register looks its number up: two states that read alike agree in every register. -/
theorem State.csrGet_eq_lookup (s : State) (m : Nat) : s.csrGet m = s.csrReads.lookup m := by
  unfold State.csrGet
  dsimp only
  split
  case h_42 =>
    symm
    rw [List.lookup_eq_none_iff]
    simp_all [State.csrReads]
  all_goals rfl

/-- The assigned numbers. -/
def csrNumbers : List Nat :=
  [0x000, 0x001, 0x002, 0x003, 0x004, 0x005, 0x006, 0x007, 0x008, 0x009, 0x00A, 0x00B, 0x00C, 0x00D, 0x00E, 0x00F, 0x010, 0x011, 0x012, 0x013, 0x014,
   0x100, 0x101, 0x102, 0x103, 0x104, 0x105, 0x106, 0x107, 0x108, 0x109, 0x10A, 0x10B, 0x10C, 0x300, 0x301, 0x302, 0x303, 0x304, 0x305, 0x306]

theorem State.keys_csrReads (s : State) : s.csrReads.map Prod.fst = csrNumbers := rfl

/-- Replacing the entry of one key changes what is found under that key alone. -/
theorem lookup_set_idxOf {α : Type} {n : Nat} (m : Nat) (x : α) {l : List (Nat × α)} (h : n ∈ l.map Prod.fst) :
    (l.set ((l.map Prod.fst).idxOf n) (n, x)).lookup m = if m = n then some x else l.lookup m := by
  induction l with
  | nil => simp at h
  | cons p l ih =>
    obtain ⟨k, y⟩ := p
    by_cases hk : k = n
    · subst hk
      by_cases hm : m = k
      · simp [hm]
      · have hb : (m == k) = false := by simpa using hm
        simp [List.lookup_cons, hm, hb]
    · have hn : n ∈ l.map Prod.fst := by simpa [Ne.symm hk] using h
      rw [List.map_cons, List.idxOf_cons_ne _ hk, List.set_cons_succ, List.lookup_cons, List.lookup_cons, ih hn]
      by_cases hm : m = k
      · subst hm
        simp [hk]
      · have hb : (m == k) = false := by simpa using hm
        simp [hb]

theorem lookup_set_csr {l : List (Nat × Word)} (hl : l.map Prod.fst = csrNumbers) {n : Nat} (hn : n ∈ csrNumbers) (m : Nat) (x : Word) :
    (l.set (csrNumbers.idxOf n) (n, x)).lookup m = if m = n then some x else l.lookup m := by
  rw [← hl] at hn ⊢
  exact lookup_set_idxOf m x hn

/-- One register takes a value and no other changes. -/
theorem State.csrGet_of_reads_set {s t : State} {n : Nat} {x : Word} (hn : n ∈ csrNumbers)
    (h : t.csrReads = s.csrReads.set (csrNumbers.idxOf n) (n, x)) (m : Nat) : t.csrGet m = if m = n then some x else s.csrGet m := by
  rw [csrGet_eq_lookup, csrGet_eq_lookup, h, lookup_set_csr s.keys_csrReads hn]

/-- Two registers take a value each and no other changes. -/
theorem State.csrGet_of_reads_set_set {s t : State} {n k : Nat} {x y : Word} (hn : n ∈ csrNumbers) (hk : k ∈ csrNumbers)
    (h : t.csrReads = (s.csrReads.set (csrNumbers.idxOf n) (n, x)).set (csrNumbers.idxOf k) (k, y))
    (hkeys : (s.csrReads.set (csrNumbers.idxOf n) (n, x)).map Prod.fst = csrNumbers) (m : Nat) :
    t.csrGet m = if m = k then some y else if m = n then some x else s.csrGet m := by
  rw [csrGet_eq_lookup, csrGet_eq_lookup, h, lookup_set_csr hkeys hk, lookup_set_csr s.keys_csrReads hn]

/-! ## What a write stores (R5, R299) -/

/-- The registers of a context whose readable fields a write may all set, and which take the value as it is. -/
def wholeUserCsrs : List Nat := [0x009, 0x00A, 0x00B, 0x00C, 0x00D, 0x00F, 0x010, 0x012]

/-- Those of K and F, but for KTCMP, which moves KIP too. -/
def wholePrivilegedCsrs : List Nat := [0x100, 0x101, 0x102, 0x103, 0x104, 0x105, 0x107, 0x10A, 0x10C, 0x300, 0x301, 0x302, 0x303, 0x305, 0x306]

/-- A word of a register's writable bits alone has a bit only where the register has a writable one. -/
theorem getElem_of_within {x m : Word} (hx : x &&& ~~~m = 0) {i : Nat} (hi : i < 64) (hm : m.getLsbD i = false) : x[i] = false := by
  have h := congrArg (fun y => BitVec.getLsbD y i) hx
  rw [BitVec.getLsbD_eq_getElem hi] at hm
  simpa [hi, hm] using h

theorem getLsbD_of_lt_two_pow {w i : Nat} (m : BitVec w) {n : Nat} (hm : m.toNat < 2 ^ n) (h : ¬i < n) : m.getLsbD i = false :=
  Nat.testBit_lt_two_pow (Nat.lt_of_lt_of_le hm (Nat.pow_le_pow_right (by decide) (Nat.le_of_not_lt h)))

/-- A word that MTMASK can hold reads back from its 32 bits. -/
theorem mtmask_reads {x : Word} (hx : x &&& ~~~csrRw 0x009 = 0) : (x.setWidth 32).setWidth 64 = x := by
  apply BitVec.eq_of_getLsbD_eq
  intro i hi
  by_cases h : i < 32
  · simp [hi, h]
  · have hm : (csrRw 0x009).getLsbD i = false := getLsbD_of_lt_two_pow _ (by decide) h
    simp [hi, h, getElem_of_within hx hi hm]

/-- A word that EVMASK can hold reads back from its two bytes. -/
theorem evMask_reads {x : Word} (hx : x &&& ~~~csrRw 0x012 = 0) :
    (x.setWidth 8).setWidth 64 ||| (((x >>> 8).setWidth 8).setWidth 64 <<< 8) = x := by
  apply BitVec.eq_of_getLsbD_eq
  intro i hi
  by_cases h : i < 16
  · interval_cases i <;> simp
  · have hm : (csrRw 0x012).getLsbD i = false := getLsbD_of_lt_two_pow _ (by decide) h
    have h8 : ¬i < 8 := by omega
    have h8' : ¬i - 8 < 8 := by omega
    simp [hi, h8, h8', getElem_of_within hx hi hm]

theorem State.csrReads_csrPut_user (s : State) {n : Nat} {x : Word} (hn : n ∈ wholeUserCsrs) (hx : x &&& ~~~csrRw n = 0) :
    (s.csrPut n x).csrReads = s.csrReads.set (csrNumbers.idxOf n) (n, x) := by
  simp only [wholeUserCsrs, List.mem_cons, List.not_mem_nil, or_false] at hn
  rcases hn with rfl | rfl | rfl | rfl | rfl | rfl | rfl | rfl
  case inl => exact congrArg (fun y => s.csrReads.set (csrNumbers.idxOf 0x009) (0x009, y)) (mtmask_reads hx)
  case inr.inr.inr.inr.inr.inr.inr => exact congrArg (fun y => s.csrReads.set (csrNumbers.idxOf 0x012) (0x012, y)) (evMask_reads hx)
  all_goals rfl

theorem State.csrReads_csrPut_privileged (s : State) {n : Nat} (x : Word) (hn : n ∈ wholePrivilegedCsrs) :
    (s.csrPut n x).csrReads = s.csrReads.set (csrNumbers.idxOf n) (n, x) := by
  simp only [wholePrivilegedCsrs, List.mem_cons, List.not_mem_nil, or_false] at hn
  rcases hn with rfl | rfl | rfl | rfl | rfl | rfl | rfl | rfl | rfl | rfl | rfl | rfl | rfl | rfl | rfl <;> rfl

/-- A write of KTCMP: KIP reads whether TIME has reached it (R235, R236). -/
theorem State.csrGet_csrPut_ktcmp (s : State) (x : Word) (m : Nat) :
    ∃ y, (s.csrPut 0x10B x).csrGet m = if m = 0x109 then some y else if m = 0x10B then some x else s.csrGet m :=
  ⟨_, State.csrGet_of_reads_set_set (by decide) (by decide) rfl rfl m⟩

/-- A write of LEND0 moves LCOUNT0 (R316). -/
theorem State.csrGet_csrPut_lend0 (s : State) (x : Word) (m : Nat) :
    (s.csrPut 0x00E x).csrGet m = if m = 0x00C then some ((lendDelta s.ctx.lcount0 s.ctx.lend0 x).getD s.ctx.lcount0) else
      if m = 0x00E then some x else s.csrGet m :=
  State.csrGet_of_reads_set_set (by decide) (by decide) rfl rfl m

/-- A write of LEND1 moves LCOUNT1 (R316). -/
theorem State.csrGet_csrPut_lend1 (s : State) (x : Word) (m : Nat) :
    (s.csrPut 0x011 x).csrGet m = if m = 0x00F then some ((lendDelta s.ctx.lcount1 s.ctx.lend1 x).getD s.ctx.lcount1) else
      if m = 0x011 then some x else s.csrGet m :=
  State.csrGet_of_reads_set_set (by decide) (by decide) rfl rfl m


/-! ## LEND of an active loop (R316) -/

/-- The DELTA that keeps the end in force where LEND moves. -/
def movedDelta (count old new : Word) : Int := (BitVec.ofNat 32 (count.toNat / 2 ^ 32)).toInt + ((old.toNat : Int) - new.toNat) / 4

theorem lendDelta_idle {count : Word} (h : count.toNat % 2 ^ 32 = 0) (old new : Word) : lendDelta count old new = some count := by
  rw [lendDelta, if_pos ((keepLow_eq_zero_iff count).mpr h)]

/-- Of an active loop, DELTA takes the moved value where that fits its 32 bits, and the write is refused where it does not. -/
theorem lendDelta_active {count : Word} (h : count.toNat % 2 ^ 32 ≠ 0) (old new : Word) :
    lendDelta count old new = if -2 ^ 31 ≤ movedDelta count old new ∧ movedDelta count old new < 2 ^ 31 then
      some (BitVec.ofNat 64 (count.toNat % 2 ^ 32 + (BitVec.ofInt 32 (movedDelta count old new)).toNat * 2 ^ 32)) else none := by
  have hd : (count >>> 32).setWidth 32 = BitVec.ofNat 32 (count.toNat / 2 ^ 32) := by
    apply BitVec.eq_of_toNat_eq
    simp [Nat.shiftRight_eq_div_pow]
  rw [lendDelta, if_neg (by rwa [keepLow_eq_zero_iff]), hd]
  dsimp only
  rw [putBits_upper _ (BitVec.isLt _)]
  rfl

/-! ## The value that a write stores (R319) -/

/-- A write of a register without bits that ones clear, and without readable bits that a write may not set. -/
theorem csrValue_write_whole {n : Nat} {old : Word} (h : old &&& ~~~csrRw n = 0) (hn : n ≠ 0x109) (v : Word) :
    csrValue .write n old v = v &&& csrRw n := by
  have h' : old &&& ~~~csrRw n = 0#64 := h
  have hw : csrW1c n = 0#64 := if_neg hn
  rw [csrValue, h', hw, BitVec.zero_or, BitVec.and_zero, BitVec.not_zero, BitVec.and_allOnes]

theorem within_and (v m : Word) : v &&& m &&& ~~~m = 0 := by
  rw [BitVec.and_assoc, BitVec.and_not_self]
  exact BitVec.and_zero

/-! ## Reserved values (R36, R230) -/

theorem fstatWrite_low (old v : BitVec 9) : (fstatWrite old v).toNat % 2 ^ 5 = v.toNat % 2 ^ 5 := by
  have := field_eq_of_getLsbD_eq (x := fstatWrite old v) (y := v) 0 5 fun i hi => by
    unfold fstatWrite
    split
    · interval_cases i <;> simp
    · rfl
  simpa using this

/-- FSTAT's rounding mode takes no reserved value. -/
theorem fstatWrite_rm (old v : BitVec 9) :
    (fstatWrite old v).toNat / 2 ^ 5 % 2 ^ 3 = if v.toNat / 2 ^ 5 % 2 ^ 3 < 4 then v.toNat / 2 ^ 5 % 2 ^ 3 else old.toNat / 2 ^ 5 % 2 ^ 3 := by
  unfold fstatWrite
  by_cases h : v.toNat / 2 ^ 5 % 2 ^ 3 < 4
  · rw [if_pos h, if_neg (by omega)]
  · rw [if_neg h, if_pos (by omega)]
    exact field_eq_of_getLsbD_eq 5 3 fun i hi => by interval_cases i <;> simp

theorem fstatWrite_narm (old v : BitVec 9) : (fstatWrite old v).getLsbD 8 = v.getLsbD 8 := by
  unfold fstatWrite
  split
  · simp
  · rfl

theorem fstatusWrite_low (old v : Word) : (fstatusWrite old v).toNat % 2 ^ 2 = v.toNat % 2 ^ 2 := by
  have := field_eq_of_getLsbD_eq (x := fstatusWrite old v) (y := v) 0 2 fun i hi => by
    unfold fstatusWrite
    split
    · interval_cases i <;> simp
    · rfl
  simpa using this

/-- FSTATUS takes no PPL of 0b11. -/
theorem fstatusWrite_ppl (old v : Word) :
    (fstatusWrite old v).toNat / 2 ^ 2 % 2 ^ 2 = if v.toNat / 2 ^ 2 % 2 ^ 2 < 3 then v.toNat / 2 ^ 2 % 2 ^ 2 else old.toNat / 2 ^ 2 % 2 ^ 2 := by
  unfold fstatusWrite bits
  by_cases h : v.toNat / 2 ^ 2 % 2 ^ 2 < 3
  · rw [if_pos h, if_neg (by omega)]
  · rw [if_neg h, if_pos (by omega)]
    exact field_eq_of_getLsbD_eq 2 2 fun i hi => by interval_cases i <;> simp

theorem fstatusWrite_high (old v : Word) : (fstatusWrite old v).toNat / 2 ^ 4 = v.toNat / 2 ^ 4 := by
  have := field_eq_of_getLsbD_eq (x := fstatusWrite old v) (y := v) 4 60 fun i hi => by
    have h : (0xC#64).getLsbD (4 + i) = false := getLsbD_of_lt_two_pow _ (n := 4) (by decide) (by omega)
    unfold fstatusWrite
    split
    · rw [BitVec.getLsbD_or, BitVec.getLsbD_and, BitVec.getLsbD_and, BitVec.getLsbD_not, h]
      simp
      omega
    · rfl
  have h1 := (fstatusWrite old v).isLt
  have h2 := v.isLt
  omega


/-! ## CsrReadsBackWhatWasWritten -/

/-- What LENDn, its number n, and LCOUNTn, its number m, read after a write of LENDn. -/
theorem State.csrPut_lend_reads {s t : State} {n m : Nat} {count lend new : Word} (hnm : n ≠ m)
    (h : ∀ k, t.csrGet k = if k = m then some ((lendDelta count lend new).getD count) else if k = n then some new else s.csrGet k) :
    t.csrGet n = some new ∧ (∀ k, k ≠ n → k ≠ m → t.csrGet k = s.csrGet k) ∧ (count.toNat % 2 ^ 32 = 0 → t.csrGet m = some count) ∧
      (count.toNat % 2 ^ 32 ≠ 0 ∧ -2 ^ 31 ≤ movedDelta count lend new ∧ movedDelta count lend new < 2 ^ 31 →
        t.csrGet m = some (BitVec.ofNat 64 (count.toNat % 2 ^ 32 + (BitVec.ofInt 32 (movedDelta count lend new)).toNat * 2 ^ 32))) := by
  refine ⟨?_, ?_, ?_, ?_⟩
  · rw [h, if_neg hnm, if_pos rfl]
  · intro k hn hm
    rw [h, if_neg hm, if_neg hn]
  · intro idle
    rw [h, if_pos rfl, lendDelta_idle idle, Option.getD_some]
  · intro ⟨active, fits⟩
    rw [h, if_pos rfl, lendDelta_active active, if_pos fits, Option.getD_some]

/-- A register all of whose readable fields a write may set takes what is written, and no other moves, but KIP with KTCMP. -/
theorem State.csrGet_csrPut_whole (s : State) {n : Nat} {x : Word} (hn : n ∈ wholeUserCsrs ∨ n ∈ wholePrivilegedCsrs ∨ n = 0x10B)
    (hx : x &&& ~~~csrRw n = 0) :
    (s.csrPut n x).csrGet n = some x ∧ ∀ m, m ≠ n → (s.csrPut n x).csrGet m = s.csrGet m ∨ n = 0x10B ∧ m = 0x109 := by
  have alone (hc : n ∈ csrNumbers) (h : (s.csrPut n x).csrReads = s.csrReads.set (csrNumbers.idxOf n) (n, x)) :
      (s.csrPut n x).csrGet n = some x ∧ ∀ m, m ≠ n → (s.csrPut n x).csrGet m = s.csrGet m ∨ n = 0x10B ∧ m = 0x109 :=
    ⟨by rw [State.csrGet_of_reads_set hc h, if_pos rfl], fun m hm => .inl (by rw [State.csrGet_of_reads_set hc h, if_neg hm])⟩
  rcases hn with hu | hp | rfl
  · exact alone ((by decide : ∀ k ∈ wholeUserCsrs, k ∈ csrNumbers) n hu) (s.csrReads_csrPut_user hu hx)
  · exact alone ((by decide : ∀ k ∈ wholePrivilegedCsrs, k ∈ csrNumbers) n hp) (s.csrReads_csrPut_privileged x hp)
  · refine ⟨?_, fun m hm => ?_⟩
    · obtain ⟨y, h⟩ := s.csrGet_csrPut_ktcmp x 0x10B
      exact h
    · by_cases hk : m = 0x109
      · exact .inr ⟨rfl, hk⟩
      · obtain ⟨y, h⟩ := s.csrGet_csrPut_ktcmp x m
        exact .inl (by rw [h, if_neg hk, if_neg hm])

theorem toNat_setWidth_nine (v : Word) : (v.setWidth 9).toNat = v.toNat % 2 ^ 9 := BitVec.toNat_setWidth 9 v

/-- Settles O22: by the list of what the registers read, in which a write replaces the entry of its own number, and by the fields of FSTAT and FSTATUS. -/
theorem csrReadsBackWhatWasWritten : Obligations.CsrReadsBackWhatWasWritten := by
  unfold Obligations.CsrReadsBackWhatWasWritten
  intro s
  refine ⟨⟨fun v op => ?_, fun v op => ?_⟩, fun n old v hn _ hold => ?_, fun v op => ⟨rfl, ?_, ?_, ?_⟩, fun v op => ⟨rfl, ?_, ?_, ?_⟩⟩
  · exact State.csrPut_lend_reads (by decide) (s.csrGet_csrPut_lend0 _)
  · exact State.csrPut_lend_reads (by decide) (s.csrGet_csrPut_lend1 _)
  · have ne : n ≠ 0x109 := by
      rintro rfl
      exact absurd hn (by decide)
    rw [csrValue_write_whole hold ne]
    refine s.csrGet_csrPut_whole ?_ (within_and v _)
    simp only [List.mem_cons, List.not_mem_nil, or_false] at hn
    simp only [wholeUserCsrs, wholePrivilegedCsrs, List.mem_cons, List.not_mem_nil, or_false]
    tauto
  · refine (fstatWrite_rm _ _).trans ?_
    have rm (x : Nat) : x % 2 ^ 9 / 2 ^ 5 % 2 ^ 3 = x / 2 ^ 5 % 2 ^ 3 := by omega
    rw [toNat_setWidth_nine, rm]
  · refine (fstatWrite_low _ _).trans ?_
    rw [toNat_setWidth_nine]
    omega
  · refine (fstatWrite_narm _ _).trans ?_
    simp
  · exact fstatusWrite_ppl _ _
  · exact fstatusWrite_low _ _
  · exact fstatusWrite_high _ _

/-! ## The instructions (R298, R319) -/

/-- The CSR instruction that writes in a given way. -/
def CsrOp.instr (op : CsrOp) (csr : BitVec 12) (rs1 : Reg) : Instr :=
  match op with
  | .write => .csrw csr rs1
  | .set => .csrs csr rs1
  | .clear => .csrc csr rs1

theorem exec_csrInstr (op : CsrOp) (csr : BitVec 12) (rs1 : Reg) (s : State) :
    exec (op.instr csr rs1) s = runSeq (op.instr csr rs1) (csrWrite (op.instr csr rs1) op csr rs1) s := by
  cases op <;> rfl

theorem exec_csrr (rd : Reg) (csr : BitVec 12) (s : State) :
    exec (.csrr rd csr) s = runSeq (.csrr rd csr) (do setX rd (← csrCheck (.csrr rd csr) csr)) s := rfl

/-- A level reaches a number: F all, K those below 0x300, U those below 0x100. -/
theorem Level.atLeast_csrLevel_iff (l : Level) (n : Nat) :
    l.atLeast (csrLevel n) = true ↔ l = .f ∨ l = .k ∧ n < 0x300 ∨ n < 0x100 := by
  unfold csrLevel Level.atLeast
  cases l <;> split <;> (try split) <;> simp [Level.code] <;> omega

/-- A number that the level reaches and that is assigned passes the checks. -/
theorem run_csrCheck {s : State} {csr : BitVec 12} {old : Word} (i : Instr)
    (hl : s.core.level = .f ∨ s.core.level = .k ∧ csr.toNat < 0x300 ∨ csr.toNat < 0x100) (hg : s.csrGet csr.toNat = some old) :
    csrCheck i csr s = .ok old s := by
  have hr := (Level.atLeast_csrLevel_iff _ _).mpr hl
  unfold csrCheck
  simp [run_bind, hr, hg]

/-- The value that a CSR instruction stores. -/
def State.csrStored (s : State) (op : CsrOp) (csr : BitVec 12) (rs1 : Reg) (old : Word) : Word := csrValue op csr.toNat old (s.ctx.getX rs1)

/-- What a CSR instruction that writes does once its number has passed: it traps ACCESS, with the value of an area or else the operand, or stores. -/
theorem run_csrWrite {s : State} {csr : BitVec 12} {old : Word} (i : Instr) (op : CsrOp) (rs1 : Reg) (h : csrCheck i csr s = .ok old s) :
    csrWrite i op csr rs1 s =
      if (csr.toNat = 0x10A ∨ csr.toNat = 0x10C) ∧ badArea (s.csrStored op csr rs1 old) = true then
        .error (.trap cAccess (s.csrStored op csr rs1 old) .here) s
      else if csr.toNat = 0x00E ∧ (lendDelta s.ctx.lcount0 s.ctx.lend0 (s.csrStored op csr rs1 old)).isNone = true then
        .error (.trap cAccess (s.ctx.getX rs1) .here) s
      else if csr.toNat = 0x011 ∧ (lendDelta s.ctx.lcount1 s.ctx.lend1 (s.csrStored op csr rs1 old)).isNone = true then
        .error (.trap cAccess (s.ctx.getX rs1) .here) s
      else .ok () (s.csrPut csr.toNat (s.csrStored op csr rs1 old)) := by
  have h10A : csr = 0x10A ↔ csr.toNat = 0x10A := BitVec.toNat_inj.symm
  have h10C : csr = 0x10C ↔ csr.toNat = 0x10C := BitVec.toNat_inj.symm
  have h00E : csr = 0x00E ↔ csr.toNat = 0x00E := BitVec.toNat_inj.symm
  have h011 : csr = 0x011 ↔ csr.toNat = 0x011 := BitVec.toNat_inj.symm
  unfold csrWrite
  rw [run_bind_ok h, run_bind_ok (run_getX _ _)]
  dsimp only
  rw [run_bind_ok (run_getCtx _), ← State.csrStored]
  simp only [h10A, h10C, h00E, h011]
  by_cases area : (csr.toNat = 0x10A ∨ csr.toNat = 0x10C) ∧ badArea (s.csrStored op csr rs1 old) = true
  · rw [if_pos area, if_pos area]
    rfl
  rw [if_neg area, if_neg area]
  by_cases end0 : csr.toNat = 0x00E ∧ (lendDelta s.ctx.lcount0 s.ctx.lend0 (s.csrStored op csr rs1 old)).isNone = true
  · rw [if_pos end0, if_pos end0]
    rfl
  rw [if_neg end0, if_neg end0]
  by_cases end1 : csr.toNat = 0x011 ∧ (lendDelta s.ctx.lcount1 s.ctx.lend1 (s.csrStored op csr rs1 old)).isNone = true
  · rw [if_pos end1, if_pos end1]
    rfl
  · rw [if_neg end1, if_neg end1]
    rfl

/-- An engine area or context buffer that is in use outside local device memory (R152, R241). -/
theorem badArea_iff (v : Word) : badArea v = true ↔ v.getLsbD 0 = true ∧ 2 ^ 39 ≤ v.toNat / 2 ^ 12 % 2 ^ 40 * 4096 := by
  rw [badArea, Bool.and_eq_true, decide_eq_true_iff]
  rfl

/-- A DELTA that does not fit (R316). -/
theorem lendDelta_isNone_iff (count old new : Word) : (lendDelta count old new).isNone = true ↔
    count.toNat % 2 ^ 32 ≠ 0 ∧ (movedDelta count old new < -2 ^ 31 ∨ 2 ^ 31 ≤ movedDelta count old new) := by
  by_cases idle : count.toNat % 2 ^ 32 = 0
  · rw [lendDelta_idle idle]
    exact iff_of_false (by simp) fun h => h.1 idle
  · rw [lendDelta_active idle]
    by_cases fits : -2 ^ 31 ≤ movedDelta count old new ∧ movedDelta count old new < 2 ^ 31
    · rw [if_pos fits]
      simp only [Option.isNone_some, Bool.false_eq_true, false_iff]
      omega
    · rw [if_neg fits]
      simp only [Option.isNone_none, true_iff]
      omega

section Writes
variable {s : State} {csr : BitVec 12} {old : Word} {rs1 : Reg} {op : CsrOp}
  (hl : s.core.level = .f ∨ s.core.level = .k ∧ csr.toNat < 0x300 ∨ csr.toNat < 0x100) (hg : s.csrGet csr.toNat = some old)
include hl hg

/-- A CSR instruction whose value nothing keeps from being stored stores it. -/
theorem csrInstr_completes (area : ¬((csr.toNat = 0x10A ∨ csr.toNat = 0x10C) ∧ badArea (s.csrStored op csr rs1 old) = true))
    (end0 : csr.toNat = 0x00E → (lendDelta s.ctx.lcount0 s.ctx.lend0 (s.csrStored op csr rs1 old)).isSome = true)
    (end1 : csr.toNat = 0x011 → (lendDelta s.ctx.lcount1 s.ctx.lend1 (s.csrStored op csr rs1 old)).isSome = true) :
    s.completes (op.instr csr rs1) .seq (s.csrPut csr.toNat (s.csrStored op csr rs1 old)) := by
  have fits {P : Prop} {o : Option Word} (h : P → o.isSome = true) : ¬(P ∧ o.isNone = true) := fun ⟨p, isNone⟩ => by
    rw [Option.isNone_iff_eq_none] at isNone
    exact absurd (h p) (by simp [isNone])
  rw [State.completes, exec_csrInstr]
  apply runSeq_ok
  rw [run_csrWrite _ _ _ (run_csrCheck _ hl hg), if_neg area, if_neg (fits end0), if_neg (fits end1)]

/-- Any other traps ACCESS at itself. -/
theorem csrInstr_refused (pending : s.resultsPending = false) :
    ((csr.toNat = 0x10A ∨ csr.toNat = 0x10C) ∧ badArea (s.csrStored op csr rs1 old) = true →
      s.traps (op.instr csr rs1) 8 (s.csrStored op csr rs1 old) s.ctx.pc s) ∧
    (csr.toNat = 0x00E ∧ (lendDelta s.ctx.lcount0 s.ctx.lend0 (s.csrStored op csr rs1 old)).isNone = true →
      s.traps (op.instr csr rs1) 8 (s.ctx.getX rs1) s.ctx.pc s) ∧
    (csr.toNat = 0x011 ∧ (lendDelta s.ctx.lcount1 s.ctx.lend1 (s.csrStored op csr rs1 old)).isNone = true →
      s.traps (op.instr csr rs1) 8 (s.ctx.getX rs1) s.ctx.pc s) := by
  have run := run_csrWrite (op.instr csr rs1) op rs1 (run_csrCheck _ hl hg)
  have traps {info : Word} (h : csrWrite (op.instr csr rs1) op csr rs1 s = .error (.trap cAccess info .here) s) :
      s.traps (op.instr csr rs1) 8 info s.ctx.pc s := by
    rw [State.traps, exec_csrInstr]
    exact runSeq_trap h pending
  refine ⟨fun area => traps ?_, fun end0 => traps ?_, fun end1 => traps ?_⟩
  · rw [run, if_pos area]
  · have other : ¬(csr.toNat = 0x10A ∨ csr.toNat = 0x10C) := by omega
    rw [run, if_neg fun h => other h.1, if_pos end0]
  · have other : ¬(csr.toNat = 0x10A ∨ csr.toNat = 0x10C) := by omega
    have other0 : csr.toNat ≠ 0x00E := by omega
    rw [run, if_neg fun h => other h.1, if_neg fun h => other0 h.1, if_pos end1]

theorem csrr_computes (rd : Reg) : s.computes (.csrr rd csr) rd old := by
  rw [State.computes, State.completes, exec_csrr]
  exact runSeq_ok (run_bind_ok (run_csrCheck _ hl hg))

end Writes

/-! ## CsrInstructionResults -/

theorem fstatWrite_reserved (old v : BitVec 9) (h : 4 ≤ v.toNat / 2 ^ 5 % 2 ^ 3) :
    fstatWrite old v = BitVec.ofNat 9 (v.toNat % 2 ^ 5 + old.toNat / 2 ^ 5 % 2 ^ 3 * 2 ^ 5 + v.toNat / 2 ^ 8 % 2 * 2 ^ 8) := by
  have low := fstatWrite_low old v
  have rm := fstatWrite_rm old v
  have narm := field_eq_of_getLsbD_eq (x := fstatWrite old v) (y := v) 8 1 fun i hi => by
    obtain rfl : i = 0 := by omega
    exact fstatWrite_narm old v
  have lt := (fstatWrite old v).isLt
  rw [if_neg (by omega)] at rm
  apply BitVec.eq_of_toNat_eq
  rw [BitVec.toNat_ofNat]
  omega

theorem csrValue_write_fstat (old v : Word) : (csrValue .write 0x005 old v).setWidth 9 = v.setWidth 9 := by
  apply BitVec.eq_of_getLsbD_eq
  intro i hi
  interval_cases i <;> simp [csrValue, csrRw, csrW1c]

/-- FSTAT after a CSRW with a reserved rounding mode. -/
theorem State.csrPut_fstat_reserved (s : State) (old v : Word) (h : 4 ≤ v.toNat / 2 ^ 5 % 2 ^ 3) :
    s.csrPut 0x005 (csrValue .write 0x005 old v) = s.modCtx fun c => { c with
      fstat := BitVec.ofNat 9 (v.toNat % 2 ^ 5 + s.ctx.fstat.toNat / 2 ^ 5 % 2 ^ 3 * 2 ^ 5 + v.toNat / 2 ^ 8 % 2 * 2 ^ 8) } := by
  have stored : fstatWrite s.ctx.fstat ((csrValue .write 0x005 old v).setWidth 9) =
      BitVec.ofNat 9 (v.toNat % 2 ^ 5 + s.ctx.fstat.toNat / 2 ^ 5 % 2 ^ 3 * 2 ^ 5 + v.toNat / 2 ^ 8 % 2 * 2 ^ 8) := by
    have low (x : Nat) : x % 2 ^ 9 % 2 ^ 5 = x % 2 ^ 5 := by omega
    have rm (x : Nat) : x % 2 ^ 9 / 2 ^ 5 % 2 ^ 3 = x / 2 ^ 5 % 2 ^ 3 := by omega
    have narm (x : Nat) : x % 2 ^ 9 / 2 ^ 8 % 2 = x / 2 ^ 8 % 2 := by omega
    rw [csrValue_write_fstat, fstatWrite_reserved _ _ (by rwa [toNat_setWidth_nine, rm]), toNat_setWidth_nine, low, narm]
  rw [← stored]
  rfl

theorem and_not_sixBits {old : Word} (h : old.toNat < 2 ^ 6) : old &&& ~~~csrRw 0x304 = 0 := by
  have hm : old &&& 0x3F#64 = old := by
    apply BitVec.eq_of_toNat_eq
    exact (toNat_keepLow old (n := 6) (by decide)).trans (Nat.mod_eq_of_lt h)
  show old &&& ~~~0x3F#64 = 0
  rw [← hm]
  exact within_and old _

/-- FSTATUS after a CSRW with PPL = 0b11. -/
theorem State.csrPut_fstatus_reserved (s : State) (v : Word) (h : v.toNat / 2 ^ 2 % 2 ^ 2 = 3) (hold : s.core.fstatus.toNat < 2 ^ 6) :
    s.csrPut 0x304 (csrValue .write 0x304 s.core.fstatus v) = s.modCore fun k => { k with
      fstatus := BitVec.ofNat 64 (v.toNat % 2 ^ 2 + s.core.fstatus.toNat / 2 ^ 2 % 2 ^ 2 * 2 ^ 2 + v.toNat / 2 ^ 4 % 2 ^ 2 * 2 ^ 4) } := by
  have stored : fstatusWrite s.core.fstatus (csrValue .write 0x304 s.core.fstatus v) =
      BitVec.ofNat 64 (v.toNat % 2 ^ 2 + s.core.fstatus.toNat / 2 ^ 2 % 2 ^ 2 * 2 ^ 2 + v.toNat / 2 ^ 4 % 2 ^ 2 * 2 ^ 4) := by
    rw [csrValue_write_whole (and_not_sixBits hold) (by decide)]
    have new : (v &&& csrRw 0x304).toNat = v.toNat % 2 ^ 6 := toNat_keepLow v (n := 6) (by decide)
    have low := fstatusWrite_low s.core.fstatus (v &&& csrRw 0x304)
    have ppl := fstatusWrite_ppl s.core.fstatus (v &&& csrRw 0x304)
    have high := fstatusWrite_high s.core.fstatus (v &&& csrRw 0x304)
    rw [new] at low ppl high
    rw [if_neg (by omega)] at ppl
    apply BitVec.eq_of_toNat_eq
    rw [BitVec.toNat_ofNat]
    omega
  rw [← stored]
  rfl

/-- The numbers with bits that a write sets. -/
def writableCsrs : List Nat :=
  [0x005, 0x009, 0x00A, 0x00B, 0x00C, 0x00D, 0x00E, 0x00F, 0x010, 0x011, 0x012, 0x013, 0x100, 0x101, 0x102, 0x103, 0x104, 0x105, 0x107, 0x108, 0x109,
   0x10A, 0x10B, 0x10C, 0x300, 0x301, 0x302, 0x303, 0x304, 0x305, 0x306]

theorem csrRw_eq_zero {n : Nat} {l : List (Nat × Word)} (h : ∀ r ∈ l, r.1 ≠ n) (hl : l.map Prod.fst = writableCsrs) : csrRw n = 0 := by
  have hn : n ∉ writableCsrs := fun hn => by
    rw [← hl] at hn
    obtain ⟨r, hr, rfl⟩ := List.mem_map.mp hn
    exact h r hr rfl
  unfold csrRw
  split
  case h_32 => rfl
  all_goals exact absurd (by decide) hn

/-- Settles O20: by what the body of a CSR instruction comes to once its number has passed its checks. -/
theorem csrInstructionResults : Obligations.CsrInstructionResults := by
  unfold Obligations.CsrInstructionResults
  refine ⟨⟨by decide, fun n h => csrRw_eq_zero h rfl, fun n => rfl⟩, ?_⟩
  intro s rd rs1 csr old n v reached plain put outside overflows refuses hl hg
  have stores (op : CsrOp) : put (csrValue op n old v) (op.instr csr rs1) := fun ⟨area, end0, end1⟩ => csrInstr_completes hl hg area end0 end1
  have refused (pending : s.resultsPending = false) (op : CsrOp) : refuses (csrValue op n old v) (op.instr csr rs1) := by
    obtain ⟨area, end0, end1⟩ := csrInstr_refused (op := op) (rs1 := rs1) hl hg pending
    exact ⟨fun ⟨hn, h⟩ => area ⟨hn, (badArea_iff _).mpr h⟩, fun ⟨hn, h⟩ => end0 ⟨hn, (lendDelta_isNone_iff _ _ _).mpr h⟩,
      fun ⟨hn, h⟩ => end1 ⟨hn, (lendDelta_isNone_iff _ _ _).mpr h⟩⟩
  have free (k : Nat) (hk : k ∉ [0x10A, 0x10C, 0x00E, 0x011]) (hn : n = k) (new : Word) : plain new := by
    simp only [List.mem_cons, List.not_mem_nil, or_false, not_or] at hk
    obtain ⟨h10A, h10C, h00E, h011⟩ := hk
    exact ⟨fun ⟨area, _⟩ => area.elim (fun e => h10A (hn.symm.trans e)) fun e => h10C (hn.symm.trans e), fun e => absurd (hn.symm.trans e) h00E,
      fun e => absurd (hn.symm.trans e) h011⟩
  refine ⟨fun pending => ⟨refused pending .write, refused pending .set, refused pending .clear⟩, csrr_computes hl hg rd, stores .write, stores .set,
    stores .clear, fun hn rm => ?_, fun hn ppl hold => ?_⟩
  · have stored := stores .write (free 0x005 (by decide) hn _)
    rw [hn, s.csrPut_fstat_reserved old v rm] at stored
    exact stored
  · have stored := stores .write (free 0x304 (by decide) hn _)
    rw [hn] at hg stored
    obtain rfl : s.core.fstatus = old := Option.some.inj hg
    rw [s.csrPut_fstatus_reserved v ppl hold] at stored
    exact stored

end Sys2Proof.Machine
end

section
/-!
PROOFS. Taking a trap to F (R202, R233, R250, R253): what a fault event leaves of a core, and what the entry to F writes.
-/

namespace Sys2Proof.Machine

/-! ## What a fault event leaves of a core (R250 to R252) -/

/-- A context but for where it executes: its pc, its loops' counts, its place in a gang and what its streams fetched ahead. -/
def Ctx.lasting (c : Ctx) : Ctx := { c with pc := 0, lcount0 := 0, lcount1 := 0, gang := 0, pieces := [] }

/-- A core but for where it executes and for what leaving a gang or a launch takes from it: no event of either changes more of a core. -/
def Core.lasting (c : Core) : Core :=
  { c.unhold with
    run := .running, ctx := c.ctx.lasting, trapDue := none, lost := [], mtx := [], shadow := none, residents := [], jointSaved := []
    link := none, heldAt := none }

theorem Ctx.lasting_loopTests (c : Ctx) (a : Word) : (c.loopTests a).lasting = c.lasting := by
  unfold Ctx.loopTests
  dsimp only
  split
  · split <;> rfl
  · split <;> rfl
  · rfl

theorem Core.lasting_passBar (c : Core) : c.passBar.lasting = c.lasting := by
  unfold Core.passBar
  split
  · rfl
  · dsimp only
    split
    · exact congrArg (fun x => { c.lasting with ctx := x }) (Ctx.lasting_loopTests _ _)
    · rfl

theorem State.lasting_modCoreId (s : State) (n : Nat) {f : Core → Core} (hf : ∀ c : Core, (f c).lasting = c.lasting) :
    (s.modCoreId n f).core.lasting = s.core.lasting := by
  unfold State.modCoreId
  split
  · exact hf s.core
  · rfl

theorem State.lasting_foldl {α : Type} {f : State → α → State} (hf : ∀ s a, (f s a).core.lasting = s.core.lasting) :
    ∀ (l : List α) (s : State), (l.foldl f s).core.lasting = s.core.lasting
  | [], _ => rfl
  | a :: l, s => (State.lasting_foldl hf l (f s a)).trans (hf s a)

@[simp] theorem State.core_modGang (s : State) (n : Nat) (f : Gang → Gang) : (s.modGang n f).core = s.core := rfl
@[simp] theorem State.core_modLaunch (s : State) (l : BitVec 12) (f : Launch → Launch) : (s.modLaunch l f).core = s.core := rfl
@[simp] theorem State.core_forgetStaged (s : State) (n : Nat) (l : BitVec 12) (w : Nat) : (s.forgetStaged n l w).core = s.core := rfl

@[simp] theorem State.lasting_settleGang (s : State) (n : Nat) : (s.settleGang n).core.lasting = s.core.lasting := by
  unfold State.settleGang
  split
  · rfl
  · split
    · exact State.lasting_foldl (fun s m => s.lasting_modCoreId _ Core.lasting_passBar) _ _
    · split
      · split
        · exact State.lasting_foldl (fun s m => s.lasting_modCoreId _ (by exact fun _ => rfl)) _ _
        · rfl
      · rfl

@[simp] theorem State.lasting_enterStaged (s : State) (n : Nat) : (s.enterStaged n).core.lasting = s.core.lasting := by
  unfold State.enterStaged
  split
  · rfl
  · dsimp only
    rw [State.core_modGang]
    refine List.foldlRecOn (motive := fun acc : State × List (Nat × Joint) => acc.1.core.lasting = s.core.lasting) _ _ rfl ?_
    intro acc h x _
    split
    · refine (State.lasting_modCoreId _ _ (by exact fun _ => rfl)).trans ?_
      split <;> exact h
    · exact h

@[simp] theorem State.lasting_gangTick (s : State) (n : Nat) : (s.gangTick n).core.lasting = s.core.lasting := by
  unfold State.gangTick
  dsimp only
  split
  · simp
  · split
    · exact (State.lasting_enterStaged _ _).trans (State.lasting_settleGang _ _)
    · split
      · exact (State.lasting_enterStaged _ _).trans (State.lasting_settleGang _ _)
      · simp

/-- Leaving a gang puts GANG back where a context of it is active. -/
theorem Core.lasting_unlinked (c : Core) :
    { c with link := none, heldAt := none, ctx := if c.ctx.gangMode = 0 then c.ctx else { c.ctx with gang := gangIndependent } }.lasting =
      c.lasting := by
  unfold Core.lasting
  dsimp only
  split <;> rfl

@[simp] theorem State.lasting_dropLink (s : State) (n : Nat) : (s.dropLink n).core.lasting = s.core.lasting := by
  unfold State.dropLink
  split
  · rfl
  · split
    · rfl
    · exact (State.lasting_gangTick _ _).trans (s.lasting_modCoreId n Core.lasting_unlinked)

@[simp] theorem State.lasting_leaveGang (s : State) (n : Nat) : (s.leaveGang n).core.lasting = s.core.lasting := by
  unfold State.leaveGang
  split
  · rfl
  · split
    · rfl
    · exact State.lasting_dropLink s n

@[simp] theorem State.lasting_dropUnit (s : State) (lnum : BitVec 12) (wuid n : Nat) : (s.dropUnit lnum wuid n).core.lasting = s.core.lasting := by
  unfold State.dropUnit
  split
  · rfl
  · split
    · exact (State.lasting_modCoreId _ n (by exact fun _ => rfl)).trans (State.lasting_leaveGang _ n)
    · split
      · refine (State.lasting_modCoreId _ n (by exact fun _ => rfl)).trans ?_
        rw [State.core_forgetStaged]
        split
        · rfl
        · split <;> simp
      · rfl

@[simp] theorem State.core_countDone (s : State) (c : Core) : (s.countDone c).core = s.core := by
  unfold State.countDone
  split <;> rfl

@[simp] theorem State.lasting_failUnit (s : State) (lnum : BitVec 12) (u : UnitRec) : (s.failUnit lnum u).core.lasting = s.core.lasting := by
  unfold State.failUnit
  split <;> simp

@[simp] theorem State.lasting_failUnits (s : State) (lnum : BitVec 12) (us : List UnitRec) : (s.failUnits lnum us).core.lasting = s.core.lasting :=
  State.lasting_foldl (fun s u => s.lasting_failUnit lnum u) us s

theorem State.lasting_dropUnits (s : State) (lnum : BitVec 12) (us : List UnitRec) :
    (us.foldl (fun s u => s.dropUnit lnum u.wuid u.core) s).core.lasting = s.core.lasting :=
  State.lasting_foldl (fun s u => s.lasting_dropUnit lnum u.wuid u.core) us s

@[simp] theorem State.lasting_restartUnits (s : State) (lnum : BitVec 12) (us : List UnitRec) :
    (s.restartUnits lnum us).core.lasting = s.core.lasting := by
  unfold State.restartUnits
  split
  · exact s.lasting_failUnits lnum us
  · exact s.lasting_dropUnits lnum us

@[simp] theorem State.lasting_endLaunch (s : State) (lnum : BitVec 12) (b : Byte) : (s.endLaunch lnum b).core.lasting = s.core.lasting := by
  unfold State.endLaunch
  split
  · rfl
  · split
    · rfl
    · exact s.lasting_failUnits lnum _

@[simp] theorem State.lasting_restartLaunch (s : State) (lnum : BitVec 12) : (s.restartLaunch lnum).core.lasting = s.core.lasting := by
  unfold State.restartLaunch
  split
  · rfl
  · split
    · rfl
    · exact s.lasting_dropUnits lnum _

@[simp] theorem State.lasting_containPartition (s : State) (lnum : BitVec 12) : (s.containPartition lnum).core.lasting = s.core.lasting := by
  unfold State.containPartition
  split
  · rfl
  · split
    · exact s.lasting_restartLaunch lnum
    · exact State.lasting_foldl (fun s (k : Launch) => s.lasting_endLaunch k.lnum 1) _ s
    · exact s.lasting_endLaunch lnum 1

@[simp] theorem State.lasting_containLaunch (s : State) (lnum : BitVec 12) (us : List UnitRec) :
    (s.containLaunch lnum us).core.lasting = s.core.lasting := by
  unfold State.containLaunch
  split
  · rfl
  · split <;> simp

@[simp] theorem State.lasting_containGang (s : State) (lnum : BitVec 12) (u : UnitRec) : (s.containGang lnum u).core.lasting = s.core.lasting := by
  unfold State.containGang
  split
  · rfl
  · dsimp only
    split
    · split <;> simp
    · simp
    · simp
    · simp

@[simp] theorem State.lasting_unitFault (s : State) (lnum : BitVec 12) (wuid n : Nat) (corrected : Bool) (cause info : Word) :
    (s.unitFault lnum wuid n corrected cause info).core.lasting = s.core.lasting := by
  unfold State.unitFault
  split
  · split <;> simp
  · dsimp only
    split
    · split <;> simp
    · split
      · split <;> simp
      · simp
      · simp
      · simp

/-- A fault event changes of the core in focus only where it executes and what leaving a gang or a launch takes from it. -/
theorem State.lasting_faultEvent (s : State) (n : Nat) (corrected : Bool) (cause info : Word) :
    (s.faultEvent n corrected cause info).core.lasting = s.core.lasting := by
  unfold State.faultEvent
  split
  · rfl
  · exact s.lasting_unitFault _ _ _ _ _ _

/-! ## Entering F (R233) -/

theorem setBit_cause {n : Nat} (hn : n < 32) : setBit (BitVec.ofNat 64 n) 63 false = BitVec.ofNat 64 n := by
  revert n
  decide

/-- FSTATUS after an entry from a level, of a trap that is a double trap of K or not. -/
theorem Core.enterF_fstatus (c : Core) (dbl : Bool) (cause info ret : Word) :
    (c.enterF dbl cause info ret).fstatus =
      BitVec.ofNat 64 ((if dbl then 32 else 0) + 16 + 4 * c.level.code + (if c.fstatus.getLsbD 0 then 2 else 0)) := by
  have h : ∀ (l : Level) (b d : Bool), (BitVec.ofNat 64 (l.code * 4) ||| (if b then 2 else 0) ||| 16 ||| (if d then 32 else 0) : Word) =
      BitVec.ofNat 64 ((if d then 32 else 0) + 16 + 4 * l.code + (if b then 2 else 0)) := by
    intro l b d
    cases l <;> cases b <;> cases d <;> rfl
  exact h c.level (c.fstatus.getLsbD 0) dbl

theorem Core.trapLevel_eq_k_iff (c : Core) (n : Nat) : c.trapLevel n = .k ↔ c.level ≠ .f ∧ c.fdeleg.getLsbD n = true := by
  unfold Core.trapLevel bit
  split
  · next h => exact iff_of_false (by decide) fun ⟨level, deleg⟩ => h.elim level fun no => by simp [no] at deleg
  · next h => exact iff_of_true rfl (by simpa only [not_or, Bool.not_eq_false] using h)

/-- A core after it has entered F from the held state: the F registers save the trap, and it holds for nothing any more. -/
theorem Core.enterF_held (c : Core) (held : Option Held) (dbl : Bool) (cause info ret : Word) :
    ({ c with heldAt := held } : Core).cleared.enterF dbl cause info ret =
      { c with
        fcause := cause, finfo := info, fretpc := keepLow ret 48, fstatus := (c.enterF dbl cause info ret).fstatus, level := .f
        ctx := { c.ctx with pc := c.fvec }, hold := .none, issued := none, record := [], arrived := [], passed := [], listing := none
        trapDue := none, heldAt := held } := rfl

/-- A trap of K in a trap, which F takes as a double trap (R233). -/
def Core.doubleTraps (c : Core) (n : Nat) : Prop := c.level ≠ .f ∧ c.fdeleg.getLsbD n = true ∧ c.kstat.getLsbD 3 = true

/-- A trap that is not K's to take enters F, marked or not as a double trap, from the held state or after the core's fault event (R202, R233). -/
theorem State.takeTrap_atF {s : State} {n : Nat} (h : s.core.level = .f ∨ s.core.fdeleg.getLsbD n = false ∨ s.core.doubleTraps n) (hn : n < 32)
    (info ret : Word) (w : Option IWord) :
    ∃ dbl : Bool, (dbl = true ↔ s.core.doubleTraps n) ∧ s.takeTrap false n info ret w =
      (if s.core.fstatus.getLsbD 4 = true then s.coreFatal (BitVec.ofNat 64 n) info else s.markHeld false w).modCore fun c =>
        c.cleared.enterF dbl (BitVec.ofNat 64 n) info ret := by
  have first : s.core.trapLevel n = .f ∨ s.core.trapLevel n = .k := by
    unfold Core.trapLevel
    split <;> simp
  have double : (s.core.trapLevel n = .k ∧ bit s.core.kstat 3 = true ∧ false = false) ↔ s.core.doubleTraps n := by
    rw [Core.trapLevel_eq_k_iff, Core.doubleTraps, bit]
    tauto
  have target : (if s.core.trapLevel n = .k ∧ bit s.core.kstat 3 = true ∧ false = false then Level.f else s.core.trapLevel n) = .f := by
    split
    · rfl
    · next no =>
      rw [double] at no
      refine first.resolve_right fun k => ?_
      obtain ⟨level, deleg⟩ := (s.core.trapLevel_eq_k_iff n).mp k
      rcases h with hl | hd | ht
      · exact level hl
      · simp [hd] at deleg
      · exact no ht
  refine ⟨decide (s.core.trapLevel n = .k ∧ bit s.core.kstat 3 = true ∧ false = false), by rw [decide_eq_true_iff, double], ?_⟩
  unfold State.takeTrap
  dsimp only
  rw [target, setBit_cause hn]
  simp only [true_and, and_true]
  rfl

/-- Marking a member as held changes nothing but its mark. -/
theorem State.markHeld_eq (s : State) (preempt : Bool) (word : Option IWord) :
    ∃ held, s.markHeld preempt word = s.modCore fun c => { c with heldAt := held } := by
  unfold State.markHeld
  split
  · exact ⟨s.core.heldAt, rfl⟩
  · split
    · split
      · exact ⟨s.core.heldAt, rfl⟩
      · exact ⟨_, rfl⟩
    · dsimp only
      split
      · exact ⟨_, rfl⟩
      · split
        · exact ⟨_, rfl⟩
        · exact ⟨s.core.heldAt, rfl⟩

theorem State.heldAt_markHeld_alone {s : State} (h : s.core.link = none) (preempt : Bool) (word : Option IWord) :
    (s.markHeld preempt word).core.heldAt = s.core.heldAt := by rw [State.markHeld_alone h]

/-- Settles O24: by where a trap that is not K's enters, and by what a fault event leaves of a core. -/
theorem trapEntersF : Obligations.TrapEntersF := by
  unfold Obligations.TrapEntersF
  intro s n info ret w twice t cur hn hf
  obtain ⟨dbl, hdbl, ht⟩ := State.takeTrap_atF hf hn info ret w
  have hcur : cur = s.core.level.code := by
    show (match s.core.level with | .u => 0 | .k => 1 | .f => 2) = s.core.level.code
    cases s.core.level <;> rfl
  replace ht : t = _ := ht
  clear_value t
  refine ⟨fun free => ?_, fun trapped => ?_⟩
  · rw [free, if_neg (by decide)] at ht
    obtain ⟨held, hm⟩ := s.markHeld_eq false w
    have alone := State.heldAt_markHeld_alone (s := s) (preempt := false) (word := w)
    rw [hm] at ht alone
    have core : t.core = _ := (congrArg State.core ht).trans (s.core.enterF_held held dbl (BitVec.ofNat 64 n) info ret)
    simp only [State.ctx]
    rw [core, Core.enterF_fstatus, ← hcur]
    refine ⟨rfl, rfl, keepLow_eq_low48 ret, rfl, rfl, fun double => ?_, fun single => ?_, rfl, alone, ?_, ?_, ?_⟩
    · rw [hdbl.mpr double]
      rfl
    · have once : dbl = false := by
        rw [← Bool.not_eq_true, hdbl]
        exact single
      rw [once, if_neg Bool.false_ne_true, Nat.zero_add]
    all_goals rw [ht]; rfl
  · rw [if_pos trapped] at ht
    intro u
    have lasting : u.core.lasting = s.core.lasting := s.lasting_faultEvent s.core.id false (BitVec.ofNat 64 n) info
    subst ht
    exact ⟨rfl, rfl, keepLow_eq_low48 ret, rfl, congrArg (fun c => c.fvec) lasting, congrArg (fun c => c.kcause) lasting,
      congrArg (fun c => c.kstat) lasting, congrArg (fun c => c.ctx.x) lasting, rfl, rfl, rfl⟩

end Sys2Proof.Machine
end

section
/-!
PROOFS. Boot and the building of a partition (R24, R254, R466, R467, R469): memory as it reads after writes and after clearing, the cores that a
partition takes up, and the two events.
-/

namespace Sys2Proof.Machine

/-! ## Memory as it reads -/

/-- Below every entry of a canonical list nothing is listed. -/
theorem Memory.read_below {m : List Host.Cell} {l x : Nat} (h : Memory.wfAbove l m = true) (hx : x < l) : Memory.read m x = unlistedByte := by
  cases m with
  | nil => rfl
  | cons c m =>
    obtain ⟨hl, -⟩ := Memory.wfAbove_cons.mp h
    rw [Memory.read, if_neg (by omega), if_pos (by omega)]

/-- Putting a cell in front of entries above it sets the byte at its address alone. -/
theorem Memory.read_put {m : List Host.Cell} {a : Nat} (h : Memory.wfAbove (a + 1) m = true) (b : Byte) (x : Nat) :
    Memory.read (Memory.put a b m) x = if x = a then b else Memory.read m x := by
  have below (hx : x ≤ a) : Memory.read m x = unlistedByte := Memory.read_below h (by omega)
  unfold Memory.put
  by_cases hb : b = unlistedByte
  · rw [if_pos hb, hb]
    by_cases hx : x = a
    · rw [if_pos hx, below (by omega)]
    · rw [if_neg hx]
  · rw [if_neg hb, Memory.read]
    by_cases hx : x = a
    · rw [if_pos hx.symm, if_pos hx]
    · rw [if_neg (Ne.symm hx), if_neg hx]
      split
      · exact (below (by omega)).symm
      · rfl

/-- A write of canonical memory changes the byte at its address alone. -/
theorem Memory.read_write {m : List Host.Cell} {l : Nat} (h : Memory.wfAbove l m = true) (a : Nat) (b : Byte) (x : Nat) :
    Memory.read (Memory.write m a b) x = if x = a then b else Memory.read m x := by
  induction m generalizing l with
  | nil => exact Memory.read_put rfl b x
  | cons c m ih =>
    obtain ⟨k, d⟩ := c
    obtain ⟨-, hd, hm⟩ := Memory.wfAbove_cons.mp h
    rw [Memory.write]
    split
    · exact Memory.read_put (Memory.wfAbove_cons.mpr ⟨by omega, hd, hm⟩) b x
    · split
      · next e =>
        subst e
        rw [Memory.read_put hm, Memory.read]
        by_cases hx : x = a
        · rw [if_pos hx, if_pos hx]
        · rw [if_neg hx, if_neg hx, if_neg (Ne.symm hx)]
          split
          · exact Memory.read_below hm (by omega)
          · rfl
      · rw [Memory.read, Memory.read, ih hm]
        by_cases hx : x = a
        · rw [if_neg (by omega), if_neg (by omega), if_pos hx, if_pos hx]
        · rw [if_neg hx, if_neg hx]

/-- A list without an entry at an address reads as unlisted there. -/
theorem Memory.read_of_forall_ne {m : List Host.Cell} {a : Nat} (h : ∀ c ∈ m, c.1 ≠ a) : Memory.read m a = unlistedByte := by
  induction m with
  | nil => rfl
  | cons c m ih =>
    obtain ⟨hc, hm⟩ := List.forall_mem_cons.mp h
    rw [Memory.read, if_neg hc, ih hm, ite_self]

/-- Entries that are filtered out leave the byte at an address as it was, where its own stays. -/
theorem Memory.read_filter {m : List Host.Cell} {l a : Nat} {keep : Nat → Bool} (h : Memory.wfAbove l m = true) (ha : keep a = true) :
    Memory.read (m.filter fun c => keep c.1) a = Memory.read m a := by
  induction m generalizing l with
  | nil => rfl
  | cons c m ih =>
    obtain ⟨k, d⟩ := c
    obtain ⟨hl, hd, hm⟩ := Memory.wfAbove_cons.mp h
    rw [List.filter_cons]
    by_cases hk : keep k = true
    · rw [if_pos hk, Memory.read, Memory.read, ih hm]
    · have ne : k ≠ a := fun e => hk (e ▸ ha)
      rw [if_neg hk, ih hm, Memory.read, if_neg ne]
      split
      · exact Memory.read_below hm (by omega)
      · rfl

/-- A write below every entry of what follows goes to the part in front. -/
theorem Memory.write_append {m n : List Host.Cell} {a : Nat} (hn : ∀ c ∈ n, a < c.1) (b : Byte) :
    Memory.write (m ++ n) a b = Memory.write m a b ++ n := by
  have put (l : List Host.Cell) : Memory.put a b (l ++ n) = Memory.put a b l ++ n := by
    unfold Memory.put
    split <;> rfl
  induction m with
  | nil =>
    cases n with
    | nil => simp
    | cons c n =>
      obtain ⟨k, d⟩ := c
      exact (if_pos (hn (k, d) List.mem_cons_self)).trans (put [])
  | cons c m ih =>
    obtain ⟨k, d⟩ := c
    rw [List.cons_append, Memory.write, Memory.write, ih]
    split
    · exact put ((k, d) :: m)
    · split
      · exact put m
      · rfl

theorem Memory.writeBytes_append {n : List Host.Cell} (bs : List Byte) : ∀ (m : List Host.Cell) (a : Nat), (∀ c ∈ n, a + bs.length ≤ c.1) →
    Memory.writeBytes (m ++ n) a bs = Memory.writeBytes m a bs ++ n := by
  induction bs with
  | nil => intros; rfl
  | cons b bs ih =>
    intro m a hn
    rw [List.length_cons] at hn
    rw [Memory.writeBytes, Memory.write_append (fun c hc => by have := hn c hc; omega), ih _ _ fun c hc => by have := hn c hc; omega]
    rfl

theorem Memory.read_append {m n : List Host.Cell} {a : Nat} (hn : ∀ c ∈ n, a < c.1) : Memory.read (m ++ n) a = Memory.read m a := by
  induction m with
  | nil => exact Memory.read_of_forall_ne fun c hc => Nat.ne_of_gt (hn c hc)
  | cons c m ih => rw [List.cons_append, Memory.read, Memory.read, ih]

/-- Bytes written to canonical memory read back, and those below them are as they were. -/
theorem Memory.read_writeBytes (bs : List Byte) : ∀ {m : List Host.Cell} (_ : Memory.wf m = true) (a : Nat),
    (∀ k, k < bs.length → some (Memory.read (Memory.writeBytes m a bs) (a + k)) = bs[k]?) ∧
      ∀ x, x < a → Memory.read (Memory.writeBytes m a bs) x = Memory.read m x := by
  induction bs with
  | nil => intro m h a; exact ⟨fun k hk => absurd hk (Nat.not_lt_zero k), fun _ _ => rfl⟩
  | cons b bs ih =>
    intro m h a
    obtain ⟨here, below⟩ := ih (Memory.wf_write h a b) (a + 1)
    refine ⟨fun k hk => ?_, fun x hx => ?_⟩
    · cases k with
      | zero => rw [Nat.add_zero, Memory.writeBytes, below a (by omega), Memory.read_write h, if_pos rfl]; rfl
      | succ k =>
        rw [Memory.writeBytes, Nat.add_comm k 1, ← Nat.add_assoc, here k (by simpa using hk), Nat.add_comm 1 k]
        rfl
    · rw [Memory.writeBytes, below x (by omega), Memory.read_write h, if_neg (by omega)]


/-! ## Where a key lives (R59, R73) -/

theorem regionOf_pool {n a : Nat} (hn : n < 4992) (low : poolKey n 0 ≤ a) (high : a < poolKey n (2 ^ 19)) : regionOf a = .pool n := by
  unfold poolKey poolKeys at low high
  unfold regionOf poolKeys clusterKeys
  have offset : (a - 2 ^ 52) / 2 ^ 19 = n := by omega
  rw [if_neg (by omega), if_neg (by omega), if_neg (by omega), if_pos (by omega), offset]

theorem regionOf_cluster {c a : Nat} (hc : c < 4992) (low : clusterKey c 0 ≤ a) (high : a < clusterKey c (2 ^ 21)) : regionOf a = .cluster c := by
  unfold clusterKey clusterKeys at low high
  unfold regionOf poolKeys clusterKeys romKeys
  have offset : (a - 2 ^ 53) / 2 ^ 21 = c := by omega
  rw [if_neg (by omega), if_neg (by omega), if_neg (by omega), if_neg (by omega), if_pos (by omega), offset]

theorem wordStart_sub_div (a : Nat) {b c : Nat} (hb : b % 8 = 0) (hc : c % 8 = 0) : (a / 8 * 8 - b) / c = (a - b) / c := by
  have words : (a / 8 * 8 - b) / 8 = (a - b) / 8 := by omega
  obtain ⟨d, rfl⟩ := Nat.dvd_of_mod_eq_zero hc
  rw [← Nat.div_div_eq_div_mul, ← Nat.div_div_eq_div_mul, words]

/-- A 64-bit word lies in one region. -/
theorem regionOf_word (a : Nat) : regionOf (a / 8 * 8) = regionOf a := by
  unfold regionOf poolKeys clusterKeys romKeys
  have low (k : Nat) (hk : k % 8 = 0) : a / 8 * 8 < k ↔ a < k := by omega
  have pool : (a / 8 * 8 - 2 ^ 52) / 2 ^ 19 = (a - 2 ^ 52) / 2 ^ 19 := wordStart_sub_div a (by norm_num) (by norm_num)
  have cluster : (a / 8 * 8 - 2 ^ 53) / 2 ^ 21 = (a - 2 ^ 53) / 2 ^ 21 := wordStart_sub_div a (by norm_num) (by norm_num)
  simp only [low _ (by norm_num : 2 ^ 50 % 8 = 0), low _ (by norm_num : 2 ^ 51 % 8 = 0), low _ (by norm_num : 2 ^ 52 % 8 = 0),
    low _ (by norm_num : 2 ^ 53 % 8 = 0), low _ (by norm_num : 2 ^ 54 % 8 = 0), pool, cluster]

theorem inPools_pool {cores : List Nat} {n a : Nat} (hn : n ∈ cores) (h : regionOf a = .pool n) : inPools cores a = true := by
  rw [inPools, h]
  simpa using hn

theorem inPools_cluster {cores : List Nat} {n a : Nat} (hn : n ∈ cores) (h : regionOf a = .cluster (clusterOfId n)) : inPools cores a = true := by
  rw [inPools, h]
  exact List.any_eq_true.mpr ⟨n, hn, by simp⟩

theorem inPools_word (cores : List Nat) (a : Nat) : inPools cores (a / 8 * 8) = inPools cores a := by rw [inPools, inPools, regionOf_word]

/-- What lies outside the pools of some cores and their clusters' memories. -/
theorem inPools_elsewhere {cores : List Nat} {a : Nat}
    (h : regionOf a = .localMem ∨ regionOf a = .hostMem ∨ ∃ m, regionOf a = .pool m ∧ m ∉ cores) : inPools cores a = false := by
  unfold inPools
  rcases h with h | h | ⟨m, h, hm⟩
  · rw [h]
  · rw [h]
  · rw [h]
    simpa using hm

/-! ## Words with an uncorrectable error -/

theorem Dev.badWord_eq_none {d : Dev} {key n : Nat} (h : ∀ w ∈ d.bad, ¬(key / 8 ≤ w ∧ w * 8 < key + n)) : d.badWord key n = none := by
  have : d.bad.filter (fun w => decide (key / 8 ≤ w ∧ w * 8 < key + n)) = [] := List.filter_eq_nil_iff.mpr fun w hw => by simpa using h w hw
  rw [Dev.badWord, this]

/-- Clearing leaves a byte outside what is cleared as it was, and its word's error. -/
theorem Dev.badWord_clearPools {d : Dev} {cores : List Nat} {a : Nat} (h : inPools cores a = false) :
    (d.clearPools cores).badWord a 1 = d.badWord a 1 := by
  have same : (d.clearPools cores).bad.filter (fun w => decide (a / 8 ≤ w ∧ w * 8 < a + 1)) =
      d.bad.filter fun w => decide (a / 8 ≤ w ∧ w * 8 < a + 1) := by
    rw [Dev.clearPools, List.filter_filter]
    refine List.filter_congr fun w _ => ?_
    by_cases hw : a / 8 ≤ w ∧ w * 8 < a + 1
    · obtain rfl : w = a / 8 := by omega
      rw [inPools_word, h]
      simp
    · rw [decide_eq_false hw, Bool.false_and]
  rw [Dev.badWord, Dev.badWord, same]

theorem Dev.read_clearPools_elsewhere {d : Dev} {cores : List Nat} {a : Nat} (hm : Memory.wf d.mem = true) (h : inPools cores a = false) :
    Memory.read (d.clearPools cores).mem a = Memory.read d.mem a :=
  Memory.read_filter (keep := fun k => !(inPools cores k)) hm (by simp [h])

/-- A range that is cleared reads as zero bytes and meets no error. -/
theorem Dev.clearPools_clears {d : Dev} {cores : List Nat} {key n : Nat} (h : ∀ a, key / 8 * 8 ≤ a → a < key + n → inPools cores a = true) (hn : 0 < n) :
    Memory.read (d.clearPools cores).mem key = 0 ∧ (d.clearPools cores).badWord key n = none := by
  refine ⟨Memory.read_of_forall_ne fun c hc e => ?_, Dev.badWord_eq_none fun w hw range => ?_⟩
  · have := (List.mem_filter.mp hc).2
    rw [e, h key (by omega) (by omega)] at this
    exact absurd this (by decide)
  · have := (List.mem_filter.mp hw).2
    rw [h (w * 8) (by omega) range.2] at this
    exact absurd this (by decide)


/-! ## Cores by number -/

/-- A change of a core's own that keeps its number changes that core and no other. -/
theorem State.coreById_modCoreId {f : Core → Core} (hf : ∀ c : Core, (f c).id = c.id) (s : State) (n m : Nat) :
    (s.modCoreId n f).coreById m = (s.coreById m).map fun c => if m = n then f c else c := by
  have keeps (c : Core) : (if c.id = n then f c else c).id = c.id := by
    split
    · exact hf c
    · rfl
  unfold State.modCoreId
  split
  · next focus =>
    simp only [State.coreById, State.modCore_core, State.modCore_rest, hf]
    by_cases hm : s.core.id = m
    · simp [hm, ← focus]
    · simp [hm, show m ≠ n by omega]
  · next other =>
    simp only [State.coreById]
    by_cases hm : s.core.id = m
    · simp [hm, show m ≠ n by omega]
    · have same : (fun c : Core => c.id == m) ∘ (fun c : Core => if c.id = n then f c else c) = fun c => c.id == m := by
        funext c
        simp [keeps c]
      rw [if_neg hm, if_neg hm, List.find?_map, same]
      cases found : s.rest.find? fun c => c.id == m with
      | none => rfl
      | some c =>
        have id : c.id = m := by simpa using List.find?_some found
        simp [id]

/-! ## The cores of a partition (R24) -/

/-- A core that a map exposes, by the coordinates that name it. -/
theorem partCoreAt_eq_some {p : PartConfig} {die row col n : Nat} (h : partCoreAt p die row col = some n) :
    die < p.dies ∧ row < p.height ∧ col < p.width ∧ ∃ r, (if die = 0 then p.rows0 else p.rows1)[row / 4]? = some r ∧
      n = (p.die0 + die) * 2496 + (r * 4 + row % 4) * 48 + p.col0 + col := by
  unfold partCoreAt at h
  split at h
  · next inside =>
    obtain ⟨hd, hr, hc⟩ := inside
    refine ⟨hd, hr, hc, ?_⟩
    dsimp only at h
    split at h
    · cases h
    · next r hrow => exact ⟨r, hrow, (Option.some.inj h).symm⟩
  · cases h

theorem mem_partCores {p : PartConfig} {n die row col : Nat} (h : (n, die, row, col) ∈ partCores p) : partCoreAt p die row col = some n := by
  obtain ⟨k, -, hk⟩ := List.mem_filterMap.mp h
  obtain ⟨m, hm, e⟩ := Option.map_eq_some_iff.mp hk
  cases e
  exact hm

/-- What a map that the partition manager accepts guarantees of its rows (R24). -/
structure SoundMap (p : PartConfig) : Prop where
  dies : p.die0 + p.dies ≤ 2
  cols : p.col0 + p.width ≤ 48
  rows : ∀ die, die < p.dies → rowMapOk p.height (if die = 0 then p.rows0 else p.rows1) = true

theorem rowMapOk_iff {height : Nat} {rows : List Nat} : rowMapOk height rows = true ↔ rows.length = height / 4 ∧ (∀ r ∈ rows, r < 13) ∧ rows.Nodup := by
  simp [rowMapOk, and_assoc]

/-- What the partition manager checks of a configuration (R1, R24, R146). -/
theorem State.partOk_facts {s : State} {p : PartConfig} (h : s.partOk p = true) :
    SoundMap p ∧ (∀ r ∈ rowsUsed p, r ∉ s.dev.fencedRows) ∧
      ∀ die, die < 2 → ((List.range 13).filter fun r =>
        (rowsUsed p ++ (s.dev.parts.filter fun q => q.number != p.number).flatMap rowsUsed).contains (die, r)).length ≤ 12 := by
  unfold State.partOk at h
  simp only [Bool.and_eq_true, Bool.or_eq_true, decide_eq_true_iff, Bool.not_eq_true', beq_iff_eq] at h
  obtain ⟨⟨⟨⟨⟨extents, rows0⟩, rows1⟩, fenced⟩, spare⟩, -⟩ := h
  refine ⟨⟨by omega, by omega, fun die hd => ?_⟩, fun r hr hf => ?_, fun die hd => ?_⟩
  · by_cases first : die = 0
    · rw [if_pos first]
      exact rows0
    · rw [if_neg first]
      exact rows1.resolve_left (by omega)
  · have : (rowsUsed p).any s.dev.fencedRows.contains = true := List.any_eq_true.mpr ⟨r, hr, by simpa using hf⟩
    rw [this] at fenced
    cases fenced
  · simpa using List.all_eq_true.mp spare die (List.mem_range.mpr hd)

theorem partCoreAt_lt {p : PartConfig} (hp : SoundMap p) {die row col n : Nat} (h : partCoreAt p die row col = some n) : n < 4992 := by
  obtain ⟨hd, -, hc, r, hr, rfl⟩ := partCoreAt_eq_some h
  obtain ⟨-, below, -⟩ := rowMapOk_iff.mp (hp.rows die hd)
  have hr13 := below r (List.mem_of_getElem? hr)
  have := hp.dies
  have := hp.cols
  omega

/-- A core has one place in a partition. -/
theorem partCoreAt_injective {p : PartConfig} (hp : SoundMap p) {die row col die' row' col' n : Nat} (h : partCoreAt p die row col = some n)
    (h' : partCoreAt p die' row' col' = some n) : die = die' ∧ row = row' ∧ col = col' := by
  obtain ⟨hd, -, hc, r, hr, hn⟩ := partCoreAt_eq_some h
  obtain ⟨hd', -, hc', r', hr', hn'⟩ := partCoreAt_eq_some h'
  obtain ⟨-, below, -⟩ := rowMapOk_iff.mp (hp.rows die hd)
  obtain ⟨-, below', -⟩ := rowMapOk_iff.mp (hp.rows die' hd')
  have hr13 := below r (List.mem_of_getElem? hr)
  have hr13' := below' r' (List.mem_of_getElem? hr')
  have cols := hp.cols
  obtain rfl : die = die' := by omega
  obtain rfl : r = r' := by omega
  obtain ⟨-, -, nodup⟩ := rowMapOk_iff.mp (hp.rows die hd)
  have rows : row / 4 = row' / 4 := (List.getElem?_inj (List.getElem?_eq_some_iff.mp hr).1 nodup).mp (hr.trans hr'.symm)
  omega

/-! ## Taking up the cores (R254, R469) -/

/-- The core of a partition as the building leaves it. -/
structure Core.Enrolled (c : Core) (p : PartConfig) (fenced : Bool) (row col : Nat) : Prop where
  level : c.level = .f
  run : c.run = if fenced then .fenced else .running
  part : c.part = p.number
  fvec : c.fvec = p.fvec &&& addrField
  pc : c.ctx.pc = c.fvec
  row : c.row.toNat = row % 64
  col : c.col.toNat = col % 64

@[simp] theorem Core.id_enroll (c : Core) (p : PartConfig) (die row col : Nat) (fenced : Bool) : (c.enroll p die row col fenced).id = c.id := rfl
@[simp] theorem Core.id_released (n : Nat) (mgmt : Bool) (fvec : Word) (ctx : Ctx) : (Core.released n mgmt fvec ctx).id = n := rfl

theorem Core.enrolled_enroll (c : Core) (p : PartConfig) (die row col : Nat) (fenced : Bool) : (c.enroll p die row col fenced).Enrolled p fenced row col :=
  ⟨rfl, rfl, rfl, rfl, rfl, BitVec.toNat_ofNat row 6, BitVec.toNat_ofNat col 6⟩

/-- Taking up a core changes no part of the device but what the core had posted. -/
theorem State.dev_enroll (s : State) (p : PartConfig) (x : Nat × Nat × Nat × Nat) :
    ∃ resvs cells, (s.enroll p x).dev = { s.dev with resvs := resvs, cells := cells } := by
  unfold State.enroll
  dsimp only
  split
  · rw [State.modCoreId_dev]
    exact ⟨_, _, rfl⟩
  · exact ⟨s.dev.resvs, s.dev.cells, rfl⟩

theorem State.dev_enrolls (p : PartConfig) (l : List (Nat × Nat × Nat × Nat)) (s : State) :
    ∃ resvs cells, (l.foldl (fun s c => s.enroll p c) s).dev = { s.dev with resvs := resvs, cells := cells } := by
  induction l generalizing s with
  | nil => exact ⟨s.dev.resvs, s.dev.cells, rfl⟩
  | cons x l ih =>
    obtain ⟨r, w, h⟩ := s.dev_enroll p x
    obtain ⟨r', w', h'⟩ := ih (s.enroll p x)
    exact ⟨r', w', by rw [List.foldl_cons, h', h]⟩

theorem State.coreById_append (s : State) (c : Core) (m : Nat) :
    { s with rest := s.rest ++ [c] }.coreById m = (s.coreById m).or (if c.id = m then some c else none) := by
  unfold State.coreById
  dsimp only
  split
  · rfl
  · rw [List.find?_append]
    by_cases hc : c.id = m <;> simp [hc]

/-- Taking up a core leaves every other as it was. -/
theorem State.coreById_enroll_other (s : State) (p : PartConfig) {n m : Nat} (h : m ≠ n) (x : Nat × Nat × Nat) :
    (s.enroll p (n, x)).coreById m = s.coreById m := by
  obtain ⟨die, row, col⟩ := x
  unfold State.enroll
  dsimp only
  split
  · rw [State.coreById_modCoreId (fun k => k.id_enroll p die row col _)]
    simp only [if_neg h, Option.map_id']
    rfl
  · rw [State.coreById_append, Core.id_enroll, Core.id_released, if_neg (Ne.symm h), Option.or_none]

/-- The core that is taken up is its partition's. -/
theorem State.coreById_enroll_same {s : State} {p : PartConfig} {n die row col : Nat} {c : Core} (h : (s.enroll p (n, die, row, col)).coreById n = some c) :
    c.Enrolled p (s.dev.fencedCores.contains n) row col := by
  unfold State.enroll at h
  dsimp only at h
  split at h
  · rw [State.coreById_modCoreId (fun k => k.id_enroll p die row col _)] at h
    obtain ⟨k, -, rfl⟩ := Option.map_eq_some_iff.mp h
    rw [if_pos rfl]
    exact k.enrolled_enroll p die row col _
  · next missing =>
    rw [State.coreById_append, missing, Option.none_or, Core.id_enroll, Core.id_released, if_pos rfl] at h
    obtain rfl := Option.some.inj h
    exact Core.enrolled_enroll _ p die row col _

theorem State.coreById_enrolls_other (p : PartConfig) {n : Nat} : ∀ (l : List (Nat × Nat × Nat × Nat)) (s : State), (∀ x ∈ l, x.1 ≠ n) →
    (l.foldl (fun s c => s.enroll p c) s).coreById n = s.coreById n := by
  intro l
  induction l with
  | nil => intros; rfl
  | cons x l ih =>
    intro s h
    obtain ⟨hx, hl⟩ := List.forall_mem_cons.mp h
    rw [List.foldl_cons, ih _ hl]
    exact s.coreById_enroll_other p (Ne.symm hx) x.2

/-- Each core of a list that gives it one place is the partition's at that place. -/
theorem State.coreById_enrolls {p : PartConfig} {n die row col : Nat} {c : Core} : ∀ {l : List (Nat × Nat × Nat × Nat)} {s : State},
    (n, die, row, col) ∈ l → (∀ x ∈ l, x.1 = n → x = (n, die, row, col)) → (l.foldl (fun s c => s.enroll p c) s).coreById n = some c →
    c.Enrolled p (s.dev.fencedCores.contains n) row col := by
  intro l
  induction l with
  | nil => intro s hm; cases hm
  | cons x l ih =>
    intro s hm hu hc
    obtain ⟨hx, hl⟩ := List.forall_mem_cons.mp hu
    rw [List.foldl_cons] at hc
    by_cases later : (n, die, row, col) ∈ l
    · obtain ⟨r, w, hdev⟩ := s.dev_enroll p x
      have := ih later hl hc
      rwa [hdev] at this
    · obtain rfl : (n, die, row, col) = x := (List.mem_cons.mp hm).resolve_right later
      have none_later : ∀ y ∈ l, y.1 ≠ n := fun y hy e => later (hl y hy e ▸ hy)
      rw [State.coreById_enrolls_other p l _ none_later] at hc
      exact State.coreById_enroll_same hc


/-! ## POWER_ON (R466) -/

/-- A write of a machine with one core, which monitors no line, and with no word in error and no cell waited for, changes its bytes alone. -/
theorem State.poke_quiet {s : State} (hb : s.dev.bad = []) (hc : s.dev.cells = []) (hm : s.core.ctx.monLine = none) (hr : s.rest = []) (key : Nat)
    (bs : List Byte) : s.poke key bs = s.setMem (Memory.writeBytes s.dev.mem key bs) := by
  have sound : s.dev.writeSound key bs = { s.dev with mem := Memory.writeBytes s.dev.mem key bs } := by
    rw [Dev.writeSound, if_neg (by simp [hb])]
  have raw : s.pokeRaw key bs = s.setMem (Memory.writeBytes s.dev.mem key bs) := by
    unfold State.pokeRaw State.wakeMonitors
    simp only [State.modDev_core, State.modDev_rest, hm, hr, List.map_nil]
    rw [State.modDev, sound]
    unfold State.setMem State.modDev
    rw [hr]
  have none_waits : (s.setMem (Memory.writeBytes s.dev.mem key bs)).dev.cells.length = 0 := by rw [State.setMem_cells, hc, List.length_nil]
  rw [State.poke, raw, none_waits, State.settleCells]

/-- What memory holds when the boot reads its image: the boot ROM, and the image where the host has written it (R466). -/
def bootMem (boot : BootImage) (m : List Host.Cell) : List Host.Cell :=
  let rom := m.filter fun c => decide (romKeys ≤ c.1)
  match boot.host with
  | none => rom
  | some image => Memory.writeBytes rom 0 (image.take localBytes)

/-- The machine as the boot finds it. -/
def State.powered (s : State) (boot : BootImage) : State :=
  { State.reset with
    dev := { Dev.powerOn with mem := bootMem boot s.dev.mem, seq := s.dev.seq, gangCount := s.dev.gangCount, hostImg := boot.host.isSome }
    agenda := s.agenda, fresh := s.fresh }

theorem exec_powerOn (boot : BootImage) (s : State) :
    exec (.powerOn boot) s = .next (if boot.verified then { s.powered boot with
        rest := [1, 2, 3].map (bootedCore boot.entry)
        dev := { (s.powered boot).dev with meas0 := extendMeas 0 (bootDigest boot), bootState := 1 } }
      else (s.powered boot).modDev fun d => { d with bootState := 3 }) := by
  show execPowerOn boot s = _
  unfold execPowerOn State.powered bootMem
  cases boot.host with
  | none => cases boot.verified <;> rfl
  | some image =>
    dsimp only
    rw [State.poke_quiet rfl rfl rfl rfl]
    cases boot.verified <;> rfl

/-- The image that the host has written is in local device memory when the boot reads it. -/
theorem read_bootMem {boot : BootImage} {image : List Byte} (h : boot.host = some image) (m : List Host.Cell) {k : Nat} (hk : k < image.length)
    (hl : k < localBytes) : some (Memory.read (bootMem boot m) k) = image[k]? := by
  have below : localBytes ≤ romKeys := by
    unfold localBytes romKeys
    norm_num
  have rom : ∀ c ∈ m.filter (fun c => decide (romKeys ≤ c.1)), romKeys ≤ c.1 := fun c hc => of_decide_eq_true (List.mem_filter.mp hc).2
  have length : (image.take localBytes).length ≤ localBytes := List.length_take_le ..
  have front := Memory.writeBytes_append (image.take localBytes) [] 0 fun c hc => by
    have := rom c hc
    omega
  rw [List.nil_append] at front
  obtain ⟨written, -⟩ := Memory.read_writeBytes (image.take localBytes) (m := []) rfl 0
  have here := written k (by rw [List.length_take]; omega)
  rw [Nat.zero_add, List.getElem?_take_of_lt hl] at here
  unfold bootMem
  rw [h]
  dsimp only
  rw [front, Memory.read_append fun c hc => by have := rom c hc; omega, here]

theorem bootDigest_eq {boot : BootImage} {image : List Byte} (h : boot.host = none ∨ boot.host = some image) :
    bootDigest boot = if boot.host = some image then BitVec.ofNat 256 (leNat (sha256 image)) else boot.digest := by
  unfold bootDigest
  rcases h with h | h
  · rw [h, if_neg (by simp)]
  · rw [h, if_pos rfl]

theorem map_bootedCore (entry : BitVec 48) :
    ([1, 2, 3].map (bootedCore entry)).map (fun c => (c.id, c.ctx.pc, c.level, c.mgmt)) =
      [1, 2, 3].map fun k => (mgmtId k, BitVec.ofNat 64 entry.toNat, Level.f, true) := by
  have pc : entry.setWidth 64 = BitVec.ofNat 64 entry.toNat := by
    apply BitVec.eq_of_toNat_eq
    rw [BitVec.toNat_setWidth, BitVec.toNat_ofNat]
  rw [← pc]
  rfl

/-! ## PARTITION_BUILD (R469) -/

theorem State.coresQuiet_iff (s : State) (number : BitVec 6) (mine : List Nat) :
    s.coresQuiet number mine = true ↔ ∀ c ∈ s.cores, c.mgmt = true ∨ (c.part ≠ number ∧ c.id ∉ mine) ∨ s.unitBusy c = false := by
  unfold State.coresQuiet
  simp [or_assoc]

/-- When the partition manager builds. -/
def State.builds (s : State) (p : PartConfig) : Prop :=
  s.dev.goBit = true ∧ (s.dev.bootState = 1 ∨ s.dev.bootState = 2) ∧ s.partOk p = true ∧ s.partBusy p.number = false ∧
    s.coresQuiet p.number ((partCores p).map fun c => c.1) = true

/-- The machine before the partition's cores are taken up: those that leave it are held, and its pools and clusters' memories are clear. -/
def State.vacated (s : State) (p : PartConfig) : State :=
  let mine := (partCores p).map fun c => c.1
  let leave (c : Core) : Core :=
    if c.mgmt = false ∧ c.part = p.number ∧ mine.contains c.id = false ∧ c.run ≠ .fenced then { c with run := .heldForRebuild } else c
  { s with
    core := leave s.core, rest := s.rest.map leave
    dev := { s.dev.clearPools mine with
      parts := (s.dev.parts.filter fun q => q.number != p.number) ++ [p], meas2 := extendMeas s.dev.meas2 (configDigest p), bootState := 2
      rebuilds := s.dev.rebuilds.filter fun n => n != p.number } }

theorem exec_partitionBuild {s : State} {p : PartConfig} (h : s.builds p) :
    exec (.partitionBuild p) s = .next ((partCores p).foldl (fun s c => s.enroll p c) (s.vacated p)) := by
  show execPartitionBuild p s = _
  unfold execPartitionBuild
  exact if_pos h

theorem exec_partitionBuild_refused {s : State} {p : PartConfig} (h : ¬s.builds p) : exec (.partitionBuild p) s = .next s := by
  show execPartitionBuild p s = _
  unfold execPartitionBuild
  exact if_neg h

/-- A core's pool and its cluster's memory are clear once its partition is built. -/
theorem Dev.clearPools_core (d : Dev) {cores : List Nat} {n : Nat} (hn : n ∈ cores) (hlt : n < 4992) (off k : Nat) (hk : 0 < k) :
    (off + k ≤ 0x60000 → Memory.read (d.clearPools cores).mem (poolKey n off) = 0 ∧ (d.clearPools cores).badWord (poolKey n off) k = none) ∧
      (off + k ≤ 0x200000 → Memory.read (d.clearPools cores).mem (clusterKey (clusterOfId n) off) = 0 ∧
        (d.clearPools cores).badWord (clusterKey (clusterOfId n) off) k = none) := by
  refine ⟨fun inside => Dev.clearPools_clears (fun a low high => inPools_pool hn (regionOf_pool hlt ?_ ?_)) hk,
    fun inside => Dev.clearPools_clears (fun a low high => inPools_cluster hn (regionOf_cluster ?_ ?_ ?_)) hk⟩
  · unfold poolKey poolKeys at *
    omega
  · unfold poolKey poolKeys at *
    omega
  · unfold clusterOfId
    dsimp only
    omega
  · unfold clusterKey clusterKeys at *
    omega
  · unfold clusterKey clusterKeys at *
    omega

/-! ## BootAndPartitionEvents -/

/-- Settles O59: by the state that the boot finds and by what taking up a partition's cores leaves of the device and of each other core. -/
theorem bootAndPartitionEvents : Obligations.BootAndPartitionEvents := by
  unfold Obligations.BootAndPartitionEvents
  intro s boot p n die row col c image mine quiet digest
  have quiet_iff : quiet ↔ s.coresQuiet p.number mine = true := (s.coresQuiet_iff p.number mine).symm
  refine ⟨fun source verified => ?_, fun stopped => ?_, fun unready => exec_partitionBuild_refused ?_, ?_, fun ok => ?_⟩
  · refine ⟨_, exec_powerOn boot s, ?_⟩
    rw [if_pos verified]
    exact ⟨rfl, congrArg (extendMeas 0) (bootDigest_eq source), rfl, map_bootedCore boot.entry, rfl, fun host k hk hl => read_bootMem host s.dev.mem hk hl⟩
  · refine ⟨_, exec_powerOn boot s, ?_⟩
    rw [if_neg (by simp [stopped])]
    exact ⟨rfl, rfl, rfl⟩
  · rintro ⟨go, state, ok, free, atRest⟩
    rw [← quiet_iff] at atRest
    rcases unready with h | h | h | h | h | h
    · simp [h] at go
    · simp [h] at state
    · simp [h] at state
    · simp [h] at ok
    · simp [h] at free
    · exact h atRest
  · rintro ⟨go, state, ok, free, atRest⟩
    obtain ⟨sound, -, -⟩ := State.partOk_facts ok
    obtain ⟨resvs, cells, dev⟩ := State.dev_enrolls p (partCores p) (s.vacated p)
    refine ⟨_, exec_partitionBuild ⟨go, state, ok, free, quiet_iff.mp atRest⟩, ?_⟩
    unfold State.byte
    rw [dev]
    refine ⟨rfl, rfl, ?_, ?_, ?_, fun mem found => ?_, fun mem off k hk => ?_, fun wf a elsewhere => ?_⟩
    · exact List.mem_append_right _ List.mem_cons_self
    · intro q hq number
      rcases List.mem_append.mp hq with old | new
      · exact absurd number (by simpa using (List.mem_filter.mp old).2)
      · exact List.mem_singleton.mp new
    · show (s.dev.rebuilds.filter fun k => k != p.number).contains p.number = false
      simp
    · have place := mem_partCores mem
      have once : ∀ x ∈ partCores p, x.1 = n → x = (n, die, row, col) := by
        rintro ⟨m, die', row', col'⟩ hx rfl
        obtain ⟨rfl, rfl, rfl⟩ := partCoreAt_injective sound (mem_partCores hx) place
        rfl
      obtain ⟨level, run, part, fvec, pc, hrow, hcol⟩ := State.coreById_enrolls mem once found
      exact ⟨level, run, part, fvec, pc, hrow, hcol⟩
    · exact s.dev.clearPools_core (List.mem_map_of_mem mem) (partCoreAt_lt sound (mem_partCores mem)) off k hk
    · have kept := inPools_elsewhere elsewhere
      exact ⟨Dev.read_clearPools_elsewhere wf kept, Dev.badWord_clearPools kept⟩
  · obtain ⟨-, fenced, spare⟩ := State.partOk_facts ok
    exact ⟨fenced, spare⟩

end Sys2Proof.Machine
end

section
/-!
PROOFS. Pointer arithmetic (R10): the sums of ADD, SUB and ADDI, with and without a tag.
-/

namespace Sys2Proof.Machine

/-! ## Pointer arithmetic (R10) -/

/-- Pointer arithmetic without a tag is that of plain words, and with one it keeps the tag. -/
theorem ptrArith_eq (sub : Bool) (a b : Word) :
    ptrArith sub a b =
      let sum := if sub then a - b else a + b
      let r := (a &&& 0xFF00_0000_0000_0000) ||| (sum &&& 0x00FF_FFFF_FFFF_FFFF)
      if a.toNat / 2 ^ 56 = 0 then (sum, false) else (r, r.getLsbD 55 != a.getLsbD 55) := rfl

/-- An instruction that adds to a pointer writes what the arithmetic answers, or traps PTR_RANGE. -/
theorem run_ptrResult_setX (rd : Reg) (sub : Bool) (a b : Word) (s : State) :
    (do setX rd (← ptrResult sub a b) : Act Unit) s =
      if (ptrArith sub a b).2 then .error (.trap cPtrRange (ptrArith sub a b).1 .here) s else .ok () (s.setX rd (ptrArith sub a b).1) := by
  rw [run_bind, run_ptrResult]
  cases (ptrArith sub a b).2 <;> rfl

/-- The three instructions that add to a pointer, by the operation that each makes. -/
theorem exec_addsPointer {i : Instr} {s : State} {rd rs1 rs2 : Reg} {imm : BitVec 16} {sum : Word}
    (h : i = .add rd rs1 rs2 ∧ sum = s.ctx.getX rs1 + s.ctx.getX rs2 ∨ i = .sub rd rs1 rs2 ∧ sum = s.ctx.getX rs1 - s.ctx.getX rs2 ∨
      i = .addi rd rs1 imm ∧ sum = s.ctx.getX rs1 + imm.signExtend 64) :
    ∃ sub b, sum = (if sub then s.ctx.getX rs1 - b else s.ctx.getX rs1 + b) ∧
      exec i s = runSeq i (do setX rd (← ptrResult sub (s.ctx.getX rs1) b)) s := by
  rcases h with ⟨rfl, rfl⟩ | ⟨rfl, rfl⟩ | ⟨rfl, rfl⟩
  · exact ⟨false, s.ctx.getX rs2, rfl, rfl⟩
  · exact ⟨true, s.ctx.getX rs2, rfl, rfl⟩
  · exact ⟨false, imm.signExtend 64, rfl, rfl⟩

/-- Settles O13: by the cases of the arithmetic. -/
theorem pointerArithmetic : Obligations.PointerArithmetic := by
  unfold Obligations.PointerArithmetic
  intro s rd rs1 rs2 imm i sum a r h
  obtain ⟨sub, b, hsum, hexec⟩ := exec_addsPointer h
  have run := run_ptrResult_setX rd sub a b s
  have arith := ptrArith_eq sub a b
  rw [← hsum] at arith
  refine ⟨fun plain => ?_, fun ⟨tagged, inside⟩ => ?_, fun ⟨tagged, outside⟩ pending => ?_⟩
  · rw [arith, if_pos plain] at run
    exact hexec.trans (runSeq_ok run)
  · rw [arith, if_neg tagged] at run
    exact hexec.trans (runSeq_ok (run.trans (if_neg (by simpa [r] using inside))))
  · rw [arith, if_neg tagged] at run
    exact hexec.trans (runSeq_trap (run.trans (if_pos (by simpa [r] using outside))) pending)
end Sys2Proof.Machine
end

section
/-!
PROOFS. Where the statements on accesses fail: states in which the model answers otherwise.
-/

namespace Sys2Proof.Machine

/-! ## Stores to the core's own pool, in concrete states (R20, R23, R26) -/

/-- The pool of the core that uses it, by the coordinates for itself (R20). -/
def selfPool : Word := 0x008F_FF00_0000_0000

/-- A core of no partition, at F, with its own pool named in x1. -/
def State.atOwnPool : State := State.reset.modCore fun c => { c with mgmt := false, ctx := c.ctx.setX 1 selfPool }

/-- The core's UNACK stands above the 256 that R28 allows. -/
def State.overfull : State := State.atOwnPool.modCore fun c => { c with unack := 257 }

theorem addressOf_selfPool : addressOf selfPool 0 = some selfPool := by decide

theorem overfull_admits (acc : Acc) : State.overfull.admits acc selfPool 8 (poolKey 4992 0) State.overfull := rfl

theorem overfull_sd : exec (.sd 0 1 0) State.overfull = .next (State.overfull.holdAt .retry (wordOf (.sd 0 1 0))) := rfl

theorem overfull_str : exec (.str .core 1 0) State.overfull = .next (State.overfull.holdAt .retry (wordOf (.str .core 1 0))) := rfl

/-- Refutes O16: with UNACK above 256, which the statement does not exclude, a store to the own pool waits too. -/
theorem not_scalarStoreResults : ¬Obligations.ScalarStoreResults := by
  unfold Obligations.ScalarStoreResults
  intro h
  obtain ⟨performed, -⟩ := h State.overfull State.overfull (.sd 0 1 0) 0 1 0 selfPool (poolKey 4992 0) 8 rfl addressOf_selfPool
    (overfull_admits .store) (by decide)
  have same := overfull_sd.symm.trans (performed ⟨rfl, rfl⟩)
  have held : Hold.retry = Hold.none := congrArg (fun s : State => s.core.hold) (Host.Outcome.next.inj same)
  exact absurd held (by decide)

/-- Refutes O35: with UNACK above 256, which the statement does not exclude, a release store to the own pool waits too. -/
theorem not_acquireReleaseAndRemoteLoads : ¬Obligations.AcquireReleaseAndRemoteLoads := by
  unfold Obligations.AcquireReleaseAndRemoteLoads
  intro h
  obtain ⟨-, str, -⟩ := h State.overfull State.overfull State.overfull .core 0 1 0 0 selfPool (poolKey 4992 0)
    { word := none, home := 0, width := 0, value := none, failed := false }
  obtain ⟨-, performed, -⟩ := str ⟨rfl, rfl, overfull_admits .store, by decide⟩
  have same := overfull_str.symm.trans (performed ⟨rfl, rfl⟩)
  have held : Hold.retry = Hold.none := congrArg (fun s : State => s.core.hold) (Host.Outcome.next.inj same)
  exact absurd held (by decide)

/-- A commutative atomic of core 4992 on its way to a key. -/
def commutativeAt (key : Nat) : Flight :=
  { id := 0, core := 4992, lnum := 0, home := key, op := .amo .add 1, comm := true, append := false, rd := none, done := false, acked := false, old := 0
    merged := [] }

/-- The core's atomic to the first word of its pool is on its way, and the word has met an uncorrectable error meanwhile. -/
def State.spoilt : State := State.atOwnPool.modDev fun d => { d with
  bad := [poolKey 4992 0 / 8], flights := [commutativeAt (poolKey 4992 0)], seq := 1 }

theorem spoilt_admits : State.spoilt.admits .store selfPool 8 (poolKey 4992 0) State.spoilt := rfl

theorem spoilt_memOk : State.spoilt.memOk := rfl

/-- The state that the store of x0 to the word leaves. -/
def State.storedBehindLost : State := State.spoilt.finish (.sd 0 1 0) ((do scalarStore 0 1 0 8; return Flow.seq) State.spoilt)

theorem spoilt_sd : exec (.sd 0 1 0) State.spoilt = .next State.storedBehindLost := rfl

/-- The store performs the atomic before it, which is lost. -/
theorem spoilt_loses : State.storedBehindLost.core.lost.length = 1 := rfl

/-- Refutes O17: the store performs the core's own earlier atomic to the line, and where that meets an uncorrectable error in its word it is lost,
and the core is to trap for it (R80, R161). -/
theorem not_scalarStoreFrame : ¬Obligations.ScalarStoreFrame := by
  unfold Obligations.ScalarStoreFrame
  intro h
  obtain ⟨-, -, -, -, core, -⟩ := h State.spoilt State.spoilt _ (.sd 0 1 0) 0 1 0 selfPool (poolKey 4992 0) 8 rfl addressOf_selfPool spoilt_admits
    (fun _ => rfl) (by decide) spoilt_memOk spoilt_sd
  have lost : _ = 0 := congrArg (fun c : Core => c.lost.length) core
  rw [spoilt_loses] at lost
  exact absurd lost (by decide)

/-- A store of core 4992 to the host, behind the core's commutative atomic to the same word. -/
def hostStore : Flight := { commutativeAt (2 ^ 50) with id := 1, op := .store [0], comm := false }

/-- An atomic and a store of the core in focus to the host's first word are in flight. -/
def State.storeBehindAtomic : State := State.reset.modDev fun d => { d with flights := [commutativeAt (2 ^ 50), hostStore], seq := 2 }

/-- The acknowledged store stands behind the atomic. -/
theorem storeBehindAtomic_storeAck : exec (.storeAck 1) State.storeBehindAtomic = .next ((State.storeBehindAtomic.modDev fun d => { d with
    flights := [commutativeAt (2 ^ 50), { hostStore with acked := true }] }).acknowledge 4992) := rfl

/-- Refutes O36: a store that enters the host's posted queue stands behind its core's earlier atomic to the line, which the queue does not hold, and not
before it. -/
theorem not_accessesInFlight : ¬Obligations.AccessesInFlight := by
  unfold Obligations.AccessesInFlight
  intro h
  obtain ⟨flight, -⟩ := h
  obtain ⟨-, -, -, -, posted, -⟩ := flight State.storeBehindAtomic 1 hostStore 0 rfl
  have ahead : ∀ g ∈ State.storeBehindAtomic.dev.flights, g.ahead hostStore = true → g.acked = true ∨ g.op.isAtomic = true := by decide
  have same := storeBehindAtomic_storeAck.symm.trans (posted ⟨rfl, rfl, rfl, rfl, ahead⟩)
  have first : some 0 = some 1 := congrArg (fun s : State => s.dev.flights.head?.map Flight.id) (Host.Outcome.next.inj same)
  exact absurd first (by decide)

end Sys2Proof.Machine
end

section
/-!
PROOFS. The frame of the instructions on scalar registers (R10, R193, R199, R200, R233): what a core's slot of a gang's stream and a trap leave of every core.
-/

namespace Sys2Proof.Machine

/-! ## Where a core executes (R193, R199, R200, R205, R315) -/

/-- A context that is another but for where it executes is that other placed where it executes. -/
theorem Ctx.eq_of_lasting {c d : Ctx} (h : d.lasting = c.lasting) :
    d = { c with pc := d.pc, lcount0 := d.lcount0, lcount1 := d.lcount1, gang := d.gang, pieces := d.pieces } :=
  congrArg (fun x : Ctx => { x with pc := d.pc, lcount0 := d.lcount0, lcount1 := d.lcount1, gang := d.gang, pieces := d.pieces }) h

/-- A core that differs in its context and in what it holds, the context in where it executes alone, is moved. -/
theorem Core.eq_placedAs {c d : Core} (ctx : d.ctx.lasting = c.ctx.lasting)
    (rest : d = { c with
      ctx := d.ctx, hold := d.hold, issued := d.issued, record := d.record, arrived := d.arrived, passed := d.passed, listing := d.listing
      mtx := d.mtx }) : d = c.placedAs d :=
  rest.trans (congrArg (fun x : Ctx => { c with
    ctx := x, hold := d.hold, issued := d.issued, record := d.record, arrived := d.arrived, passed := d.passed, listing := d.listing
    mtx := d.mtx }) (Ctx.eq_of_lasting ctx))

theorem Core.placedAs_trans {c d e : Core} (h : d = c.placedAs d) (g : e = d.placedAs e) : e = c.placedAs e :=
  g.trans (congrArg (fun x : Core => x.placedAs e) h : d.placedAs e = (c.placedAs d).placedAs e)

theorem Core.id_of_placedAs {c d : Core} (h : d = c.placedAs d) : d.id = c.id :=
  (congrArg Core.id h : d.id = (c.placedAs d).id)

theorem Core.passBar_placed (c : Core) : c.passBar = c.placedAs c.passBar := by
  unfold Core.passBar
  split
  · rfl
  · dsimp only
    split
    · exact Core.eq_placedAs (Ctx.lasting_loopTests _ _) rfl
    · rfl

theorem forall₂_trans {α : Type} {r : α → α → Prop} (hr : ∀ a b c, r a b → r b c → r a c) {l m : List α} (h : List.Forall₂ r l m) :
    ∀ {n : List α}, List.Forall₂ r m n → List.Forall₂ r l n := by
  induction h with
  | nil => exact id
  | cons first _ ih =>
    intro n g
    cases g with
    | cons second rest => exact .cons (hr _ _ _ first second) (ih rest)

/-- A state that comes of another by what a slot of a gang's stream does: each core executes elsewhere, the gangs' own records are kept, and order
numbers are taken. -/
structure State.MovedFrom (s t : State) : Prop where
  core : t.core = s.core.placedAs t.core
  rest : List.Forall₂ (fun c d : Core => d = c.placedAs d) s.rest t.rest
  dev : t.dev = { s.dev with gangs := t.dev.gangs, seq := t.dev.seq }
  fresh : t.fresh = s.fresh
  agenda : t.agenda = s.agenda

namespace State.MovedFrom

theorem refl (s : State) : s.MovedFrom s := ⟨rfl, List.forall₂_same.mpr fun _ _ => rfl, rfl, rfl, rfl⟩

theorem trans {s t u : State} (h : s.MovedFrom t) (g : t.MovedFrom u) : s.MovedFrom u where
  core := Core.placedAs_trans h.core g.core
  rest := forall₂_trans (r := fun c d : Core => d = c.placedAs d) (fun _ _ _ => Core.placedAs_trans) h.rest g.rest
  dev := g.dev.trans (congrArg (fun d : Dev => { d with gangs := u.dev.gangs, seq := u.dev.seq }) h.dev)
  fresh := g.fresh.trans h.fresh
  agenda := g.agenda.trans h.agenda

theorem modGang (s : State) (n : Nat) (f : Gang → Gang) : s.MovedFrom (s.modGang n f) := ⟨rfl, List.forall₂_same.mpr fun _ _ => rfl, rfl, rfl, rfl⟩

theorem takeSeq (s : State) : s.MovedFrom s.takeSeq.2 := ⟨rfl, List.forall₂_same.mpr fun _ _ => rfl, rfl, rfl, rfl⟩

theorem modCore {f : Core → Core} {s : State} (hf : f s.core = s.core.placedAs (f s.core)) : s.MovedFrom (s.modCore f) :=
  ⟨hf, List.forall₂_same.mpr fun _ _ => rfl, rfl, rfl, rfl⟩

theorem modCoreId {f : Core → Core} (hf : ∀ c, f c = c.placedAs (f c)) (s : State) (n : Nat) : s.MovedFrom (s.modCoreId n f) := by
  unfold State.modCoreId
  split
  · exact modCore (hf _)
  · refine ⟨rfl, List.forall₂_map_right_iff.mpr (List.forall₂_same.mpr fun c _ => ?_), rfl, rfl, rfl⟩
    split
    · exact hf c
    · rfl

theorem foldl {α : Type} {f : State → α → State} (hf : ∀ (s : State) a, s.MovedFrom (f s a)) : ∀ (l : List α) (s : State), s.MovedFrom (l.foldl f s)
  | [], s => refl s
  | a :: l, s => (hf s a).trans (foldl hf l (f s a))

theorem settleGang (s : State) (n : Nat) : s.MovedFrom (s.settleGang n) := by
  unfold State.settleGang
  split
  · exact refl s
  · split
    · exact (foldl (fun s m => modCoreId Core.passBar_placed s _) _ s).trans (modGang _ _ _)
    · split
      · split
        · exact (foldl (fun s m => modCoreId (by exact fun _ => rfl) s _) _ s).trans (modGang _ _ _)
        · exact refl s
      · exact refl s

theorem enterStaged (s : State) (n : Nat) : s.MovedFrom (s.enterStaged n) := by
  unfold State.enterStaged
  split
  · exact refl s
  · dsimp only
    refine trans ?_ (modGang _ _ _)
    refine List.foldlRecOn (motive := fun acc : State × List (Nat × Joint) => s.MovedFrom acc.1) _ _ (refl s) ?_
    intro acc h x _
    split
    · refine trans ?_ (modCoreId (by exact fun _ => rfl) _ _)
      split
      · exact h
      · exact h.trans (takeSeq _)
    · exact h

theorem gangTick (s : State) (n : Nat) : s.MovedFrom (s.gangTick n) := by
  unfold State.gangTick
  have settled := settleGang s n
  dsimp only
  split
  · exact settled
  · split
    · exact settled.trans ((enterStaged _ n).trans ⟨rfl, List.forall₂_same.mpr fun _ _ => rfl, rfl, rfl, rfl⟩)
    · split
      · exact settled.trans ((modGang _ _ _).trans (enterStaged _ n))
      · exact settled

theorem detach (s : State) (l : GangLink) : s.MovedFrom (s.detach l) := trans (modCore (f := fun c => { c with ctx := c.ctx.setGangMode 3 }) rfl) (modGang _ _ _)

theorem streamStep (s : State) (l : GangLink) (lead moved : Bool) (pc : Word) (word : IWord) : s.MovedFrom (s.streamStep l lead moved pc word) := by
  unfold State.streamStep
  split
  · exact refl s
  · split
    · exact (modGang _ _ _).trans (gangTick _ _)
    · dsimp only
      refine trans ?_ (gangTick _ _)
      split
      · exact modGang _ _ _
      · split
        · exact (modGang _ _ _).trans (detach _ _)
        · exact modGang _ _ _

theorem bookSlot (s : State) (before : Core) (word : IWord) : s.MovedFrom (s.bookSlot before word) := by
  unfold State.bookSlot
  split
  · exact refl s
  · split
    · exact streamStep _ _ _ _ _ _
    · exact refl s

/-- Retiring in sequence moves the core, and in a stream those of its gang. -/
theorem retired (s : State) (i : Instr) (t : State) : t.MovedFrom (s.retired i .seq t) :=
  trans (modCore (Core.eq_placedAs (Ctx.lasting_loopTests _ _) rfl)) (bookSlot _ _ _)

/-- Every other core stands where it executes. -/
theorem othersKept {s t : State} (h : s.MovedFrom t) : s.othersKept t := by
  have found (n : Nat) {l m : List Core} (h : List.Forall₂ (fun c d : Core => d = c.placedAs d) l m) {c : Core}
      (hc : l.find? (fun c => c.id == n) = some c) : ∃ d, m.find? (fun c => c.id == n) = some d ∧ d = c.placedAs d := by
    induction h with
    | nil => cases hc
    | cons moved _ ih =>
      have id := Core.id_of_placedAs moved
      rw [List.find?_cons] at hc ⊢
      rw [id]
      split at hc
      · cases hc
        exact ⟨_, rfl, moved⟩
      · exact ih hc
  intro n c other hc
  have id := Core.id_of_placedAs h.core
  unfold State.coreById at hc ⊢
  rw [if_neg (Ne.symm other)] at hc
  rw [id, if_neg (Ne.symm other)]
  exact found n h.rest hc

end State.MovedFrom

/-- A core of no gang retires alone. -/
theorem State.retired_alone {s : State} (h : s.core.link = none) (i : Instr) (f : Flow) (t : State) :
    s.retired i f t = t.modCore fun c => { c.unhold with ctx := c.ctx.retire f } := State.bookSlot_alone _ h _

/-! ## What the register instructions do (R10, R300 to R307) -/

theorem Ctx.getX_setX_of_ne (c : Ctx) {r q : Reg} (h : q ≠ r) (v : Word) : (c.setX r v).getX q = c.getX q := by
  unfold Ctx.setX Ctx.getX
  split
  · rfl
  · have ne : r.toNat ≠ q.toNat := fun e => h (BitVec.eq_of_toNat_eq e.symm)
    split
    · rfl
    · exact Vector.getElem_set_ne r.isLt q.isLt ne

theorem Ctx.setX_eq (c : Ctx) (r : Reg) (v : Word) : c.setX r v = { c with x := (c.setX r v).x } := by
  unfold Ctx.setX
  split <;> rfl

/-- A state that comes of another by a change of one scalar register, if of any. -/
def State.writes (s : State) (rd : Reg) (t : State) : Prop :=
  ∃ x, t = s.modCtx (fun c => { c with x := x }) ∧ ∀ r, r ≠ rd → t.ctx.getX r = s.ctx.getX r

theorem State.writes_refl (s : State) (rd : Reg) : s.writes rd s := ⟨s.ctx.x, rfl, fun _ _ => rfl⟩

theorem State.writes_setX (s : State) (rd : Reg) (v : Word) : s.writes rd (s.setX rd v) :=
  ⟨(s.ctx.setX rd v).x, congrArg (fun c => s.modCtx fun _ => c) (s.ctx.setX_eq rd v), fun _ other => s.ctx.getX_setX_of_ne other v⟩

theorem run_bodyCsel (rd rs1 rs2 : Reg) (s : State) :
    bodyCsel rd rs1 rs2 s = .ok () (if s.ctx.getX rs1 = 0 then s else s.setX rd (s.ctx.getX rs2)) := by
  unfold bodyCsel
  rw [run_bind_ok (run_getX rs1 s)]
  by_cases zero : s.ctx.getX rs1 = 0
  · rw [if_pos zero, if_neg (not_not.mpr zero)]
    rfl
  · rw [if_neg zero, if_pos zero]
    rfl

/-- An instruction on scalar registers that adds to no pointer retires, and writes its destination or nothing. -/
theorem exec_registerTarget {i : Instr} {rd : Reg} (h : registerTarget i = some rd) (plain : addsPointer i = false) (s : State) :
    ∃ t, s.writes rd t ∧ exec i s = .next (s.retired i .seq t) := by
  unfold registerTarget at h
  split at h
  case h_1 | h_2 | h_3 => cases plain
  case h_25 rd rs1 rs2 =>
    cases h
    refine ⟨_, ?_, runSeq_ok (run_bodyCsel rd rs1 rs2 s)⟩
    split
    · exact s.writes_refl rd
    · exact s.writes_setX rd _
  case h_48 => cases h
  all_goals
    cases h
    exact ⟨_, s.writes_setX _ _, rfl⟩

/-- One that adds to a pointer does so, or traps PTR_RANGE. -/
theorem exec_of_addsPointer {i : Instr} {rd : Reg} (h : registerTarget i = some rd) (adds : addsPointer i = true) (s : State) :
    ∃ (rs1 : Reg) (sub : Bool) (b : Word), exec i s = runSeq i (do setX rd (← ptrResult sub (s.ctx.getX rs1) b)) s := by
  unfold addsPointer at adds
  split at adds
  case h_1 rd rs1 rs2 => cases h; exact ⟨rs1, false, s.ctx.getX rs2, rfl⟩
  case h_2 rd rs1 rs2 => cases h; exact ⟨rs1, true, s.ctx.getX rs2, rfl⟩
  case h_3 rd rs1 imm => cases h; exact ⟨rs1, false, imm.signExtend 64, rfl⟩
  case h_4 => cases adds

/-! ## The frame of the register instructions -/

/-- What stands at the other cores does not depend on the context of the core in focus. -/
theorem State.othersKept_of_modCtx {s t : State} {f : Ctx → Ctx} (h : (s.modCtx f).othersKept t) : s.othersKept t := by
  intro n c other found
  refine h n c other ?_
  unfold State.coreById at found ⊢
  rw [if_neg (Ne.symm other)] at found
  exact (if_neg (Ne.symm other)).trans found

/-- A state with the same other cores. -/
theorem State.othersKept_of_rest {s t : State} (rest : t.rest = s.rest) (id : t.core.id = s.core.id) : s.othersKept t := by
  intro n c other found
  refine ⟨c, ?_, rfl⟩
  unfold State.coreById at found ⊢
  rw [if_neg (Ne.symm other)] at found
  rw [id, if_neg (Ne.symm other), rest]
  exact found

theorem State.getX_of_x {s t : State} (h : t.ctx.x = s.ctx.x) (r : Reg) : t.ctx.getX r = s.ctx.getX r := by
  unfold Ctx.getX
  simp only [h]

/-- What an instruction that has written one register or none leaves as it retires. -/
theorem State.retired_frame {s t : State} {rd : Reg} (h : s.writes rd t) (i : Instr) :
    let u := s.retired i .seq t
    u.core = { s.core.placedAs u.core with ctx := { (s.core.placedAs u.core).ctx with x := u.ctx.x } } ∧
      (∀ r, r ≠ rd → u.ctx.getX r = s.ctx.getX r) ∧ s.othersKept u ∧ u.dev = { s.dev with gangs := u.dev.gangs, seq := u.dev.seq } ∧
      u.fresh = s.fresh ∧ u.agenda = s.agenda := by
  obtain ⟨x, rfl, same⟩ := h
  intro u
  have moved := State.MovedFrom.retired s i (s.modCtx fun c => { c with x := x })
  have others := State.othersKept_of_modCtx moved.othersKept
  obtain ⟨core, -, dev, fresh, agenda⟩ := moved
  have ux : u.ctx.x = x := (congrArg (fun c : Core => c.ctx.x) core : _ = ((s.modCtx fun c => { c with x := x }).core.placedAs u.core).ctx.x)
  refine ⟨?_, fun r other => ?_, others, dev, fresh, agenda⟩
  · rw [ux]
    exact core
  · rw [← same r other]
    exact State.getX_of_x (s := s.modCtx fun c => { c with x := x }) ux r

/-- A core with another's level, registers of exceptions and held state. -/
def Core.withExceptions (c d : Core) : Core :=
  { c with
    level := d.level, kcause := d.kcause, kinfo := d.kinfo, kretpc := d.kretpc, kstat := d.kstat, fcause := d.fcause, finfo := d.finfo
    fretpc := d.fretpc, fstatus := d.fstatus, trapDue := d.trapDue, heldAt := d.heldAt }

/-- A core that has taken a trap, or has still to: beside its exceptions it executes elsewhere. -/
def Core.Trapped (c d : Core) : Prop :=
  d = (c.placedAs d).withExceptions d ∧ d.ctx.gang = c.ctx.gang ∧ d.ctx.pieces = c.ctx.pieces ∧ d.mtx = c.mtx

theorem Core.trapped_due (c : Core) (due : Option TrapDue) : c.Trapped { c.unhold with trapDue := due } := ⟨rfl, rfl, rfl, rfl⟩

theorem Core.trapped_enterF (c : Core) (held : Option Held) (dbl : Bool) (cause info ret : Word) :
    c.Trapped (({ c with heldAt := held } : Core).cleared.enterF dbl cause info ret) := ⟨rfl, rfl, rfl, rfl⟩

theorem Core.trapped_enterK (c : Core) (held : Option Held) (cause info ret : Word) :
    c.Trapped (({ c with heldAt := held } : Core).cleared.enterK cause info ret) := ⟨rfl, rfl, rfl, rfl⟩

/-- A trap of a core that is in none at F is its own matter. -/
theorem State.raiseTrap_eq {s : State} (free : s.core.fstatus.getLsbD 4 = false) (n : Nat) (info ret : Word) (w : Option IWord) :
    ∃ d, s.core.Trapped d ∧ s.raiseTrap n info ret w = { s with core := d } := by
  unfold State.raiseTrap
  split
  · exact ⟨_, s.core.trapped_due _, rfl⟩
  · obtain ⟨t, ht, he⟩ := s.takeTrap_cases false n info ret w
    have marked : ∃ held, t = s.modCore fun c => { c with heldAt := held } := by
      rcases ht with rfl | ⟨-, trapped, -⟩
      · exact s.markHeld_eq _ _
      · exact absurd (trapped.symm.trans free) (by decide)
    obtain ⟨held, rfl⟩ := marked
    rcases he with ⟨dbl, h⟩ | h
    · exact ⟨_, s.core.trapped_enterF held dbl _ info ret, h⟩
    · exact ⟨_, s.core.trapped_enterK held _ info ret, h⟩

theorem Ctx.loopTests_gang (c : Ctx) (a : Word) : (c.loopTests a).gang = c.gang ∧ (c.loopTests a).pieces = c.pieces := by
  unfold Ctx.loopTests
  dsimp only
  split
  · split <;> exact ⟨rfl, rfl⟩
  · split <;> exact ⟨rfl, rfl⟩
  · exact ⟨rfl, rfl⟩

/-- A core of no gang retires without a change of a gang, of another core or of the device. -/
theorem State.retired_frame_alone {s t : State} {rd : Reg} (h : s.writes rd t) (i : Instr) (alone : s.core.link = none) :
    let u := s.retired i .seq t
    u.ctx.gang = s.ctx.gang ∧ u.ctx.pieces = s.ctx.pieces ∧ u.core.mtx = s.core.mtx ∧ u.rest = s.rest ∧ u.dev = s.dev := by
  obtain ⟨x, rfl, -⟩ := h
  rw [State.retired_alone alone]
  obtain ⟨gang, pieces⟩ := Ctx.loopTests_gang { s.ctx with x := x, pc := s.ctx.pc + 4 } s.ctx.pc
  exact ⟨gang, pieces, rfl, rfl, rfl⟩

/-- A body that traps makes the core take the trap, or keep it until its results are in. -/
theorem runSeq_raises {i : Instr} {body : Act Unit} {s t : State} {n : Nat} {info : Word} {r : RetAt} (h : body s = .error (.trap n info r) t) :
    runSeq i body s = .next (t.raiseTrap n info (r.resolve s.ctx.pc) (some (wordOf i))) := by
  unfold runSeq runFlow State.finish
  rw [run_bind_error h]

/-- Settles O60: an instruction that adds to no pointer retires, one that does retires or traps, and each of the two has its frame. -/
theorem registerInstructionFrame : Obligations.RegisterInstructionFrame := by
  unfold Obligations.RegisterInstructionFrame
  intro s u i rd target free run
  dsimp only
  have retires {t : State} (h : s.writes rd t) (hr : exec i s = .next (s.retired i .seq t)) : u = s.retired i .seq t :=
    Host.Outcome.next.inj (run.symm.trans hr)
  have bytes (h : u.dev = { s.dev with gangs := u.dev.gangs, seq := u.dev.seq }) (a : Nat) : u.byte a = s.byte a := by
    have mem : u.dev.mem = s.dev.mem := (congrArg Dev.mem h).trans rfl
    rw [State.byte, mem, State.byte]
  cases adds : addsPointer i with
  | false =>
    obtain ⟨t, written, hr⟩ := exec_registerTarget target adds s
    obtain rfl := retires written hr
    obtain ⟨core, regs, others, dev, fresh, agenda⟩ := State.retired_frame written i
    exact ⟨bytes dev, regs, fun _ => core, nofun, fun alone => State.retired_frame_alone written i alone, others, dev, fresh, agenda⟩
  | true =>
    obtain ⟨rs1, sub, b, hexec⟩ := exec_of_addsPointer target adds s
    have body := run_ptrResult_setX rd sub (s.ctx.getX rs1) b s
    cases out : (ptrArith sub (s.ctx.getX rs1) b).2 with
    | false =>
      rw [if_neg (by simp [out])] at body
      have written := s.writes_setX rd (ptrArith sub (s.ctx.getX rs1) b).1
      have same := retires written (hexec.trans (runSeq_ok body))
      obtain ⟨core, regs, others, dev, fresh, agenda⟩ := State.retired_frame written i
      have alone := State.retired_frame_alone (i := i) written
      rw [← same] at core regs others dev fresh agenda alone
      exact ⟨bytes dev, regs, nofun, fun _ => congrArg (fun c => c.withExceptions u.core) core, alone, others, dev, fresh, agenda⟩
    | true =>
      rw [if_pos out] at body
      obtain ⟨d, ⟨core, gang, pieces, mtx⟩, raised⟩ := State.raiseTrap_eq free cPtrRange (ptrArith sub (s.ctx.getX rs1) b).1 s.ctx.pc (some (wordOf i))
      obtain rfl : u = { s with core := d } := (Host.Outcome.next.inj (run.symm.trans (hexec.trans (runSeq_raises body)))).trans raised
      have x : d.ctx.x = s.ctx.x := (congrArg (fun c : Core => c.ctx.x) core).trans rfl
      have id : d.id = s.core.id := (congrArg Core.id core).trans rfl
      refine ⟨fun _ => rfl, fun r _ => State.getX_of_x (t := { s with core := d }) x r, nofun, fun _ => ?_, fun _ => ⟨gang, pieces, mtx, rfl, rfl⟩,
        State.othersKept_of_rest rfl id, rfl, rfl, rfl⟩
      rw [show ({ s with core := d } : State).ctx.x = s.ctx.x from x]
      exact core

end Sys2Proof.Machine
end

section
/-!
PROOFS. How a check comes out, and the fields of a pointer that checks look at.
-/

namespace Sys2Proof.Machine

/-! ## Checks and the fields that they look at -/

theorem runChk_ok {α : Type} {c : Chk α} {s t : State} {a : α} (h : c s = .ok a t) : runChk c s = (.ok a, t) := by
  unfold runChk
  rw [h]

theorem runChk_error {α : Type} {c : Chk α} {s t : State} {e : Nat × Word} (h : c s = .error e t) : runChk c s = (.error e, t) := by
  unfold runChk
  rw [h]

theorem runChk_congr {α : Type} {c d : Chk α} {s t : State} (h : c s = d t) : runChk c s = runChk d t := by
  unfold runChk
  rw [h]

theorem run_of_runChk_ok {α : Type} {c : Chk α} {s t : State} {a : α} (h : runChk c s = (.ok a, t)) : c s = .ok a t := by
  unfold runChk at h
  split at h
  · next r => cases h; exact r
  · next r => cases h

theorem run_of_runChk_error {α : Type} {c : Chk α} {s t : State} {e : Nat × Word} (h : runChk c s = (.error e, t)) : c s = .error e t := by
  unfold runChk at h
  split at h
  · next r => cases h
  · next r => cases h; exact r

@[simp] theorem run_failWith {α : Type} (n : Nat) (info : Word) (s : State) : (failWith n info : Chk α) s = .error (n, info) s := rfl

/-- A check that fails fails whatever would follow it. -/
theorem run_failWith_bind {α β : Type} (n : Nat) (info : Word) (f : α → Chk β) (s : State) :
    (failWith n info >>= f : Chk β) s = .error (n, info) s := run_bind_error (run_failWith n info s)

theorem toNat_extractLsb' (p : Word) (lo n : Nat) : (p.extractLsb' lo n).toNat = bits p lo n := by
  rw [BitVec.extractLsb'_toNat, Nat.shiftRight_eq_div_pow, bits]

theorem extractLsb'_eq_zero_iff (p : Word) (lo n : Nat) : p.extractLsb' lo n = 0 ↔ bits p lo n = 0 := by
  rw [← toNat_extractLsb', ← BitVec.toNat_inj]
  rfl

end Sys2Proof.Machine
end

section
/-!
PROOFS. Timer, software interrupt, fetch traps, link errors and self-tests (R145, R235, R236, R253, R254, R279): what fencing a core leaves of the others.
-/

namespace Sys2Proof.Machine

/-! ## What containment leaves of the cores that there are, and of those that are fenced (R250 to R254) -/

/-- The cores out of reset, by their numbers, and those that are fenced. -/
def State.roster (s : State) : Nat × List Nat × List Nat := (s.core.id, s.rest.map Core.id, s.dev.fencedCores)

theorem State.coreById_isSome_iff (s : State) (n : Nat) : (s.coreById n).isSome = true ↔ s.core.id = n ∨ n ∈ s.rest.map Core.id := by
  unfold State.coreById
  split
  · simp [*]
  · simp [*]

/-- Two states with the same cores have a core of a number both or neither. -/
theorem State.coreById_of_roster {s t : State} (h : t.roster = s.roster) {n : Nat} {c : Core} (hc : s.coreById n = some c) :
    ∃ d, t.coreById n = some d := by
  obtain ⟨id, rest, -⟩ : t.core.id = s.core.id ∧ t.rest.map Core.id = s.rest.map Core.id ∧ _ := by simpa [State.roster] using h
  rw [← Option.isSome_iff_exists, State.coreById_isSome_iff, id, rest, ← State.coreById_isSome_iff, hc]
  rfl

theorem State.MovedFrom.roster {s t : State} (h : s.MovedFrom t) : t.roster = s.roster := by
  have ids : ∀ {l m : List Core}, List.Forall₂ (fun c d : Core => d = c.placedAs d) l m → m.map Core.id = l.map Core.id := by
    intro l m all
    induction all with
    | nil => rfl
    | cons first _ ih => rw [List.map_cons, List.map_cons, ih, Core.id_of_placedAs first]
  unfold State.roster
  rw [Core.id_of_placedAs h.core, ids h.rest, (congrArg Dev.fencedCores h.dev).trans rfl]

theorem State.roster_modCoreId {f : Core → Core} (hf : ∀ c : Core, (f c).id = c.id) (s : State) (n : Nat) : (s.modCoreId n f).roster = s.roster := by
  unfold State.modCoreId
  split
  · exact congrArg (fun k => (k, s.rest.map Core.id, s.dev.fencedCores)) (hf s.core)
  · have ids : (s.rest.map fun c => if c.id = n then f c else c).map Core.id = s.rest.map Core.id := by
      rw [List.map_map]
      refine List.map_congr_left fun c _ => ?_
      show (if c.id = n then f c else c).id = c.id
      split
      · exact hf c
      · rfl
    exact congrArg (fun l => (s.core.id, l, s.dev.fencedCores)) ids

theorem State.roster_foldl {α : Type} {f : State → α → State} (hf : ∀ s a, (f s a).roster = s.roster) :
    ∀ (l : List α) (s : State), (l.foldl f s).roster = s.roster
  | [], _ => rfl
  | a :: l, s => (State.roster_foldl hf l (f s a)).trans (hf s a)

@[simp] theorem State.roster_modGang (s : State) (n : Nat) (f : Gang → Gang) : (s.modGang n f).roster = s.roster := rfl
@[simp] theorem State.roster_modLaunch (s : State) (l : BitVec 12) (f : Launch → Launch) : (s.modLaunch l f).roster = s.roster := rfl
@[simp] theorem State.roster_forgetStaged (s : State) (n : Nat) (l : BitVec 12) (w : Nat) : (s.forgetStaged n l w).roster = s.roster := rfl
@[simp] theorem State.roster_withdraw (s : State) (n : Nat) : (s.withdraw n).roster = s.roster := rfl
@[simp] theorem State.roster_gangTick (s : State) (n : Nat) : (s.gangTick n).roster = s.roster := (State.MovedFrom.gangTick s n).roster

@[simp] theorem State.roster_dropLink (s : State) (n : Nat) : (s.dropLink n).roster = s.roster := by
  unfold State.dropLink
  split
  · rfl
  · split
    · rfl
    · exact (State.roster_gangTick _ _).trans (State.roster_modCoreId (by exact fun _ => rfl) s n)

@[simp] theorem State.roster_leaveGang (s : State) (n : Nat) : (s.leaveGang n).roster = s.roster := by
  unfold State.leaveGang
  split
  · rfl
  · split
    · rfl
    · exact s.roster_dropLink n

@[simp] theorem State.roster_dropUnit (s : State) (lnum : BitVec 12) (wuid n : Nat) : (s.dropUnit lnum wuid n).roster = s.roster := by
  unfold State.dropUnit
  split
  · rfl
  · split
    · exact (State.roster_modCoreId (by exact fun _ => rfl) _ n).trans (State.roster_leaveGang _ n)
    · split
      · refine (State.roster_modCoreId (by exact fun _ => rfl) _ n).trans ?_
        rw [State.roster_forgetStaged]
        split
        · rfl
        · split <;> simp
      · rfl

@[simp] theorem State.roster_countDone (s : State) (c : Core) : (s.countDone c).roster = s.roster := by
  unfold State.countDone
  split <;> rfl

@[simp] theorem State.roster_failUnit (s : State) (lnum : BitVec 12) (u : UnitRec) : (s.failUnit lnum u).roster = s.roster := by
  unfold State.failUnit
  split <;> simp

@[simp] theorem State.roster_failUnits (s : State) (lnum : BitVec 12) (us : List UnitRec) : (s.failUnits lnum us).roster = s.roster :=
  State.roster_foldl (fun s u => s.roster_failUnit lnum u) us s

@[simp] theorem State.roster_dropUnits (s : State) (lnum : BitVec 12) (us : List UnitRec) :
    (us.foldl (fun s u => s.dropUnit lnum u.wuid u.core) s).roster = s.roster :=
  State.roster_foldl (fun s u => s.roster_dropUnit lnum u.wuid u.core) us s

@[simp] theorem State.roster_restartUnits (s : State) (lnum : BitVec 12) (us : List UnitRec) : (s.restartUnits lnum us).roster = s.roster := by
  unfold State.restartUnits
  split <;> simp

@[simp] theorem State.roster_endLaunch (s : State) (lnum : BitVec 12) (b : Byte) : (s.endLaunch lnum b).roster = s.roster := by
  unfold State.endLaunch
  split
  · rfl
  · split <;> simp

@[simp] theorem State.roster_restartLaunch (s : State) (lnum : BitVec 12) : (s.restartLaunch lnum).roster = s.roster := by
  unfold State.restartLaunch
  split
  · rfl
  · split <;> simp

@[simp] theorem State.roster_containPartition (s : State) (lnum : BitVec 12) : (s.containPartition lnum).roster = s.roster := by
  unfold State.containPartition
  split
  · rfl
  · split
    · exact s.roster_restartLaunch lnum
    · exact State.roster_foldl (fun s (k : Launch) => s.roster_endLaunch k.lnum 1) _ s
    · exact s.roster_endLaunch lnum 1

@[simp] theorem State.roster_containLaunch (s : State) (lnum : BitVec 12) (us : List UnitRec) : (s.containLaunch lnum us).roster = s.roster := by
  unfold State.containLaunch
  split
  · rfl
  · split <;> simp

@[simp] theorem State.roster_containGang (s : State) (lnum : BitVec 12) (u : UnitRec) : (s.containGang lnum u).roster = s.roster := by
  unfold State.containGang
  split
  · rfl
  · dsimp only
    split
    · split <;> simp
    · simp
    · simp
    · simp

@[simp] theorem State.roster_unitFault (s : State) (lnum : BitVec 12) (wuid n : Nat) (corrected : Bool) (cause info : Word) :
    (s.unitFault lnum wuid n corrected cause info).roster = s.roster := by
  unfold State.unitFault
  split
  · split <;> simp
  · dsimp only
    split
    · split <;> simp
    · split
      · split <;> simp
      · simp
      · simp
      · simp

@[simp] theorem State.roster_faultEvent (s : State) (n : Nat) (corrected : Bool) (cause info : Word) :
    (s.faultEvent n corrected cause info).roster = s.roster := by
  unfold State.faultEvent
  split
  · rfl
  · exact s.roster_unitFault _ _ _ _ _ _

/-! ## Fencing a core (R254) -/

theorem State.coreById_modCoreId_same {s : State} {n : Nat} {c : Core} {f : Core → Core} (hf : ∀ c : Core, (f c).id = c.id)
    (h : s.coreById n = some c) : (s.modCoreId n f).coreById n = some (f c) := by
  rw [State.coreById_modCoreId hf, h, Option.map_some, if_pos rfl]

theorem Dev.mem_fencedCores_fence (d : Dev) (n : Nat) : n ∈ (d.fence [n]).fencedCores := by
  by_cases h : n ∈ d.fencedCores
  · exact List.mem_append_left _ h
  · exact List.mem_append_right _ (by simp [h])

/-- A core that is fenced runs nothing and holds no context, and is known as fenced. -/
theorem State.fenceCore_fences {s : State} {n : Nat} {c : Core} (info : Word) (h : s.coreById n = some c) :
    ∃ d, (s.fenceCore n info).coreById n = some d ∧ d.run = .fenced ∧ d.residents = [] ∧ d.shadow = none ∧
      n ∈ (s.fenceCore n info).dev.fencedCores := by
  unfold State.fenceCore
  rw [h]
  dsimp only
  generalize hs : s.modDev (fun d => d.fence [n]) = fenced
  have found : fenced.coreById n = some c := hs ▸ h
  have known : n ∈ fenced.dev.fencedCores := hs ▸ s.dev.mem_fencedCores_fence n
  generalize ht : (if c.run = .running then fenced.faultEvent n false 0 info else if c.run = .ended then fenced.countDone c else fenced) = t
  have active : t.roster = fenced.roster := by
    rw [← ht]
    split
    · simp
    · split <;> simp
  have parked := State.roster_foldl (fun s (r : Resident) => s.roster_unitFault r.lnum r.wuid.toNat n false 0 info) c.residents t
  generalize c.residents.foldl (fun s r => s.unitFault r.lnum r.wuid.toNat n false 0 info) t = u at parked
  have same : (u.withdraw n).roster = fenced.roster := parked.trans active
  obtain ⟨d, hd⟩ := State.coreById_of_roster same found
  refine ⟨_, State.coreById_modCoreId_same (by exact fun _ => rfl) hd, rfl, rfl, rfl, ?_⟩
  rw [State.modCoreId_dev, show (u.withdraw n).dev.fencedCores = fenced.dev.fencedCores from congrArg (fun r => r.2.2) same]
  exact known

/-! ## Timer and fetches (R14, R84, R235, R236, R278, R279) -/

/-- TIME has come to KTCMP, and so TIMER reads as pending. -/
theorem State.kip_timer {s : State} (h : s.core.ktcmp.toNat ≤ s.dev.time.toNat) : s.kip.getLsbD 2 = true := by
  rw [State.kip, if_pos h]
  simp

theorem ktcmp_le_timeExpired (time ktcmp : Word) : ktcmp.toNat ≤ (if time.ult ktcmp then ktcmp else time).toNat := by
  split
  · exact Nat.le_refl _
  · next h => simpa [BitVec.ult] using h

/-- A trap that no instruction raises, where no result is to come. -/
theorem State.trapNow_eq {s : State} (h : s.resultsPending = false) (n : Nat) (info : Word) (w : Option IWord) :
    s.trapNow n info w = s.takeTrap false n info s.ctx.pc w := by
  rw [State.trapNow, State.raiseTrap, if_neg (by simp [h])]

theorem exec_fetchFailure {s t : State} {n : Nat} {info : Word} (h : runChk (fetchWord s.ctx.pc) s = (.error (n, info), t))
    (pending : t.resultsPending = false) : exec .fetchFailure s = .next (t.takeTrap false n info t.ctx.pc none) := by
  show execFetchFailure s = _
  unfold execFetchFailure
  rw [h]
  exact congrArg _ (State.trapNow_eq pending n info none)

/-- A fetch in mesh space fails. -/
theorem fetchWord_mesh {pc : Word} (mesh : pc.getLsbD 55 = true) (s : State) : runChk (fetchWord pc) s = (.error (8, pc), s) := by
  refine runChk_error ?_
  unfold fetchWord
  rw [run_bind_ok (run_get s)]
  dsimp only
  rw [if_pos (show bit pc 55 = true from mesh)]
  exact run_failWith_bind _ _ _ s

/-- A fetch at an address that is not canonical fails. -/
theorem fetchWord_noncanon {pc : Word} (space : pc.getLsbD 55 = false) (high : pc.extractLsb' 48 7 ≠ 0) (s : State) :
    runChk (fetchWord pc) s = (.error (10, pc), s) := by
  have far : bits pc 48 7 ≠ 0 := fun h => high ((extractLsb'_eq_zero_iff pc 48 7).mpr h)
  refine runChk_error ?_
  unfold fetchWord
  rw [run_bind_ok (run_get s)]
  dsimp only
  rw [if_neg (Bool.eq_false_iff.mp (show bit pc 55 = false from space)), if_pos far]
  exact run_failWith_bind _ _ _ s

/-- A fetch whose translation fails, fails as it does. -/
theorem fetchWord_untranslated {s t : State} {pc : Word} {e : Nat × Word} (low : pc.toNat < 2 ^ 48) (aligned : pc.toNat % 4 = 0)
    (h : runChk (translate s.who .fetch pc) s = (.error e, t)) : runChk (fetchWord pc) s = (.error e, t) := by
  have space : bit pc 55 = false := getLsbD_of_lt_two_pow pc low (by decide)
  have near : bits pc 48 7 = 0 := by
    unfold bits
    omega
  have kept : keepLow pc 48 = pc := by
    apply BitVec.eq_of_toNat_eq
    rw [toNat_keepLow pc (by decide), Nat.mod_eq_of_lt low]
  have fits : alignedTo pc 4 = true := by
    unfold alignedTo bits
    simp only [beq_iff_eq]
    omega
  have resolved : resolve s.who .fetch pc 4 4 s = .error e t := by
    unfold resolve isMesh
    simp only [space, near, fits]
    exact run_bind_error (run_of_runChk_error h)
  refine runChk_error ?_
  unfold fetchWord
  rw [run_bind_ok (run_get s)]
  dsimp only
  rw [if_neg (by simp [space]), if_neg (by simp [near]), kept]
  exact run_bind_error resolved

/-! ## Links and self-tests (R145, R253, R254) -/

/-- A link's first failed replay is counted. -/
theorem exec_linkCrcError_first {s : State} {link : Nat} (h : ∀ x ∈ s.dev.linkErrs, x.1 ≠ link) :
    exec (.linkCrcError link) s = .next (s.modDev fun d => { d with linkErrs := (link, 1) :: d.linkErrs.filter fun x => x.1 != link }) := by
  have none : (s.dev.linkErrs.find? fun x => x.1 == link) = none := List.find?_eq_none.mpr fun x hx => by simpa using h x hx
  show execLinkCrcError link s = _
  unfold execLinkCrcError
  rw [none]
  rfl

/-- The eighth failed replay in a row starts a self-test of the link. -/
theorem exec_linkCrcError_eighth {s : State} {link n : Nat} (h : (s.dev.linkErrs.find? fun x => x.1 == link) = some (link, n)) (many : 7 ≤ n) :
    exec (.linkCrcError link) s = .next
      ((s.modDev fun d => { d with linkErrs := d.linkErrs.filter fun x => x.1 != link }).startTest 5 (physCoord (link / 4))) := by
  show execLinkCrcError link s = _
  unfold execLinkCrcError
  rw [h]
  dsimp only
  rw [if_pos (Nat.succ_le_succ many)]
  rfl

/-- A logic scan waits while its core executes a context (R253). -/
def State.scanWaits (s : State) (x : SelfTest) : Prop := x.unit = 6 ∧ ∃ c, s.coreById (coordId x.place) = some c ∧ c.run = .running

/-- Whether a self-test can end. -/
def State.canEnd (s : State) (x : SelfTest) : Bool :=
  x.unit != 6 || (match s.coreById (coordId x.place) with
    | none => true
    | some c => c.run != .running)

theorem State.canEnd_iff (s : State) (x : SelfTest) : s.canEnd x = true ↔ ¬s.scanWaits x := by
  unfold State.canEnd State.scanWaits
  cases s.coreById (coordId x.place) with
  | none => simp
  | some c => simp [imp_iff_not_or]

/-- The first self-test that can end is the one that does. -/
theorem find?_canEnd {s : State} {before later : List SelfTest} {test : SelfTest} (h : s.dev.tests = before ++ test :: later)
    (waiting : ∀ x ∈ before, s.scanWaits x) (ready : ¬s.scanWaits test) :
    s.dev.tests.find? s.canEnd = some test ∧ s.dev.tests.erase test = before ++ later := by
  have held : ∀ x ∈ before, ¬s.canEnd x = true := fun x hx can => (s.canEnd_iff x).mp can (waiting x hx)
  have other : test ∉ before := fun hx => ready (waiting test hx)
  rw [h, List.find?_append, List.find?_eq_none.mpr held, List.erase_append_right _ other, List.erase_cons_head]
  exact ⟨List.find?_cons_of_pos ((s.canEnd_iff test).mpr ready), rfl⟩

/-- The machine once a self-test has ended and is logged. -/
def State.testLogged (s : State) (kind : Nat) (t : SelfTest) : State :=
  (s.modDev fun d => { d with tests := d.tests.erase t }).log kind t.unit t.place

/-- The machine once a self-test has failed: what its unit belongs to is fenced (R254). -/
def State.testFailed (s : State) (t : SelfTest) : State :=
  let logged := s.testLogged 1 t
  if t.unit = 0 ∨ t.unit = 1 ∨ t.unit = 6 then logged.fenceCore (coordId t.place) (logWord 1 t.unit t.place)
  else if t.unit = 2 ∨ t.unit = 5 ∨ (t.unit = 3 ∧ t.memSide = false) then logged.fenceCluster (coordId t.place) (logWord 1 t.unit t.place)
  else logged

theorem exec_selfTestComplete (pass : Bool) (s : State) : exec (.selfTestComplete pass) s =
    .next ((s.dev.tests.find? s.canEnd).elim s fun t => if pass then s.testLogged 0 t else s.testFailed t) := by
  show execSelfTestComplete pass s = _
  unfold execSelfTestComplete
  dsimp only
  generalize found : s.dev.tests.find? _ = first
  rw [show s.dev.tests.find? s.canEnd = first from found]
  cases first with
  | none => rfl
  | some t =>
    cases pass with
    | true => rfl
    | false =>
      unfold Option.elim State.testFailed
      dsimp only
      rw [if_neg Bool.false_ne_true, if_neg Bool.false_ne_true]
      split
      · rfl
      · split <;> rfl

/-- Settles O29: by the cases of each event. -/
theorem timerFetchAndHardwareEvents : Obligations.TimerFetchAndHardwareEvents := by
  unfold Obligations.TimerFetchAndHardwareEvents
  refine ⟨fun s t n info target w => ⟨?_, rfl, exec_fetchFailure, fun pending => ⟨fun mesh => ?_, fun ⟨space, high⟩ => ?_⟩, ?_, fun pending => ?_⟩,
    fun s n info c => State.fenceCore_fences info, fun s link n test before later => ⟨fun all pass => ?_, exec_linkCrcError_first, ?_, ?_⟩⟩
  · exact ⟨_, rfl, State.kip_timer (ktcmp_le_timeExpired _ _), rfl, rfl⟩
  · exact exec_fetchFailure (fetchWord_mesh mesh s) pending
  · exact exec_fetchFailure (fetchWord_noncanon space high s) pending
  · rintro ⟨low, aligned, failed, pending⟩
    exact exec_fetchFailure (fetchWord_untranslated low aligned failed) pending
  · rw [BitVec.ofNat_toNat]
    exact congrArg _ (State.trapNow_eq pending 1 _ (some w))
  · have none : s.dev.tests.find? s.canEnd = none := List.find?_eq_none.mpr fun x hx can => (s.canEnd_iff x).mp can (all x hx)
    rw [exec_selfTestComplete, none]
    rfl
  · rintro ⟨found, many⟩
    exact exec_linkCrcError_eighth found many
  · rintro ⟨tests, waiting, ready⟩
    obtain ⟨found, erased⟩ := find?_canEnd tests waiting ready
    rw [exec_selfTestComplete, exec_selfTestComplete, found]
    have logged (kind : Nat) : s.testLogged kind test = (s.modDev fun d => { d with tests := before ++ later }).log kind test.unit test.place :=
      congrArg (fun l => (s.modDev fun d => { d with tests := l }).log kind test.unit test.place) erased
    dsimp only
    rw [← logged, ← logged]
    refine ⟨rfl, fun unit => ?_, fun unit => ?_, fun unit => ?_⟩
    · exact congrArg _ (if_pos unit)
    · refine congrArg _ ((if_neg ?_).trans (if_pos unit))
      rcases unit with unit | unit | ⟨unit, -⟩ <;> simp [unit]
    · refine congrArg _ ((if_neg ?_).trans (if_neg ?_))
      · rcases unit with ⟨unit, -⟩ | unit <;> simp [unit]
      · rcases unit with ⟨unit, side⟩ | unit
        · simp [unit, side]
        · simp [unit]

end Sys2Proof.Machine
end

section
/-!
PROOFS. What the physical and the mesh addresses name (R15, R16, R18 to R23, R464).
-/

namespace Sys2Proof.Machine

/-! ## Physical addresses and keys (R15, R16, R22, R464) -/

theorem clusterOfId_coords (d : Nat) {r c : Nat} (_ : r < 52) (_ : c < 48) :
    clusterOfId (d * 2496 + r * 48 + c) = d * 156 + r / 4 * 12 + c / 4 := by
  unfold clusterOfId
  dsimp only
  omega

theorem regionOf_poolKey {x o : Nat} (hx : x < 4996) (ho : o < 0x60000) : regionOf (poolKey x o) = .pool x := by
  have number : (poolKey x o - poolKeys) / 2 ^ 19 = x := by
    unfold poolKey
    omega
  unfold regionOf
  rw [number, if_neg, if_neg, if_neg, if_pos]
  all_goals
    simp only [poolKey, poolKeys, clusterKeys]
    omega

theorem poolKey_inj {x o y z : Nat} (ho : o < 0x60000) (hz : z < 0x60000) (h : poolKey x o = poolKey y z) : x = y ∧ o = z := by
  unfold poolKey at h
  omega

theorem regionOf_clusterKey {x o : Nat} (hx : x < 312) (ho : o < 0x200000) : regionOf (clusterKey x o) = .cluster x := by
  have number : (clusterKey x o - clusterKeys) / 2 ^ 21 = x := by
    unfold clusterKey
    omega
  unfold regionOf
  rw [number, if_neg, if_neg, if_neg, if_neg, if_pos]
  all_goals
    simp only [clusterKey, poolKeys, clusterKeys, romKeys]
    omega

theorem clusterKey_inj {x o y z : Nat} (ho : o < 0x200000) (hz : z < 0x200000) (h : clusterKey x o = clusterKey y z) : x = y ∧ o = z := by
  unfold clusterKey at h
  omega

/-- The bytes of local memory and of the host's window, and the addresses between, which name none. -/
theorem Dev.paKey_near (d : Dev) (pa : Nat) :
    (pa < 2 ^ 39 → d.paKey pa = some pa) ∧ (2 ^ 39 ≤ pa ∧ pa < 2 ^ 50 → d.paKey pa = none) ∧
    (2 ^ 50 ≤ pa ∧ pa < 2 ^ 51 → d.paKey pa = if pa % 2 ^ 50 < 2 ^ 48 then some pa else none) := by
  unfold Dev.paKey localBytes
  refine ⟨fun h => ?_, fun ⟨low, high⟩ => ?_, fun ⟨low, high⟩ => ?_⟩
  · rw [if_pos (by omega), if_pos h]
  · rw [if_pos high, if_neg (by omega)]
  · have same : pa / 2 ^ 48 % 4 = 0 ↔ pa % 2 ^ 50 < 2 ^ 48 := by omega
    rw [if_neg (by omega), if_pos high]
    simp only [same]

/-- The bytes of the peers: of the device itself, of one that is in the pod behind a port that is up, and none else (R16, R464). -/
theorem Dev.paKey_peer {d : Dev} {pa : Nat} (h : 2 ^ 51 ≤ pa) :
    let index := pa / 2 ^ 40 % 2 ^ 11
    let off := pa % 2 ^ 40
    (288 ≤ index ∨ 2 ^ 39 ≤ off → d.paKey pa = none) ∧
    (index < 288 ∧ off < 2 ^ 39 →
      (index = d.podidx.toNat → d.paKey pa = some off) ∧
      (index ≠ d.podidx.toNat →
        d.paKey pa = if d.pod.getLsbD index = true ∧ d.portDown.getLsbD (pa / 2 ^ 7 % 16) = false then some pa else none)) := by
  intro index off
  have peer : d.paKey pa = if 288 ≤ index ∨ 2 ^ 39 ≤ off then none
      else if index = d.podidx.toNat then some off
      else if d.pod.getLsbD index = false ∨ d.portDown.getLsbD (pa / 2 ^ 7 % 16) then none
      else some pa := by
    unfold Dev.paKey
    rw [if_neg (by omega), if_neg (by omega)]
    rfl
  rw [peer]
  refine ⟨fun out => if_pos out, fun ⟨low, short⟩ => ?_⟩
  rw [if_neg (by omega)]
  refine ⟨fun own => if_pos own, fun other => ?_⟩
  rw [if_neg other]
  cases d.pod.getLsbD index <;> cases d.portDown.getLsbD (pa / 2 ^ 7 % 16) <;> rfl

/-! ## Mesh addresses (R18 to R23) -/

/-- A pool partition word's scratchpad run has a granule (R60). -/
def inScratchpad (p : Word) (g : Nat) : Prop := p.toNat / 2 ^ 32 % 2 ^ 8 ≤ g ∧ g < p.toNat / 2 ^ 32 % 2 ^ 8 + p.toNat / 2 ^ 40 % 2 ^ 8

theorem State.isScratch_iff (s : State) (t g : Nat) :
    s.isScratch t g = true ↔
      ∃ c, s.coreById t = some c ∧ (inScratchpad c.ctx.ppw g ∨ ∃ r ∈ c.residents, r.parked = true ∧ inScratchpad r.ppw g) := by
  unfold State.isScratch inScratchpad bits
  cases s.coreById t with
  | none => simp
  | some c => simp

/-- The core that a mesh address names for a party: by its own coordinates, by those of its partition, or itself (R19 to R21, R469). -/
def State.meshTarget (s : State) (w : Who) (p : Word) : Option Nat :=
  let row := bits p 46 6
  let col := bits p 40 6
  if row = 63 ∧ col = 63 then (if w.mgmt then none else w.core)
  else if row = 63 ∨ col = 63 then none else s.coreNamed w (bits p 52 1) row col

/-- The core that a mesh address names, in the terms of the rules. -/
def State.meshNames (s : State) (w : Who) (p : Word) (t : Nat) : Prop :=
  let die := p.toNat / 2 ^ 52 % 2
  let row := p.toNat / 2 ^ 46 % 2 ^ 6
  let col := p.toNat / 2 ^ 40 % 2 ^ 6
  w.mgmt = true ∧ row ≤ 51 ∧ col ≤ 47 ∧ t = die * 2496 + row * 48 + col ∨
    w.mgmt = false ∧ (row = 63 ∧ col = 63 ∧ w.core = some t ∨
      row ≠ 63 ∧ col ≠ 63 ∧ ∃ q r, s.part? w.part = some q ∧ die < q.dies ∧ row < q.height ∧ col < q.width ∧
        (if die = 0 then q.rows0 else q.rows1)[row / 4]? = some r ∧
        t = (q.die0 + die) * 2496 + (r * 4 + row % 4) * 48 + q.col0 + col)

theorem partCoreAt_eq_some_iff (p : PartConfig) (die row col t : Nat) : partCoreAt p die row col = some t ↔
    ∃ r, die < p.dies ∧ row < p.height ∧ col < p.width ∧ (if die = 0 then p.rows0 else p.rows1)[row / 4]? = some r ∧
      t = (p.die0 + die) * 2496 + (r * 4 + row % 4) * 48 + p.col0 + col := by
  unfold partCoreAt
  dsimp only
  split
  · next inside =>
    cases (if die = 0 then p.rows0 else p.rows1)[row / 4]? with
    | none => simp
    | some r => simp [inside, eq_comm]
  · next outside =>
    refine iff_of_false nofun ?_
    rintro ⟨r, dies, height, width, -⟩
    exact outside ⟨dies, height, width⟩

theorem State.meshTarget_eq_some_iff (s : State) (w : Who) (p : Word) (t : Nat) : s.meshTarget w p = some t ↔ s.meshNames w p t := by
  unfold State.meshTarget State.meshNames State.coreNamed bits
  dsimp only
  generalize p.toNat / 2 ^ 46 % 2 ^ 6 = row
  generalize p.toNat / 2 ^ 40 % 2 ^ 6 = col
  rw [Nat.pow_one]
  generalize p.toNat / 2 ^ 52 % 2 = die
  cases w.mgmt with
  | true =>
    by_cases fits : row ≤ 51 ∧ col ≤ 47
    · rw [if_neg (by omega), if_neg (by omega), if_pos rfl, if_pos fits]
      simp [fits, eq_comm]
    · rw [if_pos rfl, if_pos rfl, if_neg fits, ite_self, ite_self]
      refine iff_of_false nofun ?_
      rintro (⟨-, row, col, -⟩ | ⟨⟨⟩, -⟩)
      exact fits ⟨row, col⟩
  | false =>
    rw [if_neg Bool.false_ne_true, if_neg Bool.false_ne_true]
    by_cases self : row = 63 ∧ col = 63
    · rw [if_pos self]
      simp [self]
    · rw [if_neg self]
      by_cases half : row = 63 ∨ col = 63
      · rw [if_pos half]
        refine iff_of_false nofun ?_
        rintro (⟨⟨⟩, -⟩ | ⟨-, ⟨row, col, -⟩ | ⟨row, col, -⟩⟩)
        · exact self ⟨row, col⟩
        · exact half.elim row col
      · obtain ⟨row_ne, col_ne⟩ := not_or.mp half
        rw [if_neg half]
        cases s.part? w.part with
        | none => simp [row_ne]
        | some q => simp [partCoreAt_eq_some_iff, row_ne, col_ne]

/-- What a mesh address names is looked up at the core that it names. -/
theorem State.meshKey_eq (s : State) (w : Who) (p : Word) (n : Nat) : s.meshKey w p n =
    (s.meshTarget w p).bind fun t =>
      if bits p 53 2 = 0 then
        if bits p 0 40 + n ≤ 0x60000 then
          if w.level = .u ∧ !((List.range ((bits p 0 40 + n - 1) / 4096 + 1 - bits p 0 40 / 4096)).all fun i => s.isScratch t (bits p 0 40 / 4096 + i))
          then none else some (poolKey t (bits p 0 40))
        else none
      else if bits p 53 2 = 1 then
        if bits p 0 40 + n ≤ 0x200000 ∧ t < 4992 then some (clusterKey (clusterOfId t) (bits p 0 40)) else none
      else none := by
  unfold State.meshKey
  dsimp only
  generalize found : (if bits p 46 6 = 63 ∧ bits p 40 6 = 63 then _ else _ : Option Nat) = target
  rw [show s.meshTarget w p = target from found]
  cases target <;> rfl

/-- The granules that an access touches are those of its bytes. -/
theorem all_granules_iff {off n : Nat} (some : n ≠ 0) (f : Nat → Bool) :
    ((List.range ((off + n - 1) / 4096 + 1 - off / 4096)).all fun i => f (off / 4096 + i)) = true ↔
      ∀ b, off ≤ b → b < off + n → f (b / 4096) = true := by
  rw [List.all_eq_true]
  constructor
  · intro all b low high
    have := all (b / 4096 - off / 4096) (List.mem_range.mpr (by omega))
    rwa [Nat.add_sub_of_le (by omega)] at this
  · intro all i hi
    have hi := List.mem_range.mp hi
    have first := all (max off ((off / 4096 + i) * 4096)) (by omega) (by omega)
    rwa [show max off ((off / 4096 + i) * 4096) / 4096 = off / 4096 + i by omega] at first

end Sys2Proof.Machine
end

section
/-!
PROOFS. Translation of an address, its permissions, and where a walk starts (R82 to R86).
-/

namespace Sys2Proof.Machine

theorem bits_zero (p : Word) (n : Nat) : bits p 0 n = p.toNat % 2 ^ n := by rw [bits, Nat.pow_zero, Nat.div_one]

section
variable {s : State} {w : Who} {p : Word} {n t : Nat}

/-- The bytes that a mesh address which names a core names there. -/
theorem State.meshKey_of_names (any : n ≠ 0) (named : s.meshNames w p t) :
    let kind := p.toNat / 2 ^ 53 % 2 ^ 2
    let off := p.toNat % 2 ^ 40
    let reaches : Prop := w.level = .u → ∀ b, off ≤ b → b < off + n → s.isScratch t (b / 4096) = true
    (kind = 0 ∧ off + n ≤ 0x60000 → (reaches → s.meshKey w p n = some (poolKey t off)) ∧ (¬reaches → s.meshKey w p n = none)) ∧
      (kind = 1 ∧ off + n ≤ 0x200000 ∧ t < 4992 → s.meshKey w p n = some (clusterKey (clusterOfId t) off)) ∧
      (kind = 0 ∧ 0x60000 < off + n ∨ kind = 1 ∧ 0x200000 < off + n ∨ 2 ≤ kind → s.meshKey w p n = none) := by
  intro kind off reaches
  have kept : (w.level = .u ∧ (!((List.range ((off + n - 1) / 4096 + 1 - off / 4096)).all fun i => s.isScratch t (off / 4096 + i))) = true) ↔
      ¬reaches := by
    rw [Bool.not_eq_true', ← Bool.not_eq_true, all_granules_iff any (s.isScratch t)]
    exact Classical.not_imp.symm
  have key := s.meshKey_eq w p n
  rw [(s.meshTarget_eq_some_iff w p t).mpr named, Option.bind_some, show bits p 53 2 = kind from rfl, show bits p 0 40 = off from bits_zero p 40] at key
  simp only [kept] at key
  rw [key]
  refine ⟨fun ⟨pool, inside⟩ => ?_, fun ⟨cluster, inside⟩ => ?_, fun outside => ?_⟩
  · rw [if_pos pool, if_pos inside]
    exact ⟨fun h => if_neg (not_not.mpr h), fun h => if_pos h⟩
  · rw [if_neg (by omega), if_pos cluster, if_pos inside]
  · rcases outside with ⟨pool, far⟩ | ⟨cluster, far⟩ | other
    · rw [if_pos pool, if_neg (by omega)]
    · rw [if_neg (by omega), if_pos cluster, if_neg (by omega)]
    · rw [if_neg (by omega), if_neg (by omega)]

theorem State.meshKey_of_no_name (h : ∀ t, ¬s.meshNames w p t) : s.meshKey w p n = none := by
  have nowhere : s.meshTarget w p = none := Option.eq_none_iff_forall_ne_some.mpr fun t ht => h t ((s.meshTarget_eq_some_iff w p t).mp ht)
  rw [s.meshKey_eq, nowhere]
  rfl

end

/-! ## Translation and its permissions (R84 to R86) -/

section
variable {s t : State} {w : Who} {acc : Acc} {p : Word} {e : TlbEntry}

/-- What a translation does with its entry: the check of the permissions (R84). -/
def permitted (w : Who) (acc : Acc) (p : Word) (e : TlbEntry) : Chk (Nat ⊕ Nat) := do
  if !(permits e.perm w.level acc) then failWith cAccess p
  return .inl (e.pa + (p.toNat % 2 ^ 48 - e.base))

theorem runChk_permitted (w : Who) (acc : Acc) (p : Word) (e : TlbEntry) (s : State) :
    runChk (permitted w acc p e) s =
      (if permits e.perm w.level acc then .ok (.inl (e.pa + (p.toNat % 2 ^ 48 - e.base))) else .error (8, p), s) := by
  unfold permitted
  cases permits e.perm w.level acc <;> rfl

/-- A translation takes its entry from the TLBs, or else from a walk (R84, R85). -/
theorem run_translate_hit (mapped : ¬(w.mgmt = true ∧ w.kptb = 0)) (hit : s.tlbFind w (p.toNat % 2 ^ 48) acc.stores = some e) :
    translate w acc p s = permitted w acc p e s := by
  unfold translate permitted
  dsimp only
  rw [if_neg mapped, bits_zero, run_bind_ok (run_get s), hit]
  rfl

theorem run_translate_miss (mapped : ¬(w.mgmt = true ∧ w.kptb = 0)) (miss : s.tlbFind w (p.toNat % 2 ^ 48) acc.stores = none) :
    translate w acc p s =
      (pageWalk w acc (if acc = .fetch then 0 else p.toNat / 2 ^ 56) (p.toNat % 2 ^ 48) >>= permitted w acc p) s := by
  unfold translate permitted
  dsimp only
  rw [if_neg mapped, bits_zero, run_bind_ok (run_get s), miss]
  rfl

theorem State.tlbFind_stores {va : Nat} (h : s.tlbFind w va true = some e) : e.perm.getLsbD 6 = true := by
  have serves {es : List TlbEntry} {asid : BitVec 16} (found : es.find? (fun e => e.holds asid va && (!true || e.perm.getLsbD 6)) = some e) :
      e.perm.getLsbD 6 = true := by
    have := List.find?_some found
    simp only [Bool.not_true, Bool.false_or, Bool.and_eq_true] at this
    exact this.2
  unfold State.tlbFind at h
  dsimp only at h
  split at h
  · cases h
  · split at h
    · cases h
    · split at h
      · next own => cases h; exact serves own
      · split at h
        · cases h
        · exact serves h

theorem permits_iff (perm : BitVec 7) (level : Level) :
    let user : Prop := level = .u → perm.getLsbD 3 = true
    (permits perm level .load = true ↔ perm.getLsbD 0 = true ∧ user) ∧ (permits perm level .store = true ↔ perm.getLsbD 1 = true ∧ user) ∧
      (permits perm level .rmw = true ↔ perm.getLsbD 0 = true ∧ perm.getLsbD 1 = true ∧ user) ∧
      (permits perm level .fetch = true ↔ perm.getLsbD 2 = true ∧ user) := by
  have user : (level != .u || perm.getLsbD 3) = true ↔ (level = .u → perm.getLsbD 3 = true) := by
    cases level <;> simp
  unfold permits
  simp only [Bool.and_eq_true, user, and_assoc, and_self]

/-! ## The walk of the page tables (R82 to R84) -/

/-- A walk whose tables do not start in local memory fails at the top. -/
theorem runChk_pageWalk_far {tag va : Nat} (far : 2 ^ 39 ≤ w.kptb.toNat % 2 ^ 40 * 4096) :
    runChk (pageWalk w acc tag va) s = (.error (acc.pageCause, pageInfo tag 3 true va), s) := by
  refine runChk_error ?_
  unfold pageWalk
  dsimp only
  rw [bits_zero, if_pos (show localBytes ≤ _ from far)]
  exact run_failWith_bind _ _ _ s

theorem ofNat_bits (p : Word) (lo n : Nat) : BitVec.ofNat n (bits p lo n) = p.extractLsb' lo n := by
  rw [← toNat_extractLsb', BitVec.ofNat_toNat, BitVec.setWidth_eq]

theorem runChk_pageWalk_found {tag va : Nat} (near : w.kptb.toNat % 2 ^ 40 * 4096 < 2 ^ 39)
    (walk : runChk (walkFrom acc (w.kptb.extractLsb' 48 16) tag va 3 (w.kptb.toNat % 2 ^ 40 * 4096)) s = (.ok e, t)) :
    runChk (pageWalk w acc tag va) s = (.ok e, t.tlbFill w e) := by
  refine runChk_ok ?_
  unfold pageWalk
  dsimp only
  rw [bits_zero, if_neg (show ¬localBytes ≤ _ from Nat.not_le.mpr near), ofNat_bits, run_bind_ok (run_of_runChk_ok walk)]
  rfl

theorem runChk_pageWalk_fault {tag va : Nat} {f : Nat × Word} (near : w.kptb.toNat % 2 ^ 40 * 4096 < 2 ^ 39)
    (walk : runChk (walkFrom acc (w.kptb.extractLsb' 48 16) tag va 3 (w.kptb.toNat % 2 ^ 40 * 4096)) s = (.error f, t)) :
    runChk (pageWalk w acc tag va) s = (.error f, t) := by
  refine runChk_error ?_
  unfold pageWalk
  dsimp only
  rw [bits_zero, if_neg (show ¬localBytes ≤ _ from Nat.not_le.mpr near), ofNat_bits]
  exact run_bind_error (run_of_runChk_error walk)
end

end Sys2Proof.Machine
end

section
/-!
PROOFS. The walk of the page tables, level by level: an entry that is refused, one that names a table, and a leaf (R82 to R85).
-/

namespace Sys2Proof.Machine

/-! ## A walk, level by level (R82 to R84) -/

/-- The key of the entry for an address in a table at a level of the walk (R82). -/
def entryKey (table level va : Nat) : Nat := table + 8 * (va / 2 ^ (12 + 9 * level) % 512)

/-- A walk goes on at the table that an entry names, and keeps the entry. -/
def walkDown (acc : Acc) (asid : BitVec 16) (tag va : Nat) (kept : Bool) (ea : Nat) (e : Word) : Nat → Chk TlbEntry
  | 0 => failWith acc.pageCause (pageInfo tag 0 true va)
  | below + 1 => do
    modify fun s => s.modDev fun d => { d with walkCache := if kept then d.walkCache else (ea, e) :: d.walkCache }
    walkFrom acc asid tag va below (bits e 12 40 * 4096)

/-- What a walk does with the entry that it has found at a level. -/
def walkEntry (acc : Acc) (asid : BitVec 16) (tag va level table : Nat) (kept : Bool) (e : Word) : Chk TlbEntry := do
  if bit e 0 = false then failWith acc.pageCause (pageInfo tag level false va)
  if bits e 52 12 ≠ 0 ∨ bits e 10 2 ≠ 0 then failWith acc.pageCause (pageInfo tag level true va)
  if bit e 8 then walkLeaf acc asid tag va level table (entryKey table level va) e
  else
    if bits e 1 9 ≠ 0 ∨ localBytes ≤ bits e 12 40 * 4096 then failWith acc.pageCause (pageInfo tag level true va)
    walkDown acc asid tag va kept (entryKey table level va) e level

/-- A walk from a table takes the entry that it has kept of it, or reads it. -/
theorem walkFrom_eq (acc : Acc) (asid : BitVec 16) (tag va level table : Nat) (s : State) :
    walkFrom acc asid tag va level table s =
      match s.dev.walkCache.find? fun c => c.1 == entryKey table level va with
      | some c => walkEntry acc asid tag va level table true c.2 s
      | none => (walkerRead (acc == .fetch) (entryKey table level va) >>= walkEntry acc asid tag va level table false) s := by
  cases level
  all_goals
    unfold walkFrom
    rw [run_bind_ok (run_get s)]
    dsimp only
    unfold entryKey
    generalize List.find? _ s.dev.walkCache = cached
    cases cached <;> rfl

theorem run_walkerRead {s : State} {ea : Nat} (sound : s.dev.badWord ea 8 = none) (fetch : Bool) :
    walkerRead fetch ea s = .ok (BitVec.ofNat 64 (s.value ea 8)) s := by
  unfold walkerRead
  rw [run_bind_ok (run_get s), sound]
  rfl

/-- A walk that has not kept the entry reads it, where it is sound. -/
theorem walkFrom_read {s : State} {level table va : Nat} (unkept : ∀ c ∈ s.dev.walkCache, c.1 ≠ entryKey table level va)
    (sound : s.dev.badWord (entryKey table level va) 8 = none) (acc : Acc) (asid : BitVec 16) (tag : Nat) :
    walkFrom acc asid tag va level table s = walkEntry acc asid tag va level table false (s.pteAt table level va) s := by
  have none : (s.dev.walkCache.find? fun c => c.1 == entryKey table level va) = none :=
    List.find?_eq_none.mpr fun c hc => by simpa using unkept c hc
  rw [walkFrom_eq, none]
  exact run_bind_ok (run_walkerRead sound _)

section
variable {s : State} {acc : Acc} {asid : BitVec 16} {tag va level table : Nat} {e : Word}

/-- How a walk fails at a level. -/
def walkFault (acc : Acc) (tag va level : Nat) (mal : Bool) : Nat × Word := (acc.pageCause, pageInfo tag level mal va)

theorem run_walkEntry_invalid (invalid : bit e 0 = false) (kept : Bool) :
    walkEntry acc asid tag va level table kept e s = .error (walkFault acc tag va level false) s := by
  unfold walkEntry
  rw [if_pos invalid]
  exact run_failWith_bind _ _ _ s

theorem run_walkEntry_malformed (valid : bit e 0 = true) (malformed : bits e 52 12 ≠ 0 ∨ bits e 10 2 ≠ 0) (kept : Bool) :
    walkEntry acc asid tag va level table kept e s = .error (walkFault acc tag va level true) s := by
  unfold walkEntry
  rw [if_neg (by simp [valid]), if_pos malformed]
  exact run_failWith_bind _ _ _ s

/-- What follows the checks that every entry passes. -/
theorem walkEntry_formed (valid : bit e 0 = true) (formed : ¬(bits e 52 12 ≠ 0 ∨ bits e 10 2 ≠ 0)) (kept : Bool) :
    walkEntry acc asid tag va level table kept e =
      if bit e 8 then walkLeaf acc asid tag va level table (entryKey table level va) e
      else if bits e 1 9 ≠ 0 ∨ localBytes ≤ bits e 12 40 * 4096 then failWith acc.pageCause (pageInfo tag level true va)
      else walkDown acc asid tag va kept (entryKey table level va) e level := by
  unfold walkEntry
  rw [if_neg (by simp [valid]), if_neg formed]
  split
  · rfl
  · split
    · funext s
      exact run_failWith_bind _ _ _ s
    · rfl

theorem run_walkerUpdate (ea : Nat) (e : Word) (stores : Bool) (s : State) :
    let new := e ||| 0x40 ||| (if stores then 0x80 else 0)
    walkerUpdate ea e stores s = .ok new (if new = e then s else s.poke ea (leBytes 8 new.toNat)) := by
  intro new
  unfold walkerUpdate
  dsimp only
  by_cases same : new = e
  · rw [if_pos same, if_neg (not_not.mpr same)]
    rfl
  · rw [if_neg same, if_pos same]
    rfl

/-- What a leaf maps (R82), once the walker has updated it. -/
def leafEntry (acc : Acc) (asid : BitVec 16) (va : Nat) (e : Word) (size : Nat) : TlbEntry :=
  { asid := asid, global := bit e 5, base := va / size * size, size := size, pa := bits e 12 40 * 4096
    perm := (e ||| 0x40 ||| (if acc.stores then 0x80 else 0)).extractLsb' 1 7 }

/-- The state that the walker leaves of a leaf that it takes (R85). -/
def State.walkerUpdates (s : State) (acc : Acc) (ea : Nat) (e : Word) : State :=
  let new := e ||| 0x40 ||| (if acc.stores then 0x80 else 0)
  if new = e then s else s.poke ea (leBytes 8 new.toNat)

theorem leafSize_plain (alone : bit e 9 = false) : leafSize level (bit e 9) = 2 ^ (12 + 9 * level) := by
  rw [alone]
  rfl

theorem leafSize_span (span : bit e 9 = true) : leafSize level (bit e 9) = 2 ^ 34 := by
  rw [span]
  rfl

theorem run_walkLeaf_misplaced (misplaced : level = 3 ∨ bit e 9 = true ∧ level ≠ 2) (ea : Nat) :
    walkLeaf acc asid tag va level table ea e s = .error (walkFault acc tag va level true) s := by
  unfold walkLeaf
  dsimp only
  rw [if_pos misplaced]
  exact run_failWith_bind _ _ _ s

theorem run_walkLeaf_unaligned (placed : ¬(level = 3 ∨ bit e 9 = true ∧ level ≠ 2))
    (unaligned : bits e 12 40 * 4096 % leafSize level (bit e 9) ≠ 0) (ea : Nat) :
    walkLeaf acc asid tag va level table ea e s = .error (walkFault acc tag va level true) s := by
  unfold walkLeaf
  dsimp only
  rw [if_neg placed, if_pos unaligned]
  exact run_failWith_bind _ _ _ s

/-- The last part of a leaf's walk. -/
theorem run_leafEntry (size ea : Nat) : (do
      let new ← walkerUpdate ea e acc.stores
      return { asid := asid, global := bit e 5, base := va / size * size, size := size, pa := bits e 12 40 * 4096, perm := (new >>> 1).setWidth 7 } :
        Chk TlbEntry) s = .ok (leafEntry acc asid va e size) (s.walkerUpdates acc ea e) :=
  run_bind_ok (run_walkerUpdate ea e acc.stores s)

theorem run_walkLeaf_plain (placed : ¬(level = 3 ∨ bit e 9 = true ∧ level ≠ 2))
    (aligned : bits e 12 40 * 4096 % leafSize level (bit e 9) = 0) (alone : bit e 9 = false) (ea : Nat) :
    walkLeaf acc asid tag va level table ea e s = .ok (leafEntry acc asid va e (2 ^ (12 + 9 * level))) (s.walkerUpdates acc ea e) := by
  unfold walkLeaf
  dsimp only
  rw [if_neg placed, if_neg (not_not.mpr aligned), if_neg (by simp [alone]), alone]
  exact run_leafEntry _ _

/-- Checks that succeed one after the other, each leaving the state as it is. -/
theorem run_mapM_ok {α β : Type} {f : α → Chk β} {g : α → β} {s : State} :
    ∀ {l : List α}, (∀ a ∈ l, f a s = .ok (g a) s) → l.mapM f s = .ok (l.map g) s
  | [], _ => by rw [List.mapM_nil]; rfl
  | a :: l, h => by
    rw [List.mapM_cons, run_bind_ok (h a List.mem_cons_self), run_bind_ok (run_mapM_ok fun b hb => h b (List.mem_cons_of_mem a hb))]
    rfl

/-- The keys of the group of 16 entries that an entry of 16 GiB stands in (R83). -/
def groupKey (table va i : Nat) : Nat := table + 8 * (va / 2 ^ 34 % 32 * 16 + i)

theorem groupKey_eq (table va i : Nat) : table + 8 * (va / 2 ^ 30 % 512 / 16 * 16) + 8 * i = groupKey table va i := by
  unfold groupKey
  omega

/-- The entries of the group agree but for A and D. -/
def State.groupAgrees (s : State) (table va : Nat) (e : Word) : Prop :=
  ∀ i, i < 16 → (BitVec.ofNat 64 (s.value (groupKey table va i) 8) ^^^ e) &&& 0xFFFF_FFFF_FFFF_FF3F = 0

theorem State.groupAgrees_iff (s : State) (table va : Nat) (e : Word) :
    (((List.range 16).map fun i => BitVec.ofNat 64 (s.value (groupKey table va i) 8)).all fun w => (w ^^^ e) &&& ~~~0xC0#64 == 0#64) = true ↔
      s.groupAgrees table va e := by
  simp only [List.all_map, List.all_eq_true, List.mem_range, Function.comp_apply, beq_iff_eq]
  exact Iff.rfl

/-- A leaf of 16 GiB, whose group is read (R83). -/
theorem run_walkLeaf_span {s : State} {acc : Acc} {asid : BitVec 16} {tag va table : Nat} {e : Word} (span : bit e 9 = true)
    (aligned : bits e 12 40 * 4096 % 2 ^ 34 = 0) (sound : ∀ i, i < 16 → s.dev.badWord (groupKey table va i) 8 = none) (ea : Nat) :
    (¬s.groupAgrees table va e → walkLeaf acc asid tag va 2 table ea e s = .error (walkFault acc tag va 2 true) s) ∧
    (s.groupAgrees table va e → walkLeaf acc asid tag va 2 table ea e s = .ok (leafEntry acc asid va e (2 ^ 34)) (s.walkerUpdates acc ea e)) := by
  have size : leafSize 2 (bit e 9) = 2 ^ 34 := leafSize_span span
  have group : ((List.range 16).mapM fun i => walkerRead (acc == .fetch) (table + 8 * (va / 2 ^ 30 % 512 / 16 * 16) + 8 * i)) s =
      .ok ((List.range 16).map fun i => BitVec.ofNat 64 (s.value (groupKey table va i) 8)) s :=
    run_mapM_ok fun i hi => by
      rw [groupKey_eq]
      exact run_walkerRead (sound i (List.mem_range.mp hi)) _
  unfold walkLeaf
  dsimp only
  rw [size, if_neg (by simp), if_neg (not_not.mpr aligned), if_pos span, run_bind_ok group]
  constructor
  · intro differ
    rw [if_pos (by rw [Bool.not_eq_true', ← Bool.not_eq_true, s.groupAgrees_iff]; exact differ)]
    exact run_failWith_bind _ _ _ s
  · intro agree
    rw [if_neg (by rw [(s.groupAgrees_iff table va e).mpr agree]; simp)]
    exact run_leafEntry _ _

end

end Sys2Proof.Machine
end

section
/-!
PROOFS. The checks of an address one after the other, and a scalar access that stops at them (R9, R25, R308).
-/

namespace Sys2Proof.Machine

/-! ## The checks of an access in their order (R9, R25) -/

section
variable {s t : State} {w : Who} {acc : Acc} {p : Word} {n a : Nat}

theorem run_resolve_noncanon (plain : isMesh p = false) (high : bits p 48 7 ≠ 0) : resolve w acc p n a s = .error (cNoncanon, p) s := by
  unfold resolve
  rw [if_pos ⟨plain, high⟩]
  exact run_failWith_bind _ _ _ s

theorem run_resolve_misaligned (canon : isMesh p = true ∨ bits p 48 7 = 0) (misaligned : alignedTo p a = false) :
    resolve w acc p n a s = .error (cMisaligned, p) s := by
  unfold resolve
  rw [if_neg (by rcases canon with h | h <;> simp [h]), if_pos (by simp [misaligned])]
  exact run_failWith_bind _ _ _ s

theorem run_resolve_mesh (mesh : isMesh p = true) (aligned : alignedTo p a = true) (none : s.meshKey w p n = none) :
    resolve w acc p n a s = .error (cAccess, p) s := by
  unfold resolve
  rw [if_neg (by simp [mesh]), if_neg (by simp [aligned]), if_pos mesh]
  dsimp only
  rw [run_bind_ok (run_get s), none]
  rfl

theorem run_resolve_fault {f : Nat × Word} (plain : isMesh p = false) (canon : bits p 48 7 = 0) (aligned : alignedTo p a = true)
    (fault : translate w acc p s = .error f t) : resolve w acc p n a s = .error f t := by
  unfold resolve
  rw [if_neg (by simp [canon]), if_neg (by simp [aligned]), if_neg (by simp [plain])]
  exact run_bind_error fault

theorem run_resolve_nowhere {pa : Nat} (plain : isMesh p = false) (canon : bits p 48 7 = 0) (aligned : alignedTo p a = true)
    (found : translate w acc p s = .ok (.inl pa) t) (none : t.dev.paKey pa = none) : resolve w acc p n a s = .error (cAccess, p) t := by
  unfold resolve
  rw [if_neg (by simp [canon]), if_neg (by simp [aligned]), if_neg (by simp [plain])]
  dsimp only
  rw [run_bind_ok found]
  dsimp only
  rw [run_bind_ok (run_get t), none]
  rfl

/-- The checks of a scalar access (R9, R25). -/
def scalarChecks (w : Who) (acc : Acc) (p : Word) (n : Nat) : Chk Nat := do checkScalar p; resolve w acc p n n

theorem run_scalarChecks_format (reserved : 10 ≤ p.toNat / 2 ^ 59) : scalarChecks w acc p n s = .error (cFormat, p) s := by
  unfold scalarChecks checkScalar
  rw [if_pos (show 10 ≤ fmtOf p from reserved)]
  exact run_failWith_bind _ _ _ s

theorem run_scalarChecks (scalar : p.toNat / 2 ^ 59 < 10) : scalarChecks w acc p n s = resolve w acc p n n s := by
  unfold scalarChecks checkScalar
  rw [if_neg (show ¬10 ≤ fmtOf p from Nat.not_le.mpr scalar)]
  exact run_bind_ok (run_pure () s)

/-- A width of a scalar access divides the reach of an offset, so that an address is a multiple of it as its offset is. -/
theorem alignedTo_iff (divides : n ∣ 2 ^ 40) : alignedTo p n = true ↔ p.toNat % n = 0 := by
  unfold alignedTo
  rw [bits_zero, beq_iff_eq, Nat.mod_mod_of_dvd _ divides]

end

/-! ## Where a scalar load or store traps (R308) -/

/-- A stop in the first parts of a body stops the body. -/
theorem run_bind_bind_error {ε α β γ : Type} {x : EStateM ε State α} {f : α → EStateM ε State β} {g : α → β → EStateM ε State γ}
    {s t : State} {e : ε} (h : (x >>= f) s = .error e t) : (x >>= fun a => f a >>= g a) s = .error e t := by
  rw [run_bind] at h ⊢
  cases first : x s with
  | ok a u =>
    rw [first] at h
    exact run_bind_error h
  | error d u =>
    rw [first] at h
    cases h
    rfl

/-- The first parts of a scalar access: its address and its checks. -/
def scalarPlace (s : State) (acc : Acc) (rs1 : Reg) (imm : BitVec 16) (n : Nat) : Act Nat := do
  let ea ← ptrResult false (s.ctx.getX rs1) (imm.signExtend 64)
  scalarKey acc ea n

/-- A scalar access that stops at its address or its checks traps there. -/
theorem traps_of_scalarPlace {s t : State} {i : Instr} {acc : Acc} {rs1 : Reg} {imm : BitVec 16} {n c : Nat} {info : Word}
    (access : scalarAccess i = some (acc, rs1, imm, n)) (stop : scalarPlace s acc rs1 imm n s = .error (.trap c info .here) t)
    (pending : t.resultsPending = false) : s.traps i c info s.ctx.pc t := by
  unfold scalarAccess at access
  split at access
  case h_12 => cases access
  case h_8 | h_9 | h_10 | h_11 =>
    cases access
    exact runSeq_trap (run_bind_bind_error stop) pending
  all_goals
    cases access
    exact runFlow_trap (run_bind_bind_error stop) pending

theorem scalarAccess_width {i : Instr} {acc : Acc} {rs1 : Reg} {imm : BitVec 16} {n : Nat} (access : scalarAccess i = some (acc, rs1, imm, n)) :
    n ∣ 2 ^ 40 := by
  unfold scalarAccess at access
  split at access
  case h_12 => cases access
  all_goals
    cases access
    decide

theorem run_scalarPlace_error {s t : State} {acc : Acc} {rs1 : Reg} {imm : BitVec 16} {n c : Nat} {ea info : Word}
    (address : addressOf (s.ctx.getX rs1) imm = some ea) (check : scalarChecks s.who acc ea n s = .error (c, info) t) :
    scalarPlace s acc rs1 imm n s = .error (.trap c info .here) t := by
  unfold scalarPlace
  rw [run_bind_ok (run_address address s)]
  unfold scalarKey
  rw [run_bind_ok (run_get s)]
  exact liftChk_error (runChk_error check)

theorem run_scalarPlace_range {s : State} {acc : Acc} {rs1 : Reg} {imm : BitVec 16} {n : Nat}
    (leaves : (ptrArith false (s.ctx.getX rs1) (imm.signExtend 64)).2 = true) :
    scalarPlace s acc rs1 imm n s =
      .error (.trap cPtrRange (ptrArith false (s.ctx.getX rs1) (imm.signExtend 64)).1 .here) s := by
  unfold scalarPlace
  refine run_bind_error ?_
  rw [run_ptrResult, if_pos leaves]

/-- A scalar access whose address fails a check traps there. -/
theorem traps_of_scalarChecks {s t : State} {i : Instr} {acc : Acc} {rs1 : Reg} {imm : BitVec 16} {n c : Nat} {ea info : Word}
    (access : scalarAccess i = some (acc, rs1, imm, n)) (address : addressOf (s.ctx.getX rs1) imm = some ea)
    (check : scalarChecks s.who acc ea n s = .error (c, info) t) (pending : t.resultsPending = false) : s.traps i c info s.ctx.pc t :=
  traps_of_scalarPlace access (run_scalarPlace_error address check) pending

end Sys2Proof.Machine
end

section
/-!
PROOFS. The checks of a scalar access and the walk of its page tables (R9, R15, R18 to R25, R82 to R86).
-/

namespace Sys2Proof.Machine

/-! ## The checks of a scalar access and the walk, as the rules say them -/

/-- What a scalar access checks of its address, in their order, and where it traps. -/
theorem traps_of_address {s : State} {i : Instr} {acc : Acc} {rs1 : Reg} {imm : BitVec 16} {n : Nat} {ea : Word}
    (access : scalarAccess i = some (acc, rs1, imm, n)) (pending : s.resultsPending = false)
    (address : addressOf (s.ctx.getX rs1) imm = some ea) :
    (10 ≤ ea.toNat / 2 ^ 59 → s.traps i 23 ea s.ctx.pc s) ∧
    (ea.toNat / 2 ^ 59 < 10 → isMesh ea = false → bits ea 48 7 ≠ 0 → s.traps i 10 ea s.ctx.pc s) ∧
    (ea.toNat / 2 ^ 59 < 10 → (isMesh ea = true ∨ bits ea 48 7 = 0) → ea.toNat % n ≠ 0 → s.traps i 4 ea s.ctx.pc s) ∧
    (ea.toNat / 2 ^ 59 < 10 → ea.toNat % n = 0 →
      (isMesh ea = true → s.meshKey s.who ea n = none → s.traps i 8 ea s.ctx.pc s) ∧
      (isMesh ea = false → bits ea 48 7 = 0 →
        (∀ cause info t, runChk (translate s.who acc ea) s = (.error (cause, info), t) → t.resultsPending = false →
          s.traps i cause info s.ctx.pc t) ∧
        (∀ pa t, runChk (translate s.who acc ea) s = (.ok (.inl pa), t) → t.dev.paKey pa = none → t.resultsPending = false →
          s.traps i 8 ea s.ctx.pc t))) := by
  have stop {c : Nat} {info : Word} {t : State} (scalar : ea.toNat / 2 ^ 59 < 10) (check : resolve s.who acc ea n n s = .error (c, info) t)
      (idle : t.resultsPending = false) : s.traps i c info s.ctx.pc t :=
    traps_of_scalarChecks access address ((run_scalarChecks scalar).trans check) idle
  have multiple : alignedTo ea n = true ↔ ea.toNat % n = 0 := alignedTo_iff (scalarAccess_width access)
  refine ⟨fun reserved => ?_, fun scalar plain high => ?_, fun scalar canon odd => ?_,
    fun scalar even => ⟨fun mesh nowhere => ?_, fun plain canon => ⟨?_, ?_⟩⟩⟩
  · exact traps_of_scalarChecks access address (run_scalarChecks_format reserved) pending
  · exact stop scalar (run_resolve_noncanon plain high) pending
  · exact stop scalar (run_resolve_misaligned canon (Bool.eq_false_iff.mpr fun aligned => odd (multiple.mp aligned))) pending
  · exact stop scalar (run_resolve_mesh mesh (multiple.mpr even) nowhere) pending
  · intro cause info t fault idle
    exact stop scalar (run_resolve_fault plain canon (multiple.mpr even) (run_of_runChk_error fault)) idle
  · intro pa t found nowhere idle
    exact stop scalar (run_resolve_nowhere plain canon (multiple.mpr even) (run_of_runChk_ok found) nowhere) idle

section
variable {s t : State} {w : Who} {acc : Acc} {p : Word}

/-- A translation passes on what its walk fails with, and checks the permissions of what it finds. -/
theorem runChk_translate_walk (mapped : ¬(w.mgmt = true ∧ w.kptb = 0)) (miss : s.tlbFind w (p.toNat % 2 ^ 48) acc.stores = none) :
    let tag := if acc = .fetch then 0 else p.toNat / 2 ^ 56
    (∀ e t, runChk (pageWalk w acc tag (p.toNat % 2 ^ 48)) s = (.ok e, t) → runChk (translate w acc p) s = runChk (permitted w acc p e) t) ∧
    (∀ f t, runChk (pageWalk w acc tag (p.toNat % 2 ^ 48)) s = (.error f, t) → runChk (translate w acc p) s = (.error f, t)) := by
  refine ⟨fun e t walk => ?_, fun f t walk => ?_⟩
  · exact runChk_congr ((run_translate_miss mapped miss).trans (run_bind_ok (run_of_runChk_ok walk)))
  · exact runChk_error ((run_translate_miss mapped miss).trans (run_bind_error (run_of_runChk_error walk)))

theorem runChk_translate_hit {e : TlbEntry} (mapped : ¬(w.mgmt = true ∧ w.kptb = 0)) (hit : s.tlbFind w (p.toNat % 2 ^ 48) acc.stores = some e) :
    runChk (translate w acc p) s = runChk (permitted w acc p e) s := runChk_congr (run_translate_hit mapped hit)

end

section
variable {s : State} {acc : Acc} {asid : BitVec 16} {tag va level table : Nat} {e : Word}

/-- An entry that names a table is refused where its other bits or its place are not a table's (R82). -/
theorem walkEntry_table_malformed (valid : bit e 0 = true) (formed : ¬(bits e 52 12 ≠ 0 ∨ bits e 10 2 ≠ 0)) (inner : bit e 8 = false)
    (wrong : bits e 1 9 ≠ 0 ∨ 2 ^ 39 ≤ bits e 12 40 * 4096 ∨ level = 0) :
    walkEntry acc asid tag va level table false e s = .error (walkFault acc tag va level true) s := by
  rw [walkEntry_formed valid formed, if_neg (by simp [inner])]
  by_cases out : bits e 1 9 ≠ 0 ∨ localBytes ≤ bits e 12 40 * 4096
  · rw [if_pos out]
    rfl
  · have bottom : level = 0 := by
      rcases wrong with set | far | bottom
      · exact absurd (.inl set) out
      · exact absurd (.inr far) out
      · exact bottom
    subst bottom
    rw [if_neg out]
    rfl

/-- A walk goes on at the table that an entry names, and keeps the entry (R82). -/
theorem walkEntry_table {below : Nat} (valid : bit e 0 = true) (formed : ¬(bits e 52 12 ≠ 0 ∨ bits e 10 2 ≠ 0)) (inner : bit e 8 = false)
    (clear : bits e 1 9 = 0) (near : bits e 12 40 * 4096 < 2 ^ 39) :
    walkEntry acc asid tag va (below + 1) table false e s =
      walkFrom acc asid tag va below (bits e 12 40 * 4096)
        (s.modDev fun d => { d with walkCache := (entryKey table (below + 1) va, e) :: d.walkCache }) := by
  rw [walkEntry_formed valid formed, if_neg (by simp [inner]),
    if_neg (show ¬(bits e 1 9 ≠ 0 ∨ localBytes ≤ _) from not_or.mpr ⟨not_not.mpr clear, Nat.not_le.mpr near⟩)]
  rfl

theorem walkEntry_leaf (valid : bit e 0 = true) (formed : ¬(bits e 52 12 ≠ 0 ∨ bits e 10 2 ≠ 0)) (leaf : bit e 8 = true) :
    walkEntry acc asid tag va level table false e s = walkLeaf acc asid tag va level table (entryKey table level va) e s := by
  rw [walkEntry_formed valid formed, if_pos leaf]

/-- A leaf of one entry is in its place below the top level (R83). -/
theorem leaf_placed (alone : bit e 9 = false) (low : level < 3) : ¬(level = 3 ∨ bit e 9 = true ∧ level ≠ 2) := by
  rw [alone]
  simpa using low.ne

end

/-- Settles O18: each check, each step of a walk and each kind of address has its own lemma above. -/
theorem scalarAccessChecks : Obligations.ScalarAccessChecks := by
  refine ⟨?checks, fun s acc => ⟨?translation, ?permissions, ?roots, ?steps⟩, ?mesh, ?keys, ?physical⟩
  case checks =>
    intro s i acc rs1 imm n access pending
    refine ⟨fun leaves => traps_of_scalarPlace access (run_scalarPlace_range leaves) pending, fun ea address => ?_⟩
    obtain ⟨format, noncanon, misaligned, rest⟩ := traps_of_address access pending address
    refine ⟨format, fun ⟨scalar, plain, high⟩ => ?_, fun ⟨scalar, canon, odd⟩ => ?_, fun ⟨scalar, even⟩ => ?_⟩
    · exact noncanon scalar plain (mt (extractLsb'_eq_zero_iff ea 48 7).mpr high)
    · exact misaligned scalar (canon.imp id (extractLsb'_eq_zero_iff ea 48 7).mp) odd
    · obtain ⟨meshCase, plainCase⟩ := rest scalar even
      exact ⟨fun ⟨mesh, nowhere⟩ => meshCase mesh nowhere, fun ⟨plain, canon⟩ => plainCase plain ((extractLsb'_eq_zero_iff ea 48 7).mp canon)⟩
  case translation =>
    intro w p mapped
    refine ⟨fun e hit => ?_, fun e t miss walk => ?_, fun cause info t miss walk => ?_, fun e hit => s.tlbFind_stores hit⟩
    · exact (runChk_translate_hit mapped hit).trans (runChk_permitted w acc p e s)
    · exact ((runChk_translate_walk mapped miss).1 e t walk).trans (runChk_permitted w acc p e t)
    · exact (runChk_translate_walk mapped miss).2 _ t walk
  case permissions =>
    intro perm level
    obtain ⟨load, store, rmw, fetch⟩ := permits_iff perm level
    exact ⟨load, store, rmw, fetch, rfl, rfl, rfl, rfl⟩
  case roots =>
    exact fun w tag va => ⟨runChk_pageWalk_far, fun e t near walk => runChk_pageWalk_found near walk, fun f t near walk => runChk_pageWalk_fault near walk⟩
  case steps =>
    intro asid tag va level table ea e next size new walk fault ⟨unkept, sound⟩
    have read := walkFrom_read unkept sound acc asid tag
    have zero (lo n : Nat) : e.extractLsb' lo n = 0 ↔ bits e lo n = 0 := extractLsb'_eq_zero_iff e lo n
    have faults {mal : Bool} (h : walkEntry acc asid tag va level table false e s = .error (walkFault acc tag va level mal) s) : fault mal :=
      runChk_error (read.trans h)
    refine ⟨fun invalid => faults (run_walkEntry_invalid invalid false), fun valid => ⟨fun malformed => ?_, fun ⟨high, low⟩ => ?_⟩⟩
    · exact faults (run_walkEntry_malformed valid (malformed.imp (mt (zero 52 12).mpr) (mt (zero 10 2).mpr)) false)
    · have formed : ¬(bits e 52 12 ≠ 0 ∨ bits e 10 2 ≠ 0) := by
        rw [zero] at high low
        simp [high, low]
      have leafStep (leaf : bit e 8 = true) :
          walkFrom acc asid tag va level table s = walkLeaf acc asid tag va level table (entryKey table level va) e s :=
        read.trans (walkEntry_leaf valid formed leaf)
      have leafFaults (leaf : bit e 8 = true)
          (h : walkLeaf acc asid tag va level table (entryKey table level va) e s = .error (walkFault acc tag va level true) s) : fault true :=
        runChk_error ((leafStep leaf).trans h)
      refine ⟨?_, ?_, ?_, ?_, ?_, ?_⟩
      · exact fun ⟨inner, wrong⟩ => faults (walkEntry_table_malformed valid formed inner (wrong.imp_left (mt (zero 1 9).mpr)))
      · rintro below ⟨inner, clear, near, rfl⟩
        exact runChk_congr (read.trans (walkEntry_table valid formed inner ((zero 1 9).mp clear) near))
      · exact fun ⟨leaf, misplaced⟩ => leafFaults leaf (run_walkLeaf_misplaced misplaced _)
      · rintro ⟨leaf, alone, low, odd⟩
        refine leafFaults leaf (run_walkLeaf_unaligned (leaf_placed alone low) ?_ _)
        rw [leafSize_plain alone]
        exact odd
      · rintro ⟨leaf, alone, low, even⟩
        refine runChk_ok ((leafStep leaf).trans (run_walkLeaf_plain (leaf_placed alone low) ?_ alone _))
        rw [leafSize_plain alone]
        exact even
      · rintro at16 same ⟨leaf, span, rfl⟩
        refine ⟨fun odd => leafFaults leaf (run_walkLeaf_unaligned (by simp) ?_ _), fun ⟨even, sound⟩ => ?_⟩
        · rw [leafSize_span span]
          exact odd
        · obtain ⟨differ, agree⟩ := run_walkLeaf_span (asid := asid) (tag := tag) span even sound (entryKey table 2 va)
          exact ⟨fun h => leafFaults leaf (differ h), fun h => runChk_ok ((leafStep leaf).trans (agree h))⟩
  case mesh =>
    exact fun s w p n t any => ⟨s.isScratch_iff t, State.meshKey_of_no_name, fun named => State.meshKey_of_names any named⟩
  case keys =>
    intro d r c x y o z
    refine ⟨fun ⟨row, col⟩ => clusterOfId_coords d row col, fun ⟨core, inside⟩ => ?_, fun ⟨cluster, inside⟩ => ?_⟩
    · exact ⟨regionOf_poolKey core inside, poolKey_inj inside⟩
    · exact ⟨regionOf_clusterKey cluster inside, clusterKey_inj inside⟩
  case physical =>
    intro d pa
    obtain ⟨near, between, host⟩ := d.paKey_near pa
    exact ⟨near, between, host, fun far => Dev.paKey_peer far⟩

end Sys2Proof.Machine
end

section
/-!
PROOFS. What a home leaves of a core and of the device's lists when it performs an access or meets an error (R80, R159, R253), and how the parts that
hold or trap an instruction come out.
-/

namespace Sys2Proof.Machine

/-! ## Which core is in focus, and whether it runs -/

/-- What no access performed at a home changes: a core's number, and whether it executes. -/
def Core.standing (c : Core) : Nat × Run := (c.id, c.run)

theorem Core.standing_of_wokenFrom {c d : Core} (h : c.wokenFrom d) : c.standing = d.standing := by
  rcases h with rfl | rfl <;> rfl

theorem Core.standing_lose (c : Core) (id : Nat) (info : Word) : (c.lose id info).standing = c.standing := rfl

theorem State.standing_modCoreId (s : State) (n : Nat) {f : Core → Core} (hf : ∀ c : Core, (f c).standing = c.standing) :
    (s.modCoreId n f).core.standing = s.core.standing := by
  unfold State.modCoreId
  split
  · exact hf s.core
  · rfl

theorem State.standing_acknowledge (s : State) (n : Nat) : (s.acknowledge n).core.standing = s.core.standing := s.standing_modCoreId n fun _ => rfl

theorem State.standing_foldl {α : Type} {f : State → α → State} (hf : ∀ s a, (f s a).core.standing = s.core.standing) :
    ∀ (l : List α) (s : State), (l.foldl f s).core.standing = s.core.standing
  | [], _ => rfl
  | a :: l, s => (State.standing_foldl hf l (f s a)).trans (hf s a)

theorem State.standing_poke (s : State) (key : Nat) (bs : List Byte) : (s.poke key bs).core.standing = s.core.standing :=
  Core.standing_of_wokenFrom (s.poke_core key bs)

theorem State.standing_performOp (s : State) (key : Nat) (op : FlightOp) : (s.performOp key op).2.core.standing = s.core.standing := by
  unfold State.performOp
  split
  · exact congrArg Core.standing (State.core_meetError _ _)
  · cases op with
    | cas c v =>
      dsimp only
      split
      · exact s.standing_poke _ _
      · rfl
    | store _ | amo _ _ | cinit _ | crcl _ => exact s.standing_poke _ _

theorem State.standing_lose (s : State) (parts : List (Nat × Nat)) (info : Word) : (s.lose parts info).core.standing = s.core.standing :=
  State.standing_foldl (fun s (p : Nat × Nat) => s.standing_modCoreId p.1 fun c => c.standing_lose p.2 info) parts s

theorem State.standing_loseFlight (s : State) (f : Flight) (info : Word) : (s.loseFlight f info).core.standing = s.core.standing :=
  (State.standing_lose _ f.parts info).trans (State.standing_foldl State.standing_acknowledge _ _)

theorem State.standing_performFlight (s : State) (f : Flight) : (s.performFlight f).core.standing = s.core.standing := by
  unfold State.performFlight
  split
  · exact (State.standing_loseFlight _ f _).trans (congrArg Core.standing (s.core_meetError _))
  · dsimp only
    split
    · exact (State.standing_foldl State.standing_acknowledge _ _).trans (s.standing_performOp f.home f.op)
    · exact s.standing_performOp f.home f.op

theorem State.standing_drainLines (s : State) (core key n before : Nat) : (s.drainLines core key n before).core.standing = s.core.standing :=
  State.standing_foldl State.standing_performFlight _ _

theorem State.id_drainLines (s : State) (core key n before : Nat) : (s.drainLines core key n before).core.id = s.core.id :=
  congrArg Prod.fst (s.standing_drainLines core key n before)

theorem State.run_drainLines (s : State) (core key n before : Nat) : (s.drainLines core key n before).core.run = s.core.run :=
  congrArg Prod.snd (s.standing_drainLines core key n before)

/-! ## An error that is met (R80, R253) -/

theorem State.dev_meetError (s : State) (key : Nat) : (s.meetError key).2.dev = { s.dev with tests := s.dev.tests ++ [testOf key] } := by
  unfold State.meetError
  dsimp only
  split <;> rfl

/-- Whether a core awaits a result depends on the accesses and broadcasts of the device, and on which core it is. -/
theorem State.resultsPending_congr {s t : State} (flights : t.dev.flights = s.dev.flights) (bcasts : t.dev.bcasts = s.dev.bcasts)
    (id : t.core.id = s.core.id) : t.resultsPending = s.resultsPending := by
  unfold State.resultsPending
  rw [flights, bcasts, id]

/-! ## Parts that hold -/

theorem run_roomFor {s : State} {n : Nat} (room : s.core.unack + n ≤ 256) : roomFor n s = .ok () s := by
  unfold roomFor
  rw [run_bind_ok (run_get s), if_neg (Nat.not_lt.mpr room)]
  rfl

theorem run_releaseFence {s : State} {scope : Scope} (met : s.releaseMet scope = true) (performed : s.commPending s.core.id = false) :
    releaseFence scope s = .ok () s := by
  unfold releaseFence
  rw [run_bind_ok (run_get s), if_neg (by simp [met, performed])]
  rfl

theorem run_interfaceRoom {s : State} (queue : s.core.bq.length < 16) (room : s.core.unack < 256) : interfaceRoom s = .ok () s := by
  unfold interfaceRoom
  rw [run_bind_ok (run_get s), if_neg (Nat.not_le.mpr queue)]
  exact run_roomFor room

theorem run_interfaceRoom_full {s : State} (full : 16 ≤ s.core.bq.length) : interfaceRoom s = .error (.hold .retry) s := by
  unfold interfaceRoom
  rw [run_bind_ok (run_get s), if_pos full]
  rfl

/-! ## Parts that read -/

theorem run_homeRead {s u : State} {key n : Nat} (h : s.reads key n u) : homeRead key n s = .ok (u.peek key n) u := by
  obtain ⟨-, free, rfl, sound⟩ := h
  unfold homeRead
  rw [run_bind_ok (run_get s), if_neg (by simp [free])]
  dsimp only
  rw [run_bind_ok (run_modify _ s), run_bind_ok (run_get _), sound]
  rfl

theorem run_coreReadNat {s u : State} {key n : Nat} (h : s.reads key n u) : coreReadNat key n s = .ok (u.value key n) u := by
  obtain ⟨near, -⟩ := id h
  unfold coreReadNat coreRead
  rw [if_neg (by simp [near]), run_bind_ok (run_homeRead h)]
  rfl

/-- The word that an operation is to read is looked at as it is issued, but not behind a quantum atomic to its line (R80, R163). -/
theorem run_soundFor {s : State} {key : Nat} {op : FlightOp} (h : s.dev.opBad key op = none ∨ s.quantumOn key 8 = true) :
    soundFor key op s = .ok () s := by
  unfold soundFor
  rw [run_bind_ok (run_get s), run_bind_ok (run_get s), if_neg (by rcases h with h | h <;> simp [h])]
  rfl

end Sys2Proof.Machine
end

section
/-!
PROOFS. Versioned cells at their home (R80, R116, R163, R176 to R178, R348): what a posted CLD or CST comes to, and what an instruction that works on a
cell does with that.
-/

namespace Sys2Proof.Machine

/-! ## A CLD or CST that its home looks at (R177) -/

section
variable {s : State} {w : CellWait}

/-- A bad HEAD or TAIL ends either. -/
theorem State.cellPerform_spoilt {k : Nat} (bad : s.dev.badWord (w.home + 0x20) 16 = some k) :
    s.cellPerform w = some (.spoilt (s.meetError k).1, (s.meetError k).2) := by
  unfold State.cellPerform
  rw [bad]

/-- A CST with room in its cell writes the next slot and HEAD. -/
theorem State.cellPerform_store (sound : s.dev.badWord (w.home + 0x20) 16 = none) (store : w.store = true)
    (room : s.cellHead w.home < s.cellTail w.home + 3) :
    s.cellPerform w = some (.value 0,
      (s.pokeRaw (w.home + 8 * ((s.cellHead w.home + 1) % 2 ^ 64 % 4)) (leBytes 8 w.arg.toNat)).pokeRaw (w.home + 0x20)
        (leBytes 8 ((s.cellHead w.home + 1) % 2 ^ 64))) := by
  unfold State.cellPerform
  rw [sound]
  dsimp only
  rw [if_pos store, if_pos room]

theorem State.cellPerform_full (sound : s.dev.badWord (w.home + 0x20) 16 = none) (store : w.store = true)
    (full : s.cellTail w.home + 3 ≤ s.cellHead w.home) : s.cellPerform w = none := by
  unfold State.cellPerform
  rw [sound]
  dsimp only
  rw [if_pos store, if_neg (Nat.not_lt.mpr full)]

/-- A CLD of a version that is still to come. -/
theorem State.cellPerform_early (sound : s.dev.badWord (w.home + 0x20) 16 = none) (load : w.store = false)
    (early : s.cellHead w.home < w.arg.toNat) : s.cellPerform w = none := by
  unfold State.cellPerform
  rw [sound]
  dsimp only
  rw [if_neg (by simp [load]), if_pos early]

theorem State.cellPerform_gone (sound : s.dev.badWord (w.home + 0x20) 16 = none) (load : w.store = false)
    (come : w.arg.toNat ≤ s.cellHead w.home) (gone : w.arg.toNat < s.cellTail w.home) : s.cellPerform w = some (.gone, s) := by
  unfold State.cellPerform
  rw [sound]
  dsimp only
  rw [if_neg (by simp [load]), if_neg (Nat.not_lt.mpr come), if_pos gone]

section
variable (sound : s.dev.badWord (w.home + 0x20) 16 = none) (load : w.store = false) (kept : s.cellTail w.home ≤ w.arg.toNat)
  (come : w.arg.toNat ≤ s.cellHead w.home)
include sound load kept come

/-- A CLD of a version that its cell keeps reads the slot of that version. -/
theorem State.cellPerform_kept (good : s.dev.badWord (w.home + 8 * (w.arg.toNat % 4)) 8 = none) :
    s.cellPerform w = some (.value (BitVec.ofNat 64 (s.value (w.home + 8 * (w.arg.toNat % 4)) 8)), s) := by
  unfold State.cellPerform
  rw [sound]
  dsimp only
  rw [if_neg (by simp [load]), if_neg (Nat.not_lt.mpr come), if_neg (Nat.not_lt.mpr kept), good]
  rfl

theorem State.cellPerform_kept_spoilt {k : Nat} (bad : s.dev.badWord (w.home + 8 * (w.arg.toNat % 4)) 8 = some k) :
    s.cellPerform w = some (.spoilt (s.meetError k).1, (s.meetError k).2) := by
  unfold State.cellPerform
  rw [sound]
  dsimp only
  rw [if_neg (by simp [load]), if_neg (Nat.not_lt.mpr come), if_neg (Nat.not_lt.mpr kept), bad]

end

end

/-- Where no CLD or CST waits, a write has none to satisfy. -/
theorem State.settleCells_of_none {s : State} (h : s.dev.cells = []) : s.settleCells s.dev.cells.length = s := by
  rw [h]
  rfl

/-! ## Posting one (R163, R177, R348) -/

/-- The state in which a CLD or CST of the core in focus reaches its cell, behind the core's own earlier accesses to its lines. -/
def State.atCell (s : State) (key : Nat) : State := s.drainLines s.core.id key 64 s.dev.seq

section
variable {s : State} {w : CellWait}

theorem run_cellAt_performed {x : State} {r : CellResult} (free : s.quantumOn w.home 64 = false)
    (posted : (s.atCell w.home).cellOf (s.atCell w.home).core.id = none) (performed : (s.atCell w.home).cellPerform w = some (r, x)) :
    cellAt w s = .ok r (x.settleCells x.dev.cells.length) := by
  unfold cellAt
  rw [run_bind_ok (run_get s), if_neg (by simp [free])]
  dsimp only
  rw [run_bind_ok (run_modify _ s), run_bind_ok (run_get _)]
  simp only [State.atCell] at posted performed
  rw [posted]
  dsimp only
  rw [performed]
  rfl

theorem run_cellAt_waits (free : s.quantumOn w.home 64 = false)
    (posted : (s.atCell w.home).cellOf (s.atCell w.home).core.id = none) (unmet : (s.atCell w.home).cellPerform w = none) :
    cellAt w s = .error (.hold .cell) ((s.atCell w.home).modDev fun d => { d with cells := d.cells ++ [w] }) := by
  unfold cellAt
  rw [run_bind_ok (run_get s), if_neg (by simp [free])]
  dsimp only
  rw [run_bind_ok (run_modify _ s), run_bind_ok (run_get _)]
  simp only [State.atCell] at posted unmet
  rw [posted]
  dsimp only
  rw [unmet]
  rfl

end

/-- The core's posted CLD or CST is withdrawn. -/
def State.withoutCell (s : State) : State := s.modDev fun d => { d with cells := d.cells.filter fun w => w.core != s.core.id }

theorem run_dropCell (s : State) : dropCell s = .ok () s.withoutCell := rfl

theorem State.withoutCell_of_none {s : State} (h : s.dev.cells = []) : s.withoutCell = s := by
  have kept : s.dev.cells.filter (fun w => w.core != s.core.id) = s.dev.cells := by rw [h, List.filter_nil]
  exact congrArg (fun cells => s.modDev fun d => { d with cells := cells }) kept

/-- What a CST does once it has its cell and its datum. -/
def storeToCell (w : CellWait) : Act Unit := do
  let r ← cellAt w
  dropCell
  match r with
  | .spoilt info => trap cEccUncorr info
  | _ => return ()

/-- What a CLD does once it has its cell and the version that it is to read. -/
def loadFromCell (rd : Reg) (w : CellWait) : Act Unit := do
  let r ← cellAt w
  match r with
  | .gone => do
    dropCell
    trap cCellGone w.arg
  | .spoilt info => do
    dropCell
    trap cEccUncorr info
  | .value v => do
    if (← get).resultsPending then
      modDev fun d => { d with cells := (d.cells.filter fun x => x.core != w.core) ++ [{ w with result := some r }] }
      holdFor .cell
    dropCell
    modCtx fun c => { c with pieces := [] }
    setX rd v

section
variable {s x : State} {w : CellWait}

theorem run_storeToCell {r : CellResult} (performed : cellAt w s = .ok r x) (sound : ∀ info, r ≠ .spoilt info) :
    storeToCell w s = .ok () x.withoutCell := by
  unfold storeToCell
  rw [run_bind_ok performed, run_bind_ok (run_dropCell x)]
  cases r with
  | spoilt info => exact absurd rfl (sound info)
  | value v | gone => rfl

theorem run_storeToCell_spoilt {info : Word} (performed : cellAt w s = .ok (.spoilt info) x) :
    storeToCell w s = .error (.trap cEccUncorr info .here) x.withoutCell := by
  unfold storeToCell
  rw [run_bind_ok performed]
  rfl

theorem run_loadFromCell {v : Word} (rd : Reg) (performed : cellAt w s = .ok (.value v) x) (free : x.resultsPending = false) :
    loadFromCell rd w s = .ok () ((x.withoutCell.modCtx fun c => { c with pieces := [] }).setX rd v) := by
  unfold loadFromCell
  rw [run_bind_ok performed]
  dsimp only
  rw [run_bind_ok (run_get x), if_neg (by simp [free])]
  rfl

theorem run_loadFromCell_gone (rd : Reg) (performed : cellAt w s = .ok .gone x) :
    loadFromCell rd w s = .error (.trap cCellGone w.arg .here) x.withoutCell := by
  unfold loadFromCell
  rw [run_bind_ok performed]
  rfl

theorem run_loadFromCell_spoilt {info : Word} (rd : Reg) (performed : cellAt w s = .ok (.spoilt info) x) :
    loadFromCell rd w s = .error (.trap cEccUncorr info .here) x.withoutCell := by
  unfold loadFromCell
  rw [run_bind_ok performed]
  rfl

end

/-! ## The instructions (R348) -/

theorem run_cellKey {s : State} {p : Word} {key : Nat} (h : s.cellNamed p key) : cellKey p s = .ok key s := by
  obtain ⟨scalar, aligned, mesh, memory, named⟩ := h
  have scalarOk : runChk (checkScalar p) s = (.ok (), s) := runChk_ok (by
    unfold checkScalar
    rw [if_neg (show ¬10 ≤ fmtOf p from Nat.not_le.mpr scalar)]
    rfl)
  have alignedOk : alignedTo p 64 = true := (alignedTo_iff (by decide)).mpr aligned
  have memoryOk : ¬(isMesh p = false ∨ 2 ≤ bits p 53 2) := by
    rintro (h | h)
    · exact absurd (mesh.symm.trans h) (by decide)
    · exact absurd memory (Nat.not_lt.mpr h)
  unfold cellKey
  rw [run_bind_ok (liftChk_ok scalarOk)]
  dsimp only
  rw [if_neg (by simp [alignedOk]), if_neg memoryOk, run_bind_ok (run_get s), named]
  rfl

section
variable {s : State} {key : Nat} {op : FlightOp}

/-- A write of a cell elsewhere leaves the core. -/
theorem run_cellWrite_far (far : regionOf key ≠ .pool s.core.id) (room : s.core.unack < 256)
    (sound : s.dev.opBad key op = none ∨ s.quantumOn key 8 = true) :
    cellWrite key op s = .ok () (s.launchFlight key op false false none) := by
  have remote : s.isRemote key = true := bne_iff_ne.mpr far
  unfold cellWrite
  rw [run_bind_ok (run_get s), if_neg (by simp [State.storeHeld, remote])]
  dsimp only
  rw [run_bind_ok (run_soundFor sound), run_bind_ok (run_get s), if_pos remote, run_bind_ok (run_roomFor room)]
  rfl

/-- A write of a cell in the core's own pool is performed at once. -/
theorem run_cellWrite_own (own : regionOf key = .pool s.core.id) (free : s.quantumOn key 8 = false) (sound : s.dev.opBad key op = none) :
    cellWrite key op s = .ok () ((s.atCell key).performOp key op).2 := by
  have near : s.isRemote key = false := by simp [State.isRemote, own]
  unfold cellWrite
  rw [run_bind_ok (run_get s), if_neg (by simp [State.storeHeld, free])]
  dsimp only
  rw [run_bind_ok (run_soundFor (.inl sound)), run_bind_ok (run_get s), if_neg (by simp [near])]
  rfl

/-- It waits for the core's quantum atomic to the line. -/
theorem run_cellWrite_held (own : regionOf key = .pool s.core.id) (behind : s.quantumOn key 8 = true) :
    cellWrite key op s = .error (.hold .retry) s := by
  unfold cellWrite
  rw [run_bind_ok (run_get s), if_pos (by simp [State.storeHeld, State.isRemote, own, behind])]
  rfl

end

/-- Two bodies that run alike at a state make the same step of it. -/
theorem runSeq_congr {i : Instr} {body body' : Act Unit} {s : State} (h : body s = body' s) : runSeq i body s = runSeq i body' s := by
  unfold runSeq runFlow
  rw [run_bind, run_bind, h]

section
variable {s : State} {rs1 rs2 : Reg} {key : Nat}

/-- CINIT writes its cell once its release is met. -/
theorem exec_cinit (named : s.cellNamed (s.ctx.getX rs1) key) (met : s.releaseMet .dev = true) (performed : s.commPending s.core.id = false) :
    exec (.cinit rs1 rs2) s = runSeq (.cinit rs1 rs2) (cellWrite key (.cinit (s.ctx.getX rs2))) s := by
  refine runSeq_congr ?_
  rw [run_bind_ok (run_getX rs1 s), run_bind_ok (run_cellKey named), run_bind_ok (run_releaseFence met performed), run_bind_ok (run_getX rs2 s)]

theorem exec_crcl (named : s.cellNamed (s.ctx.getX rs1) key) :
    exec (.crcl rs1 rs2) s = runSeq (.crcl rs1 rs2) (cellWrite key (.crcl (s.ctx.getX rs2))) s := by
  refine runSeq_congr ?_
  rw [run_bind_ok (run_getX rs1 s), run_bind_ok (run_cellKey named), run_bind_ok (run_getX rs2 s)]

theorem exec_cver {u : State} (rd : Reg) (named : s.cellNamed (s.ctx.getX rs1) key) (read : s.reads (key + 0x20) 8 u) :
    exec (.cver rd rs1) s = .next (s.retired (.cver rd rs1) .seq (u.setX rd (BitVec.ofNat 64 (u.value (key + 0x20) 8)))) := by
  refine runSeq_ok ?_
  rw [run_bind_ok (run_getX rs1 s), run_bind_ok (run_cellKey named), run_bind_ok (run_coreReadNat read)]
  rfl

/-- The CST that a core posts, at its cell with its datum. -/
def State.cstWait (s : State) (key : Nat) (rs2 : Reg) : CellWait :=
  { core := s.core.id, home := key, store := true, arg := s.ctx.getX rs2, rd := 0, result := none }

/-- The CLD that a core posts, at its cell with the version that it is to read. -/
def State.cldWait (s : State) (key : Nat) (rd rs2 : Reg) : CellWait :=
  { core := s.core.id, home := key, store := false, arg := s.ctx.getX rs2, rd := rd, result := none }

/-- A CST that is not posted yet. -/
theorem exec_cst (named : s.cellNamed (s.ctx.getX rs1) key) (fresh : s.cellOf s.core.id = none) (met : s.releaseMet .dev = true)
    (performed : s.commPending s.core.id = false) :
    exec (.cst rs1 rs2) s = runSeq (.cst rs1 rs2) (storeToCell (s.cstWait key rs2)) s := by
  refine runSeq_congr ?_
  rw [run_bind_ok (run_get s), fresh]
  dsimp only
  rw [run_bind_ok (run_getX rs1 s), run_bind_ok (run_cellKey named), run_bind_ok (run_releaseFence met performed), run_bind_ok (run_getX rs2 s)]
  rfl

/-- A CLD that is not posted yet. -/
theorem exec_cld (rd : Reg) (named : s.cellNamed (s.ctx.getX rs1) key) (fresh : s.cellOf s.core.id = none) :
    exec (.cld rd rs1 rs2) s = runSeq (.cld rd rs1 rs2) (loadFromCell rd (s.cldWait key rd rs2)) s := by
  refine runSeq_congr ?_
  rw [run_bind_ok (run_get s), fresh]
  dsimp only
  rw [run_bind_ok (run_getX rs1 s), run_bind_ok (run_cellKey named), run_bind_ok (run_getX rs2 s)]
  rfl

end

section
variable {s : State} {w : CellWait} (posted : s.cellOf s.core.id = some w)
include posted

theorem exec_cellAbandon_waiting (waits : w.result = none) : exec .cellAbandon s = .next s.abandon := by
  show execCellAbandon s = _
  unfold execCellAbandon
  rw [posted]
  dsimp only
  rw [waits]

/-- A CLD or CST that is performed is not withdrawn (R349). -/
theorem exec_cellAbandon_performed {r : CellResult} (performed : w.result = some r) : exec .cellAbandon s = .next s := by
  show execCellAbandon s = _
  unfold execCellAbandon
  rw [posted]
  dsimp only
  rw [performed]

end

end Sys2Proof.Machine
end

section
/-!
PROOFS. The versioned cells (R80, R116, R163, R176 to R178, R348, R349): each instruction by what it comes to at its cell.
-/

namespace Sys2Proof.Machine

/-! ## A cell that meets an error (R80, R116) -/

theorem State.cells_meetError (s : State) (k : Nat) : (s.meetError k).2.dev.cells = s.dev.cells := by rw [s.dev_meetError k]

theorem State.resultsPending_meetError (s : State) (k : Nat) : (s.meetError k).2.resultsPending = s.resultsPending :=
  State.resultsPending_congr (by rw [s.dev_meetError k]) (by rw [s.dev_meetError k]) (congrArg Core.id (s.core_meetError k))

/-- Where no other CLD or CST waits, one that is performed leaves what its own part does. -/
theorem run_cellAt_alone {s x : State} {w : CellWait} {r : CellResult} (free : s.quantumOn w.home 64 = false)
    (posted : (s.atCell w.home).cellOf (s.atCell w.home).core.id = none) (performed : (s.atCell w.home).cellPerform w = some (r, x))
    (alone : x.dev.cells = []) : cellAt w s = .ok r x := by
  rw [run_cellAt_performed free posted performed, State.settleCells_of_none alone]

section
variable {s t : State} (i : Instr) (w : CellWait) (reach : t = s.atCell w.home) (free : s.quantumOn w.home 64 = false)
  (posted : t.cellOf t.core.id = none)
include reach free posted

theorem storeToCell_completes {x : State} {v : Word} (performed : t.cellPerform w = some (.value v, x)) :
    runSeq i (storeToCell w) s = .next (s.retired i .seq (x.settleCells x.dev.cells.length).withoutCell) := by
  subst reach
  exact runSeq_ok (run_storeToCell (run_cellAt_performed free posted performed) nofun)

theorem storeToCell_waits (unmet : t.cellPerform w = none) :
    runSeq i (storeToCell w) s = .next ((t.modDev fun d => { d with cells := d.cells ++ [w] }).holdAt .cell (wordOf i)) := by
  subst reach
  exact runSeq_hold (run_bind_error (run_cellAt_waits free posted unmet))

theorem loadFromCell_waits (rd : Reg) (unmet : t.cellPerform w = none) :
    runSeq i (loadFromCell rd w) s = .next ((t.modDev fun d => { d with cells := d.cells ++ [w] }).holdAt .cell (wordOf i)) := by
  subst reach
  exact runSeq_hold (run_bind_error (run_cellAt_waits free posted unmet))

variable (alone : t.dev.cells = []) (pending : t.resultsPending = false)
include alone pending

/-- A CST that meets an error in its cell traps. -/
theorem storeToCell_traps {k : Nat} (spoilt : t.cellPerform w = some (.spoilt (t.meetError k).1, (t.meetError k).2)) :
    runSeq i (storeToCell w) s = .next ((t.meetError k).2.takeTrap false 24 (t.meetError k).1 s.ctx.pc (some (wordOf i))) := by
  subst reach
  have none := (State.cells_meetError _ k).trans alone
  have run := run_storeToCell_spoilt (run_cellAt_alone free posted spoilt none)
  rw [State.withoutCell_of_none none] at run
  exact runSeq_trap run ((State.resultsPending_meetError _ k).trans pending)

/-- A CLD that meets one traps. -/
theorem loadFromCell_traps (rd : Reg) {k : Nat} (spoilt : t.cellPerform w = some (.spoilt (t.meetError k).1, (t.meetError k).2)) :
    runSeq i (loadFromCell rd w) s = .next ((t.meetError k).2.takeTrap false 24 (t.meetError k).1 s.ctx.pc (some (wordOf i))) := by
  subst reach
  have none := (State.cells_meetError _ k).trans alone
  have run := run_loadFromCell_spoilt rd (run_cellAt_alone free posted spoilt none)
  rw [State.withoutCell_of_none none] at run
  exact runSeq_trap run ((State.resultsPending_meetError _ k).trans pending)

theorem loadFromCell_gone (rd : Reg) (gone : t.cellPerform w = some (.gone, t)) :
    runSeq i (loadFromCell rd w) s = .next (t.takeTrap false 19 w.arg s.ctx.pc (some (wordOf i))) := by
  subst reach
  have run := run_loadFromCell_gone rd (run_cellAt_alone free posted gone alone)
  rw [State.withoutCell_of_none alone] at run
  exact runSeq_trap run pending

theorem loadFromCell_completes (rd : Reg) {v : Word} (performed : t.cellPerform w = some (.value v, t)) :
    runSeq i (loadFromCell rd w) s = .next (s.retired i .seq ((t.modCtx fun c => { c with pieces := [] }).setX rd v)) := by
  subst reach
  have run := run_loadFromCell rd (run_cellAt_alone free posted performed alone) pending
  rw [State.withoutCell_of_none alone] at run
  exact runSeq_ok run

end

/-! ## VersionedCellResults -/

/-- Settles O37: by what a CLD or CST comes to at its cell, and where a cell is written. -/
theorem versionedCellResults : Obligations.VersionedCellResults := by
  unfold Obligations.VersionedCellResults
  intro s t u rd rs1 rs2 key w v n own other free
  refine ⟨fun named => ⟨?cinit, ?crclFar, ?crclOwn, ?crclHeld, ?cver, ?cst, ?cld⟩, ?withdrawn, ?kept⟩
  case cinit =>
    rintro ⟨met, performed⟩
    have begins := exec_cinit (rs2 := rs2) named met performed
    refine ⟨fun ⟨far, room⟩ => ?_, fun ⟨here, unbarred⟩ => ?_, fun ⟨here, behind⟩ => ?_⟩
    · exact begins.trans (runSeq_ok (run_cellWrite_far far room (.inl rfl)))
    · exact begins.trans (runSeq_ok (run_cellWrite_own here unbarred rfl))
    · exact begins.trans (runSeq_hold (run_cellWrite_held here behind))
  case crclFar =>
    rintro ⟨⟨far, room⟩, sound⟩
    exact (exec_crcl named).trans (runSeq_ok (run_cellWrite_far far room sound))
  case crclOwn =>
    rintro ⟨here, unbarred, sound⟩
    exact (exec_crcl named).trans (runSeq_ok (run_cellWrite_own here unbarred sound))
  case crclHeld =>
    rintro ⟨here, behind⟩
    exact (exec_crcl named).trans (runSeq_hold (run_cellWrite_held here behind))
  case cver => exact exec_cver rd named
  case cst =>
    rintro ⟨fresh, met, performed, unbarred, reach, unposted⟩
    have begins := exec_cst (rs2 := rs2) named fresh met performed
    refine ⟨fun b ⟨bad, alone, pending⟩ => ?_, fun ⟨sound, room⟩ => ?_, fun ⟨sound, full⟩ => ?_⟩
    · have spoilt := State.cellPerform_spoilt (w := s.cstWait key rs2) bad
      exact ⟨_, begins.trans (storeToCell_traps _ (s.cstWait key rs2) reach unbarred unposted alone pending spoilt),
        t.mem_meetError b, congrArg Core.ctx (t.core_meetError b)⟩
    · have performed := State.cellPerform_store (w := s.cstWait key rs2) sound rfl room
      exact begins.trans (storeToCell_completes _ (s.cstWait key rs2) reach unbarred unposted performed)
    · have unmet := State.cellPerform_full (w := s.cstWait key rs2) sound rfl full
      exact begins.trans (storeToCell_waits _ (s.cstWait key rs2) reach unbarred unposted unmet)
  case cld =>
    rintro ⟨fresh, ⟨unbarred, reach, unposted⟩, pending, alone, sound⟩
    have begins := exec_cld (rs2 := rs2) rd named fresh
    refine ⟨fun b ⟨kept, come, bad⟩ => ?_, fun ⟨kept, come, good⟩ => ?_, fun ⟨come, gone⟩ => ?_, fun early => ?_⟩
    · have spoilt := State.cellPerform_kept_spoilt (w := s.cldWait key rd rs2) sound rfl kept come bad
      exact ⟨_, begins.trans (loadFromCell_traps _ (s.cldWait key rd rs2) reach unbarred unposted alone pending rd spoilt),
        t.mem_meetError b, congrArg Core.ctx (t.core_meetError b)⟩
    · have performed := State.cellPerform_kept (w := s.cldWait key rd rs2) sound rfl kept come good
      exact begins.trans (loadFromCell_completes _ (s.cldWait key rd rs2) reach unbarred unposted alone pending rd performed)
    · have gone := State.cellPerform_gone (w := s.cldWait key rd rs2) sound rfl come gone
      exact begins.trans (loadFromCell_gone _ (s.cldWait key rd rs2) reach unbarred unposted alone pending rd gone)
    · have unmet := State.cellPerform_early (w := s.cldWait key rd rs2) sound rfl early
      exact ⟨_, begins.trans (loadFromCell_waits _ (s.cldWait key rd rs2) reach unbarred unposted rd unmet), rfl⟩
  case withdrawn =>
    rintro ⟨posted, unmet⟩
    exact exec_cellAbandon_waiting posted unmet
  case kept =>
    rintro ⟨posted, met⟩
    exact exec_cellAbandon_performed posted met

end Sys2Proof.Machine
end

section
/-!
PROOFS. Broadcasts (R80, R155 to R158, R175, R342, R343, R464): what MCAST hands over, what the close of a window keeps, and how an application is made.
-/

namespace Sys2Proof.Machine

/-! ## MCAST (R342, R343) -/

/-- What MCAST does once its pointer and its target set have passed their checks. -/
def handOver (data : Reg) (off : Nat) (ts : List Nat) : Act Unit := do
  interfaceRoom
  let datum ← getX data
  modify fun s => s.broadcast (.mcast off datum ts) ts

/-- The pointer of an MCAST names eight bytes of a pool in mesh space, and its target set holds no reserved bit (R342). -/
def mcastOperands (p set : Word) : Prop :=
  p.toNat / 2 ^ 59 < 10 ∧ set &&& targetReserved = 0 ∧ p.toNat % 8 = 0 ∧ p.getLsbD 55 = true ∧ p.extractLsb' 53 2 = 0#2 ∧ p.toNat % 2 ^ 40 < 0x60000

section
variable {s : State} {data rs1 rs2 : Reg} {ts : List Nat}

theorem exec_mcast (sound : mcastOperands (s.ctx.getX rs1) (s.ctx.getX rs2)) (targets : s.targetSet s.who (s.ctx.getX rs2) = some ts) :
    exec (.mcast data rs1 rs2) s = runSeq (.mcast data rs1 rs2) (handOver data ((s.ctx.getX rs1).toNat % 2 ^ 40) ts) s := by
  obtain ⟨scalar, unreserved, aligned, mesh, pool, low⟩ := sound
  have scalarOk : ¬10 ≤ fmtOf (s.ctx.getX rs1) := Nat.not_le.mpr scalar
  have alignedOk : alignedTo (s.ctx.getX rs1) 8 = true := (alignedTo_iff (by decide)).mpr aligned
  have poolOk : ¬(isMesh (s.ctx.getX rs1) = false ∨ bits (s.ctx.getX rs1) 53 2 ≠ 0 ∨ 0x60000 ≤ bits (s.ctx.getX rs1) 0 40) := by
    rintro (h | h | h)
    · exact absurd (mesh.symm.trans h) (by decide)
    · exact h ((extractLsb'_eq_zero_iff _ 53 2).mp pool)
    · rw [bits_zero] at h
      exact absurd low (Nat.not_lt.mpr h)
  refine runSeq_congr ?_
  rw [run_bind_ok (run_getX rs1 s), run_bind_ok (run_getX rs2 s), if_neg scalarOk]
  dsimp only
  rw [if_neg (not_not.mpr unreserved), if_neg (by simp [alignedOk]), if_neg poolOk, run_bind_ok (run_get s), targets, bits_zero]
  rfl

theorem run_handOver {off : Nat} (queue : s.core.bq.length < 16) (room : s.core.unack < 256) :
    handOver data off ts s = .ok () (s.broadcast (.mcast off (s.ctx.getX data) ts) ts) := by
  unfold handOver
  rw [run_bind_ok (run_interfaceRoom queue room)]
  rfl

theorem run_handOver_full {off : Nat} (full : 16 ≤ s.core.bq.length) : handOver data off ts s = .error (.hold .retry) s :=
  run_bind_error (run_interfaceRoom_full full)

end

/-! ## The close of a window (R155 to R157) -/

/-- What giving broadcasts their places in the order keeps: the cores, memory, the window, and what each interface announces. -/
structure State.OrderedFrom (s t : State) : Prop where
  core : t.core = s.core
  rest : t.rest = s.rest
  mem : t.dev.mem = s.dev.mem
  window : t.dev.window = s.dev.window
  announced : ∀ now bq, t.dev.announced now bq = s.dev.announced now bq

/-- A broadcast takes the next place in the order. -/
def State.placeBcast (s : State) (b : Bcast) : State :=
  s.takeSeq.2.modDev fun d => { d with bcasts := d.bcasts.map fun x => if x.id = b.id then { x with ordered := some s.takeSeq.1 } else x }

/-- The broadcasts announced in the window that closes take their places. -/
def State.orderWindow (s : State) : State := (sortBcasts (s.dev.bcasts.filter fun b => b.window == some s.dev.window)).foldl State.placeBcast s

theorem Dev.announced_congr {d e : Dev} (h : ∀ now n, (e.bcasts.any fun b => b.id == n && decide (b.retired ≤ now)) =
    d.bcasts.any fun b => b.id == n && decide (b.retired ≤ now)) (now : Nat) (bq : List Nat) : e.announced now bq = d.announced now bq := by
  unfold Dev.announced
  simp only [h]

theorem State.orderedFrom_placeBcast (s : State) (b : Bcast) : s.OrderedFrom (s.placeBcast b) where
  core := rfl
  rest := rfl
  mem := rfl
  window := rfl
  announced := Dev.announced_congr fun now n => by
    show (List.map _ s.dev.bcasts).any _ = _
    rw [List.any_map]
    congr 1
    funext x
    by_cases same : x.id = b.id <;> simp [same]

theorem State.orderedFrom_foldl : ∀ (l : List Bcast) (s : State), s.OrderedFrom (l.foldl State.placeBcast s)
  | [], _ => ⟨rfl, rfl, rfl, rfl, fun _ _ => rfl⟩
  | b :: l, s =>
    have first := s.orderedFrom_placeBcast b
    have later := State.orderedFrom_foldl l (s.placeBcast b)
    { core := later.core.trans first.core
      rest := later.rest.trans first.rest
      mem := later.mem.trans first.mem
      window := later.window.trans first.window
      announced := fun now bq => (later.announced now bq).trans (first.announced now bq) }

theorem State.orderedFrom_orderWindow (s : State) : s.OrderedFrom s.orderWindow := State.orderedFrom_foldl _ s

/-- The broadcasts that the interfaces announce as the window closes. -/
def State.announcedNext (s : State) : List Nat := s.cores.flatMap fun c => s.dev.announced s.dev.window c.bq

theorem State.bcasts_closeWindow (s : State) : s.closeWindow.dev.bcasts =
    s.orderWindow.dev.bcasts.map fun b => if s.announcedNext.contains b.id then { b with window := some (s.dev.window + 1) } else b := by
  have ordered := s.orderedFrom_orderWindow
  have next : (s.orderWindow.cores.flatMap fun c => s.orderWindow.dev.announced s.dev.window c.bq) = s.announcedNext := by
    simp only [State.announcedNext, State.cores, ordered.core, ordered.rest, ordered.announced]
  rw [← next]
  rfl

theorem State.core_closeWindow (s : State) :
    s.closeWindow.core = { s.core with bq := s.core.bq.drop (s.dev.announced s.dev.window s.core.bq).length } := by
  have ordered := s.orderedFrom_orderWindow
  rw [← ordered.announced, ← ordered.core]
  rfl

/-- A broadcast that an interface announces stands in the next window. -/
theorem State.window_closeWindow {s : State} {x : Bcast} (here : x ∈ s.closeWindow.dev.bcasts) (announced : x.id ∈ s.announcedNext) :
    x.window = some (s.dev.window + 1) := by
  rw [State.bcasts_closeWindow] at here
  obtain ⟨b, -, rfl⟩ := List.mem_map.mp here
  have same : (if s.announcedNext.contains b.id then { b with window := some (s.dev.window + 1) } else b).id = b.id := by split <;> rfl
  rw [same] at announced
  rw [if_pos (List.contains_iff_mem.mpr announced)]

theorem exec_weirWindowClose {s : State} (ended : (s.dev.window + 1) * 32 ≤ s.dev.cycles) : exec .weirWindowClose s = .next s.closeWindow := if_pos ended

theorem exec_weirWindowClose_early {s : State} (early : s.dev.cycles < (s.dev.window + 1) * 32) : exec .weirWindowClose s = .next s :=
  if_neg (Nat.not_le.mpr early)

/-! ## An application (R157, R158, R175, R343) -/

/-- A target has applied or discarded a multicast store, and does not wait for it any more. -/
def State.mcastMade (s : State) (b : Bcast) (t off : Nat) (datum : Word) : State :=
  (if b.lnum = 0 ∨ s.holdsScratch t b.lnum off then s.poke (poolKey t off) (leBytes 8 datum.toNat) else s).modDev fun d => { d with
    bcasts := (d.bcasts.map fun x => if x.id = b.id then { x with todo := b.todo.erase t } else x).filter
      fun x => !(x.id == b.id && (b.todo.erase t).isEmpty) }

/-- The result of a quantum atomic that its home has performed is on its way, and the broadcast is over. -/
def State.quantumMade (s : State) (b : Bcast) (home : Nat) (op : FlightOp) (rd : Reg) : State :=
  ((s.performOp home op).2.modDev fun d => { d with
    bcasts := d.bcasts.filter fun x => x.id != b.id
    flights := d.flights ++ [{ id := b.id, core := b.core, lnum := b.lnum, home := home, op := op, comm := false, append := false, rd := some rd
                               done := true, acked := false, old := (s.performOp home op).1, merged := [] }] }).acknowledge b.core

section
variable {s : State} {k t : Nat} {b : Bcast} (due : s.dev.applications[k]? = some (b, t))
include due

theorem exec_broadcastApply_cutOff {home : Nat} {op : FlightOp} {rd : Reg} (quantum : b.op = .quantum home op rd) (failed : s.dev.cutOff home = true) :
    exec (.broadcastApply k) s = .next s := by
  show execBroadcastApply k s = _
  unfold execBroadcastApply
  rw [due]
  dsimp only
  rw [if_pos (by simp [Bcast.cutOff, quantum, failed])]

variable (first : s.dev.earlierPending b t = false)
include first

/-- A multicast store whose turn it is, acknowledged by its last target. -/
theorem exec_broadcastApply_mcast {off : Nat} {datum : Word} {all : List Nat} (op : b.op = .mcast off datum all) :
    exec (.broadcastApply k) s =
      .next (if (b.todo.erase t).isEmpty then (s.mcastMade b t off datum).acknowledge b.core else s.mcastMade b t off datum) := by
  show execBroadcastApply k s = _
  unfold execBroadcastApply
  rw [due]
  dsimp only
  rw [if_neg (by simp [first, Bcast.cutOff, op]), op]
  rfl

variable {home : Nat} {op : FlightOp} {rd : Reg} (quantum : b.op = .quantum home op rd) (up : s.dev.cutOff home = false)
include quantum up

/-- A quantum atomic whose turn it is, behind its core's earlier accesses to the line. -/
theorem exec_broadcastApply_quantum (sound : (s.drainLines b.core home 8 b.id).dev.opBad home op = none) :
    exec (.broadcastApply k) s = .next ((s.drainLines b.core home 8 b.id).quantumMade b home op rd) := by
  show execBroadcastApply k s = _
  unfold execBroadcastApply
  rw [due]
  dsimp only
  rw [if_neg (by simp [first, Bcast.cutOff, quantum, up]), quantum]
  dsimp only
  rw [sound]
  rfl

theorem exec_broadcastApply_lost {w : Nat} (bad : (s.drainLines b.core home 8 b.id).dev.opBad home op = some w) :
    exec (.broadcastApply k) s = .next (((s.drainLines b.core home 8 b.id).meetError w).2.loseBcast b ((s.drainLines b.core home 8 b.id).meetError w).1) := by
  show execBroadcastApply k s = _
  unfold execBroadcastApply
  rw [due]
  dsimp only
  rw [if_neg (by simp [first, Bcast.cutOff, quantum, up]), quantum]
  dsimp only
  rw [bad]

end

/-! ## A quantum atomic that is lost (R80, R464) -/

theorem State.dev_loseBcast (s : State) (b : Bcast) (info : Word) :
    (s.loseBcast b info).dev = { s.dev with bcasts := s.dev.bcasts.filter fun x => x.id != b.id } := by
  show (State.modCoreId (State.modCoreId (State.modCoreId _ _ _) _ _) _ _).dev = _
  rw [State.modCoreId_dev, State.modCoreId_dev, State.modCoreId_dev]
  rfl

theorem State.core_loseBcast {s : State} {b : Bcast} (own : b.core = s.core.id) (info : Word) :
    (s.loseBcast b info).core = Core.lose { s.core with bq := s.core.bq.filter fun n => n != b.id, unack := s.core.unack - 1 } b.id info := by
  show (State.modCoreId (State.modCoreId (State.modCoreId (s.modDev _) b.core _) b.core _) b.core _).core = _
  rw [own]
  simp [State.modCoreId]

/-! ## BroadcastResults -/

/-- Settles O33: by what an MCAST hands over, what the close of a window announces, and how an application comes out. -/
theorem broadcastResults : Obligations.BroadcastResults := by
  unfold Obligations.BroadcastResults
  intro s data rs1 rs2 ts k t off b datum all p set
  refine ⟨?mcast, ?closes, exec_weirWindowClose_early, ?cutOff, ?quantum, ?more, ?last⟩
  case mcast =>
    rintro ⟨scalar, unreserved, aligned, mesh, pool, low, targets⟩
    have begins := exec_mcast (data := data) ⟨scalar, unreserved, aligned, mesh, pool, low⟩ targets
    refine ⟨fun ⟨queue, room⟩ => ?_, fun full => ?_⟩
    · exact begins.trans (runSeq_ok (run_handOver queue room))
    · exact begins.trans (runSeq_hold (run_handOver_full full))
  case closes =>
    intro ended goes
    have core := s.core_closeWindow
    refine ⟨s.closeWindow, exec_weirWindowClose ended, rfl, ?_, ?_, s.orderedFrom_orderWindow.mem, ?_⟩
    · rw [core]
      rfl
    · exact (congrArg Core.ctx core).trans rfl
    · rintro x here ⟨c, present, announced⟩
      exact State.window_closeWindow here (List.mem_flatMap.mpr ⟨c, present, announced⟩)
  case cutOff =>
    rintro home op rd ⟨due, -, quantum, failed⟩
    exact exec_broadcastApply_cutOff due quantum failed
  case quantum =>
    rintro home op rd ⟨due, first, quantum, up⟩ u v
    refine ⟨exec_broadcastApply_quantum due first quantum up, ?_⟩
    rintro w ⟨bad, own, running⟩
    have id : u.core.id = s.core.id := s.id_drainLines _ _ _ _
    have run : u.core.run = .running := (s.run_drainLines _ _ _ _).trans running
    have core := u.core_meetError w
    have lost := State.core_loseBcast (s := (u.meetError w).2) (b := b) (by rw [core, id, own]) (u.meetError w).1
    have dev := State.dev_loseBcast (u.meetError w).2 b (u.meetError w).1
    rw [core] at lost
    refine ⟨_, exec_broadcastApply_lost due first quantum up bad, ?_, ?_, ?_, ?_⟩
    · exact (congrArg Dev.mem dev).trans (u.mem_meetError w)
    · rw [dev]
      intro y here
      obtain ⟨-, other⟩ := List.mem_filter.mp here
      exact bne_iff_ne.mp other
    · exact congrArg Core.unack lost
    · refine (congrArg Core.lost lost).trans ?_
      exact if_pos run
  case more =>
    rintro ⟨due, first, op, many⟩
    have left : (b.todo.erase t).isEmpty = false := by
      have kept := List.le_length_erase (l := b.todo) (a := t)
      rw [List.isEmpty_eq_false_iff, ← List.length_pos_iff]
      omega
    have made := exec_broadcastApply_mcast due first op
    rw [left] at made
    exact made
  case last =>
    rintro ⟨due, first, op, alone⟩
    have made := exec_broadcastApply_mcast due first op
    have left : b.todo.erase t = [] := by simp [alone]
    unfold State.mcastMade at made
    rw [left] at made
    exact made

end Sys2Proof.Machine
end

section
/-!
PROOFS. Pushes of the DMA engine (R90, R91, R95, R113, R350, R351, R354): a command whose checks pass enters q0, and one whose tag is in use waits.
-/

namespace Sys2Proof.Machine

/-! ## Parts of a body that are made on a condition -/

section
variable {β : Type} {b : Prop} [Decidable b] {s t : State}

/-- A check that passes lets its body go on. -/
theorem run_unless {stop rest : Act β} (passes : ¬b) : (if b then stop else rest) s = rest s := by
  rw [if_neg passes]

/-- A check that fails stops its body. -/
theorem run_stops {α : Type} {stop : Act α} {k : α → Act β} {rest : Act β} {e : Stop} (fails : b) (h : stop s = .error e t) :
    (if b then stop >>= k else rest) s = .error e t := by
  rw [if_pos fails]
  exact run_bind_error h

/-- A part that is made on a condition, and that comes out where it is made. -/
theorem run_when {α : Type} {part : Act α} {rest : Act β} (h : if b then ∃ a, s.gives part a t else t = s) :
    (if b then part >>= fun _ => rest else rest) s = rest t := by
  by_cases made : b
  · rw [if_pos made] at h ⊢
    obtain ⟨a, comes⟩ := h
    exact run_bind_ok comes
  · rw [if_neg made] at h ⊢
    rw [h]

/-- A choice between two parts, the second of which only gives its value. -/
theorem run_choice {α : Type} {part : Act α} {a a' : α} {k : α → Act β} (h : if b then s.gives part a t else a = a' ∧ t = s) :
    (if b then part >>= k else pure a' >>= k) s = k a t := by
  by_cases made : b
  · rw [if_pos made] at h ⊢
    exact run_bind_ok h
  · rw [if_neg made] at h ⊢
    obtain ⟨rfl, rfl⟩ := h
    rfl

/-- A body that comes out is not touched by the guard of its context. -/
theorem run_guardCtx_ok {α : Type} {body : Act α} {a : α} (h : body s = .ok a t) : guardCtx body s = .ok a t := by
  unfold guardCtx
  rw [h]

end

/-! ## The push (R91, R95, R101) -/

/-- A push whose tag is in flight waits, whatever its command (R91 check 1). -/
theorem run_pushDma_busy {s : State} {c : DmaCmd} (busy : s.core.dmaTags.getLsbD c.tag.toNat = true) (next : Nat) (plain : Bool) :
    pushDma c next plain s = .error (.hold .retry) s := by
  unfold pushDma
  rw [run_bind_ok (run_get s)]
  exact run_stops busy (run_holdFor .retry s)

/-- Of the checks of a push, those of the arrival counter and of the deal come last, one after the other. -/
theorem dmaPasses_ends {d t : State} {c : DmaCmd} {ms : List Nat}
    (h : if c.ctl.getLsbD 8 then ∃ key e, d.gives (scalarKey .store c.arrive 8) key e ∧
        (if c.isDeal then e.gives (dealChecks c) ms t else ms = [] ∧ t = e)
      else if c.isDeal then d.gives (dealChecks c) ms t else ms = [] ∧ t = d) :
    ∃ e, (if c.ctl.getLsbD 8 then ∃ key, d.gives (scalarKey .store c.arrive 8) key e else e = d) ∧
      (if c.isDeal then e.gives (dealChecks c) ms t else ms = [] ∧ t = e) := by
  by_cases arrives : c.ctl.getLsbD 8 = true
  · rw [if_pos arrives] at h
    obtain ⟨key, e, counter, members⟩ := h
    exact ⟨e, by rw [if_pos arrives]; exact ⟨key, counter⟩, members⟩
  · rw [if_neg arrives] at h
    exact ⟨d, by rw [if_neg arrives], h⟩

/-- A command whose checks pass enters q0 (R91). -/
theorem run_pushDma {s t : State} {c : DmaCmd} {op : DmaOp} {ms : List Nat} (passes : s.dmaPasses c op ms t) (next : Nat) :
    pushDma c next true s = .ok () (t.queueDma c next ms) := by
  obtain ⟨tag, reserved, kind, table, clear, operation, ⟨a, b, d, dest, src, tab, ends⟩, whole, even, leads, room⟩ := passes
  obtain ⟨e, counter, members⟩ := dmaPasses_ends ends
  have control : ¬(bits c.ctl 10 54 ≠ 0 ∨ true = false ∨ 2 ≤ c.kind ∨ c.toff ≠ 0 ∧ hasTable c.src = false) := by
    have low : bits c.ctl 10 54 = 0 := by rw [bits, reserved, Nat.zero_mod]
    rcases table with bare | tabled
    · simp [low, bare, kind]
    · simp [low, tabled, kind]
  have target : ¬(c.isDeal = true ∧ bits c.dest 0 56 ≠ 0) := fun ⟨deal, offset⟩ => offset ((bits_zero _ _).trans (clear deal))
  have destChecked : if (!c.isDeal) = true then ∃ u, s.gives (firstByte .store c.dest (startAlign (fmtOf c.dest))) u a else a = s := by
    by_cases deal : c.isDeal = true
    · rw [if_pos deal] at dest
      rw [if_neg (by simp [deal])]
      exact dest
    · rw [if_neg deal] at dest
      rw [if_pos (by simp [deal])]
      exact ⟨(), dest⟩
  have tableChecked : if hasTable c.src then
      ∃ u, b.gives (firstByte .load (ptrAt c.src c.toff) (if fmtOf c.src ≠ 21 ∧ c.toff % 16 = 0 then 16 else 1)) u d else d = b := by
    by_cases has : hasTable c.src = true
    · rw [if_pos has] at tab ⊢
      exact ⟨(), tab⟩
    · rw [if_neg has] at tab ⊢
      exact tab
  unfold pushDma
  rw [run_bind_ok (run_get s)]
  refine (run_unless (by simpa [bit] using tag)).trans ?_
  refine (run_unless control).trans ?_
  refine (run_unless target).trans ?_
  rw [operation]
  refine (run_when destChecked).trans ?_
  refine (run_bind_ok src).trans ?_
  refine (run_when tableChecked).trans ?_
  refine (run_when counter).trans ?_
  refine (run_unless (by simp [whole, even])).trans ?_
  refine (run_choice members).trans ?_
  refine (run_bind_ok (run_get t)).trans ?_
  refine (run_unless (not_and.mpr leads)).trans ?_
  refine (run_unless (Nat.not_le.mpr room)).trans ?_
  rfl

/-! ## The commands (R89, R90) -/

theorem builtCmd_none (dest src len : Word) (tag : BitVec 6) : builtCmd dest src len tag none =
    { dest := dest, src := src, len := len, ctl := BitVec.ofNat 64 tag.toNat, arrive := 0, deal := 0 } := by
  have ctl : tag.setWidth 64 ||| 0 = BitVec.ofNat 64 tag.toNat := by simp [BitVec.ofNat_toNat]
  exact congrArg (fun w => DmaCmd.mk dest src len w 0 0) ctl

/-- Bit 6 of CTL, the low bit of KIND, stands above the tag. -/
theorem builtCmd_some (dest src len : Word) (tag : BitVec 6) (pattern : Word) : builtCmd dest src len tag (some pattern) =
    { dest := dest, src := src, len := len, ctl := BitVec.ofNat 64 (tag.toNat + 64), arrive := 0, deal := pattern } := by
  have ctl : tag.setWidth 64 ||| 0x40 = BitVec.ofNat 64 (tag.toNat + 64) := by
    apply BitVec.eq_of_toNat_eq
    have above : 64 ||| tag.toNat = 64 + tag.toNat := (Nat.two_pow_add_eq_or_of_lt (i := 6) tag.isLt 1).symm
    have small := tag.isLt
    rw [BitVec.toNat_or, BitVec.toNat_setWidth, BitVec.toNat_ofNat, Nat.mod_eq_of_lt (by omega), Nat.mod_eq_of_lt (by omega)]
    exact (Nat.or_comm _ _).trans (above.trans (Nat.add_comm _ _))
  exact congrArg (fun w => DmaCmd.mk dest src len w 0 pattern) ctl

/-- The tag of a command is the one it is built with. -/
theorem tag_builtCmd (dest src len : Word) (tag : BitVec 6) (pattern : Option Word) : (builtCmd dest src len tag pattern).tag = tag := by
  unfold builtCmd DmaCmd.tag
  cases pattern with
  | none => simp
  | some p => simp [BitVec.setWidth_or]

/-! ## The instructions (R90, R113, R350, R351, R354) -/

section
variable {s t u : State} {dest src len rs : Reg} {tag : BitVec 6} {bytes : List Byte}

theorem exec_dma : exec (.dma dest src len tag) s =
    runSeq (.dma dest src len tag) (pushDma (builtCmd (s.ctx.getX dest) (s.ctx.getX src) (s.ctx.getX len) tag none) 0 true) s := runSeq_congr rfl

theorem exec_dmad : exec (.dmad dest src len tag) s =
    runSeq (.dmad dest src len tag)
      (pushDma (builtCmd (s.ctx.getX dest) (s.ctx.getX src) (s.ctx.getX len) tag (some s.ctx.dealpat)) 0 true) s := runSeq_congr rfl

/-- A record's PROG of state 1 or 2 holds nothing but its state, its sub-cause and its chunk (R113). -/
theorem prog_fields {prog : Word} (state : prog.toNat / 2 ^ 40 = 1 ∨ prog.toNat / 2 ^ 40 = 2) :
    ¬((bits prog 40 8 ≠ 1 ∧ bits prog 40 8 ≠ 2) ∨ bits prog 48 16 ≠ 0) := by
  unfold bits
  omega

theorem exec_dmares (record : s.gives (readRecord (s.ctx.getX rs) 64) bytes u)
    (state : (wordAt bytes 6).toNat / 2 ^ 40 = 1 ∨ (wordAt bytes 6).toNat / 2 ^ 40 = 2)
    (push : pushDma (cmdOf bytes) ((wordAt bytes 6).toNat % 2 ^ 32) true u = .ok () t) : s.completes (.dmares rs) .seq t := by
  refine runSeq_ok ?_
  rw [run_bind_ok (run_getX rs s), run_bind_ok record]
  refine (run_unless (prog_fields state)).trans ?_
  rw [bits_zero]
  exact push

theorem exec_qpush_dma (record : s.gives (readRecord (s.ctx.getX rs) 64) bytes u) (fresh : wordAt bytes 6 = 0)
    (push : pushDma (cmdOf bytes) 0 true u = .ok () t) : s.completes (.qpush 0 rs) .seq t := by
  refine runSeq_ok (run_guardCtx_ok ?_)
  refine (run_bind_ok ((run_needReg _ _ s).trans (if_pos rfl))).trans ?_
  rw [run_bind_ok (run_getX rs s)]
  refine (run_bind_ok record).trans ?_
  rw [fresh]
  exact push

end

/-! ## DmaPushResults -/

/-- Settles O38: by what a push comes to, with the command that each instruction builds or finds in its record. -/
theorem dmaPushResults : Obligations.DmaPushResults := by
  unfold Obligations.DmaPushResults
  intro s t u dest src len rs tag op ms bytes w plain deal kept
  refine ⟨fun passes => ?dma, fun passes => ?dmad, fun busy => ⟨?dmaBusy, ?dmadBusy⟩,
    fun record => ⟨fun state passes => ?dmares, fun fresh passes => ?qpush⟩⟩
  case dma =>
    have built : builtCmd (s.ctx.getX dest) (s.ctx.getX src) (s.ctx.getX len) tag none = plain := builtCmd_none _ _ _ tag
    rw [← built] at passes ⊢
    exact exec_dma.trans (runSeq_ok (run_pushDma passes 0))
  case dmad =>
    have built : builtCmd (s.ctx.getX dest) (s.ctx.getX src) (s.ctx.getX len) tag (some s.ctx.dealpat) = deal := builtCmd_some _ _ _ tag _
    rw [← built] at passes ⊢
    exact exec_dmad.trans (runSeq_ok (run_pushDma passes 0))
  case dmaBusy => exact exec_dma.trans (runSeq_hold (run_pushDma_busy (by rw [tag_builtCmd]; exact busy) 0 true))
  case dmadBusy => exact exec_dmad.trans (runSeq_hold (run_pushDma_busy (by rw [tag_builtCmd]; exact busy) 0 true))
  case dmares => exact exec_dmares record state (run_pushDma passes _)
  case qpush => exact exec_qpush_dma record fresh (run_pushDma passes 0)

end Sys2Proof.Machine
end

section
/-!
PROOFS. Tag waits and queues (R95, R96, R119, R120, R352 to R354): the tags that a wait finds, and what each queue holds.
-/

namespace Sys2Proof.Machine

/-! ## Tags (R95, R96, R352, R353) -/

/-- The lowest bit of a word that is set is the number of zeros below it. -/
theorem ctzWord_eq {w : Word} {n : Nat} (bound : n < 64) (one : w.getLsbD n = true) (below : ∀ m, m < n → w.getLsbD m = false) :
    ctzWord w = n := by
  have found : (List.range 64).find? (fun i => w.getLsbD i) = some n := by
    rw [List.find?_range_eq_some]
    exact ⟨one, List.mem_range.mpr bound, fun m lower => by simp [below m lower]⟩
  unfold ctzWord
  rw [found]
  rfl

section
variable {s : State} {rs : Reg} {mask : Word}

theorem run_waitDone (sound : s.ctx.tagrdy &&& mask &&& s.ctx.tagerr = 0) : waitDone mask s = .ok () s := by
  unfold waitDone
  rw [run_bind_ok (run_getCtx s)]
  rw [if_neg (not_not.mpr sound)]
  rfl

theorem run_waitDone_error (failed : s.ctx.tagrdy &&& mask &&& s.ctx.tagerr ≠ 0) :
    waitDone mask s = .error (.trap cTagError (s.ctx.tagrdy &&& mask &&& s.ctx.tagerr) .next) s := by
  unfold waitDone
  rw [run_bind_ok (run_getCtx s)]
  rw [if_pos failed]
  rfl

theorem exec_waitany (ready : s.ctx.getX rs = 0 ∨ s.ctx.tagrdy &&& s.ctx.getX rs ≠ 0) :
    exec (.waitany rs) s = runSeq (.waitany rs) (waitDone (s.ctx.getX rs)) s := by
  refine runSeq_congr ?_
  rw [run_bind_ok (run_getX rs s), run_bind_ok (run_getCtx s)]
  refine run_unless ?_
  rintro ⟨named, unready⟩
  exact ready.elim named fun any => any unready

theorem exec_waitany_unmet (named : s.ctx.getX rs ≠ 0) (unready : s.ctx.tagrdy &&& s.ctx.getX rs = 0) : s.waits (.waitany rs) .retry s := by
  refine runSeq_hold ?_
  rw [run_bind_ok (run_getX rs s), run_bind_ok (run_getCtx s)]
  exact run_stops ⟨named, unready⟩ (run_holdFor .retry s)

theorem exec_waitall (ready : s.ctx.tagrdy &&& s.ctx.getX rs = s.ctx.getX rs) :
    exec (.waitall rs) s = runSeq (.waitall rs) (waitDone (s.ctx.getX rs)) s := by
  refine runSeq_congr ?_
  rw [run_bind_ok (run_getX rs s), run_bind_ok (run_getCtx s)]
  exact run_unless (not_not.mpr ready)

theorem exec_waitall_unmet (unready : s.ctx.tagrdy &&& s.ctx.getX rs ≠ s.ctx.getX rs) : s.waits (.waitall rs) .retry s := by
  refine runSeq_hold ?_
  rw [run_bind_ok (run_getX rs s), run_bind_ok (run_getCtx s)]
  exact run_stops unready (run_holdFor .retry s)

theorem exec_ffrdy (s : State) (rd : Reg) :
    s.computes (.ffrdy rd) rd (if s.ctx.tagrdy = 0 then 0xFFFF_FFFF_FFFF_FFFF else BitVec.ofNat 64 (ctzWord s.ctx.tagrdy)) := runSeq_ok rfl

end

/-! ## Result queues (R119, R120, R354) -/

/-- Changes of the context that come to the same come to the same state. -/
theorem State.modCtx_congr {s : State} {f g : Ctx → Ctx} (h : f s.ctx = g s.ctx) : s.modCtx f = s.modCtx g :=
  congrArg (fun c => s.modCore fun k => { k with ctx := c }) h

section
variable {s : State} {q : BitVec 3} {e : Word} {es : List Word} (rd : Reg)

theorem exec_qpop (queue : s.ctx.resultQueue q = some (e :: es)) :
    s.completes (.qpop rd q) .seq ((s.modCtx fun c => c.popQueue q).setX rd e) := by
  refine runSeq_ok ?_
  rw [run_bind_ok (run_getCtx s), queue]
  rfl

theorem exec_qtry (queue : s.ctx.resultQueue q = some (e :: es)) :
    s.completes (.qtry rd q) .seq ((s.modCtx fun c => c.popQueue q).setX rd e) := by
  refine runSeq_ok ?_
  rw [run_bind_ok (run_getCtx s), queue]
  rfl

theorem exec_qpop_empty (queue : s.ctx.resultQueue q = some []) : s.waits (.qpop rd q) .retry s := by
  refine runSeq_hold ?_
  rw [run_bind_ok (run_getCtx s), queue]
  rfl

theorem exec_qtry_empty (queue : s.ctx.resultQueue q = some []) : s.computes (.qtry rd q) rd 0xFFFF_FFFF_FFFF_FFFF := by
  refine runSeq_ok ?_
  rw [run_bind_ok (run_getCtx s), queue]
  rfl

theorem exec_qcnt_result (queue : s.ctx.resultQueue q = some es) : s.computes (.qcnt rd q) rd (BitVec.ofNat 64 es.length) := by
  have known : (q != 7) = true := by
    rw [bne_iff_ne]
    rintro rfl
    cases queue
  refine runSeq_ok ?_
  rw [run_bind_ok (run_get s), run_bind_ok ((run_needReg _ _ s).trans (if_pos known))]
  rw [queue]
  rfl

end

/-! ## Command queues (R119, R354) -/

theorem exec_qcnt_q0 (s : State) (rd : Reg) : s.computes (.qcnt rd 0) rd (BitVec.ofNat 64 s.core.q0Waiting) := runSeq_ok rfl

theorem exec_qcnt_q2 (s : State) (rd : Reg) :
    s.computes (.qcnt rd 2) rd (BitVec.ofNat 64 ((s.mtxHeld s.core.id).filter fun j => !j.started).length) := runSeq_ok rfl

theorem exec_qcnt_q4 (s : State) (rd : Reg) : s.computes (.qcnt rd 4) rd (BitVec.ofNat 64 (s.dev.q4Waiting s.core.id)) := runSeq_ok rfl

/-- The matrix commands of the core in focus: those of its q2, and those that its context has staged in each gang (R205). -/
theorem State.mtxHeld_self (s : State) : s.mtxHeld s.core.id = s.core.mtx ++ s.dev.gangs.flatMap fun g =>
    (g.staged.filter fun x => x.core == s.core.id && x.lnum == s.ctx.lnum && x.wuid == s.ctx.wuid).map fun x => x.job := by
  have self : s.coreById s.core.id = some s.core := if_pos rfl
  unfold State.mtxHeld State.stagedOf
  rw [self]
  dsimp only
  rw [List.map_flatten, List.map_map]
  rfl

/-! ## TagAndQueueResults -/

/-- Settles O39: by the tags that a wait finds ready, and by the queue that each number names. -/
theorem tagAndQueueResults : Obligations.TagAndQueueResults := by
  unfold Obligations.TagAndQueueResults
  intro s rd rs e es x bad popped empty
  refine ⟨fun ready sound => ?_, fun ⟨named, unready⟩ => exec_waitany_unmet named unready, fun ready sound => ?_, exec_waitall_unmet, ?errors,
    ?ffrdyNone, ?ffrdy, ?tagclr, ?pops, ?empties, exec_qcnt_q0 s rd, ?q2, exec_qcnt_q4 s rd⟩
  · exact (exec_waitany ready).trans (runSeq_ok (run_waitDone sound))
  · exact (exec_waitall ready).trans (runSeq_ok (run_waitDone sound))
  case errors =>
    intro failed pending
    have any : s.ctx.tagrdy &&& x ≠ 0 := fun unready => failed (by simp [bad, unready])
    exact ⟨(exec_waitany (.inr any)).trans (runSeq_trap (run_waitDone_error failed) pending),
      fun ready => (exec_waitall ready).trans (runSeq_trap (run_waitDone_error failed) pending)⟩
  case ffrdyNone =>
    intro unready
    have made := exec_ffrdy s rd
    rwa [if_pos unready] at made
  case ffrdy =>
    intro n bound ready below
    have any : s.ctx.tagrdy ≠ 0 := by
      intro unready
      simp [unready] at ready
    have made := exec_ffrdy s rd
    rwa [if_neg any, ctzWord_eq bound ready below] at made
  case tagclr => exact ⟨_, runSeq_ok rfl, rfl, rfl, rfl⟩
  case pops =>
    intro q t pops
    obtain ⟨queue, rfl⟩ : s.ctx.resultQueue q = some (e :: es) ∧ t = s.modCtx fun c => c.popQueue q := by
      rcases pops with ⟨rfl, held, rfl⟩ | ⟨rfl, held, rfl⟩ | ⟨rfl, held, rfl⟩ | ⟨rfl, held, rfl⟩
      all_goals exact ⟨congrArg some held, State.modCtx_congr (by simp [Ctx.popQueue, held])⟩
    have counted := exec_qcnt_result rd queue
    rw [List.length_cons] at counted
    exact ⟨exec_qpop rd queue, exec_qtry rd queue, counted⟩
  case empties =>
    intro q empties
    have queue : s.ctx.resultQueue q = some [] := by
      rcases empties with ⟨rfl, held⟩ | ⟨rfl, held⟩ | ⟨rfl, held⟩ | ⟨rfl, held⟩
      all_goals exact congrArg some held
    have counted := exec_qcnt_result rd queue
    rw [List.length_nil] at counted
    exact ⟨exec_qpop_empty rd queue, exec_qtry_empty rd queue, counted⟩
  case q2 =>
    have counted := exec_qcnt_q2 s rd
    rwa [State.mtxHeld_self] at counted

end Sys2Proof.Machine
end

section
/-!
PROOFS. The indirect copy (R124 to R136, R354, R355): how a command enters q4, what the eddy makes of its next row, and how a command ends.
-/

namespace Sys2Proof.Machine

/-! ## Pushes (R126, R135, R354, R355) -/

/-- A command whose checks pass enters q4. -/
theorem run_pushEddy {s t : State} {bytes : List Byte} {scatter resumed : Bool}
    (passes : s.eddyPasses (wordAt bytes 0) (wordAt bytes 1) (wordAt bytes 2) (wordAt bytes 3) scatter resumed t) (next : Nat) :
    pushEddy bytes scatter next resumed s =
      .ok () (t.queueEddy (wordAt bytes 0) (wordAt bytes 1) (wordAt bytes 2) (wordAt bytes 3) scatter next) := by
  obtain ⟨idle, free, checks, room⟩ := passes
  have admitted : ¬(s.dev.eddyBusy s.core.id (bits (wordAt bytes 3) 32 4) ||
      (!resumed && s.core.eddyTags.getLsbD (bits (wordAt bytes 3) 32 4))) = true := by
    rw [show s.dev.eddyBusy s.core.id (bits (wordAt bytes 3) 32 4) = false from idle, Bool.false_or]
    cases resumed with
    | true => simp
    | false => simpa [bits] using free rfl
  unfold pushEddy
  rw [run_bind_ok (run_get s)]
  refine (run_unless admitted).trans ?_
  refine (run_bind_ok checks).trans ?_
  refine (run_bind_ok (run_get t)).trans ?_
  exact run_unless (Nat.not_le.mpr room)

section
variable {s t u : State} {rs : Reg} {bytes : List Byte}

theorem exec_iceg (record : s.gives (readRecord (s.ctx.getX rs) 32) bytes u) (push : pushEddy bytes false 0 false u = .ok () t) :
    s.completes (.iceg rs) .seq t := by
  refine runSeq_ok ?_
  rw [run_bind_ok (run_getX rs s), run_bind_ok record, push]

theorem exec_ices (record : s.gives (readRecord (s.ctx.getX rs) 32) bytes u) (push : pushEddy bytes true 0 false u = .ok () t) :
    s.completes (.ices rs) .seq t := by
  refine runSeq_ok ?_
  rw [run_bind_ok (run_getX rs s), run_bind_ok record, push]

theorem exec_qpush_eddy (record : s.gives (readRecord (s.ctx.getX rs) 32) bytes u) (push : pushEddy bytes false 0 false u = .ok () t) :
    s.completes (.qpush 4 rs) .seq t := by
  refine runSeq_ok (run_guardCtx_ok ?_)
  refine (run_bind_ok ((run_needReg _ _ s).trans (if_pos rfl))).trans ?_
  rw [run_bind_ok (run_getX rs s)]
  exact (run_bind_ok record).trans push

/-- An eddy record's word at 0x20 holds its row, a sub-cause, its state and its direction, and no more (R134). -/
theorem rowWord_fields {w : Word} (state : w.toNat / 2 ^ 40 % 2 ^ 8 = 1 ∨ w.toNat / 2 ^ 40 % 2 ^ 8 = 2) (clear : w.toNat / 2 ^ 49 = 0) :
    ¬((bits w 40 8 ≠ 1 ∧ bits w 40 8 ≠ 2) ∨ bits w 49 15 ≠ 0) := by
  unfold bits
  omega

theorem exec_iceres (record : s.gives (readRecord (s.ctx.getX rs) 64) bytes u)
    (state : (wordAt bytes 4).toNat / 2 ^ 40 % 2 ^ 8 = 1 ∨ (wordAt bytes 4).toNat / 2 ^ 40 % 2 ^ 8 = 2) (clear : (wordAt bytes 4).toNat / 2 ^ 49 = 0)
    (push : pushEddy bytes ((wordAt bytes 4).getLsbD 48) ((wordAt bytes 4).toNat % 2 ^ 32) true u = .ok () t) :
    s.completes (.iceres rs) .seq t := by
  refine runSeq_ok ?_
  rw [run_bind_ok (run_getX rs s), run_bind_ok record]
  refine (run_unless (rowWord_fields state clear)).trans ?_
  rw [bits_zero]
  exact push

end

/-! ## A row (R125) -/

/-- The read of the index of a command's next row (R124, R125). -/
def EddyJob.readIndex (j : EddyJob) : Eng (List Byte) := engRead j.party (ptrAt j.idx (j.next * indexSize j.idx)) (indexSize j.idx)

/-- Where the packed copy of a command's next row lies (R125). -/
def EddyJob.packed (j : EddyJob) : Nat := clusterKey (clusterOfId j.core) (j.dstOff + j.next * j.rowLen)

/-- An index names the row at p: a 4-byte one is not negative, and the row does not leave BASE's space (R125). -/
def EddyJob.names (j : EddyJob) (v : Nat) (p : Word) : Prop :=
  ¬(indexSize j.idx = 4 ∧ 2 ^ 31 ≤ v) ∧ bits j.base 0 55 + v * j.rowLen < 2 ^ 55 ∧
    p = (j.base &&& 0xFF80000000000000#64) ||| BitVec.ofNat 64 (bits j.base 0 55 + v * j.rowLen)

/-- The move of a command's next row, which lies at p (R125). -/
def EddyJob.move (j : EddyJob) (p : Word) : Eng RowEnd := do
  if j.scatter then
    let bytes ← engPeek j.party j.packed j.rowLen
    namingRow p (engWrite j.party p bytes)
  else
    let bytes ← namingRow p (engRead j.party p j.rowLen)
    modify fun s => s.pokePieces [(j.packed, j.rowLen)] bytes
  return .moved

theorem run_rowPointer {j : EddyJob} {v : Nat} {p : Word} (named : j.names v p) (s : State) :
    rowPointer j.base v j.rowLen s = .ok p s := by
  obtain ⟨-, inside, rfl⟩ := named
  unfold rowPointer
  dsimp only
  rw [Nat.mod_eq_of_lt inside, if_neg (Nat.not_le.mpr inside)]
  rfl

section
variable {α : Type} {row : Word} {act : Eng α} {s t : State}

theorem run_namingRow_ok {a : α} (h : act s = .ok a t) : namingRow row act s = .ok a t := by
  unfold namingRow
  rw [h]

/-- An error is no fault, and names no row. -/
theorem run_namingRow_ecc (h : act s = .error .ecc t) : namingRow row act s = .error .ecc t := by
  unfold namingRow
  rw [h]

end

section
variable {s t u x : State} {j : EddyJob} {raw bytes : List Byte} {p : Word}

theorem eddyRow_index_ecc (spoilt : j.readIndex s = .error .ecc t) : eddyRow j s = .error .ecc t := by
  unfold eddyRow
  exact run_bind_error spoilt

theorem eddyRow_range (index : j.readIndex s = .ok raw t) (negative : indexSize j.idx = 4 ∧ 2 ^ 31 ≤ leNat raw) :
    eddyRow j s = .ok .range t := by
  unfold eddyRow
  refine (run_bind_ok index).trans ?_
  rw [if_pos negative]
  rfl

section
variable (index : j.readIndex s = .ok raw t) (named : j.names (leNat raw) p)
include index named

/-- A row whose index names it is moved. -/
theorem eddyRow_named : eddyRow j s = j.move p t := by
  unfold eddyRow
  refine (run_bind_ok index).trans ?_
  rw [if_neg named.1]
  exact run_bind_ok (run_rowPointer named t)

theorem eddyRow_gather (gather : j.scatter = false) (read : engRead j.party p j.rowLen t = .ok bytes u) :
    eddyRow j s = .ok .moved (u.pokePieces [(j.packed, j.rowLen)] bytes) := by
  rw [eddyRow_named index named, EddyJob.move, if_neg (by simp [gather])]
  exact run_bind_ok (run_namingRow_ok read)

theorem eddyRow_gather_ecc (gather : j.scatter = false) (spoilt : engRead j.party p j.rowLen t = .error .ecc u) :
    eddyRow j s = .error .ecc u := by
  rw [eddyRow_named index named, EddyJob.move, if_neg (by simp [gather])]
  exact run_bind_error (run_namingRow_ecc spoilt)

theorem eddyRow_scatter (scatter : j.scatter = true) (peek : engPeek j.party j.packed j.rowLen t = .ok bytes u)
    (write : engWrite j.party p bytes u = .ok () x) : eddyRow j s = .ok .moved x := by
  rw [eddyRow_named index named, EddyJob.move, if_pos scatter]
  exact (run_bind_ok peek).trans (run_bind_ok (run_namingRow_ok write))

theorem eddyRow_scatter_ecc (scatter : j.scatter = true) (spoilt : engPeek j.party j.packed j.rowLen t = .error .ecc u) :
    eddyRow j s = .error .ecc u := by
  rw [eddyRow_named index named, EddyJob.move, if_pos scatter]
  exact run_bind_error spoilt

end

end

/-! ## The eddy's turns (R125, R127 to R130, R133) -/

/-- The eddy may move the next row of the k-th command. -/
structure State.EddyReady (s : State) (k : Nat) (j : EddyJob) : Prop where
  found : s.dev.eddy[k]? = some j
  sound : j.failed = none
  left : j.next < j.count
  taken : s.dev.eddyMayRun j = true
  stays : s.leaving j.core = false

section
variable {s t : State} {k : Nat} {j : EddyJob}

/-- EDDY_GATHER and EDDY_SCATTER each make a step of a command of their direction. -/
theorem exec_eddyRow (scatter : Bool) :
    exec (if scatter then .eddyScatter k else .eddyGather k) s = .next (s.eddyStep k scatter) := by
  cases scatter <;> rfl

section
variable (ready : s.EddyReady k j)
include ready

/-- What a turn makes of its row. -/
theorem State.eddyStep_of_ready : s.eddyStep k j.scatter = match eddyRow j (s.startEddy j) with
    | .ok .moved t => t.modEddy j fun k => { k with next := k.next + 1 }
    | .ok .range t => t.modEddy j fun k => { k with failed := some 5 }
    | .error .wait _ => s
    | .error .ecc t => t.modEddy j fun k => { k with failed := some 4 }
    | .error (.fault n ptr) t => t.stopEddy j 2 n ptr := by
  unfold State.eddyStep
  rw [ready.found]
  exact if_pos ⟨rfl, ready.sound, ready.left, ready.taken, ready.stays⟩

theorem State.eddyStep_moved (row : eddyRow j (s.startEddy j) = .ok .moved t) :
    s.eddyStep k j.scatter = t.modEddy j fun q => { q with next := q.next + 1 } := by
  rw [State.eddyStep_of_ready ready, row]

theorem State.eddyStep_range (row : eddyRow j (s.startEddy j) = .ok .range t) :
    s.eddyStep k j.scatter = t.modEddy j fun q => { q with failed := some 5 } := by
  rw [State.eddyStep_of_ready ready, row]

theorem State.eddyStep_ecc (row : eddyRow j (s.startEddy j) = .error .ecc t) :
    s.eddyStep k j.scatter = t.modEddy j fun q => { q with failed := some 4 } := by
  rw [State.eddyStep_of_ready ready, row]

end

/-- What a command leaves as it ends: its tag is free, its element is on q5 and its event is pending (R128 to R130, R133). -/
def State.eddyEnds (s : State) (k : Nat) (j : EddyJob) (rows status : Nat) : State :=
  ((s.startEddy j).modDev fun d => { d with eddy := d.eddy.eraseIdx k }).modCoreId j.core fun c => { c with
    eddyTags := c.eddyTags &&& ~~~(1#16 <<< j.tag)
    ctx := { c.ctx with
      q5 := putElement 0xF c.ctx.q5 (eddyElement j rows status)
      evPend := c.ctx.evPend ||| (1#8 <<< j.event) } }

theorem exec_eddyComplete (found : s.dev.eddy[k]? = some j) (taken : s.dev.eddyMayRun j = true) (stays : s.leaving j.core = false)
    (finished : j.failed.isSome = true ∨ j.count ≤ j.next) :
    exec (.eddyComplete k) s = .next (s.eddyEnds k j (if j.failed.isSome then j.next else j.count) (j.failed.getD 0)) := by
  refine (show exec (.eddyComplete k) s = execEddyComplete k s from rfl).trans ?_
  unfold execEddyComplete
  rw [found]
  exact if_pos ⟨taken, finished, .inr stays⟩

end

/-! ## EddyResults -/

/-- Settles O41: by what a push comes to, by the ways a row can end, and by what the end of a command leaves. -/
theorem eddyResults : Obligations.EddyResults := by
  unfold Obligations.EddyResults
  intro s t u x rs bytes row k j p w packed size here s0 index moved
  have ready (h : here) : s.EddyReady k j := by
    obtain ⟨found, sound, left, taken, stays⟩ := h
    exact ⟨found, sound, left, taken, stays⟩
  have named (h : index) : j.readIndex (s.startEddy j) = .ok row t ∧ j.names (leNat row) p := by
    obtain ⟨read, positive, inside, place⟩ := h
    rw [← bits_zero] at inside place
    exact ⟨read, positive, inside, place⟩
  refine ⟨fun record => ⟨fun passes => ⟨?iceg, ?qpush⟩, fun passes => ?ices⟩, fun record ⟨state, clear⟩ passes => ?iceres,
    ?gather, ?scatter, ?fails, ?ends⟩
  case iceg => exact exec_iceg record (run_pushEddy passes 0)
  case qpush => exact exec_qpush_eddy record (run_pushEddy passes 0)
  case ices => exact exec_ices record (run_pushEddy passes 0)
  case iceres => exact exec_iceres record state clear (run_pushEddy passes _)
  case gather =>
    rintro ⟨h, i, gather, read⟩
    obtain ⟨read', name⟩ := named i
    have step := State.eddyStep_moved (ready h) (eddyRow_gather read' name gather read)
    rw [gather] at step
    exact congrArg Host.Outcome.next step
  case scatter =>
    rintro ⟨h, i, scatter, peek, write⟩
    obtain ⟨read', name⟩ := named i
    have step := State.eddyStep_moved (ready h) (eddyRow_scatter read' name scatter peek write)
    rw [scatter] at step
    exact congrArg Host.Outcome.next step
  case fails =>
    intro step fails h
    have made {y : State} (e : s.eddyStep k j.scatter = y) : exec step s = .next y :=
      (exec_eddyRow j.scatter).trans (congrArg Host.Outcome.next e)
    refine ⟨fun ⟨read, negative⟩ => ?_, fun spoilt => ?_, fun ⟨i, gather, spoilt⟩ => ?_, fun ⟨i, scatter, spoilt⟩ => ?_⟩
    · exact made (State.eddyStep_range (ready h) (eddyRow_range read negative))
    · exact made (State.eddyStep_ecc (ready h) (eddyRow_index_ecc spoilt))
    · obtain ⟨read', name⟩ := named i
      exact made (State.eddyStep_ecc (ready h) (eddyRow_gather_ecc read' name gather spoilt))
    · obtain ⟨read', name⟩ := named i
      exact made (State.eddyStep_ecc (ready h) (eddyRow_scatter_ecc read' name scatter spoilt))
  case ends =>
    rintro ⟨found, taken, stays⟩ gives
    refine ⟨fun ⟨sound, done⟩ => ?_, fun status failed => ?_⟩
    · have made := exec_eddyComplete found taken stays (.inr done)
      rw [sound] at made
      exact made
    · have made := exec_eddyComplete found taken stays (.inl (by rw [failed]; rfl))
      rw [failed] at made
      exact made

end Sys2Proof.Machine
end

section
/-!
PROOFS. What the loads of a stream leave of the active context (R25, R80, R84 to R86, R140, R162): all of it, but for what a monitor has seen.
-/

namespace Sys2Proof.Machine

/-! ## The active context, but for its monitor -/

/-- The active context, but for what its monitor has seen. -/
def State.unwoken (s : State) : Ctx := { s.ctx with monHit := false }

theorem State.unwoken_of_wokenFrom {s t : State} (h : t.core.wokenFrom s.core) : t.unwoken = s.unwoken := by
  unfold State.unwoken State.ctx
  rcases h with same | woken
  · rw [same]
  · rw [woken]

theorem State.unwoken_of_core {s t : State} (h : t.core = s.core) : t.unwoken = s.unwoken := State.unwoken_of_wokenFrom (.inl h)

theorem State.unwoken_modCoreId (s : State) (n : Nat) {f : Core → Core} (hf : ∀ c : Core, (f c).ctx = c.ctx) :
    (s.modCoreId n f).unwoken = s.unwoken := by
  unfold State.modCoreId
  split
  · exact congrArg (fun c : Ctx => { c with monHit := false }) (hf s.core)
  · rfl

theorem State.unwoken_foldl {α : Type} {f : State → α → State} (hf : ∀ s a, (f s a).unwoken = s.unwoken) :
    ∀ (l : List α) (s : State), (l.foldl f s).unwoken = s.unwoken
  | [], _ => rfl
  | a :: l, s => (State.unwoken_foldl hf l (f s a)).trans (hf s a)

theorem State.unwoken_poke (s : State) (key : Nat) (bs : List Byte) : (s.poke key bs).unwoken = s.unwoken :=
  State.unwoken_of_wokenFrom (s.poke_core key bs)

theorem State.unwoken_acknowledge (s : State) (n : Nat) : (s.acknowledge n).unwoken = s.unwoken := s.unwoken_modCoreId n fun _ => rfl

theorem State.unwoken_performOp (s : State) (key : Nat) (op : FlightOp) : (s.performOp key op).2.unwoken = s.unwoken := by
  unfold State.performOp
  split
  · exact State.unwoken_of_core (State.core_meetError _ _)
  · cases op with
    | cas c v =>
      dsimp only
      split
      · exact s.unwoken_poke _ _
      · rfl
    | store _ | amo _ _ | cinit _ | crcl _ => exact s.unwoken_poke _ _

theorem State.unwoken_lose (s : State) (parts : List (Nat × Nat)) (info : Word) : (s.lose parts info).unwoken = s.unwoken :=
  State.unwoken_foldl (fun s (p : Nat × Nat) => s.unwoken_modCoreId (f := fun c => c.lose p.2 info) p.1 fun _ => rfl) parts s

theorem State.unwoken_loseFlight (s : State) (f : Flight) (info : Word) : (s.loseFlight f info).unwoken = s.unwoken :=
  (State.unwoken_lose _ f.parts info).trans (State.unwoken_foldl State.unwoken_acknowledge _ _)

theorem State.unwoken_performFlight (s : State) (f : Flight) : (s.performFlight f).unwoken = s.unwoken := by
  unfold State.performFlight
  split
  · exact (State.unwoken_loseFlight _ f _).trans (State.unwoken_of_core (s.core_meetError _))
  · dsimp only
    split
    · exact (State.unwoken_foldl State.unwoken_acknowledge _ _).trans (s.unwoken_performOp f.home f.op)
    · exact s.unwoken_performOp f.home f.op

theorem State.unwoken_drainLines (s : State) (core key n before : Nat) : (s.drainLines core key n before).unwoken = s.unwoken :=
  State.unwoken_foldl State.unwoken_performFlight _ _

theorem State.unwoken_modCluster (s : State) (n : Nat) (f : Cluster → Cluster) : (s.modCluster n f).unwoken = s.unwoken := by
  unfold State.modCluster
  split <;> rfl

theorem State.unwoken_tlbFill (s : State) (w : Who) (e : TlbEntry) : (s.tlbFill w e).unwoken = s.unwoken := by
  unfold State.tlbFill
  split
  · rfl
  · dsimp only
    split
    · exact s.unwoken_modCoreId _ fun _ => rfl
    · exact (State.unwoken_modCluster _ _ _).trans (s.unwoken_modCoreId _ fun _ => rfl)

theorem State.unwoken_notePassed (s : State) (ps : List (Nat × Nat)) : (s.notePassed ps).unwoken = s.unwoken := by
  unfold State.notePassed
  dsimp only
  split <;> rfl

/-! ## Parts that keep it -/

/-- Where a part comes out, the active context is c as before, but for its monitor. -/
def KeepsCtx {ε α : Type} (c : Ctx) (m : EStateM ε State α) : Prop := ∀ ⦃s t : State⦄ ⦃a : α⦄, s.unwoken = c → m s = .ok a t → t.unwoken = c

section
variable {ε α β : Type} {c : Ctx}

theorem keepsCtx_pure (a : α) : KeepsCtx c (pure a : EStateM ε State α) := by
  intro s t b same h
  cases h
  exact same

/-- A part that never comes out. -/
theorem keepsCtx_throw (e : ε) : KeepsCtx c (throw e : EStateM ε State α) := fun _ _ _ _ h => nomatch h

theorem keepsCtx_bind {m : EStateM ε State α} {f : α → EStateM ε State β} (hm : KeepsCtx c m) (hf : ∀ a, KeepsCtx c (f a)) :
    KeepsCtx c (m >>= f) := by
  intro s t b same h
  rw [run_bind] at h
  cases e : m s with
  | ok a u =>
    rw [e] at h
    exact hf a (hm same e) h
  | error e' u =>
    rw [e] at h
    cases h

/-- A part that looks at the state. -/
theorem keepsCtx_seen {f : State → EStateM ε State α} (hf : ∀ s : State, s.unwoken = c → KeepsCtx c (f s)) : KeepsCtx c (get >>= f) :=
  fun s _ _ same h => hf s same same ((run_bind_ok (run_get s)).symm.trans h)

theorem keepsCtx_ite {b : Prop} [Decidable b] {x y : EStateM ε State α} (hx : KeepsCtx c x) (hy : KeepsCtx c y) : KeepsCtx c (if b then x else y) := by
  split
  · exact hx
  · exact hy

/-- A check before the rest of a part. -/
theorem keepsCtx_unless {b : Prop} [Decidable b] {stop : EStateM ε State PUnit} {rest : PUnit → EStateM ε State α} (hs : KeepsCtx c stop)
    (hr : ∀ a, KeepsCtx c (rest a)) : KeepsCtx c (if b then stop >>= rest else rest ⟨⟩) := keepsCtx_ite (keepsCtx_bind hs hr) (hr ⟨⟩)

theorem keepsCtx_modify {f : State → State} (hf : ∀ s, (f s).unwoken = s.unwoken) : KeepsCtx c (modify f : EStateM ε State PUnit) := by
  intro s t a same h
  cases h
  exact (hf s).trans same

theorem keepsCtx_set {x : State} (hx : x.unwoken = c) : KeepsCtx c (set x : EStateM ε State PUnit) := by
  intro s t a _ h
  cases h
  exact hx

theorem keepsCtx_meetError (key : Nat) : KeepsCtx c (modifyGet fun s => s.meetError key : EStateM ε State Word) := by
  intro s t a same h
  cases h
  exact (State.unwoken_of_core (s.core_meetError key)).trans same

theorem keepsCtx_mapM {f : α → EStateM ε State β} (hf : ∀ a, KeepsCtx c (f a)) : ∀ l : List α, KeepsCtx c (l.mapM f)
  | [] => by rw [List.mapM_nil]; exact keepsCtx_pure _
  | a :: l => by
    rw [List.mapM_cons]
    exact keepsCtx_bind (hf a) fun _ => keepsCtx_bind (keepsCtx_mapM hf l) fun _ => keepsCtx_pure _

theorem keepsCtx_liftChk {m : Chk α} (hm : KeepsCtx c m) : KeepsCtx c (liftChk m) := by
  intro s t a same h
  rw [run_liftChk] at h
  cases e : m s with
  | ok b u =>
    rw [e] at h
    cases h
    exact hm same e
  | error f u =>
    rw [e] at h
    cases h

/-! ## Checks (R25, R84 to R86) -/

theorem keepsCtx_walkerUpdate (ea : Nat) (e : Word) (stores : Bool) : KeepsCtx c (walkerUpdate ea e stores) :=
  keepsCtx_unless (keepsCtx_modify fun s => s.unwoken_poke _ _) fun _ => keepsCtx_pure _

theorem keepsCtx_walkerRead (fetch : Bool) (ea : Nat) : KeepsCtx c (walkerRead fetch ea) := by
  unfold walkerRead
  refine keepsCtx_seen fun s _ => ?_
  split
  · exact keepsCtx_bind (keepsCtx_meetError _) fun _ => keepsCtx_throw _
  · exact keepsCtx_seen fun _ _ => keepsCtx_pure _

theorem keepsCtx_walkLeaf (acc : Acc) (asid : BitVec 16) (tag va level table ea : Nat) (e : Word) :
    KeepsCtx c (walkLeaf acc asid tag va level table ea e) := by
  have update : KeepsCtx c (do
      let new ← walkerUpdate ea e acc.stores
      return { asid := asid, global := bit e 5, base := va / leafSize level (bit e 9) * leafSize level (bit e 9), size := leafSize level (bit e 9)
               pa := bits e 12 40 * 4096, perm := (new >>> 1).setWidth 7 } : Chk TlbEntry) :=
    keepsCtx_bind (keepsCtx_walkerUpdate _ _ _) fun _ => keepsCtx_pure _
  unfold walkLeaf
  exact keepsCtx_unless (keepsCtx_throw _) fun _ => keepsCtx_unless (keepsCtx_throw _) fun _ =>
    keepsCtx_ite (keepsCtx_bind (keepsCtx_mapM (fun _ => keepsCtx_walkerRead _ _) _) fun _ => keepsCtx_unless (keepsCtx_throw _) fun _ => update) update

/-- A walk keeps the context if what it does at the table below does. -/
theorem keepsCtx_walkFrom_of_down {acc : Acc} {asid : BitVec 16} {tag va level : Nat}
    (down : ∀ kept ea e, KeepsCtx c (walkDown acc asid tag va kept ea e level)) (table : Nat) : KeepsCtx c (walkFrom acc asid tag va level table) := by
  have entry (kept : Bool) (e : Word) : KeepsCtx c (walkEntry acc asid tag va level table kept e) := by
    unfold walkEntry
    exact keepsCtx_unless (keepsCtx_throw _) fun _ => keepsCtx_unless (keepsCtx_throw _) fun _ =>
      keepsCtx_ite (keepsCtx_walkLeaf _ _ _ _ _ _ _ _) (keepsCtx_unless (keepsCtx_throw _) fun _ => down _ _ _)
  intro s t found same h
  rw [walkFrom_eq] at h
  split at h
  · exact entry _ _ same h
  · exact keepsCtx_bind (keepsCtx_walkerRead _ _) (entry false) same h

theorem keepsCtx_walkFrom (acc : Acc) (asid : BitVec 16) (tag va : Nat) : ∀ level table, KeepsCtx c (walkFrom acc asid tag va level table)
  | 0 => keepsCtx_walkFrom_of_down fun _ _ _ => keepsCtx_throw _
  | n + 1 => keepsCtx_walkFrom_of_down fun _ _ _ => keepsCtx_bind (keepsCtx_modify fun _ => rfl) fun _ => keepsCtx_walkFrom acc asid tag va n _

theorem keepsCtx_pageWalk (w : Who) (acc : Acc) (tag va : Nat) : KeepsCtx c (pageWalk w acc tag va) := by
  unfold pageWalk
  exact keepsCtx_unless (keepsCtx_throw _) fun _ => keepsCtx_bind (keepsCtx_walkFrom _ _ _ _ _ _) fun e =>
    keepsCtx_bind (keepsCtx_modify fun s => s.unwoken_tlbFill w e) fun _ => keepsCtx_pure _

theorem keepsCtx_translate (w : Who) (acc : Acc) (p : Word) : KeepsCtx c (translate w acc p) := by
  have permitted (e : TlbEntry) : KeepsCtx c (permitted w acc p e) := keepsCtx_unless (keepsCtx_throw _) fun _ => keepsCtx_pure _
  intro s t found same h
  by_cases fixed : w.mgmt = true ∧ w.kptb = 0
  · unfold translate at h
    rw [if_pos fixed] at h
    cases place : fixedMap w.level acc (bits p 0 48) with
    | none =>
      rw [place] at h
      cases h
    | some k =>
      rw [place] at h
      cases h
      exact same
  · cases hit : s.tlbFind w (p.toNat % 2 ^ 48) acc.stores with
    | some e =>
      rw [run_translate_hit fixed hit] at h
      exact permitted e same h
    | none =>
      rw [run_translate_miss fixed hit] at h
      exact keepsCtx_bind (keepsCtx_pageWalk _ _ _ _) permitted same h

theorem keepsCtx_translatePieces (w : Who) (acc : Acc) (p : Word) (ps : List (Nat × Nat)) : KeepsCtx c (translatePieces w acc p ps) := by
  unfold translatePieces
  refine keepsCtx_mapM (fun q => keepsCtx_seen fun s same => ?_) ps
  split
  · next k t found =>
    exact keepsCtx_bind (keepsCtx_set (keepsCtx_translate w acc _ same (run_of_runChk_ok found))) fun _ => keepsCtx_pure _
  · intro s' t a _ h
    cases h

theorem keepsCtx_resolveSpan (w : Who) (acc : Acc) (p : Word) (n a : Nat) : KeepsCtx c (resolveSpan w acc p n a) := by
  unfold resolveSpan
  refine keepsCtx_unless (keepsCtx_throw _) fun _ => keepsCtx_unless (keepsCtx_throw _) fun _ => keepsCtx_ite (keepsCtx_seen fun s _ => ?_)
    (keepsCtx_unless (keepsCtx_throw _) fun _ => keepsCtx_bind (keepsCtx_translatePieces _ _ _ _) fun _ => keepsCtx_mapM (fun q => ?_) _)
  · split
    · exact keepsCtx_throw _
    · exact keepsCtx_pure _
  · obtain ⟨pa | k, len⟩ := q
    · refine keepsCtx_seen fun s _ => ?_
      split
      · exact keepsCtx_throw _
      · exact keepsCtx_seen fun s _ => keepsCtx_ite (keepsCtx_throw _) (keepsCtx_pure _)
    · exact keepsCtx_pure _

theorem keepsCtx_checkFormat (p : Word) : KeepsCtx c (checkFormat p) := keepsCtx_ite (keepsCtx_throw _) (keepsCtx_pure _)

/-- Checks that see the ports of another moment change no context for that. -/
theorem keepsCtx_asLeft {m : Chk (List (Nat × Nat))} (hm : KeepsCtx c m) : KeepsCtx c (asLeft m) := by
  intro s t ps same h
  unfold asLeft at h
  split at h
  · next passed =>
    cases h
    exact (State.unwoken_notePassed _ _).trans (hm same passed)
  · split at h
    · next passed =>
      split at h
      · cases h
        have kept := hm (s := s.modDev fun d => { d with portDown := 0 }) same passed
        exact kept
      · cases h
    · cases h

theorem keepsCtx_spanKeys (acc : Acc) (p : Word) (n a : Nat) : KeepsCtx c (spanKeys acc p n a) :=
  have checks (w : Who) : KeepsCtx c (do checkFormat p; resolveSpan w acc p n a : Chk (List (Nat × Nat))) :=
    keepsCtx_bind (keepsCtx_checkFormat p) fun _ => keepsCtx_resolveSpan _ _ _ _ _
  keepsCtx_seen fun s _ => keepsCtx_liftChk (keepsCtx_ite (checks s.who) (keepsCtx_asLeft (checks s.who)))

/-! ## Loads (R26, R80, R140, R162) -/

theorem keepsCtx_homeRead (key n : Nat) : KeepsCtx c (homeRead key n) := by
  unfold homeRead
  refine keepsCtx_seen fun s _ => keepsCtx_unless (keepsCtx_throw _) fun _ =>
    keepsCtx_bind (keepsCtx_modify fun s => s.unwoken_drainLines _ _ _ _) fun _ => keepsCtx_seen fun s _ => ?_
  split
  · exact keepsCtx_bind (keepsCtx_meetError _) fun _ => keepsCtx_throw _
  · exact keepsCtx_seen fun _ _ => keepsCtx_pure _

theorem keepsCtx_farRead (key n : Nat) : KeepsCtx c (farRead key n) := by
  unfold farRead
  refine keepsCtx_seen fun s _ => ?_
  split
  · split
    · exact keepsCtx_throw _
    · exact keepsCtx_pure _
  · exact keepsCtx_bind (keepsCtx_modify fun _ => rfl) fun _ => keepsCtx_throw _

theorem keepsCtx_coreRead (key n : Nat) : KeepsCtx c (coreRead key n) :=
  keepsCtx_ite (keepsCtx_bind (keepsCtx_mapM (fun (q : Nat × Nat) => keepsCtx_farRead q.1 q.2) _) fun _ => keepsCtx_pure _) (keepsCtx_homeRead key n)

theorem keepsCtx_loadBytes (p : Word) (n a : Nat) : KeepsCtx c (loadBytes p n a) :=
  keepsCtx_bind (keepsCtx_spanKeys _ _ _ _) fun ps =>
    keepsCtx_bind (keepsCtx_mapM (fun (q : Nat × Nat) => keepsCtx_coreRead q.1 q.2) ps) fun _ => keepsCtx_pure _

theorem keepsCtx_streamRead (sd : BitVec 2) (p : Word) (n a : Nat) : KeepsCtx c (streamRead sd p n a) := by
  unfold streamRead
  refine keepsCtx_bind (keepsCtx_seen fun _ _ => keepsCtx_pure _) fun x => ?_
  split
  · exact keepsCtx_pure _
  · exact keepsCtx_loadBytes _ _ _

/-! ## Entries of a line fibre (R45, R139, R140) -/

theorem keepsCtx_lineEntries (sd : BitVec 2) (d : StreamDesc) (m : Nat) : KeepsCtx c (lineEntries sd d m) := by
  unfold lineEntries
  refine keepsCtx_bind (keepsCtx_streamRead _ _ _ _) fun bytes => ?_
  split
  · exact keepsCtx_throw _
  · exact keepsCtx_pure _

theorem keepsCtx_lineSkip (sd : BitVec 2) (d : StreamDesc) : ∀ left m skip, KeepsCtx c (lineSkip sd d left m skip)
  | 0, _, _ => keepsCtx_pure _
  | left + 1, m, _ => keepsCtx_ite (keepsCtx_pure _) (keepsCtx_bind (keepsCtx_lineEntries sd d m) fun _ =>
      keepsCtx_ite (keepsCtx_lineSkip sd d left _ _) (keepsCtx_pure _))

theorem keepsCtx_lineFrom (sd : BitVec 2) (d : StreamDesc) : ∀ left m skip want, KeepsCtx c (lineFrom sd d left m skip want)
  | 0, _, _, _ => keepsCtx_pure _
  | left + 1, m, _, _ => keepsCtx_ite (keepsCtx_pure _) (keepsCtx_bind (keepsCtx_lineEntries sd d m) fun _ =>
      keepsCtx_ite (keepsCtx_pure _) (keepsCtx_bind (keepsCtx_lineFrom sd d left _ _ _) fun _ => keepsCtx_pure _))

/-- A stream that has come to a line goes on there. -/
theorem lineNext_at {sd : BitVec 2} {d : StreamDesc} {m k : Nat} (here : d.lineAt = some (m, k)) (want : Nat) :
    lineNext sd d want = lineFrom sd d (d.limit.toNat - m) m k want := by
  unfold lineNext
  rw [here]
  rfl

/-- A stream that does not know its line looks for it from the first line on. -/
theorem lineNext_lost {sd : BitVec 2} {d : StreamDesc} (lost : d.lineAt = none) (want : Nat) :
    lineNext sd d want = lineSkip sd d d.limit.toNat 0 d.pos.toNat >>= fun p => lineFrom sd d (d.limit.toNat - p.1) p.1 p.2 want := by
  unfold lineNext
  rw [lost]

theorem keepsCtx_lineNext (sd : BitVec 2) (d : StreamDesc) (want : Nat) : KeepsCtx c (lineNext sd d want) := by
  cases here : d.lineAt with
  | some p =>
    rw [lineNext_at here]
    exact keepsCtx_lineFrom _ _ _ _ _ _
  | none =>
    rw [lineNext_lost here]
    exact keepsCtx_bind (keepsCtx_lineSkip _ _ _ _ _) fun _ => keepsCtx_lineFrom _ _ _ _ _ _

end

/-- The pc that a stream instruction sees after its loads is its own. -/
theorem pc_of_lineNext {s t : State} {sd : BitVec 2} {d : StreamDesc} {want : Nat} {r : List FibreEntry × (Nat × Nat)}
    (h : lineNext sd d want s = .ok r t) : t.ctx.pc = s.ctx.pc := by
  have kept := congrArg Ctx.pc (keepsCtx_lineNext sd d want rfl h)
  exact kept

end Sys2Proof.Machine
end

section
/-!
PROOFS. Streams (R139, R140, R374): which descriptor an instruction names, and what reading, moving on and closing a stream does.
-/

namespace Sys2Proof.Machine

/-! ## Descriptors (R373, R374) -/

theorem StreamDesc.opened_iff (d : StreamDesc) (sd : BitVec 2) :
    d.opened sd = true ↔ d.bound = true ∧ ¬(sd.toNat % 2 = 1 ∧ d.kind.isFibre = true) := by
  unfold StreamDesc.opened
  rw [Bool.and_eq_true, Bool.not_eq_true', ← Bool.not_eq_true, Bool.and_eq_true, beq_iff_eq]

section
variable {s t u : State} {sd : BitVec 2}

/-- An instruction that names a descriptor which is bound for itself gets it. -/
theorem run_namedStream (named : (s.ctx.getSd sd).opened sd = true) (i : Instr) : namedStream i sd s = .ok (s.ctx.getSd sd) s := by
  unfold namedStream
  refine (run_bind_ok (run_getCtx s)).trans ?_
  refine (run_bind_ok ((run_needReg _ _ s).trans (if_pos named))).trans ?_
  rfl

theorem run_closeOwn_unnamed {d : StreamDesc} (unnamed : ¬d.opened sd = true) : closeOwn sd d s = .ok () s := by
  unfold closeOwn
  rw [if_neg unnamed]
  rfl

theorem closeOwn_named {d : StreamDesc} (named : d.opened sd = true) : closeOwn sd d = closeStream sd := if_pos named

/-- A core with no append in flight has none to perform (R140). -/
theorem run_performAppends (idle : ∀ f ∈ s.dev.flights, f.append = false) : performAppends s = .ok () s := by
  have unsent : s.dev.flights.filter (fun f => f.core == s.core.id && f.append && !f.done) = [] :=
    List.filter_eq_nil_iff.mpr fun f mem => by simp [idle f mem]
  unfold performAppends
  refine (run_bind_ok (run_get s)).trans ?_
  rw [unsent]
  rfl

theorem exec_sclose : exec (.sclose sd) s = runSeq (.sclose sd) (closeOwn sd (s.ctx.getSd sd)) s := runSeq_congr rfl

theorem exec_spos (named : (s.ctx.getSd sd).opened sd = true) (xd : Reg) : s.computes (.spos xd sd) xd (s.ctx.getSd sd).pos := by
  refine runSeq_ok ?_
  rw [run_bind_ok (run_namedStream named _)]
  rfl

end

/-! ## Reads of a stream (R140) -/

section
variable {s t : State} {sd : BitVec 2} {p : Word} {n a : Nat} {bytes : List Byte}

theorem run_streamRead_held {x : Piece} (held : (s.ctx.pieces.find? fun x => x.stream == sd && x.ptr == p && x.bytes.length == n) = some x) :
    streamRead sd p n a s = .ok x.bytes s := by
  unfold streamRead
  refine (run_bind_ok (run_getCtx s)).trans ?_
  rw [held]
  rfl

theorem run_streamRead_load (unheld : (s.ctx.pieces.find? fun x => x.stream == sd && x.ptr == p && x.bytes.length == n) = none)
    (load : loadBytes p n a s = .ok bytes t) : streamRead sd p n a s = .ok bytes t := by
  unfold streamRead
  refine (run_bind_ok (run_getCtx s)).trans ?_
  rw [unheld]
  exact load

end

/-! ## Line fibres (R45, R139, R140) -/

section
variable {s t u : State} {sd : BitVec 2} {d : StreamDesc} {es more : List FibreEntry} {at1 : Nat × Nat} {left m : Nat}

section
variable {k : Nat} (any : 0 < k) (line : lineEntries sd d m s = .ok es t)
include any line

theorem run_lineSkip_within (within : k < es.length) : lineSkip sd d (left + 1) m k s = .ok (m, k) t := by
  unfold lineSkip
  rw [if_neg any.ne']
  refine (run_bind_ok line).trans ?_
  rw [if_neg (Nat.not_le.mpr within)]
  rfl

theorem run_lineSkip_past (past : es.length ≤ k) : lineSkip sd d (left + 1) m k s = lineSkip sd d left (m + 1) (k - es.length) t := by
  conv_lhs => unfold lineSkip
  rw [if_neg any.ne']
  refine (run_bind_ok line).trans ?_
  rw [if_pos past]

end

section
variable {k want : Nat} (any : 0 < want) (line : lineEntries sd d m s = .ok es t)
include any line

/-- A line that holds more than is wanted. -/
theorem run_lineFrom_within (within : k + want < es.length) :
    lineFrom sd d (left + 1) m k want s = .ok ((es.drop k).take want, (m, k + want)) t := by
  have got : ((es.drop k).take want).length = want := by
    rw [List.length_take, List.length_drop]
    omega
  unfold lineFrom
  rw [if_neg any.ne']
  refine (run_bind_ok line).trans ?_
  rw [got, if_pos within]
  rfl

/-- A line that holds no more than is wanted: the rest come from the next ones. -/
theorem run_lineFrom_past (past : es.length ≤ k + want)
    (rest : lineFrom sd d left (m + 1) 0 (want - (es.length - k)) t = .ok (more, at1) u) :
    lineFrom sd d (left + 1) m k want s = .ok (es.drop k ++ more, at1) u := by
  have got : (es.drop k).take want = es.drop k := List.take_of_length_le (by rw [List.length_drop]; omega)
  have all : ¬k + (es.drop k).length < es.length := by
    rw [List.length_drop]
    omega
  unfold lineFrom
  rw [if_neg any.ne']
  refine (run_bind_ok line).trans ?_
  rw [got, if_neg all, List.length_drop]
  exact run_bind_ok rest

end

end

/-! ## Moving on (R140, R374) -/

/-- A stream stands at a position, and at a place within its lines if it is a line fibre's; of its pieces it keeps those from one on (R140). -/
def State.streamAt (s : State) (sd : BitVec 2) (d : StreamDesc) (first pos : Nat) (lineAt : Option (Nat × Nat)) : State := s.modCtx fun c =>
  ({ c with pieces := c.pieces.filter fun x => x.stream != sd || decide (first ≤ x.index) } : Ctx).setSd sd
    { d with pos := BitVec.ofNat 64 pos, lineAt := lineAt }

/-- A stream that has popped a line in part keeps it as it was read (R140). -/
def State.keepLine (s : State) (sd : BitVec 2) (d : StreamDesc) (m : Nat) (bytes : List Byte) : State := s.modCtx fun c =>
  if c.pieces.any fun x => x.stream == sd && x.ptr == ptrAt d.val (128 * m) then c
  else { c with pieces := { stream := sd, index := m, ptr := ptrAt d.val (128 * m), bytes := bytes } :: c.pieces }

section
variable {s t u : State} {sd : BitVec 2} {d : StreamDesc} {es : List FibreEntry} {m k pos : Nat} {bytes : List Byte}

theorem run_moveTo (plain : d.kind ≠ .line) (pos : Nat) : moveTo sd d pos s = .ok () (s.streamAt sd d pos pos none) := by
  obtain ⟨val, coord, passed, limit, kind, bound, lineAt⟩ := d
  cases kind with
  | line => exact absurd rfl plain
  | denseRead | denseWrite | list => rfl

section
variable (line : d.kind = .line) (next : lineNext sd d (pos - d.pos.toNat) s = .ok (es, (m, k)) t)
include line next

theorem run_moveTo_whole (whole : k = 0) : moveTo sd d pos s = .ok () (t.streamAt sd d m pos (some (m, 0))) := by
  subst whole
  obtain ⟨val, coord, passed, limit, kind, bound, lineAt⟩ := d
  subst line
  exact run_bind_ok next

theorem run_moveTo_part (part : k ≠ 0) (read : streamRead sd (ptrAt d.val (128 * m)) 128 128 t = .ok bytes u) :
    moveTo sd d pos s = .ok () ((u.keepLine sd d m bytes).streamAt sd d m pos (some (m, k))) := by
  obtain ⟨val, coord, passed, limit, kind, bound, lineAt⟩ := d
  subst line
  refine (run_bind_ok next).trans ?_
  exact (congrFun (if_pos part) t).trans (run_bind_ok read)

end

theorem run_advanced (plain : d.kind ≠ .line) (n : Nat) :
    advanced sd d n s = .ok (max d.pos.toNat (min (d.pos.toNat + n) d.limit.toNat)) s := by
  unfold advanced
  cases kind : d.kind with
  | line => exact absurd kind plain
  | denseRead | denseWrite | list => rfl

theorem run_advanced_line (line : d.kind = .line) {n : Nat} {r : List FibreEntry × (Nat × Nat)} (next : lineNext sd d n s = .ok r t) :
    advanced sd d n s = .ok (d.pos.toNat + r.1.length) t := by
  unfold advanced
  rw [line]
  exact run_bind_ok next

theorem run_streamEnd (plain : d.kind ≠ .line) : streamEnd sd d s = .ok (decide (d.limit.toNat ≤ d.pos.toNat)) s := by
  unfold streamEnd
  cases kind : d.kind with
  | line => exact absurd kind plain
  | denseRead | denseWrite | list => rfl

theorem run_streamEnd_line (line : d.kind = .line) {r : List FibreEntry × (Nat × Nat)} (next : lineNext sd d 1 s = .ok r t) :
    streamEnd sd d s = .ok r.1.isEmpty t := by
  unfold streamEnd
  rw [line]
  exact run_bind_ok next

end

section
variable {s t u : State} {sd : BitVec 2} (named : (s.ctx.getSd sd).opened sd = true)
include named

theorem exec_sadv {xn : Reg} {pos : Nat} (reach : advanced sd (s.ctx.getSd sd) (s.ctx.getX xn).toNat s = .ok pos t)
    (move : moveTo sd (s.ctx.getSd sd) pos t = .ok () u) : s.completes (.sadv sd xn) .seq u := by
  refine runSeq_ok ?_
  rw [run_bind_ok (run_namedStream named _), run_bind_ok (run_getX xn s), run_bind_ok reach]
  exact move

theorem exec_stend {off : BitVec 13} {ended : Bool} (finished : streamEnd sd (s.ctx.getSd sd) s = .ok ended t) :
    s.completes (.stend sd off) (if ended then .jump (t.ctx.pc + 4 * off.signExtend 64) else .seq) t := by
  refine runFlow_ok ?_
  rw [run_bind_ok (run_namedStream named _), run_bind_ok finished]
  cases ended <;> rfl

end

/-- A jump's target: the pc and four times the offset, as signed numbers. -/
theorem jumpTarget_eq (pc : Word) (off : BitVec 13) : pc + 4 * off.signExtend 64 = BitVec.ofInt 64 (pc.toInt + 4 * off.toInt) := by
  rw [BitVec.ofInt_add, BitVec.ofInt_mul, BitVec.ofInt_toInt]
  rfl

end Sys2Proof.Machine
end

section
/-!
PROOFS. SOPEN, the pops of streams, SMERGE and STREAM_PREFETCH (R138 to R141, R373 to R376).
-/

namespace Sys2Proof.Machine

/-! ## SOPEN (R138, R373) -/

/-- A body that fails before it has changed anything leaves its core as it was. -/
theorem run_guardCtx_error {α : Type} {body : Act α} {s : State} {e : Stop} (h : body s = .error e s) : guardCtx body s = .error e s := by
  unfold guardCtx
  rw [h]
  rfl

theorem infoWord_eq (i : Instr) : infoWord i = BitVec.ofNat 64 (wordOf i).toNat := (BitVec.ofNat_toNat 64 (wordOf i)).symm

section
variable {s t u v : State} {sd : BitVec 2} {xv xl xc : Reg} {kind : StreamKind}

/-- The coordinates' pointer of the stream that SOPEN opens: a list's alone has one. -/
def State.sopenCoord (s : State) (kind : StreamKind) (xc : Reg) : Word := if kind = .list then s.ctx.getX xc else 0

/-- The descriptor that SOPEN opens (R373). -/
def State.sopenDesc (s : State) (xv xl : Reg) (kind : StreamKind) (xc : Reg) : StreamDesc :=
  { val := s.ctx.getX xv, coord := s.sopenCoord kind xc, pos := 0, limit := s.ctx.getX xl, kind := kind, bound := true }

/-- The registers of a stream lie below VREGS, and a fibre's two descriptors are an even one and the next, which is free (R138, R373). -/
def State.sopenFits (s : State) (sd : BitVec 2) (kind : StreamKind) : Prop :=
  28 + sd.toNat + (if kind.isFibre then 1 else 0) < s.ctx.vregs ∧
    (kind.isFibre = true → sd.toNat % 2 = 0 ∧ (s.ctx.getSd (sd + 1)).bound = false)

/-- The check of a fibre's two descriptors (R138, R373). -/
theorem sopenFree_iff : (!kind.isFibre || (sd.toNat % 2 == 0 && !(s.ctx.getSd (sd + 1)).bound)) = true ↔
    (kind.isFibre = true → sd.toNat % 2 = 0 ∧ (s.ctx.getSd (sd + 1)).bound = false) := by
  rw [Bool.or_eq_true, Bool.and_eq_true, Bool.not_eq_true', Bool.not_eq_true', beq_iff_eq, ← Bool.not_eq_true]
  exact imp_iff_not_or.symm

/-- What SOPEN leaves once its descriptor is closed. -/
def State.sopened (s : State) (sd : BitVec 2) (d : StreamDesc) : State := s.modCtx fun c =>
  let c := (c.dropPieces sd).setSd sd d
  if d.kind.isFibre then c.setSd (sd + 1) { StreamDesc.zero with kind := d.kind, bound := true } else c

theorem exec_sopen {ks : List (Nat × Nat)} (fits : s.sopenFits sd kind) (format : kindAccepts kind (fmtOf (s.ctx.getX xv)) = true)
    (words : kind = .list → fmtOf (s.sopenCoord kind xc) = 3 ∧ (s.sopenCoord kind xc).toNat % 4 = 0)
    (data : s.gives (spanKeys (if kind = .denseWrite then .store else .load) (s.ctx.getX xv) 1 1) ks t)
    (coords : if kind = .list then ∃ k, t.gives (spanKeys .load (s.sopenCoord kind xc) 1 1) k u else u = t)
    (aligned : alignedTo (s.ctx.getX xv) (kindAlign kind (s.sopenDesc xv xl kind xc)) = true)
    (closes : closeOwn sd (s.ctx.getSd sd) u = .ok () v) :
    s.completes (.sopen sd xv xl kind xc) .seq (v.sopened sd (s.sopenDesc xv xl kind xc)) := by
  obtain ⟨below, second⟩ := fits
  have coordWords : ¬(kind = .list ∧ fmtOf (s.sopenCoord kind xc) ≠ 3) := fun ⟨list, other⟩ => other (words list).1
  have even : ¬(!alignedTo (s.ctx.getX xv) (kindAlign kind (s.sopenDesc xv xl kind xc))) = true := by
    rw [aligned]
    decide
  have coordAligned : ¬(kind = .list ∧ (!alignedTo (s.sopenCoord kind xc) 4) = true) := fun ⟨list, odd⟩ => by
    rw [(alignedTo_iff (by decide)).mpr (words list).2] at odd
    cases odd
  refine runSeq_ok (run_guardCtx_ok ?_)
  refine (run_bind_ok (run_getCtx s)).trans ?_
  refine (run_bind_ok ((run_needReg _ _ s).trans (if_pos (decide_eq_true below)))).trans ?_
  refine (run_bind_ok ((run_needReg _ _ s).trans (if_pos (sopenFree_iff.mpr second)))).trans ?_
  refine (run_unless (by rw [format]; decide)).trans ?_
  refine (run_unless coordWords).trans ?_
  refine (run_bind_ok data).trans ?_
  refine (run_when coords).trans ?_
  refine (run_unless even).trans ?_
  refine (run_unless coordAligned).trans ?_
  exact run_bind_ok closes

theorem exec_sopen_unfit (unfit : ¬s.sopenFits sd kind) (idle : s.resultsPending = false) :
    s.traps (.sopen sd xv xl kind xc) 2 (BitVec.ofNat 64 (wordOf (.sopen sd xv xl kind xc)).toNat) s.ctx.pc s := by
  rw [← infoWord_eq]
  refine runSeq_trap (r := .here) (run_guardCtx_error ?_) idle
  refine (run_bind_ok (run_getCtx s)).trans ?_
  by_cases below : 28 + sd.toNat + (if kind.isFibre then 1 else 0) < s.ctx.vregs
  · refine (run_bind_ok ((run_needReg _ _ s).trans (if_pos (decide_eq_true below)))).trans ?_
    exact run_bind_error ((run_needReg _ _ s).trans (if_neg fun free => unfit ⟨below, sopenFree_iff.mp free⟩))
  · exact run_bind_error ((run_needReg _ _ s).trans (if_neg fun fits => below (of_decide_eq_true fits)))

theorem exec_sopen_format (fits : s.sopenFits sd kind) (other : kindAccepts kind (fmtOf (s.ctx.getX xv)) = false) (idle : s.resultsPending = false) :
    s.traps (.sopen sd xv xl kind xc) 23 (s.ctx.getX xv) s.ctx.pc s := by
  obtain ⟨below, second⟩ := fits
  refine runSeq_trap (r := .here) (run_guardCtx_error ?_) idle
  refine (run_bind_ok (run_getCtx s)).trans ?_
  refine (run_bind_ok ((run_needReg _ _ s).trans (if_pos (decide_eq_true below)))).trans ?_
  refine (run_bind_ok ((run_needReg _ _ s).trans (if_pos (sopenFree_iff.mpr second)))).trans ?_
  exact run_stops (by rw [other]; rfl) (run_trap _ _ s)

end

/-! ## Pops (R139, R140) -/

section
variable {s t u : State} {sd : BitVec 2}

theorem run_popStream_dense (dense : (s.ctx.getSd sd).kind = .denseRead) : popStream sd s =
    (if (s.ctx.getSd sd).limit.toNat ≤ (s.ctx.getSd sd).pos.toNat then modCtx fun c => c.setV (28 + sd.toNat) 0
    else do
      let bytes ← streamRead sd (ptrAt (s.ctx.getSd sd).val (64 * (s.ctx.getSd sd).pos.toNat)) 64 64
      modCtx fun c => c.setV (28 + sd.toNat) (BitVec.ofNat 512 (leNat bytes))
      moveTo sd (s.ctx.getSd sd) ((s.ctx.getSd sd).pos.toNat + 1) : Act Unit) s := by
  unfold popStream
  refine (run_bind_ok (run_getCtx s)).trans ?_
  rw [dense]

/-- A dense read stream past its end gives zeros. -/
theorem run_popStream_ended (dense : (s.ctx.getSd sd).kind = .denseRead) (ended : (s.ctx.getSd sd).limit.toNat ≤ (s.ctx.getSd sd).pos.toNat) :
    popStream sd s = .ok () (s.modCtx fun c => c.setV (28 + sd.toNat) 0) := by
  rw [run_popStream_dense dense, if_pos ended]
  rfl

/-- A dense read stream before its end gives its next 64 bytes, and moves on. -/
theorem run_popStream_read {bytes : List Byte} (dense : (s.ctx.getSd sd).kind = .denseRead)
    (more : (s.ctx.getSd sd).pos.toNat < (s.ctx.getSd sd).limit.toNat)
    (read : streamRead sd (ptrAt (s.ctx.getSd sd).val (64 * (s.ctx.getSd sd).pos.toNat)) 64 64 s = .ok bytes t) :
    popStream sd s = .ok () ((t.modCtx fun c => c.setV (28 + sd.toNat) (BitVec.ofNat 512 (leNat bytes))).streamAt sd (s.ctx.getSd sd)
      ((s.ctx.getSd sd).pos.toNat + 1) ((s.ctx.getSd sd).pos.toNat + 1) none) := by
  rw [run_popStream_dense dense, if_neg (Nat.not_le.mpr more), run_bind_ok read, run_bind_ok (run_modCtx _ t)]
  exact run_moveTo (by rw [dense]; decide) _

/-- A fibre gives its next sixteen entries, and moves on past them. -/
theorem run_popStream_fibre {es : List FibreEntry} (fibre : (s.ctx.getSd sd).kind.isFibre = true) (even : sd.toNat % 2 = 0)
    (entries : fibreEntries sd (s.ctx.getSd sd) (s.ctx.getSd sd).pos.toNat 16 s = .ok es t)
    (move : moveTo sd (s.ctx.getSd sd) ((s.ctx.getSd sd).pos.toNat + es.length)
      (t.modCtx fun c => (c.setV (28 + sd.toNat) (entryLanes es).1).setV (29 + sd.toNat) (entryLanes es).2) = .ok () u) :
    popStream sd s = .ok () u := by
  have own : ¬sd.toNat % 2 = 1 := by omega
  have next : 28 + sd.toNat + 1 = 29 + sd.toNat := by omega
  rw [← next] at move
  have pops : (do
      if sd.toNat % 2 = 1 then return ()
      let es ← fibreEntries sd (s.ctx.getSd sd) (s.ctx.getSd sd).pos.toNat 16
      let (v, k) := entryLanes es
      modCtx fun c => (c.setV (28 + sd.toNat) v).setV (28 + sd.toNat + 1) k
      moveTo sd (s.ctx.getSd sd) ((s.ctx.getSd sd).pos.toNat + es.length) : Act Unit) s = .ok () u :=
    (run_unless own).trans ((run_bind_ok entries).trans move)
  unfold popStream
  refine (run_bind_ok (run_getCtx s)).trans ?_
  cases kind : (s.ctx.getSd sd).kind with
  | denseRead | denseWrite => rw [kind] at fibre; cases fibre
  | line | list => exact pops

end

/-! ## SMERGE (R141, R375, R376) -/

/-- Whether a fibre's coordinate does not rise from an entry to the one at its head. -/
def falls (d : StreamDesc) (a : FibreEntry) (n : Option FibreEntry) : Bool := n.any fun x => decide (coordInt d x ≤ coordInt d a)

theorem falls_iff (d : StreamDesc) (a : FibreEntry) (n : Option FibreEntry) : falls d a n = true ↔ ∃ x, n = some x ∧ coordInt d x ≤ coordInt d a := by
  unfold falls
  cases n <;> simp

theorem coordInt_eq (d : StreamDesc) (e : FibreEntry) : coordInt d e = if d.kind = .line then (e.1 : Int) else (BitVec.ofNat 32 e.1).toInt := by
  unfold coordInt
  cases d.kind <;> rfl

section
variable {s t u : State} {uni : Bool} {d0 d1 : StreamDesc} {h0 h1 n0 n1 : Option FibreEntry} {a b : FibreEntry} {out : List FibreEntry}
  {p0 p1 taken : Nat} (fuel : Nat)

/-- The merge ends where its output is full, where it has taken 32 entries, or where what it needs of its inputs has ended. -/
theorem mergeFrom_stop (stops : ¬(out.length < 16 ∧ taken < 32) ∨ uni = false ∧ (h0 = none ∨ h1 = none) ∨ h0 = none ∧ h1 = none) :
    mergeFrom uni d0 d1 (fuel + 1) h0 h1 out p0 p1 taken s = .ok { out := out, p0 := p0, p1 := p1, bad := none } s := by
  unfold mergeFrom
  by_cases full : 16 ≤ out.length ∨ 32 ≤ taken
  · rw [if_pos full]
    rfl
  · rw [if_neg full]
    have ended : uni = false ∧ (h0 = none ∨ h1 = none) ∨ h0 = none ∧ h1 = none := stops.resolve_left fun room => room (by omega)
    rcases ended with ⟨rfl, rfl | rfl⟩ | ⟨rfl, rfl⟩
    · cases h1 <;> rfl
    · cases h0 <;> rfl
    · rfl

/-- A merge that has room goes on. -/
theorem not_full_of_room (room : out.length < 16 ∧ taken < 32) : ¬(16 ≤ out.length ∨ 32 ≤ taken) := by omega

section
variable (room : out.length < 16 ∧ taken < 32)
include room

/-- Both inputs stand at one coordinate: both are taken. -/
theorem mergeFrom_both (equal : coordInt d0 a = coordInt d1 b) (head0 : headAt 0 d0 (p0 + 1) s = .ok n0 t)
    (head1 : headAt 2 d1 (p1 + 1) t = .ok n1 u) :
    mergeFrom uni d0 d1 (fuel + 1) (some a) (some b) out p0 p1 taken s =
      (let out' := out ++ [(a.1, if uni then add32 a.2 b.2 else mul32 a.2 b.2)]
      if falls d0 a n0 then pure { out := out', p0 := p0 + 1, p1 := p1 + 1, bad := some (0, p0 + 1) }
      else if falls d1 b n1 then pure { out := out', p0 := p0 + 1, p1 := p1 + 1, bad := some (1, p1 + 1) }
      else mergeFrom uni d0 d1 fuel n0 n1 out' (p0 + 1) (p1 + 1) (taken + 2) : Act MergeEnd) u := by
  rw [mergeFrom]
  dsimp only
  rw [if_neg (not_full_of_room room), decide_eq_true equal.le, decide_eq_true equal.ge]
  refine (run_bind_ok head0).trans ((run_bind_ok head1).trans ?_)
  cases n0 <;> cases n1 <;> rfl

/-- Input 0 stands at the lower coordinate, or is the one that is left: it alone is taken. -/
theorem mergeFrom_first (first : h1 = none ∧ uni = true ∨ ∃ b, h1 = some b ∧ coordInt d0 a < coordInt d1 b)
    (head0 : headAt 0 d0 (p0 + 1) s = .ok n0 t) :
    mergeFrom uni d0 d1 (fuel + 1) (some a) h1 out p0 p1 taken s =
      (let out' := out ++ if uni then [a] else []
      if falls d0 a n0 then pure { out := out', p0 := p0 + 1, p1 := p1, bad := some (0, p0 + 1) }
      else mergeFrom uni d0 d1 fuel n0 h1 out' (p0 + 1) p1 (taken + 1) : Act MergeEnd) t := by
  rcases first with ⟨rfl, rfl⟩ | ⟨b, rfl, below⟩
  · rw [mergeFrom, if_neg (not_full_of_room room)]
    refine (run_bind_ok head0).trans ?_
    cases n0 <;> rfl
  · rw [mergeFrom]
    dsimp only
    rw [if_neg (not_full_of_room room), decide_eq_true below.le, decide_eq_false (not_le.mpr below)]
    refine (run_bind_ok head0).trans ?_
    cases uni <;> cases n0 <;> rfl

/-- Input 1 stands at the lower coordinate, or is the one that is left: it alone is taken. -/
theorem mergeFrom_second (second : h0 = none ∧ uni = true ∨ ∃ a, h0 = some a ∧ coordInt d1 b < coordInt d0 a)
    (head1 : headAt 2 d1 (p1 + 1) s = .ok n1 t) :
    mergeFrom uni d0 d1 (fuel + 1) h0 (some b) out p0 p1 taken s =
      (let out' := out ++ if uni then [b] else []
      if falls d1 b n1 then pure { out := out', p0 := p0, p1 := p1 + 1, bad := some (1, p1 + 1) }
      else mergeFrom uni d0 d1 fuel h0 n1 out' p0 (p1 + 1) (taken + 1) : Act MergeEnd) t := by
  rcases second with ⟨rfl, rfl⟩ | ⟨a, rfl, below⟩
  · rw [mergeFrom.eq_def]
    dsimp only
    rw [if_neg (not_full_of_room room)]
    refine (run_bind_ok head1).trans ?_
    cases n1 <;> rfl
  · rw [mergeFrom]
    dsimp only
    rw [if_neg (not_full_of_room room), decide_eq_true below.le, decide_eq_false (not_le.mpr below)]
    refine (run_bind_ok head1).trans ?_
    cases uni <;> cases n1 <;> rfl

end

end

section
variable {s t u x y merged : State} {vn : Reg} {uni : Bool} {d0 d1 : StreamDesc} {h0 h1 : Option FibreEntry} {m : MergeEnd}

/-- What SMERGE does once it has merged: it writes the entries, moves its inputs on, and traps where one does not rise (R141, R375). -/
theorem exec_smerge (below : vn.toNat + 2 ≤ s.ctx.vregs) (bound0 : (s.ctx.getSd 0).bound = true) (fibre0 : (s.ctx.getSd 0).kind.isFibre = true)
    (bound1 : (s.ctx.getSd 2).bound = true) (fibre1 : (s.ctx.getSd 2).kind.isFibre = true)
    (head0 : headAt 0 (s.ctx.getSd 0) (s.ctx.getSd 0).pos.toNat s = .ok h0 t) (head1 : headAt 2 (s.ctx.getSd 2) (s.ctx.getSd 2).pos.toNat t = .ok h1 u)
    (merge : mergeFrom uni (s.ctx.getSd 0) (s.ctx.getSd 2) 33 h0 h1 [] (s.ctx.getSd 0).pos.toNat (s.ctx.getSd 2).pos.toNat 0 u = .ok m x)
    (move0 : moveTo 0 (s.ctx.getSd 0) m.p0
      (x.modCtx fun c => (c.setV vn.toNat (entryLanes m.out).1).setV (vn.toNat + 1) (entryLanes m.out).2) = .ok () y)
    (move1 : moveTo 2 (s.ctx.getSd 2) m.p1 y = .ok () merged) :
    (m.bad = none → s.completes (.smerge vn uni) .seq merged) ∧
    (∀ n pos, m.bad = some (n, pos) → merged.resultsPending = false →
      s.traps (.smerge vn uni) 18 (BitVec.ofNat 64 (n * 2 ^ 32 + pos % 2 ^ 32)) s.ctx.pc merged) := by
  have inputs : ((s.ctx.getSd 0).bound && (s.ctx.getSd 0).kind.isFibre && (s.ctx.getSd 2).bound && (s.ctx.getSd 2).kind.isFibre) = true := by
    rw [bound0, fibre0, bound1, fibre1]
    rfl
  have made : exec (.smerge vn uni) s = runSeq (.smerge vn uni) (fun _ => (match m.bad with
      | none => pure ()
      | some (n, pos) => trap cFibreOrder (BitVec.ofNat 64 (n * 2 ^ 32 + pos % 2 ^ 32)) : Act Unit) merged) s := by
    refine runSeq_congr ?_
    refine (run_bind_ok (run_getCtx s)).trans ?_
    refine (run_bind_ok ((run_needReg _ _ s).trans (if_pos (decide_eq_true below)))).trans ?_
    refine (run_bind_ok ((run_needReg _ _ s).trans (if_pos inputs))).trans ?_
    refine (run_bind_ok head0).trans ((run_bind_ok head1).trans ((run_bind_ok merge).trans ?_))
    exact (run_bind_ok (run_modCtx _ x)).trans ((run_bind_ok move0).trans (run_bind_ok move1))
  refine ⟨fun rises => made.trans (runSeq_ok ?_), fun n pos bad idle => made.trans (runSeq_trap (r := .here) ?_ idle)⟩
  · rw [rises]
    rfl
  · rw [bad]
    rfl

end

/-! ## STREAM_PREFETCH (R140) -/

/-- Of the pieces after a read stream's position, the number of the j-th. -/
def StreamDesc.pieceNumber (d : StreamDesc) (j : Nat) : Nat :=
  if d.kind = .line then (d.lineAt.map fun p => p.1).getD 0 + j else d.pos.toNat + if d.kind = .list then j / 2 else j

/-- Its size, which is its alignment too: a list's pieces are its values and, between them, their coordinates. -/
def StreamDesc.pieceSize (d : StreamDesc) (j : Nat) : Nat :=
  if d.kind = .line then 128 else if d.kind = .denseRead then 64 else if j % 2 = 0 then listSize d else 4

/-- Where it lies. -/
def StreamDesc.piecePtr (d : StreamDesc) (j : Nat) : Word :=
  ptrAt (if d.kind = .list ∧ j % 2 = 1 then d.coord else d.val) (d.pieceSize j * d.pieceNumber j)

theorem StreamDesc.pieceNumber_mono (d : StreamDesc) {i j : Nat} (h : i ≤ j) : d.pieceNumber i ≤ d.pieceNumber j := by
  have halves : i / 2 ≤ j / 2 := Nat.div_le_div_right h
  unfold StreamDesc.pieceNumber
  split
  · omega
  · split <;> omega

/-- A read stream has the pieces before its end. -/
theorem pieceAfter_eq {d : StreamDesc} (reads : d.kind ≠ .denseWrite) (j : Nat) : pieceAfter d j =
    if d.pieceNumber j < d.limit.toNat then some (d.pieceNumber j, d.piecePtr j, d.pieceSize j, d.pieceSize j) else none := by
  unfold pieceAfter StreamDesc.piecePtr StreamDesc.pieceSize StreamDesc.pieceNumber
  cases kind : d.kind with
  | denseWrite => exact absurd kind reads
  | line => simp
  | denseRead => simp
  | list =>
    by_cases ended : d.limit.toNat ≤ d.pos.toNat + j / 2
    · simp [ended, Nat.not_lt.mpr ended]
    · rcases Nat.mod_two_eq_zero_or_one j with even | odd
      · simp [ended, Nat.not_le.mp ended, even]
      · simp [ended, Nat.not_le.mp ended, odd]

section
variable {s t : State} {sd : BitVec 2} {j : Nat}

/-- Whether a stream holds its j-th piece. -/
def State.holdsPiece (s : State) (sd : BitVec 2) (j : Nat) : Bool :=
  s.ctx.pieces.any fun x => x.stream == sd && x.ptr == (s.ctx.getSd sd).piecePtr j

/-- The pieces that STREAM_PREFETCH looks for are those before the end that the stream does not hold. -/
theorem fetches_eq (reads : (s.ctx.getSd sd).kind ≠ .denseWrite) (j : Nat) :
    (pieceAfter (s.ctx.getSd sd) j).any (fun p => !((s.ctx.pieces.filter fun x => x.stream == sd).any fun x => x.ptr == p.2.1)) =
      (decide ((s.ctx.getSd sd).pieceNumber j < (s.ctx.getSd sd).limit.toNat) && !s.holdsPiece sd j) := by
  rw [pieceAfter_eq reads]
  by_cases more : (s.ctx.getSd sd).pieceNumber j < (s.ctx.getSd sd).limit.toNat
  · rw [if_pos more, decide_eq_true more, Option.any_some, List.any_filter]
    rfl
  · rw [if_neg more, decide_eq_false more]
    rfl

section
variable (reads : (s.ctx.getSd sd).kind ≠ .denseWrite) (fits : j ≤ (s.ctx.pieces.filter fun p => p.stream == sd).length)
  (missing : s.holdsPiece sd j = false) (before : ∀ i, i < j → s.holdsPiece sd i = true)
include reads fits missing before

/-- The first piece that a read stream does not hold, if it lies before the end. -/
theorem firstMissing_eq :
    ((List.range ((s.ctx.pieces.filter fun x => x.stream == sd).length + 1)).filterMap (pieceAfter (s.ctx.getSd sd))).find?
        (fun p => !((s.ctx.pieces.filter fun x => x.stream == sd).any fun x => x.ptr == p.2.1)) =
      pieceAfter (s.ctx.getSd sd) j := by
  rw [List.find?_filterMap]
  by_cases more : (s.ctx.getSd sd).pieceNumber j < (s.ctx.getSd sd).limit.toNat
  · have found : (List.range ((s.ctx.pieces.filter fun x => x.stream == sd).length + 1)).find? (fun i =>
        (pieceAfter (s.ctx.getSd sd) i).any fun p => !((s.ctx.pieces.filter fun x => x.stream == sd).any fun x => x.ptr == p.2.1)) = some j := by
      rw [List.find?_range_eq_some]
      refine ⟨?_, List.mem_range.mpr (Nat.lt_succ_of_le fits), fun i lower => ?_⟩
      · rw [fetches_eq reads, missing, decide_eq_true more]
        rfl
      · rw [fetches_eq reads, before i lower, Bool.not_true, Bool.and_false]
        rfl
    rw [found]
    rfl
  · have nothing : (List.range ((s.ctx.pieces.filter fun x => x.stream == sd).length + 1)).find? (fun i =>
        (pieceAfter (s.ctx.getSd sd) i).any fun p => !((s.ctx.pieces.filter fun x => x.stream == sd).any fun x => x.ptr == p.2.1)) = none := by
      refine List.find?_eq_none.mpr fun i _ => ?_
      rw [fetches_eq reads]
      rcases Nat.lt_or_ge i j with lower | later
      · rw [before i lower, Bool.not_true, Bool.and_false]
        decide
      · rw [decide_eq_false fun less => more (((s.ctx.getSd sd).pieceNumber_mono later).trans_lt less), Bool.false_and]
        decide
    rw [nothing, pieceAfter_eq reads, if_neg more]
    rfl

omit fits missing before
variable (bound : (s.ctx.getSd sd).bound = true) (even : (s.ctx.getSd sd).kind = .denseRead ∨ sd.toNat % 2 = 0)
include bound even

/-- A read stream looks at its pieces. -/
theorem prefetch_works :
    ¬(!(s.ctx.getSd sd).bound || (s.ctx.getSd sd).kind == .denseWrite || (sd.toNat % 2 == 1 && (s.ctx.getSd sd).kind.isFibre)) = true := by
  rcases even with dense | even
  · simp [bound, dense, StreamKind.isFibre]
  · simp [bound, reads, even]

include fits missing before

/-- A read stream that holds every piece before its end fetches none. -/
theorem exec_streamPrefetch_ended (ended : (s.ctx.getSd sd).limit.toNat ≤ (s.ctx.getSd sd).pieceNumber j) :
    exec (.streamPrefetch sd) s = .next s := by
  have first := firstMissing_eq reads fits missing before
  rw [pieceAfter_eq reads, if_neg (Nat.not_lt.mpr ended)] at first
  refine (show exec (.streamPrefetch sd) s = execStreamPrefetch sd s from rfl).trans ?_
  unfold execStreamPrefetch
  dsimp only
  rw [if_neg (prefetch_works reads bound even), first]

/-- A read stream fetches the first piece before its end that it does not hold. -/
theorem exec_streamPrefetch {bytes : List Byte} (more : (s.ctx.getSd sd).pieceNumber j < (s.ctx.getSd sd).limit.toNat)
    (fetch : fetchBytes ((s.ctx.getSd sd).piecePtr j) ((s.ctx.getSd sd).pieceSize j) ((s.ctx.getSd sd).pieceSize j) s = .ok bytes t) :
    exec (.streamPrefetch sd) s = .next (t.modCtx fun c => { c with
      pieces := c.pieces ++ [{ stream := sd, index := (s.ctx.getSd sd).pieceNumber j, ptr := (s.ctx.getSd sd).piecePtr j, bytes := bytes }] }) := by
  have first := firstMissing_eq reads fits missing before
  rw [pieceAfter_eq reads, if_pos more] at first
  refine (show exec (.streamPrefetch sd) s = execStreamPrefetch sd s from rfl).trans ?_
  unfold execStreamPrefetch
  dsimp only
  rw [if_neg (prefetch_works reads bound even), first]
  dsimp only
  rw [fetch]

end

/-- A stream that is closed or writes has nothing to fetch. -/
theorem exec_streamPrefetch_none (idle : (s.ctx.getSd sd).bound = false ∨ (s.ctx.getSd sd).kind = .denseWrite) :
    exec (.streamPrefetch sd) s = .next s := by
  refine (show exec (.streamPrefetch sd) s = execStreamPrefetch sd s from rfl).trans ?_
  unfold execStreamPrefetch
  exact if_pos (by rcases idle with idle | idle <;> simp [idle])

end

/-! ## StreamResults -/

/-- The conditions on the registers and descriptors of SOPEN, as one (R138, R373). -/
theorem sopenFits_iff {s : State} {sd : BitVec 2} {kind : StreamKind} : s.sopenFits sd kind ↔
    kind.isFibre = false ∧ 28 + sd.toNat < s.ctx.vregs ∨
      kind.isFibre = true ∧ 29 + sd.toNat < s.ctx.vregs ∧ sd.toNat % 2 = 0 ∧ (s.ctx.getSd (sd + 1)).bound = false := by
  unfold State.sopenFits
  cases kind.isFibre with
  | false => simp
  | true =>
    have next : 28 + sd.toNat + 1 = 29 + sd.toNat := by omega
    simp [next]

/-- One entry alone comes out of a union, and none of an intersection (R375, R376). -/
theorem emitted_eq (uni : Bool) (out : List FibreEntry) (e : FibreEntry) : (out ++ if uni then [e] else []) = if uni then out ++ [e] else out := by
  cases uni <;> simp

/-- Settles O47: by what a descriptor's opening, moves, pops and close come to, by the steps of a merge, and by the first piece that is missing. -/
theorem streamResults : Obligations.StreamResults := by
  unfold Obligations.StreamResults
  intro s t u v x sd xv xl xc xn xd vn kind off uni m h0 h1 es at1 m0 k0 ks bytes own val coord opened acc named line n target movedFrom moved
    held fetched
  have namedIff : own.opened sd = true ↔ named := StreamDesc.opened_iff own sd
  refine ⟨?opens, ?openTraps, ?plainMoves, ?lineMoves, ?moves, ?lines, ?position, ?closesNone, ?closes, ?densePops, ?fibrePops, ?merges, ?steps,
    ?prefetches, exec_streamPrefetch_none⟩
  case opens =>
    rintro ⟨fits, format, words, data, coords, aligned, closes, stays⟩
    have close : closeOwn sd own u = .ok () v := by
      by_cases isOpen : named
      · rw [closeOwn_named (namedIff.mpr isOpen)]
        exact closes isOpen
      · rw [stays isOpen]
        exact run_closeOwn_unnamed (mt namedIff.mp isOpen)
    exact exec_sopen (sopenFits_iff.mpr fits) format words data coords aligned close
  case openTraps =>
    intro idle i
    refine ⟨fun unfit => exec_sopen_unfit (fun fits => ?_) idle, fun ⟨plain, below, other⟩ => ?_⟩
    · rcases sopenFits_iff.mp fits with ⟨plain, below⟩ | ⟨fibre, below, even, free⟩
      · rcases unfit with beyond | ⟨fibre, -⟩
        · omega
        · rw [plain] at fibre
          cases fibre
      · rcases unfit with beyond | ⟨-, odd | beyond | taken⟩
        · omega
        · omega
        · omega
        · rw [free] at taken
          cases taken
    · exact exec_sopen_format (sopenFits_iff.mpr (.inl ⟨plain, below⟩)) other idle
  case plainMoves =>
    rintro ⟨isOpen, plain⟩
    have name := namedIff.mpr isOpen
    have stend := exec_stend (off := off) name (run_streamEnd (sd := sd) (s := s) plain)
    refine ⟨exec_sadv name (run_advanced plain n) (run_moveTo plain _), fun ended => ?_, fun more => ?_⟩
    · rw [decide_eq_true ended, if_pos rfl, jumpTarget_eq] at stend
      exact stend
    · rw [decide_eq_false (Nat.not_le.mpr more)] at stend
      exact stend
  case lineMoves =>
    rintro ⟨isOpen, isLine⟩
    have name := namedIff.mpr isOpen
    refine ⟨fun ⟨next, move⟩ => exec_sadv name (run_advanced_line isLine next) move, fun next => ?_⟩
    have stend := exec_stend (off := off) name (run_streamEnd_line isLine next)
    rw [pc_of_lineNext next, jumpTarget_eq] at stend
    refine ⟨fun ended => ?_, fun more => ?_⟩
    · rw [ended] at stend
      exact stend
    · rw [List.isEmpty_eq_false_iff.mpr more] at stend
      exact stend
  case moves =>
    refine fun pos => ⟨fun plain => run_moveTo plain pos, fun ⟨isLine, next⟩ => ⟨run_moveTo_whole isLine next, fun ⟨part, read⟩ => ?_⟩⟩
    exact run_moveTo_part isLine next part read
  case lines =>
    refine ⟨fun here => ?_, fun ⟨lost, skip⟩ => ?_, fun left m k want => ⟨rfl, rfl, rfl, fun ⟨any, entries⟩ => ?_, fun ⟨any, entries⟩ => ?_⟩⟩
    · rw [lineNext_at here]
    · rw [lineNext_lost lost]
      exact run_bind_ok skip
    · exact ⟨run_lineFrom_within any entries, fun past more rest => run_lineFrom_past any entries past rest⟩
    · exact ⟨run_lineSkip_within any entries, run_lineSkip_past any entries⟩
  case position => exact fun isOpen => exec_spos (namedIff.mpr isOpen) xd
  case closesNone => exact fun closed => exec_sclose.trans (runSeq_ok (run_closeOwn_unnamed (mt namedIff.mp closed)))
  case closes =>
    rintro ⟨isOpen, idle⟩
    refine exec_sclose.trans (runSeq_ok ?_)
    rw [closeOwn_named (namedIff.mpr isOpen)]
    exact run_bind_ok (run_performAppends idle)
  case densePops =>
    refine fun dense => ⟨run_popStream_ended dense, fun more empty load _ => ?_, fun x more held => ?_⟩
    · exact run_popStream_read dense more (run_streamRead_load (by rw [empty]; rfl) load)
    · exact run_popStream_read dense more (run_streamRead_held held)
  case fibrePops =>
    rintro ⟨fibre, even, entries, move⟩
    exact run_popStream_fibre fibre even entries move
  case merges =>
    rintro d0 d1 ⟨below, bound0, fibre0, bound1, fibre1, head0, head1, merge⟩ written y merged move0 move1
    exact exec_smerge below bound0 fibre0 bound1 fibre1 head0 head1 merge move0 move1
  case steps =>
    intro d0 d1 fuel p0 p1 taken out n0 n1 a b go at0 at1 ends falls0 falls1 room
    have coord0 (e : FibreEntry) : at0 e = coordInt d0 e := (coordInt_eq d0 e).symm
    have coord1 (e : FibreEntry) : at1 e = coordInt d1 e := (coordInt_eq d1 e).symm
    have first : falls0 ↔ falls d0 a n0 = true := by
      rw [falls_iff]
      exact exists_congr fun x => and_congr_right fun _ => by rw [coord0, coord0]
    have second : falls1 ↔ falls d1 b n1 = true := by
      rw [falls_iff]
      exact exists_congr fun x => and_congr_right fun _ => by rw [coord1, coord1]
    refine ⟨mergeFrom_stop fuel, ?both, ?left, ?right⟩
    case both =>
      rintro ⟨fits, rfl, rfl, equal, head0, head1⟩ r out'
      rw [coord0, coord1] at equal
      have emitted : (if uni then add32 a.2 b.2 else mul32 a.2 b.2) = r.1 := by cases uni <;> rfl
      have step := mergeFrom_both (uni := uni) fuel fits equal head0 head1
      rw [emitted] at step
      refine ⟨fun f0 => ?_, fun ⟨f0, f1⟩ => ?_, fun ⟨f0, f1⟩ => ?_⟩
      · exact step.trans (congrFun (if_pos (first.mp f0)) u)
      · exact step.trans ((congrFun (if_neg (mt first.mpr f0)) u).trans (congrFun (if_pos (second.mp f1)) u))
      · exact step.trans ((congrFun (if_neg (mt first.mpr f0)) u).trans (congrFun (if_neg (mt second.mpr f1)) u))
    case left =>
      rintro ⟨fits, rfl, lower, head0⟩ out'
      have alone : h1 = none ∧ uni = true ∨ ∃ b, h1 = some b ∧ coordInt d0 a < coordInt d1 b :=
        lower.imp_right fun ⟨other, below⟩ => ⟨b, other, by rwa [coord0, coord1] at below⟩
      have step := mergeFrom_first (out := out) (p1 := p1) fuel fits alone head0
      rw [emitted_eq] at step
      exact ⟨fun f0 => step.trans (congrFun (if_pos (first.mp f0)) t), fun f0 => step.trans (congrFun (if_neg (mt first.mpr f0)) t)⟩
    case right =>
      rintro ⟨fits, rfl, lower, head1⟩ out'
      have alone : h0 = none ∧ uni = true ∨ ∃ a, h0 = some a ∧ coordInt d1 b < coordInt d0 a :=
        lower.imp_right fun ⟨other, below⟩ => ⟨a, other, by rwa [coord0, coord1] at below⟩
      have step := mergeFrom_second (out := out) (p0 := p0) fuel fits alone head1
      rw [emitted_eq] at step
      exact ⟨fun f1 => step.trans (congrFun (if_pos (second.mp f1)) t), fun f1 => step.trans (congrFun (if_neg (mt second.mpr f1)) t)⟩
  case prefetches =>
    rintro ⟨bound, reads, even⟩ number size ptr has j ⟨fits, missing, before⟩
    have holds (i : Nat) : s.holdsPiece sd i = true ↔ has i := by
      unfold State.holdsPiece
      simp only [List.any_eq_true, Bool.and_eq_true, beq_iff_eq]
      rfl
    have lacks : s.holdsPiece sd j = false := Bool.eq_false_iff.mpr (mt (holds j).mp missing)
    have full (i : Nat) (lower : i < j) : s.holdsPiece sd i = true := (holds i).mpr (before i lower)
    exact ⟨exec_streamPrefetch_ended reads fits lacks full bound even, fun ⟨more, fetch⟩ => exec_streamPrefetch reads fits lacks full bound even more fetch⟩

end Sys2Proof.Machine
end

section
/-!
PROOFS. Messages (R149 to R153, R253, R339, R340): the header's fields, the context buffer that KCTXB names, what a target grants, and how a message is
sent and delivered.
-/

namespace Sys2Proof.Machine

/-! ## Headers and the context buffer that KCTXB names (R149, R152) -/

theorem hdrLnum_eq (h : Word) : hdrLnum h = h.extractLsb' 28 12 := ofNat_bits h 28 12

theorem hdrCh_eq (h : Word) : hdrCh h = h.extractLsb' 22 4 := ofNat_bits h 22 4

section
variable {c : Core} {lnum : BitVec 12}

theorem Core.bufferOf_unnamed (unnamed : c.kctxb.getLsbD 0 = false ∨ c.kctxb.extractLsb' 52 12 ≠ lnum) : c.bufferOf lnum = none := by
  unfold Core.bufferOf Core.ctxBuffer
  rw [ofNat_bits]
  split
  · next names =>
    have unused := unnamed.resolve_right (not_not.mpr names)
    exact if_neg (Bool.eq_false_iff.mp unused)
  · rfl

theorem Core.bufferOf_named (used : c.kctxb.getLsbD 0 = true) (names : c.kctxb.extractLsb' 52 12 = lnum) :
    c.bufferOf lnum = some (c.kctxb.toNat / 2 ^ 12 % 2 ^ 40 * 4096) := by
  unfold Core.bufferOf
  rw [ofNat_bits, if_pos names]
  exact if_pos used

theorem Core.takes_iff : c.takes lnum = true ↔ c.run = .running ∧ c.ctx.lnum = lnum := by simp [Core.takes]

theorem Core.hasContext_iff : c.hasContext lnum = true ↔
    ((c.run = .running ∨ c.run = .heldForRebuild) ∧ c.ctx.lnum = lnum) ∨ ∃ q ∈ c.residents, q.lnum = lnum := by simp [Core.hasContext]

end

/-! ## The count of the buffer that an interface reads (R253) -/

/-- The self-tests that begin as a core's interface reads the count of the buffer that KCTXB names for a launch number. -/
theorem State.meetCount_eq (s : State) (n : Nat) (l : BitVec 12) :
    s.meetCount n l = s.modDev fun d => { d with tests := d.tests ++ (match (s.coreById n).bind fun c => c.bufferOf l with
      | none => []
      | some b => (d.bad.filter fun w => decide ((b + 0x1600) / 8 ≤ w ∧ w * 8 < b + 0x1600 + 8)).map fun w => testOf (w * 8)) } := by
  unfold State.meetCount
  cases (s.coreById n).bind fun c => c.bufferOf l with
  | none => simp [State.modDev]
  | some b => rfl

@[simp] theorem State.resvs_meetCount (s : State) (n : Nat) (l : BitVec 12) : (s.meetCount n l).dev.resvs = s.dev.resvs := by rw [State.meetCount_eq]; rfl

@[simp] theorem State.grantAt_meetCount (s : State) (n : Nat) (l : BitVec 12) : (s.meetCount n l).grantAt = s.grantAt := by
  rw [State.meetCount_eq]
  rfl

/-! ## What a target grants (R150 to R153) -/

section
variable {s : State} {target : Nat} {c : Core} {lnum : BitVec 12} (there : s.coreById target = some c)
include there

theorem State.grantAt_running (runs : c.takes lnum = true) (unnamed : c.bufferOf lnum = none) :
    s.grantAt target lnum = if c.ctx.rbuf.length + s.dev.reservedAt target false < 32 then some false else none := by
  unfold State.grantAt
  simp [there, runs, unnamed]

variable (away : c.takes lnum = false)
include away

theorem State.grantAt_away {b : Nat} (named : c.bufferOf lnum = some b) :
    s.grantAt target lnum = if s.bufferCount b + s.dev.reservedAt target true < 32 then some true else none := by
  unfold State.grantAt
  simp [there, away, named]

theorem State.grantAt_nowhere (unnamed : c.bufferOf lnum = none) : s.grantAt target lnum = none := by
  unfold State.grantAt
  simp [there, away, unnamed]

end

/-! ## Where a message goes (R150, R152, R153) -/

/-- A message has entered the receive buffer of a core's context. -/
def State.received (s : State) (target : Nat) (m : Msg) : State := s.modCtxId target fun x => { x with rbuf := x.rbuf ++ [m] }

section
variable {s : State} {sender target : Nat} {c : Core} {m : Msg} (there : s.coreById target = some c) (granted : sender ≠ distributorId)
include there granted

theorem State.deliver_running (runs : c.takes (hdrLnum m.hdr) = true) (unnamed : c.bufferOf (hdrLnum m.hdr) = none) (room : c.ctx.rbuf.length < 32) :
    s.deliver sender target m = some (s.received target m) := by
  unfold State.deliver
  simp [there, granted, runs, unnamed, room, State.received]

theorem State.deliver_running_named {b : Nat} (runs : c.takes (hdrLnum m.hdr) = true) (named : c.bufferOf (hdrLnum m.hdr) = some b)
    (empty : s.bufferCount b = 0) (room : c.ctx.rbuf.length < 32) : s.deliver sender target m = some (s.received target m) := by
  unfold State.deliver
  simp [there, granted, runs, named, empty, room, State.received]

variable (away : c.takes (hdrLnum m.hdr) = false)
include away

theorem State.deliver_stored {b : Nat} (named : c.bufferOf (hdrLnum m.hdr) = some b) (room : s.bufferCount b < 64) :
    s.deliver sender target m = some ((s.bufferPut b (s.bufferCount b) m).poke (b + 0x1600) (leBytes 8 (s.bufferCount b + 1))) := by
  unfold State.deliver
  simp [there, granted, away, named, room]

variable (unnamed : c.bufferOf (hdrLnum m.hdr) = none)
include unnamed

theorem State.deliver_waits (resident : c.hasContext (hdrLnum m.hdr) = true) : s.deliver sender target m = none := by
  unfold State.deliver
  simp [there, granted, away, unnamed, resident]

variable (gone : c.hasContext (hdrLnum m.hdr) = false)
include gone

/-- A context that has ended by HALT still has its entry (log 117). -/
theorem State.deliver_ended (ended : c.run = .ended ∧ c.ctx.lnum = hdrLnum m.hdr) : s.deliver sender target m = some (s.received target m) := by
  unfold State.deliver
  simp [there, granted, away, unnamed, gone, ended, State.received]

theorem State.deliver_discarded (other : c.ctx.lnum ≠ hdrLnum m.hdr) : s.deliver sender target m = some s := by
  unfold State.deliver
  simp [there, granted, away, unnamed, gone, other]

end

/-! ## SEND and its events (R151, R339, R340) -/

section
variable {s t : State} {data rs1 : Reg} {ch : BitVec 4} {vec : Bool} {target k : Nat} {r : Reservation}

/-- SEND posts one reservation and holds. -/
theorem exec_send (below : vec = false ∨ data.toNat + 1 ≤ s.ctx.vregs) (alone : ∀ q ∈ s.dev.resvs, q.core ≠ s.core.id)
    (named : s.names (s.ctx.getX rs1) target) (room : s.core.unack < 256) :
    s.waits (.send data rs1 ch vec) .send (s.modDev fun d => { d with resvs := d.resvs ++
      [{ core := s.core.id, target := target, hdr := s.msgHeader ch vec, reached := false, granted := false, toBuffer := false
         word := wordOf (.send data rs1 ch vec) }] }) := by
  have inGroup : (!vec || s.ctx.hasV data 1) = true := by
    rcases below with rfl | below
    · rfl
    · simp [Ctx.hasV, below]
  refine runSeq_hold ?_
  rw [run_bind_ok (run_getCtx s), inGroup, run_bind_ok ((run_needReg _ true s).trans (if_pos rfl)), run_bind_ok (run_get s), if_neg (by simpa using alone)]
  dsimp only
  rw [run_bind_ok (run_getX rs1 s), run_bind_ok (liftChk_ok named), run_bind_ok (run_roomFor (Nat.succ_le_of_lt room))]
  rfl

/-- A target grants the oldest of the reservations that it can grant. -/
theorem exec_reservationRequest {place : Bool} (posted : s.dev.resvs[k]? = some r) (waits : r.granted = false) (reached : r.reached = true)
    (grants : s.grantAt r.target (hdrLnum r.hdr) = some place)
    (oldest : ((s.dev.resvs.filter fun q => q.target == r.target && q.reached && !q.granted).find?
      fun q => (s.grantAt q.target (hdrLnum q.hdr)).isSome) = some r) :
    exec (.reservationRequest k) s = .next ((s.meetCount r.target (hdrLnum r.hdr)).modDev fun d => { d with
      resvs := d.resvs.map fun q => if q.core = r.core then { q with granted := true, toBuffer := place } else q }) := by
  show execReservationRequest k s = _
  unfold execReservationRequest
  rw [posted]
  dsimp only
  rw [if_neg (by simp [waits]), if_pos reached, State.resvs_meetCount, State.grantAt_meetCount, oldest]
  dsimp only
  rw [if_pos rfl, grants]
  rfl

/-- SEND retires as its payload leaves. -/
theorem exec_reservationGrant {payload : VWord} (posted : s.dev.resvs[k]? = some r) (granted : r.granted = true) (own : r.core = s.core.id)
    (held : s.core.hold = .send) (word : decode r.word = some (.send data rs1 ch vec))
    (read : sendPayload data vec (s.modDev fun d => { d with resvs := d.resvs.filter fun q => q.core != r.core }) = .ok payload t) :
    exec (.reservationGrant k) s = .next (s.retired (.send data rs1 ch vec) .seq
      ((t.modDev fun d => { d with
        payloads := d.payloads ++ [{ core := r.core, target := r.target, msg := { hdr := r.hdr, payload := payload }, toBuffer := r.toBuffer }]
        }).modCore fun c => { c.countMsg (hdrLnum r.hdr) 1 0 with unack := c.unack + 1 })) := by
  show execReservationGrant k s = _
  unfold execReservationGrant
  rw [posted]
  dsimp only
  rw [if_neg (by simp [granted, own, held]), word]
  refine runSeq_ok (run_guardCtx_ok ?_)
  rw [run_bind_ok (run_modDev _ s), run_bind_ok read]
  rfl

theorem exec_messageArrival {p : Payload} (sent : s.dev.payloads[k]? = some p)
    (first : ∀ q ∈ s.dev.payloads.take k, q.core ≠ p.core ∨ q.target ≠ p.target)
    (arrives : (s.meetCount p.target (hdrLnum p.msg.hdr)).deliver p.core p.target p.msg = some t) :
    exec (.messageArrival k) s = .next (((t.modDev fun d => { d with payloads := d.payloads.eraseIdx k }).modCoreId p.target
      fun c => c.countMsg (hdrLnum p.msg.hdr) 0 1).acknowledge p.core) := by
  have payloads : (s.meetCount p.target (hdrLnum p.msg.hdr)).dev.payloads = s.dev.payloads := by rw [State.meetCount_eq]; rfl
  show execMessageArrival k s = _
  unfold execMessageArrival
  rw [sent]
  dsimp only
  rw [if_neg (by simpa [payloads, ← imp_iff_not_or] using first), arrives]

end

/-! ## MessageSendingResults -/

/-- Settles O31: by what SEND and its events do, and by the place of a message at its target. -/
theorem messageSendingResults : Obligations.MessageSendingResults := by
  unfold Obligations.MessageSendingResults
  intro s t data rs1 ch vec target k r place payload p i
  refine ⟨?send, ?request, ?grant, ?arrival, State.meetCount_eq s, ?places⟩
  case send => exact fun ⟨below, alone, named, room⟩ => exec_send below alone named room
  case request => exact fun ⟨posted, waits, reached, grants, oldest⟩ => exec_reservationRequest posted waits reached grants oldest
  case grant => exact fun ⟨posted, granted, own, held, word, read⟩ => exec_reservationGrant posted granted own held word read
  case arrival => exact fun ⟨sent, first, arrives⟩ => exec_messageArrival sent first arrives
  case places =>
    intro c m b there lnum here named n stored received
    have number : hdrLnum m.hdr = lnum := hdrLnum_eq m.hdr
    have runs : c.takes lnum = true ↔ here := Core.takes_iff
    have away (h : ¬here) : c.takes lnum = false := Bool.eq_false_iff.mpr (mt runs.mp h)
    have buffer (h : named) : c.bufferOf lnum = some b := by
      obtain ⟨used, names, rfl⟩ := h
      exact Core.bufferOf_named used names
    rw [← number] at runs away buffer ⊢
    refine ⟨fun granted => ⟨?running, ?runningNamed, ?stored, ?unnamed⟩, ?grantsHere, ?grantsBuffer, ?grantsNot⟩
    case running => exact fun ⟨h, unnamed, room⟩ => State.deliver_running there granted (runs.mpr h) (Core.bufferOf_unnamed unnamed) room
    case runningNamed => exact fun ⟨h, names, empty, room⟩ => State.deliver_running_named there granted (runs.mpr h) (buffer names) empty room
    case stored => exact fun ⟨h, names, room⟩ => State.deliver_stored there granted (away h) (buffer names) room
    case unnamed =>
      rintro ⟨h, unnamed⟩
      have unheld := Core.bufferOf_unnamed unnamed
      refine ⟨fun resident => ?_, fun others => ?_⟩
      · exact State.deliver_waits there granted (away h) unheld (Core.hasContext_iff.mpr (resident.imp_left fun ⟨held, mine⟩ => ⟨.inr held, mine⟩))
      · have gone (inactive : ¬((c.run = .running ∨ c.run = .heldForRebuild) ∧ c.ctx.lnum = hdrLnum m.hdr)) : c.hasContext (hdrLnum m.hdr) = false :=
          Bool.eq_false_iff.mpr fun h => (Core.hasContext_iff.mp h).elim inactive fun ⟨q, mem, mine⟩ => others q mem mine
        refine ⟨fun ended => ?_, fun other => ?_⟩
        · exact State.deliver_ended there granted (away h) unheld (gone fun ⟨stays, _⟩ => absurd (ended.1 ▸ stays) (by decide)) ended
        · exact State.deliver_discarded there granted (away h) unheld (gone fun ⟨_, mine⟩ => other mine) other
    case grantsHere => exact fun ⟨h, unnamed⟩ => State.grantAt_running there (runs.mpr h) (Core.bufferOf_unnamed unnamed)
    case grantsBuffer => exact fun ⟨h, names⟩ => State.grantAt_away there (away h) (buffer names)
    case grantsNot => exact fun ⟨h, unnamed⟩ => State.grantAt_nowhere there (away h) (Core.bufferOf_unnamed unnamed)

end Sys2Proof.Machine
end

section
/-!
PROOFS. RECV and RECVNB, and the messages that move on from the context buffer (R152 to R154, R341).
-/

namespace Sys2Proof.Machine

/-! ## RECV and RECVNB (R341) -/

/-- The message that a channel's instruction takes is the first of the channel. -/
theorem findIdx?_channel {ms : List Msg} {k : Nat} {m : Msg} {ch : BitVec 4} (there : ms[k]? = some m)
    (first : ∀ q ∈ ms.take k, q.hdr.extractLsb' 22 4 ≠ ch) (here : m.hdr.extractLsb' 22 4 = ch) : ms.findIdx? (fun q => hdrCh q.hdr == ch) = some k := by
  obtain ⟨inside, rfl⟩ := List.getElem?_eq_some_iff.mp there
  refine List.findIdx?_eq_some_iff_getElem.mpr ⟨inside, by simp [hdrCh_eq, here], fun j lower => ?_⟩
  have before : ms[j] ∈ ms.take k := List.mem_take_iff_getElem.mpr ⟨j, by omega, rfl⟩
  simpa [hdrCh_eq] using first _ before

theorem findIdx?_no_channel {ms : List Msg} {ch : BitVec 4} (none : ∀ q ∈ ms, q.hdr.extractLsb' 22 4 ≠ ch) :
    ms.findIdx? (fun q => hdrCh q.hdr == ch) = .none := by
  refine List.findIdx?_eq_none_iff.mpr fun q there => ?_
  simpa [hdrCh_eq] using none q there

/-- The destination of a receive lies below VREGS, where it is a vector register. -/
def Ctx.receives (c : Ctx) (rd : Reg) (vec : Bool) : Prop := vec = false ∨ rd.toNat + 1 ≤ c.vregs

section
variable {s t : State} {i : Instr} {rd : Reg} {ch : BitVec 4} {vec : Bool} {empty : Act Unit} (below : s.ctx.receives rd vec)
include below

/-- A receive whose destination is legal goes on with what it finds. -/
theorem run_receive_needReg (i : Instr) : needReg i (!vec || s.ctx.hasV rd 1) s = .ok () s := by
  have inGroup : (!vec || s.ctx.hasV rd 1) = true := by
    rcases below with rfl | below
    · rfl
    · simp [Ctx.hasV, below]
  rw [run_needReg, if_pos inGroup]

/-- What a receive does where its channel has no entry. -/
theorem run_receive_none (none : ∀ q ∈ s.ctx.rbuf, q.hdr.extractLsb' 22 4 ≠ ch) : receive i rd ch vec empty s = guardCtx empty s := by
  unfold receive guardCtx
  rw [run_bind_ok (run_getCtx s), run_bind_ok (run_receive_needReg below i), run_bind_ok (run_getCtx s), findIdx?_no_channel none]

variable {k : Nat} {m : Msg} (there : s.ctx.rbuf[k]? = some m) (first : ∀ q ∈ s.ctx.rbuf.take k, q.hdr.extractLsb' 22 4 ≠ ch)
  (here : m.hdr.extractLsb' 22 4 = ch)
include there first here

/-- The oldest message of the channel leaves the buffer for the register. -/
theorem run_receive_ok (mode : m.hdr.getLsbD 27 = s.ctx.fstat.getLsbD 8)
    (taken : takePayload rd vec m (s.modCtx fun c => { c with rbuf := c.rbuf.eraseIdx k }) = .ok () t) : receive i rd ch vec empty s = .ok () t := by
  refine run_guardCtx_ok ?_
  rw [run_bind_ok (run_getCtx s), run_bind_ok (run_receive_needReg below i), run_bind_ok (run_getCtx s), findIdx?_channel there first here]
  dsimp only
  rw [there]
  dsimp only
  have same : hdrNarm m.hdr = s.ctx.narm := mode
  rw [if_neg (not_not.mpr same)]
  exact (run_bind_ok (run_modCtx _ s)).trans taken

theorem run_receive_mismatch (mode : m.hdr.getLsbD 27 ≠ s.ctx.fstat.getLsbD 8) :
    receive i rd ch vec empty s = .error (.trap cNarmMismatch m.hdr .here) s := by
  refine run_guardCtx_error ?_
  rw [run_bind_ok (run_getCtx s), run_bind_ok (run_receive_needReg below i), run_bind_ok (run_getCtx s), findIdx?_channel there first here]
  dsimp only
  rw [there]
  exact run_stops mode (run_trap _ _ s)

end

/-- RECVNB gives zero for an empty channel. -/
theorem takePayload_zero (rd : Reg) : takePayload rd false { hdr := 0, payload := 0 } = setX rd 0 :=
  congrArg (setX rd) (BitVec.setWidth_zero 64 512)

theorem takePayload_zero_vector (rd : Reg) : takePayload rd true { hdr := 0, payload := 0 } = writeGroup rd 1 0 := by
  refine congrArg (writeGroup rd 1) ((if_neg (by decide)).trans ?_)
  dsimp only
  rw [BitVec.ofNat_eq_ofNat, BitVec.toNat_zero, Nat.zero_mod]

/-! ## The context buffer of the active context (R153, R154) -/

/-- Messages stored in a context buffer change nothing of the core in focus but its monitor. -/
theorem State.bufferStore_core (s : State) (b : Nat) (ms : List Msg) : (s.bufferStore b ms).core.wokenFrom s.core := by
  have puts : ∀ (l : List (Msg × Nat)) (s : State), (l.foldl (fun s x => s.bufferPut b x.2 x.1) s).core.wokenFrom s.core := by
    intro l
    induction l with
    | nil => exact fun _ => .inl rfl
    | cons x l ih => exact fun s => (ih _).trans ((State.poke_core _ _ _).trans (State.poke_core _ _ _))
  exact (State.poke_core _ _ _).trans (puts ms.zipIdx s)

/-- The messages of a context buffer that move on: as many as there are entries that are free and not reserved. -/
def State.movable (s : State) (b : Nat) : Nat := min (s.bufferLoad b).length (32 - (s.ctx.rbuf.length + s.dev.reservedAt s.core.id false))

section
variable {s : State} {b : Nat} (named : s.core.bufferOf s.ctx.lnum = some b)
include named

theorem State.replayBuffer_full (none : s.movable b = 0) : s.replayBuffer = s.meetMessages b 0 := by
  unfold State.replayBuffer
  rw [named]
  dsimp only
  rw [← State.movable, if_pos none, if_pos none]

theorem State.replayBuffer_moves (some : s.movable b ≠ 0) : s.replayBuffer =
    ((s.meetMessages b (s.bufferLoad b).length).modCtx fun c => { c with rbuf := c.rbuf ++ (s.bufferLoad b).take (s.movable b) }).bufferStore b
      ((s.bufferLoad b).drop (s.movable b)) := by
  unfold State.replayBuffer
  rw [named]
  dsimp only
  rw [← State.movable, if_neg some, if_neg some]

/-- Of the core in focus, a move from its context buffer changes the receive buffer, and wakes the monitor where its line is written. -/
theorem State.replayBuffer_core (some : s.movable b ≠ 0) : s.replayBuffer.core.wokenFrom { s.core with
    ctx := { s.ctx with rbuf := s.ctx.rbuf ++ (s.bufferLoad b).take (s.movable b) } } := by
  rw [State.replayBuffer_moves named some]
  exact State.bufferStore_core _ b _

end

theorem State.replayBuffer_unnamed {s : State} (unnamed : s.core.bufferOf s.ctx.lnum = none) : s.replayBuffer = s := by
  unfold State.replayBuffer
  rw [unnamed]

/-! ## MessageReceivingResults -/

/-- Settles O32: by what a receive finds in its channel, and by the messages of the context buffer that move on. -/
theorem messageReceivingResults : Obligations.MessageReceivingResults := by
  unfold Obligations.MessageReceivingResults
  intro s rd ch k m rest
  refine ⟨?oldest, ?empty, fun running => if_pos running, fun idle => if_neg idle, ?unnamed, ?named⟩
  case oldest =>
    rintro ⟨there, first, here⟩
    refine ⟨fun mode => ⟨?_, ?_, fun t below taken => ⟨?_, ?_⟩⟩, fun ⟨mode, idle⟩ => ⟨?_, ?_, fun below => ⟨?_, ?_⟩⟩⟩
    · exact runSeq_ok (run_receive_ok (.inl rfl) there first here mode rfl)
    · exact runSeq_ok (run_receive_ok (.inl rfl) there first here mode rfl)
    · exact runSeq_ok (run_receive_ok (.inr below) there first here mode taken)
    · exact runSeq_ok (run_receive_ok (.inr below) there first here mode taken)
    · exact runSeq_trap (run_receive_mismatch (.inl rfl) there first here mode) idle
    · exact runSeq_trap (run_receive_mismatch (.inl rfl) there first here mode) idle
    · exact runSeq_trap (run_receive_mismatch (.inr below) there first here mode) idle
    · exact runSeq_trap (run_receive_mismatch (.inr below) there first here mode) idle
  case empty =>
    intro none
    refine ⟨?_, ?_, fun below => ⟨?_, fun t taken => ?_⟩⟩
    · exact runSeq_hold ((run_receive_none (.inl rfl) none).trans (run_guardCtx_error (run_holdFor _ s)))
    · exact runSeq_ok ((run_receive_none (.inl rfl) none).trans (run_guardCtx_ok (congrFun (takePayload_zero rd) s)))
    · exact runSeq_hold ((run_receive_none (.inr below) none).trans (run_guardCtx_error (run_holdFor _ s)))
    · exact runSeq_ok ((run_receive_none (.inr below) none).trans (run_guardCtx_ok ((congrFun (takePayload_zero_vector rd) s).trans taken)))
  case unnamed => exact fun unnamed => State.replayBuffer_unnamed (Core.bufferOf_unnamed unnamed)
  case named =>
    rintro ⟨used, names⟩ b slot ms n t met
    have named : s.core.bufferOf s.ctx.lnum = some b := Core.bufferOf_named used names
    have load : s.bufferLoad b = ms := rfl
    have count : s.movable b = n := rfl
    have full := State.replayBuffer_full named
    have moves := State.replayBuffer_moves named
    have core := State.replayBuffer_core named
    rw [load, count] at moves core
    rw [count] at full
    refine ⟨full, fun some => ?_, fun some => ?_⟩
    · refine (moves some).trans ?_
      unfold State.bufferStore
      rw [List.length_drop]
      rfl
    · rcases core some with core | core
      all_goals
        have ctx := congrArg Core.ctx core
        exact ⟨(congrArg Ctx.rbuf ctx :), (congrArg Ctx.x ctx :), (congrArg Ctx.v ctx :), (congrArg Core.unack core :)⟩

end Sys2Proof.Machine
end

section
/-!
PROOFS. Gangs: the cores of a run by the stitch mode (R146 to R148), and what forming a gang and splitting one do to their cores (R186 to R190).
-/

namespace Sys2Proof.Machine

/-! ## The cores of a run (R147, R148) -/

/-- The run of some cores, where the partition has every one of them. -/
def presentRun : Option (List (Option Nat)) → Option (List Nat)
  | none => none
  | some cs => if cs.any fun c => c.isNone then none else some (cs.filterMap fun c => c)

theorem presentRun_eq_some {cs : List (Option Nat)} {run : List Nat} (h : presentRun (some cs) = some run) : cs = run.map some := by
  by_cases missing : (cs.any fun c => c.isNone) = true
  · rw [presentRun, if_pos missing] at h
    cases h
  · rw [presentRun, if_neg missing] at h
    cases h
    have present : ∀ c ∈ cs, c.isSome := fun c there => by
      by_contra absent
      exact missing (List.any_eq_true.mpr ⟨c, there, by simpa using absent⟩)
    clear missing
    induction cs with
    | nil => rfl
    | cons c cs ih =>
      obtain ⟨n, rfl⟩ := Option.isSome_iff_exists.mp (present c List.mem_cons_self)
      simpa using ih fun c there => present c (List.mem_cons_of_mem _ there)

section
variable {p : PartConfig} {die row col g : Nat} {run : List Nat}

theorem gangRange_mesh (mesh : p.stitch = 0) : gangRange p die row col g = presentRun (if g ≤ 48 ∧ col + g ≤ p.width then
    some ((List.range g).map fun i => partCoreAt p die row (col + i)) else none) := by
  unfold gangRange
  rw [mesh]
  rfl

theorem gangRange_ring (ring : p.stitch = 1) : gangRange p die row col g = presentRun (if g ≤ p.width then
    some ((List.range g).map fun i => partCoreAt p die row ((col + i) % p.width)) else none) := by
  unfold gangRange
  rw [ring]
  rfl

theorem gangRange_snake (snake : p.stitch = 2) : gangRange p die row col g = presentRun (if g ≤ min 192 (p.dies * p.height * p.width) then
    some ((List.range g).map fun i => ringCore p ((die * p.height * p.width + row * p.width + (if row % 2 = 0 then col else p.width - 1 - col) + i)
      % (p.dies * p.height * p.width))) else none) := by
  unfold gangRange
  rw [snake]
  rfl

theorem gangRange_tree (tree : p.stitch = 3) : gangRange p die row col g = presentRun (if g ≤ 6 ∧ (treePath g col).length = g then
    some ((treePath g col).map fun c => partCoreAt p die row c) else none) := by
  unfold gangRange
  rw [tree]
  rfl

/-- A run that a condition admits is of the cores that are its members, and the condition holds. -/
theorem presentRun_ite {b : Prop} [Decidable b] {cs : List (Option Nat)} (h : presentRun (if b then some cs else none) = some run) :
    b ∧ cs = run.map some := by
  by_cases admitted : b
  · rw [if_pos admitted] at h
    exact ⟨admitted, presentRun_eq_some h⟩
  · rw [if_neg admitted] at h
    cases h

/-- The members of a run whose i-th core a function gives. -/
theorem run_of_range {f : Nat → Option Nat} (h : (List.range g).map f = run.map some) : run.length = g ∧ ∀ i, i < g → run[i]? = f i := by
  refine ⟨by simpa using (congrArg List.length h).symm, fun i lower => ?_⟩
  have at_i := congrArg (fun l => l[i]?) h
  simp only [List.getElem?_map, List.getElem?_range lower, Option.map_some] at at_i
  obtain ⟨n, there, same⟩ := Option.map_eq_some_iff.mp at_i.symm
  rw [there, same]

end

/-- A path to the root begins at its column. -/
theorem treePath_head {g : Nat} (some : 0 < g) (col : Nat) : (treePath g col)[0]? = .some col := by
  obtain ⟨n, rfl⟩ := Nat.exists_eq_succ_of_ne_zero (Nat.ne_of_gt some)
  rfl

/-- Each column of a path is the parent of the one before. -/
theorem treePath_parent : ∀ (g col i : Nat) {a b : Nat}, (treePath g col)[i]? = some a → (treePath g col)[i + 1]? = some b → 0 < a ∧ b = (a - 1) / 2
  | 0, _, _, _, _, h, _ => by cases h
  | g + 1, col, i, a, b, here, next => by
    rw [treePath, List.getElem?_cons_succ] at next
    by_cases root : col = 0
    · rw [if_pos root] at next
      cases next
    · rw [if_neg root] at next
      cases i with
      | zero =>
        cases here
        cases g with
        | zero => cases next
        | succ g =>
          cases next
          exact ⟨Nat.pos_of_ne_zero root, rfl⟩
      | succ i =>
        rw [treePath, List.getElem?_cons_succ, if_neg root] at here
        exact treePath_parent g _ i here next

section
variable {p : PartConfig} {die row col g : Nat} {run : List Nat} (found : gangRange p die row col g = some run)
include found

theorem gangRange_mesh_members (mesh : p.stitch = 0) :
    (g ≤ 48 ∧ col + g ≤ p.width) ∧ run.length = g ∧ ∀ i, i < g → run[i]? = partCoreAt p die row (col + i) :=
  (presentRun_ite ((gangRange_mesh mesh).symm.trans found)).imp_right run_of_range

theorem gangRange_ring_members (ring : p.stitch = 1) :
    g ≤ p.width ∧ run.length = g ∧ ∀ i, i < g → run[i]? = partCoreAt p die row ((col + i) % p.width) :=
  (presentRun_ite ((gangRange_ring ring).symm.trans found)).imp_right run_of_range

theorem gangRange_snake_members (snake : p.stitch = 2) :
    g ≤ min 192 (p.dies * p.height * p.width) ∧ run.length = g ∧ ∀ i, i < g → run[i]? =
      ringCore p ((die * (p.height * p.width) + row * p.width + (if row % 2 = 0 then col else p.width - 1 - col) + i) % (p.dies * p.height * p.width)) := by
  rw [← Nat.mul_assoc]
  exact (presentRun_ite ((gangRange_snake snake).symm.trans found)).imp_right run_of_range

theorem gangRange_tree_members (tree : p.stitch = 3) :
    (g ≤ 6 ∧ (treePath g col).length = g) ∧ run.length = g ∧ ∀ i, i < g → run[i]? = (treePath g col)[i]?.bind (partCoreAt p die row) := by
  obtain ⟨⟨narrow, whole⟩, members⟩ := presentRun_ite ((gangRange_tree tree).symm.trans found)
  refine ⟨⟨narrow, whole⟩, by simpa [whole] using (congrArg List.length members).symm, fun i _ => ?_⟩
  have at_i : ((treePath g col).map fun c => partCoreAt p die row c)[i]? = (run.map some)[i]? := by rw [members]
  rw [List.getElem?_map, List.getElem?_map] at at_i
  calc run[i]? = (run[i]?.map some).join := by cases run[i]? <;> rfl
    _ = ((treePath g col)[i]?.map fun c => partCoreAt p die row c).join := by rw [at_i]
    _ = (treePath g col)[i]?.bind (partCoreAt p die row) := by cases (treePath g col)[i]? <;> rfl

/-- A run has as many cores as it is wide. -/
theorem length_of_gangRange : run.length = g := by
  have modes : ∀ stitch : BitVec 2, stitch = 0 ∨ stitch = 1 ∨ stitch = 2 ∨ stitch = 3 := by decide
  rcases modes p.stitch with mesh | ring | snake | tree
  · exact (gangRange_mesh_members found mesh).2.1
  · exact (gangRange_ring_members found ring).2.1
  · exact (gangRange_snake_members found snake).2.1
  · exact (gangRange_tree_members found tree).2.1

end

/-! ## Forming a gang (R188) -/

/-- A change of each of some cores by its place leaves the others. -/
theorem State.coreById_foldl_zipIdx_other {f : Nat → Core → Core} (hf : ∀ i c, (f i c).id = c.id) {n : Nat} :
    ∀ (cores : List Nat) (k : Nat) (s : State), n ∉ cores → ((cores.zipIdx k).foldl (fun s x => s.modCoreId x.1 (f x.2)) s).coreById n = s.coreById n
  | [], _, _, _ => rfl
  | m :: cores, k, s, out => by
    rw [List.mem_cons, not_or] at out
    obtain ⟨other, out⟩ := out
    rw [List.zipIdx_cons, List.foldl_cons, State.coreById_foldl_zipIdx_other hf cores (k + 1) _ out, State.coreById_modCoreId (hf k)]
    simp [other]

/-- A change of each of some different cores by its place is made once to each. -/
theorem State.coreById_foldl_zipIdx {f : Nat → Core → Core} (hf : ∀ i c, (f i c).id = c.id) {n : Nat} {c : Core} :
    ∀ (cores : List Nat) (k i : Nat) (s : State), cores.Nodup → cores[i]? = some n → s.coreById n = some c →
      ((cores.zipIdx k).foldl (fun s x => s.modCoreId x.1 (f x.2)) s).coreById n = some (f (k + i) c)
  | [], _, _, _, _, h, _ => by cases h
  | m :: cores, k, i, s, different, place, there => by
    obtain ⟨out, different⟩ := List.nodup_cons.mp different
    rw [List.zipIdx_cons, List.foldl_cons]
    cases i with
    | zero =>
      cases place
      rw [State.coreById_foldl_zipIdx_other hf cores (k + 1) _ out, State.coreById_modCoreId (hf k), there]
      simp
    | succ i =>
      rw [List.getElem?_cons_succ] at place
      have other : n ≠ m := fun same => out (same ▸ List.mem_of_getElem? place)
      have kept : (s.modCoreId m (f k)).coreById n = some c := by
        rw [State.coreById_modCoreId (hf k), there]
        simp [other]
      rw [State.coreById_foldl_zipIdx hf cores (k + 1) i _ different place kept, Nat.add_right_comm]
      rfl

section
variable {s : State} {cores : List Nat} {i n : Nat} {c : Core}

/-- Each core of a gang that forms has its link, and begins in the stream at its place (R186, R188). -/
theorem State.coreById_formGang (different : cores.Nodup) (place : cores[i]? = some n) (there : s.coreById n = some c) (id : Byte) (code : Nat)
    (lnum : BitVec 12) (part : BitVec 6) (pc : Word) :
    (s.formGang cores id code lnum part pc).coreById n = some { c.unhold with
      link := some { gang := s.dev.gangCount, pos := i, gid := id, lnum := lnum }
      ctx := { c.ctx with
        gang := gangWord id code (if i = 0 then 1 else 2) cores.length i
        pc := if i = 0 then c.ctx.pc else pc } } := by
  have linked := State.coreById_foldl_zipIdx (f := fun i c => { c with link := some { gang := s.dev.gangCount, pos := i, gid := id, lnum := lnum } })
    (fun _ _ => rfl) cores 0 i
    (s.modDev fun d => { d with gangs := d.gangs ++ [Gang.new s.dev.gangCount cores id code lnum part], gangCount := s.dev.gangCount + 1 })
    different place there
  have begun := State.coreById_foldl_zipIdx (f := fun i c => { c.unhold with
    ctx := { c.ctx with
      gang := gangWord id code (if i = 0 then 1 else 2) cores.length i
      pc := if i = 0 then c.ctx.pc else pc } }) (fun _ _ => rfl) cores 0 i _ different place linked
  rw [Nat.zero_add] at begun
  exact begun

end

/-! ## Splitting a gang (R190) -/

/-- The core in focus is of no gang. -/
def State.independent (s : State) : Prop := s.ctx.gang = gangIndependent ∧ s.core.link = none

/-- A core that is freed of its gang is independent, and so is one that was before another is freed. -/
theorem State.independent_freeMember {s : State} {n : Nat} (num pos : Nat) (h : s.independent ∨ s.core.id = n ∧ s.ctx.gangMode ≠ 0) :
    (s.freeMember n num pos).independent := by
  show (s.modCoreId n _).ctx.gang = _ ∧ (s.modCoreId n _).core.link = none
  unfold State.modCoreId
  by_cases mine : s.core.id = n
  · rw [if_pos mine]
    refine ⟨?_, rfl⟩
    rcases h with ⟨independent, -⟩ | ⟨-, member⟩
    · have alone : s.ctx.gangMode = 0 := by rw [Ctx.gangMode, independent]; rfl
      exact (congrArg Ctx.gang (if_pos alone)).trans independent
    · exact congrArg Ctx.gang (if_neg member)
  · rw [if_neg mine]
    exact h.resolve_right fun ⟨same, _⟩ => mine same

theorem State.independent_splitGang {s : State} {l : GangLink} (link : s.core.link = some l) (member : s.ctx.gangMode ≠ 0) : s.splitGang.independent := by
  unfold State.splitGang
  rw [link]
  dsimp only
  generalize (if s.core.ctx.gangMode = 1 then s.gang? l.gang else none) = gang
  cases gang with
  | none => exact State.independent_freeMember _ _ (.inr ⟨rfl, member⟩)
  | some g =>
    exact List.foldlRecOn (motive := State.independent) _ _ (State.independent_freeMember (s := s.keepFormer g) _ _ (.inr ⟨rfl, member⟩))
      fun t alone m _ => State.independent_freeMember _ _ (.inl alone)

end Sys2Proof.Machine
end

section
/-!
PROOFS. The gang instructions: their GANG_STATE traps in their order (R192), and what they do where none is taken (R188 to R191, R197 to R200, R382,
R383).
-/

namespace Sys2Proof.Machine

/-! ## Traps of the gang instructions (R192, R202) -/

/-- KINFO of a GANG_STATE trap: the request word without its top byte, which is the reason. -/
def gangInfo (reason : Nat) (word : Word) : Word := (word &&& 0x00FF_FFFF_FFFF_FFFF) ||| BitVec.ofNat 64 (reason * 2 ^ 56)

theorem putBits_reason {reason : Nat} (small : reason < 2 ^ 8) (word : Word) : putBits word 56 8 reason = gangInfo reason word := by
  have cleared : ~~~(BitVec.ofNat 64 (2 ^ 8 - 1) <<< 56) = (0x00FF_FFFF_FFFF_FFFF : Word) := by decide
  have placed : BitVec.ofNat 64 (reason % 2 ^ 8) <<< 56 = BitVec.ofNat 64 (reason * 2 ^ 56) := by
    apply BitVec.eq_of_toNat_eq
    rw [BitVec.toNat_shiftLeft, Nat.mod_eq_of_lt small, BitVec.toNat_ofNat, BitVec.toNat_ofNat, Nat.shiftLeft_eq]
    omega
  rw [putBits, cleared, placed, gangInfo]

theorem run_trapGang {α : Type} {reason : Nat} (small : reason < 2 ^ 8) (word : Word) (s : State) :
    (trapGang reason word : Act α) s = .error (.trap cGangState (gangInfo reason word) .here) s := by
  rw [← putBits_reason small]
  rfl

theorem State.memberHeld_iff (s : State) : s.memberHeld = true ↔ ∃ h, s.core.heldAt = some h ∧ h.stream = true ∧ s.ctx.gangMode ≠ 0 := by
  unfold State.memberHeld
  cases s.core.heldAt <;> simp

section
variable {s : State}

theorem State.memberHeld_of_unheld (free : s.core.heldAt = none) : s.memberHeld = false := by simp [State.memberHeld, free]

theorem State.memberHeld_of_alone (alone : s.ctx.gangMode = 0) : s.memberHeld = false := by simp [State.memberHeld, alone]

theorem run_notHeld (free : s.memberHeld = false) (word : Word) : notHeld word s = .ok () s := by
  unfold notHeld
  rw [run_bind_ok (run_get s), if_neg (Bool.eq_false_iff.mp free)]
  rfl

/-- Reason 7. -/
theorem run_notHeld_traps (held : s.memberHeld = true) (word : Word) : notHeld word s = .error (.trap cGangState (gangInfo 7 word) .here) s := by
  unfold notHeld
  rw [run_bind_ok (run_get s), if_pos held]
  exact run_trapGang (by decide) word s

theorem State.ownLink_of_alone (alone : s.ctx.gangMode = 0) : s.ownLink = none := if_pos alone

theorem State.ownLink_of_member {l : GangLink} (member : s.ctx.gangMode ≠ 0) (link : s.core.link = some l) : s.ownLink = some l :=
  (if_neg member).trans link

theorem run_poisonCheck {l : GangLink} (sound : (s.memberAt l).bind (fun m => m.poison) = none) : poisonCheck l s = .ok () s := by
  unfold poisonCheck
  rw [run_bind_ok (run_get s), sound]
  rfl

theorem run_acquireFence (idle : s.resultsPending = false) : acquireFence s = .ok () (s.modCtx fun c => { c with pieces := [] }) := by
  unfold acquireFence
  rw [run_bind_ok (run_get s), if_neg (Bool.eq_false_iff.mp idle)]
  rfl

end

theorem bits_upper_eq_zero_iff (w : Word) : bits w 24 40 = 0 ↔ w.toNat / 2 ^ 24 = 0 := by
  have small := w.isLt
  unfold bits
  omega

/-! ## GFORM and GJOIN (R188, R189, R192) -/

/-- What GFORM does with its request word at a core of no gang. -/
def formation (s : State) (w : Word) : Act Unit := do
  if bits w 24 40 ≠ 0 ∨ bits w 10 6 ≠ 0 ∨ bits w 8 2 = 3 ∨ bits w 0 8 = 0 then trapGang 2 w
  match s.rangeOf (bits w 0 8) with
  | none => trapGang 3 w
  | some cores =>
    let id : Byte := BitVec.ofNat 8 (bits w 16 8)
    let others := (cores.drop 1).map (s.rangeCore id s.ctx.lnum)
    if others.contains .conflict then trapGang 4 w
    if others.contains .wait then holdFor .gform
    modify fun s => s.formGang cores id (bits w 8 2) s.ctx.lnum s.core.part (s.ctx.pc + 4)

/-- What GJOIN does with its request word at a core of no gang. -/
def joining (w : Word) : Act Unit := do
  if bits w 24 40 ≠ 0 ∨ bits w 0 16 ≠ 0 then trapGang 2 w
  holdFor (.gjoin (BitVec.ofNat 8 (bits w 16 8)))

/-- The request word of a GFORM is a width from 1 up, a skew and an id (R192). -/
def formRequest (w : Word) : Prop := w.toNat / 2 ^ 24 = 0 ∧ w.toNat / 2 ^ 10 % 2 ^ 6 = 0 ∧ w.toNat / 2 ^ 8 % 4 ≠ 3 ∧ w.toNat % 2 ^ 8 ≠ 0

theorem formRequest_iff (w : Word) : formRequest w ↔ ¬(bits w 24 40 ≠ 0 ∨ bits w 10 6 ≠ 0 ∨ bits w 8 2 = 3 ∨ bits w 0 8 = 0) := by
  rw [bits_zero, not_or, not_or, not_or, not_not, not_not, bits_upper_eq_zero_iff]
  rfl

/-- Whether one of some cores of a range is as far as asked. -/
theorem contains_rangeCore_iff {s : State} {id : Byte} {cores : List Nat} {r : RangeCore} :
    (cores.map (s.rangeCore id s.ctx.lnum)).contains r = true ↔ ∃ m ∈ cores, s.rangeCore id s.ctx.lnum m = r := by
  rw [List.contains_iff_mem, List.mem_map]

section
variable {s : State} {w : Word}

theorem run_formation_reserved (reserved : ¬formRequest w) : formation s w s = .error (.trap cGangState (gangInfo 2 w) .here) s := by
  rw [formRequest_iff, not_not] at reserved
  exact run_stops reserved (run_trapGang (by decide) w s)

variable (request : formRequest w)
include request

theorem run_formation_nowhere (nowhere : s.rangeOf (w.toNat % 2 ^ 8) = none) : formation s w s = .error (.trap cGangState (gangInfo 3 w) .here) s := by
  unfold formation
  rw [if_neg ((formRequest_iff w).mp request), bits_zero, nowhere]
  exact run_trapGang (by decide) w s

variable {cores : List Nat} (range : s.rangeOf (w.toNat % 2 ^ 8) = some cores)
include range

theorem run_formation_conflict (conflict : ∃ m ∈ cores.drop 1, s.rangeCore (BitVec.ofNat 8 (bits w 16 8)) s.ctx.lnum m = .conflict) :
    formation s w s = .error (.trap cGangState (gangInfo 4 w) .here) s := by
  unfold formation
  rw [if_neg ((formRequest_iff w).mp request), bits_zero, range]
  exact run_stops (contains_rangeCore_iff.mpr conflict) (run_trapGang (by decide) w s)

theorem run_formation_waits (none : ∀ m ∈ cores.drop 1, s.rangeCore (BitVec.ofNat 8 (bits w 16 8)) s.ctx.lnum m ≠ .conflict)
    (waits : ∃ m ∈ cores.drop 1, s.rangeCore (BitVec.ofNat 8 (bits w 16 8)) s.ctx.lnum m = .wait) : formation s w s = .error (.hold .gform) s := by
  unfold formation
  rw [if_neg ((formRequest_iff w).mp request), bits_zero, range]
  dsimp only
  rw [if_neg (contains_rangeCore_iff.not.mpr fun ⟨m, there, same⟩ => none m there same)]
  exact run_stops (contains_rangeCore_iff.mpr waits) (run_holdFor _ s)

theorem run_formation_ok (ready : ∀ m ∈ cores.drop 1, s.rangeCore (BitVec.ofNat 8 (bits w 16 8)) s.ctx.lnum m = .ready) :
    formation s w s = .ok () (s.formGang cores (BitVec.ofNat 8 (bits w 16 8)) (bits w 8 2) s.ctx.lnum s.core.part (s.ctx.pc + 4)) := by
  have never {r : RangeCore} (other : r ≠ .ready) :
      ¬((cores.drop 1).map (s.rangeCore (BitVec.ofNat 8 (bits w 16 8)) s.ctx.lnum)).contains r = true :=
    contains_rangeCore_iff.not.mpr fun ⟨m, there, same⟩ => other (same.symm.trans (ready m there))
  unfold formation
  rw [if_neg ((formRequest_iff w).mp request), bits_zero, range]
  dsimp only
  rw [if_neg (never (by decide)), if_neg (never (by decide))]
  rfl

end

section
variable {s : State} {rs : Reg}

/-- At a core of no gang, GFORM and GJOIN look at their request word. -/
theorem exec_gform (alone : s.ctx.gangMode = 0) (unlinked : s.core.link = none) :
    exec (.gform rs) s = runSeq (.gform rs) (formation s (s.ctx.getX rs)) s := by
  refine runSeq_congr ?_
  rw [run_bind_ok (run_getX rs s), run_bind_ok (run_notHeld (State.memberHeld_of_alone alone) _), run_bind_ok (run_get s),
    if_neg (by simp [alone, unlinked])]
  rfl

theorem exec_gjoin (alone : s.ctx.gangMode = 0) (unlinked : s.core.link = none) :
    exec (.gjoin rs) s = runSeq (.gjoin rs) (joining (s.ctx.getX rs)) s := by
  refine runSeq_congr ?_
  rw [run_bind_ok (run_getX rs s), run_bind_ok (run_notHeld (State.memberHeld_of_alone alone) _), run_bind_ok (run_get s),
    if_neg (by simp [alone, unlinked])]
  rfl

theorem joinReserved_iff (w : Word) : (bits w 24 40 ≠ 0 ∨ bits w 0 16 ≠ 0) ↔ w.toNat / 2 ^ 24 ≠ 0 ∨ w.toNat % 2 ^ 16 ≠ 0 := by
  rw [bits_zero, Ne, bits_upper_eq_zero_iff]

theorem run_joining_reserved {w : Word} (reserved : w.toNat / 2 ^ 24 ≠ 0 ∨ w.toNat % 2 ^ 16 ≠ 0) :
    joining w s = .error (.trap cGangState (gangInfo 2 w) .here) s :=
  run_stops ((joinReserved_iff w).mpr reserved) (run_trapGang (by decide) w s)

theorem run_joining {w : Word} (high : w.toNat / 2 ^ 24 = 0) (low : w.toNat % 2 ^ 16 = 0) :
    joining w s = .error (.hold (.gjoin (BitVec.ofNat 8 (bits w 16 8)))) s := by
  have sound : ¬(bits w 24 40 ≠ 0 ∨ bits w 0 16 ≠ 0) := (joinReserved_iff w).not.mpr fun h => h.elim (· high) (· low)
  unfold joining
  rw [if_neg sound]
  rfl

end

/-! ## GLEAVE, GSPLIT and GDET (R190, R191, R198) -/

section
variable {s : State} {rs : Reg} (free : s.memberHeld = false)
include free

theorem exec_gleave_stays (stays : s.ctx.getX rs = 0 ∨ s.ctx.gangMode = 0) : s.completes (.gleave rs) .seq s := by
  refine runSeq_ok ?_
  rw [run_bind_ok (run_notHeld free 0), run_bind_ok (run_getX rs s), run_bind_ok (run_get s), if_neg (by rcases stays with h | h <;> simp [h])]
  exact run_unless (by rcases stays with h | h <;> simp [h])

theorem exec_gleave_leaves (asked : s.ctx.getX rs ≠ 0) (member : s.ctx.gangMode = 2 ∨ s.ctx.gangMode = 3) :
    s.completes (.gleave rs) .seq (s.leaveGang s.core.id) := by
  refine runSeq_ok ?_
  rw [run_bind_ok (run_notHeld free 0), run_bind_ok (run_getX rs s), run_bind_ok (run_get s), if_neg (by rcases member with h | h <;> simp [h])]
  dsimp only
  rw [if_pos ⟨by rcases member with h | h <;> simp [h], asked⟩]
  rfl

theorem exec_gsplit_splits (member : s.ctx.gangMode = 1 ∨ s.ctx.gangMode = 2) : s.completes .gsplit .seq s.splitGang := by
  refine runSeq_ok ?_
  rw [run_bind_ok (run_notHeld free 0), run_bind_ok (run_get s), if_pos member]
  rfl

theorem exec_gsplit_stays (other : s.ctx.gangMode = 0 ∨ s.ctx.gangMode = 3) : s.completes .gsplit .seq s := by
  refine runSeq_ok ?_
  rw [run_bind_ok (run_notHeld free 0), run_bind_ok (run_get s), if_neg (by rcases other with h | h <;> simp [h])]
  rfl

theorem exec_gdet_stays (stays : s.ctx.getX rs = 0 ∨ s.ctx.gangMode ≠ 2) : s.completes (.gdet rs) .seq s := by
  refine runSeq_ok ?_
  rw [run_bind_ok (run_notHeld free 0), run_bind_ok (run_getX rs s), run_bind_ok (run_get s)]
  cases s.ownLink with
  | none => rfl
  | some l => exact congrFun (if_neg fun ⟨attached, asked⟩ => stays.elim asked (absurd attached)) s

variable {l : GangLink} (link : s.core.link = some l)
include link

theorem exec_gdet_detaches (attached : s.ctx.gangMode = 2) (asked : s.ctx.getX rs ≠ 0) : s.completes (.gdet rs) .seq (s.detach l) := by
  refine runSeq_ok ?_
  rw [run_bind_ok (run_notHeld free 0), run_bind_ok (run_getX rs s), run_bind_ok (run_get s), State.ownLink_of_member (by simp [attached]) link]
  exact congrFun (if_pos ⟨attached, asked⟩) s

end

/-! ## GATT and RJP (R199) -/

section
variable {s : State} {id : BitVec 8} (free : s.memberHeld = false)
include free

theorem exec_rjp_passes (passes : s.ctx.gangMode = 0 ∨ s.ctx.gangMode = 2) : s.completes (.rjp id) .seq s := by
  refine runSeq_ok ?_
  rw [run_bind_ok (run_notHeld free 0), run_bind_ok (run_get s)]
  cases s.ownLink with
  | none => rfl
  | some l => exact congrFun (if_neg (by rcases passes with h | h <;> simp [h])) s

variable {l : GangLink} (link : s.core.link = some l)
include link

theorem exec_gatt_passes (passes : s.ctx.gangMode = 1 ∨ s.ctx.gangMode = 2) : s.completes (.gatt id) .seq s := by
  refine runFlow_ok ?_
  rw [run_bind_ok (run_notHeld free 0), run_bind_ok (run_get s), State.ownLink_of_member (by rcases passes with h | h <;> simp [h]) link]
  exact congrFun (if_pos (by rcases passes with h | h <;> simp [h])) s

variable (sound : (s.memberAt l).bind (fun m => m.poison) = none)
include sound

theorem exec_rjp_holds (leads : s.ctx.gangMode = 1) :
    s.completes (.rjp id) .seq (s.modGang l.gang fun g => { g with hold := .rjp id g.nextK (s.ctx.pc + 4) }) := by
  refine runSeq_ok ?_
  rw [run_bind_ok (run_notHeld free 0), run_bind_ok (run_get s), State.ownLink_of_member (by simp [leads]) link]
  dsimp only
  rw [if_pos leads]
  exact (run_bind_ok (run_poisonCheck sound)).trans rfl

/-- A detached member at GATT, with its arrival there booked. -/
def State.parkedAt (s : State) (l : GangLink) (id : BitVec 8) : State :=
  (s.modGang l.gang fun g => g.modMember l.pos fun m => { m with parked := some id }).gangTick l.gang

theorem exec_gatt_waits (detached : s.ctx.gangMode = 3) (stays : (s.parkedAt l id).ctx.gangMode = 3) :
    s.waits (.gatt id) (.gatt id) (s.parkedAt l id) := by
  refine runFlow_hold ?_
  rw [run_bind_ok (run_notHeld free 0), run_bind_ok (run_get s), State.ownLink_of_member (by simp [detached]) link]
  dsimp only
  rw [if_neg (not_not.mpr detached)]
  refine (run_bind_ok (run_poisonCheck sound)).trans ((run_bind_ok (run_modify _ s)).trans ((run_bind_ok (run_getCtx _)).trans ?_))
  exact run_stops stays (run_holdFor _ _)

theorem exec_gatt_rejoins (detached : s.ctx.gangMode = 3) (back : (s.parkedAt l id).ctx.gangMode ≠ 3) :
    s.completes (.gatt id) .stay (s.parkedAt l id) := by
  refine runFlow_ok ?_
  rw [run_bind_ok (run_notHeld free 0), run_bind_ok (run_get s), State.ownLink_of_member (by simp [detached]) link]
  dsimp only
  rw [if_neg (not_not.mpr detached)]
  refine (run_bind_ok (run_poisonCheck sound)).trans ((run_bind_ok (run_modify _ s)).trans ((run_bind_ok (run_getCtx _)).trans ?_))
  exact run_unless back

end

/-! ## GBAR (R200) -/

/-- A member at GBAR whose fences are met: its stream pieces are discarded, and it has arrived. -/
def State.arrivedAt (s : State) (l : GangLink) : State := (s.modCtx fun c => { c with pieces := [] }).arriveBar l

/-- What a member does once it has arrived: a detached one waits where the barrier is not complete. -/
def passBarrier (s : State) (l : GangLink) : Act Flow := do
  if s.ctx.gangMode = 3 then
    if ((← get).memberAt l).any fun m => m.atBar then holdFor .gbar
    modify fun s => s.gangTick l.gang
    return if s.core.hold = .gbar then .stay else .seq
  modify fun s => s.gangTick l.gang
  return .seq

/-- Two bodies that run alike at a state make the same step of it, wherever they go on. -/
theorem runFlow_congr {i : Instr} {body body' : Act Flow} {s : State} (h : body s = body' s) : runFlow i body s = runFlow i body' s := by
  unfold runFlow
  rw [h]

section
variable {s : State} (free : s.memberHeld = false)
include free

section
variable (met : s.releaseMet .gang = true) (performed : s.commPending s.core.id = false) (idle : s.resultsPending = false)
include met performed idle

theorem exec_gbar_alone (alone : s.ctx.gangMode = 0) : s.completes .gbar .seq (s.modCtx fun c => { c with pieces := [] }) := by
  refine runFlow_ok ?_
  rw [run_bind_ok (run_notHeld free 0), run_bind_ok (run_get s), State.ownLink_of_alone alone]
  exact (run_bind_ok (run_releaseFence met performed)).trans (run_bind_ok (run_acquireFence idle))

variable {l : GangLink} (member : s.ctx.gangMode ≠ 0) (link : s.core.link = some l) (sound : (s.memberAt l).bind (fun m => m.poison) = none)
include member link sound

/-- A member whose last arrival is over arrives. -/
theorem exec_gbar_arrives (next : ¬(s.ctx.gangMode = 3 ∧ s.core.hold ≠ .gbar ∧ (s.memberAt l).any (fun m => m.atBar) = true)) :
    exec .gbar s = runFlow .gbar (fun _ => passBarrier s l (s.arrivedAt l)) s := by
  refine runFlow_congr ?_
  rw [run_bind_ok (run_notHeld free 0), run_bind_ok (run_get s), State.ownLink_of_member member link]
  dsimp only
  rw [run_bind_ok (run_poisonCheck sound), if_neg next]
  exact (run_bind_ok (run_releaseFence met performed)).trans ((run_bind_ok (run_acquireFence idle)).trans (run_bind_ok (run_modify _ _)))

end

/-- A detached member that has arrived in its slot waits for the next barrier. -/
theorem exec_gbar_early {l : GangLink} (detached : s.ctx.gangMode = 3) (link : s.core.link = some l)
    (sound : (s.memberAt l).bind (fun m => m.poison) = none) (fresh : s.core.hold ≠ .gbar) (booked : (s.memberAt l).any (fun m => m.atBar) = true) :
    s.waits .gbar .retry s := by
  refine runFlow_hold ?_
  rw [run_bind_ok (run_notHeld free 0), run_bind_ok (run_get s), State.ownLink_of_member (by simp [detached]) link]
  exact (run_bind_ok (run_poisonCheck sound)).trans (run_stops ⟨detached, fresh, booked⟩ (run_holdFor _ s))

end

section
variable {s t : State} {l : GangLink}

theorem run_passBarrier_stream (stream : s.ctx.gangMode ≠ 3) : passBarrier s l t = .ok .seq (t.gangTick l.gang) := by
  unfold passBarrier
  rw [if_neg stream]
  rfl

theorem run_passBarrier_waits (detached : s.ctx.gangMode = 3) (waits : (t.memberAt l).any (fun m => m.atBar) = true) :
    passBarrier s l t = .error (.hold .gbar) t := by
  unfold passBarrier
  rw [if_pos detached]
  exact (run_bind_ok (run_get t)).trans (run_stops waits (run_holdFor _ t))

theorem run_passBarrier_passes (detached : s.ctx.gangMode = 3) (complete : ¬(t.memberAt l).any (fun m => m.atBar) = true) :
    passBarrier s l t = .ok (if s.core.hold = .gbar then .stay else .seq) (t.gangTick l.gang) := by
  unfold passBarrier
  rw [if_pos detached]
  exact (run_bind_ok (run_get t)).trans (run_unless complete)

end

/-! ## The traps (R192) -/

section
variable {s : State} {rs : Reg} {id : BitVec 8}

/-- Reason 7: every gang instruction of a held member traps. -/
theorem exec_gang_held (held : s.memberHeld = true) (idle : s.resultsPending = false) :
    let reason (i : Instr) (word : Word) : Prop := s.traps i 21 (gangInfo 7 word) s.ctx.pc s
    reason (.gform rs) (s.ctx.getX rs) ∧ reason (.gjoin rs) (s.ctx.getX rs) ∧ reason (.gleave rs) 0 ∧ reason .gsplit 0 ∧ reason (.gdet rs) 0 ∧
      reason (.gatt id) 0 ∧ reason (.rjp id) 0 ∧ reason .gbar 0 := by
  have stops (word : Word) := run_notHeld_traps held word
  have asked {f : Unit → Act Unit} : (getX rs >>= fun w => notHeld w >>= f) s = .error (.trap cGangState (gangInfo 7 (s.ctx.getX rs)) .here) s :=
    (run_bind_ok (run_getX rs s)).trans (run_bind_error (stops _))
  refine ⟨?_, ?_, ?_, ?_, ?_, ?_, ?_, ?_⟩
  · exact runSeq_trap asked idle
  · exact runSeq_trap asked idle
  · exact runSeq_trap (run_bind_error (stops 0)) idle
  · exact runSeq_trap (run_bind_error (stops 0)) idle
  · exact runSeq_trap (run_bind_error (stops 0)) idle
  · exact runFlow_trap (run_bind_error (stops 0)) idle
  · exact runSeq_trap (run_bind_error (stops 0)) idle
  · exact runFlow_trap (run_bind_error (stops 0)) idle

variable (free : s.memberHeld = false) (idle : s.resultsPending = false)
include free idle

/-- Reason 1: the core has a gang, or retains one's link. -/
theorem exec_gform_member (member : s.ctx.gangMode ≠ 0 ∨ s.core.link.isSome = true) :
    s.traps (.gform rs) 21 (gangInfo 1 (s.ctx.getX rs)) s.ctx.pc s := by
  refine runSeq_trap (r := .here) ?_ idle
  rw [run_bind_ok (run_getX rs s), run_bind_ok (run_notHeld free _), run_bind_ok (run_get s)]
  exact run_stops member (run_trapGang (by decide) _ s)

theorem exec_gjoin_member (member : s.ctx.gangMode ≠ 0 ∨ s.core.link.isSome = true) :
    s.traps (.gjoin rs) 21 (gangInfo 1 (s.ctx.getX rs)) s.ctx.pc s := by
  refine runSeq_trap (r := .here) ?_ idle
  rw [run_bind_ok (run_getX rs s), run_bind_ok (run_notHeld free _), run_bind_ok (run_get s)]
  exact run_stops member (run_trapGang (by decide) _ s)

/-- Reasons 5 and 8: a GATT of no gang, or of one that has dissolved while it waited. -/
theorem exec_gatt_alone (alone : s.ctx.gangMode = 0) :
    s.traps (.gatt id) 21 (gangInfo (if s.core.hold = .gatt id then 5 else 8) 0) s.ctx.pc s := by
  refine runFlow_trap (r := .here) ?_ idle
  rw [run_bind_ok (run_notHeld free 0), run_bind_ok (run_get s), State.ownLink_of_alone alone]
  exact run_trapGang (by split <;> decide) 0 s

/-- Reason 6: a leader does not leave. -/
theorem exec_gleave_leader (leads : s.ctx.gangMode = 1) (asked : s.ctx.getX rs ≠ 0) : s.traps (.gleave rs) 21 (gangInfo 6 0) s.ctx.pc s := by
  refine runSeq_trap (r := .here) ?_ idle
  rw [run_bind_ok (run_notHeld free 0), run_bind_ok (run_getX rs s), run_bind_ok (run_get s)]
  exact run_stops ⟨leads, asked⟩ (run_trapGang (by decide) 0 s)

end

/-! ## GangResults -/

/-- Settles O49: by what each gang instruction does where it takes no trap, by the traps in their order, and by the cores of a run. -/
theorem gangResults : Obligations.GangResults := by
  unfold Obligations.GangResults
  intro s rs id cores l n i c pc code x gid alone mode
  refine ⟨?form, ?formed, ?join, ?plain, ?detaches, ?attPasses, ?att, ?rjpHolds, ?barAlone, ?bar, ?split, ?traps, ?ranges⟩
  case form =>
    rintro ⟨⟨single, unlinked⟩, high, unused, skew, width, range⟩
    have request : formRequest x := ⟨high, unused, skew, width⟩
    have begins := exec_gform (rs := rs) single unlinked
    exact ⟨fun ready => begins.trans (runSeq_ok (run_formation_ok request range ready)),
      fun peaceful waits => begins.trans (runSeq_hold (run_formation_waits request range peaceful waits))⟩
  case formed => exact fun different place there => State.coreById_formGang different place there id code s.ctx.lnum s.core.part pc
  case join => exact fun ⟨⟨single, unlinked⟩, high, low⟩ => (exec_gjoin single unlinked).trans (runSeq_hold (run_joining high low))
  case plain =>
    intro unheld
    have free := State.memberHeld_of_unheld unheld
    exact ⟨exec_gleave_stays free, fun ⟨asked, member⟩ => exec_gleave_leaves free asked member, exec_gsplit_splits free, exec_gsplit_stays free,
      exec_gdet_stays free, exec_rjp_passes free⟩
  case detaches =>
    rintro ⟨⟨attached, link, unheld, -⟩, asked⟩
    exact exec_gdet_detaches (State.memberHeld_of_unheld unheld) link attached asked
  case attPasses =>
    rintro (⟨leads, link, unheld, -⟩ | ⟨attached, link, unheld, -⟩)
    · exact exec_gatt_passes (State.memberHeld_of_unheld unheld) link (.inl leads)
    · exact exec_gatt_passes (State.memberHeld_of_unheld unheld) link (.inr attached)
  case att =>
    rintro ⟨detached, link, unheld, sound⟩ t
    have free := State.memberHeld_of_unheld unheld
    exact ⟨exec_gatt_waits free link sound detached, exec_gatt_rejoins free link sound detached⟩
  case rjpHolds =>
    rintro ⟨leads, link, unheld, sound⟩
    exact exec_rjp_holds (State.memberHeld_of_unheld unheld) link sound leads
  case barAlone =>
    rintro ⟨single, unheld, met, performed, idle⟩
    exact exec_gbar_alone (State.memberHeld_of_unheld unheld) met performed idle single
  case bar =>
    rintro ⟨met, performed, idle⟩ a waiting
    refine ⟨fun streams => ?_, ?_⟩
    · have stream : ∃ n, n ≠ 0 ∧ n ≠ 3 ∧ mode n := streams.elim (⟨1, by decide, by decide, ·⟩) (⟨2, by decide, by decide, ·⟩)
      obtain ⟨_, some, other, rfl, link, unheld, sound⟩ := stream
      exact (exec_gbar_arrives (State.memberHeld_of_unheld unheld) met performed idle some link sound fun ⟨detached, _⟩ => other detached).trans
        (runFlow_ok (run_passBarrier_stream other))
    · rintro ⟨detached, link, unheld, sound⟩
      have free := State.memberHeld_of_unheld unheld
      refine ⟨fun ⟨fresh, booked⟩ => exec_gbar_early free detached link sound fresh booked, fun next => ?_⟩
      have arrives := exec_gbar_arrives free met performed idle (by simp [detached]) link sound
        fun ⟨_, fresh, booked⟩ => next.elim fresh fun unbooked => absurd (booked.symm.trans unbooked) (by decide)
      exact ⟨fun waits => arrives.trans (runFlow_hold (run_passBarrier_waits detached waits)),
        fun complete => arrives.trans (runFlow_ok (run_passBarrier_passes detached complete))⟩
  case split =>
    rintro (⟨leads, link, -⟩ | ⟨attached, link, -⟩)
    · exact State.independent_splitGang link (by simp [leads])
    · exact State.independent_splitGang link (by simp [attached])
  case traps =>
    intro idle reason held bad
    have heldIff : s.memberHeld = true ↔ held := s.memberHeld_iff
    refine ⟨fun isHeld => exec_gang_held (heldIff.mpr isHeld) idle, fun unheld => ?_⟩
    have free : s.memberHeld = false := Bool.eq_false_iff.mpr (mt heldIff.mp unheld)
    refine ⟨fun member => ⟨exec_gform_member free idle member, exec_gjoin_member free idle member⟩, ?_, exec_gatt_alone free idle,
      fun ⟨leads, asked⟩ => exec_gleave_leader free idle leads asked⟩
    rintro ⟨single, unlinked⟩
    have forms := exec_gform (rs := rs) single unlinked
    have joins := exec_gjoin (rs := rs) single unlinked
    refine ⟨fun reserved => ?_, fun reserved => ?_, ?_⟩
    · have malformed : ¬formRequest x := fun ⟨high, unused, skew, width⟩ => by
        rcases reserved with h | h | h | h
        exacts [h high, h unused, skew h, width h]
      exact forms.trans (runSeq_trap (run_formation_reserved malformed) idle)
    · exact joins.trans (runSeq_trap (run_joining_reserved reserved) idle)
    · rintro ⟨high, unused, skew, width⟩
      have request : formRequest x := ⟨not_not.mp high, unused, skew, width⟩
      exact ⟨fun nowhere => forms.trans (runSeq_trap (run_formation_nowhere request nowhere) idle),
        fun ⟨range, conflict⟩ => forms.trans (runSeq_trap (run_formation_conflict request range conflict) idle)⟩
  case ranges =>
    intro p die row col g run some found index ring
    refine ⟨length_of_gangRange found, fun mesh => ?_, fun wrapped => ?_, fun snake => ?_, fun tree => ?_⟩
    · obtain ⟨⟨narrow, inside⟩, -, members⟩ := gangRange_mesh_members found mesh
      exact ⟨narrow, inside, members⟩
    · obtain ⟨inside, -, members⟩ := gangRange_ring_members found wrapped
      exact ⟨inside, members⟩
    · obtain ⟨inside, -, members⟩ := gangRange_snake_members found snake
      exact ⟨inside, members⟩
    · obtain ⟨⟨narrow, whole⟩, -, members⟩ := gangRange_tree_members found tree
      exact ⟨narrow, treePath g col, whole, treePath_head some col, fun i a b => treePath_parent g col i, members⟩

end Sys2Proof.Machine
end


section
/-!
PROOFS. A backing image at a WP that is not a multiple of 8 ends within a word, which a write-back replaces only in part: where that word holds an
uncorrectable error, the image's last byte is not written (R64, R68, R116).
-/

namespace Sys2Proof.Machine

/-! ## What a write to a bad word leaves, and what its bytes read as (R32, R116) -/

/-- A write leaves the bytes of a bad word that it replaces only in part. -/
theorem Dev.read_writeSound_lost {d : Dev} (wf : Memory.wf d.mem = true) {key x : Nat} {bs : List Byte} (bad : x / 8 ∈ d.bad)
    (met : key / 8 ≤ x / 8 ∧ x / 8 * 8 < key + bs.length) (part : ¬(key ≤ x / 8 * 8 ∧ x / 8 * 8 + 8 ≤ key + bs.length)) :
    Memory.read (d.writeSound key bs).mem x = Memory.read d.mem x := by
  have some : (d.bad.any fun w => decide (key / 8 ≤ w ∧ w * 8 < key + bs.length)) = true :=
    List.any_eq_true.mpr ⟨_, bad, decide_eq_true met⟩
  unfold Dev.writeSound
  rw [if_pos some]
  refine (List.foldlRecOn (motive := fun m => Memory.wf m = true ∧ Memory.read m x = Memory.read d.mem x) _ _ ⟨wf, rfl⟩ ?_).2
  rintro m ⟨wfm, same⟩ ⟨b, i⟩ -
  dsimp only
  split
  · exact ⟨wfm, same⟩
  · next sound =>
    refine ⟨Memory.wf_write wfm _ b, ?_⟩
    have elsewhere : x ≠ key + i := by
      rintro rfl
      exact sound (List.contains_iff_mem.mpr
        (List.mem_filter.mpr ⟨List.mem_filter.mpr ⟨bad, decide_eq_true met⟩, by rw [decide_eq_false part]; rfl⟩))
    rw [Memory.read_write wfm, if_neg elsewhere, same]

@[simp] theorem Dev.cells_writeSound (d : Dev) (key : Nat) (bs : List Byte) : (d.writeSound key bs).cells = d.cells := by
  unfold Dev.writeSound
  split <;> rfl

@[simp] theorem State.dev_pokeRaw (s : State) (key : Nat) (bs : List Byte) : (s.pokeRaw key bs).dev = s.dev.writeSound key bs := rfl

/-- Where no cell has a waiting instruction, a write is all that happens at its home. -/
theorem State.poke_of_no_cells {s : State} (none : s.dev.cells = []) (key : Nat) (bs : List Byte) : s.poke key bs = s.pokeRaw key bs :=
  State.settleCells_of_none (by simp [none])

theorem Dev.mem_writeSound_nil (d : Dev) (key : Nat) : (d.writeSound key []).mem = d.mem := by
  unfold Dev.writeSound
  split <;> rfl

theorem leNat_append_zero : ∀ bs : List Byte, leNat (bs ++ [0]) = leNat bs
  | [] => rfl
  | b :: bs => congrArg (b.toNat + 256 * ·) (leNat_append_zero bs)

theorem leNat_lt : ∀ bs : List Byte, leNat bs < 256 ^ bs.length
  | [] => Nat.one_pos
  | b :: bs => by
    have := leNat_lt bs
    have := b.isLt
    rw [leNat, List.length_cons, Nat.pow_succ]
    omega

theorem Memory.readBytes_succ_last (m : List Host.Cell) : ∀ n a : Nat, readBytes m a (n + 1) = readBytes m a n ++ [read m (a + n)]
  | 0, _ => rfl
  | n + 1, a => by
    rw [readBytes, readBytes_succ_last m n (a + 1), readBytes, List.cons_append, Nat.add_right_comm a 1 n, Nat.add_assoc]

/-- Where the last of some bytes is zero, the bits of its place are clear. -/
theorem State.testBit_peekNat_of_last {s : State} {a n i : Nat} (last : Memory.read s.dev.mem (a + n) = 0) (place : 8 * n ≤ i) :
    (s.peekNat a (n + 1)).testBit i = false := by
  have lt := leNat_lt (Memory.readBytes s.dev.mem a n)
  rw [Memory.length_readBytes] at lt
  rw [State.peekNat, State.peek, Memory.readBytes_succ_last, last, leNat_append_zero]
  refine Nat.testBit_lt_two_pow (lt.trans_le ?_)
  calc 256 ^ n = 2 ^ (8 * n) := (Nat.pow_mul 2 8 n).symm
    _ ≤ 2 ^ i := Nat.pow_le_pow_right (by decide) place

/-- The write-back of a context without tiles writes its workspace alone. -/
theorem State.writeBack_mem_of_no_tiles {s : State} {c : Ctx} (none : s.dev.cells = []) (acn : ppwAcn c.ppw = 0) (wtn : ppwWtn c.ppw = 0)
    (core : Nat) (wp : BitVec 19) (status : Word) :
    (s.writeBack core wp c status).dev.mem = (s.dev.writeSound (poolKey core wp.toNat) (c.workspace c.pc status)).mem := by
  have tiles : c.tileBytes = [] := by simp [Ctx.tileBytes, acn, wtn]
  have image := State.poke_of_no_cells none (poolKey core wp.toNat) (c.workspace c.pc status)
  rw [State.writeBack, State.writeSaveArea, if_pos wtn, tiles, image, State.poke_of_no_cells (by simp [none]), State.dev_pokeRaw,
    Dev.mem_writeSound_nil, State.dev_pokeRaw]

/-- A vector register that an image holds is read from its bytes. -/
theorem State.readImage_getV (s : State) (core : Nat) (wp : BitVec 19) (vregs bregs n : Nat) (lnum : BitVec 12) (reg : n < 32)
    (held : n < vregsAllocated vregs) :
    (s.readImage core wp vregs bregs lnum).1.getV n = BitVec.ofNat 512 (s.peekNat (poolKey core (wp.toNat + 0x400 + 64 * n)) 64) := by
  rw [Ctx.getV, dif_pos reg]
  exact (Vector.getElem_ofFn _).trans (if_pos held)

/-! ## How long a workspace is (R64) -/

theorem length_wordBytes (ws : List Word) : (wordBytes ws).length = 8 * ws.length := by
  simp [wordBytes, Function.comp_def, Nat.mul_comm]

theorem Ctx.length_controlWords (c : Ctx) (resume status : Word) : (c.controlWords resume status).length = 32 := by
  simp [Ctx.controlWords]

/-- Runs of equal length, one for each of n, together. -/
theorem length_flatMap_range {f : Nat → List Byte} {k : Nat} (each : ∀ i, (f i).length = k) (n : Nat) :
    ((List.range n).flatMap f).length = k * n := by
  simp [List.length_flatMap, each, Nat.mul_comm]

/-- A workspace has the size that R64 gives it. -/
theorem Ctx.length_workspace (c : Ctx) (resume status : Word) : (c.workspace resume status).length = workspaceBytes c.vregs c.bregs := by
  have streams : ((List.range 4).flatMap fun i => (c.getSd (BitVec.ofNat 2 i)).words).length = 32 := by
    simp [List.length_flatMap, StreamDesc.words]
  have vectors := length_flatMap_range (fun i => length_leBytes 64 (c.getV i).toNat) (vregsAllocated c.vregs)
  have bits := length_flatMap_range (fun i => length_leBytes 512 (c.getB (BitVec.ofNat 4 i)).bits.toNat) c.bregs
  simp only [Ctx.workspace, List.length_append, length_wordBytes, List.length_map, List.length_range, c.length_controlWords, streams,
    List.length_replicate, vectors, bits, workspaceBytes]

/-! ## Its image, in a concrete state -/

/-- The word in which the image at WP 1 of a context of four vector registers ends. -/
def imageEnd : Nat := (poolKey 4992 0 + 1280) / 8

/-- A core at F, with an uncorrectable error in the word in which an image at WP 1 ends. -/
def State.spoiltEnd : State := State.reset.modDev fun d => { d with bad := [imageEnd] }

/-- A context whose workspace is the pool's first granule, and whose vector registers are all ones. -/
def Ctx.allOnes : Ctx := { Ctx.blank 1 0 0 0 with ppw := makePpw 0 1 0 0 0 0 0 0, v := Vector.replicate 32 (BitVec.allOnes 512) }

/-- The last byte of the image is not written. -/
theorem read_writeBack_spoiltEnd (status : Word) :
    Memory.read (State.spoiltEnd.writeBack 4992 1 Ctx.allOnes status).dev.mem (poolKey 4992 1280) = 0 := by
  rw [State.writeBack_mem_of_no_tiles rfl (by decide) (by decide), Dev.read_writeSound_lost rfl (by decide)]
  · rfl
  · rw [Ctx.length_workspace]; decide
  · rw [Ctx.length_workspace]; decide

/-- Refutes O55: an image at WP 1, which nothing in the statement excludes, ends one byte into a word; where that word has an uncorrectable error, the
write-back does not replace it, and the last vector register does not read back. -/
theorem not_contextSwitchResults : ¬Obligations.ContextSwitchResults := by
  unfold Obligations.ContextSwitchResults
  intro h
  obtain ⟨-, -, -, -, -, -, -, roundTrip, -⟩ := h State.spoiltEnd State.spoiltEnd Ctx.allOnes 0 1 false
  obtain ⟨-, vectors, -⟩ := roundTrip ⟨rfl, rfl, by decide, by decide, by decide, by decide, by decide⟩
  have image := (State.readImage_getV _ _ _ _ _ _ _ (by decide) (by decide)).symm.trans (vectors 3 (by decide))
  have ones : Ctx.allOnes.getV 3 = BitVec.allOnes 512 := rfl
  have clear := State.testBit_peekNat_of_last (a := poolKey 4992 (1 + 0x400 + 64 * 3)) (n := 63) (i := 504) (read_writeBack_spoiltEnd 0) (by decide)
  have top := congrArg (BitVec.getLsbD · 504) (image.trans ones)
  rw [BitVec.getLsbD_ofNat, BitVec.getLsbD_allOnes] at top
  exact absurd ((Bool.and_eq_true _ _).mp top).2 (ne_true_of_eq_false clear)

end Sys2Proof.Machine
end

section
/-!
PROOFS. Updates of cores, gangs, launches, engine queues and the log: none of them changes a byte of memory (R159).
-/

namespace Sys2Proof.Machine

section
variable (s : State)

/-! ## Time, turns and the core in focus -/

@[simp] theorem State.mem_holdAt (h : Hold) (word : IWord) : (s.holdAt h word).dev.mem = s.dev.mem := rfl
@[simp] theorem State.mem_elapse : s.elapse.dev.mem = s.dev.mem := rfl

theorem State.mem_focus {s t : State} {n : Nat} (h : s.focus n = some t) : t.dev.mem = s.dev.mem := by
  obtain ⟨-, rfl⟩ | ⟨c, -, rfl⟩ := State.focus_cases h <;> rfl

theorem State.memOk_focus {s t : State} {n : Nat} (h : s.focus n = some t) (hs : s.memOk) : t.memOk := State.memOk_of_mem (State.mem_focus h) hs

/-! ## Registers, traps and self-tests (R233, R253, R299) -/

@[simp] theorem State.mem_startTest (unit : BitVec 6) (place : BitVec 52) : (s.startTest unit place).dev.mem = s.dev.mem := rfl
@[simp] theorem State.mem_meetRange (key n : Nat) : (s.meetRange key n).dev.mem = s.dev.mem := rfl
@[simp] theorem State.mem_tlbDiscard (drops : TlbEntry → Bool) : (s.tlbDiscard drops).dev.mem = s.dev.mem := rfl
@[simp] theorem State.mem_trapNow (n : Nat) (info : Word) (word : Option IWord) : (s.trapNow n info word).dev.mem = s.dev.mem :=
  s.mem_raiseTrap n info s.ctx.pc word

@[simp] theorem State.mem_csrPut (n : Nat) (v : Word) : (s.csrPut n v).dev.mem = s.dev.mem := by
  unfold State.csrPut
  split <;> rfl

@[simp] theorem State.mem_discardRow : s.discardRow.dev.mem = s.dev.mem := by
  unfold State.discardRow
  split
  · split <;> rfl
  · rfl

@[simp] theorem State.mem_atSlot : s.atSlot.dev.mem = s.dev.mem := by
  unfold State.atSlot
  split
  · rfl
  · split
    · split
      · cases h : (s.gang? _).bind s.streamPc <;> rfl
      · rfl
    · rfl

/-! ## The error log, links and fencing (R145, R253, R254) -/

@[simp] theorem Dev.mem_logEntry (d : Dev) (e : Word) : (d.logEntry e).mem = d.mem := by
  unfold Dev.logEntry
  split <;> rfl

@[simp] theorem State.mem_log (kind : Nat) (unit : BitVec 6) (place : BitVec 52) : (s.log kind unit place).dev.mem = s.dev.mem :=
  s.dev.mem_logEntry _

@[simp] theorem State.mem_logLost : s.logLost.dev.mem = s.dev.mem := State.mem_log _ _ _ _
@[simp] theorem State.mem_linkPasses (link : Nat) : (s.linkPasses link).dev.mem = s.dev.mem := rfl
@[simp] theorem State.mem_clearLog : s.clearLog.dev.mem = s.dev.mem := rfl

@[simp] theorem State.mem_fenceCore (core : Nat) (info : Word) : (s.fenceCore core info).dev.mem = s.dev.mem := by
  unfold State.fenceCore
  split
  · rfl
  · dsimp only
    rw [State.modCoreId_dev, State.mem_withdraw, State.mem_foldl fun s r => State.mem_unitFault _ _ _ _ _ _ _]
    split
    · exact State.mem_faultEvent _ _ _ _ _
    · split
      · exact State.mem_countDone _ _
      · rfl

@[simp] theorem State.mem_fenceCluster (core : Nat) (info : Word) : (s.fenceCluster core info).dev.mem = s.dev.mem := by
  unfold State.fenceCluster
  dsimp only
  rw [State.mem_foldl fun s n => State.mem_fenceCore _ _ _]
  exact State.mem_foldl (fun s l => State.mem_containPartition _ _) _ _

/-! ## Gangs (R187 to R204) -/


@[simp] theorem State.mem_freeMember (core num pos : Nat) : (s.freeMember core num pos).dev.mem = s.dev.mem := by
  simp [State.freeMember]

@[simp] theorem State.mem_splitGang : s.splitGang.dev.mem = s.dev.mem := by
  unfold State.splitGang
  split
  · rfl
  · next l _ =>
    dsimp only
    have kept (g : Option Gang) : ((g.map s.keepFormer).getD s).dev.mem = s.dev.mem := by cases g <;> rfl
    split
    · simp [kept]
    · simp [kept, State.mem_foldl]

@[simp] theorem State.mem_addGang (cores : List Nat) (id : Byte) (skew : Nat) (lnum : BitVec 12) (part : BitVec 6) :
    (s.addGang cores id skew lnum part).dev.mem = s.dev.mem := by
  unfold State.addGang
  dsimp only
  exact State.mem_foldl (fun s x => by simp) _ _

@[simp] theorem State.mem_formGang (cores : List Nat) (id : Byte) (skew : Nat) (lnum : BitVec 12) (part : BitVec 6) (pc : Word) :
    (s.formGang cores id skew lnum part pc).dev.mem = s.dev.mem := by
  unfold State.formGang
  dsimp only
  exact (State.mem_foldl (fun s x => by simp) _ _).trans (State.mem_addGang _ _ _ _ _ _)

@[simp] theorem State.mem_arriveBar (l : GangLink) : (s.arriveBar l).dev.mem = s.dev.mem := State.mem_settleGang _ _

@[simp] theorem State.mem_passSlot (l : GangLink) : (s.passSlot l).dev.mem = s.dev.mem := State.mem_gangTick _ _

@[simp] theorem State.mem_issueHold (l : GangLink) : (s.issueHold l).dev.mem = s.dev.mem := by
  unfold State.issueHold
  split <;> simp

/-! ## Messages and broadcasts (R149 to R158) -/

@[simp] theorem State.mem_meetCount (core : Nat) (lnum : BitVec 12) : (s.meetCount core lnum).dev.mem = s.dev.mem := by
  unfold State.meetCount
  split <;> rfl

@[simp] theorem State.mem_meetMessages (base n : Nat) : (s.meetMessages base n).dev.mem = s.dev.mem := rfl
@[simp] theorem State.mem_broadcast (op : BcastOp) (todo : List Nat) : (s.broadcast op todo).dev.mem = s.dev.mem := rfl

@[simp] theorem State.mem_closeWindow : s.closeWindow.dev.mem = s.dev.mem := by
  unfold State.closeWindow
  refine State.mem_foldl ?_ _ s
  exact fun _ _ => rfl

@[simp] theorem State.mem_lose (parts : List (Nat × Nat)) (info : Word) : (s.lose parts info).dev.mem = s.dev.mem :=
  State.mem_foldl (fun s p => by simp) _ _

@[simp] theorem State.mem_loseBcast (b : Bcast) (info : Word) : (s.loseBcast b info).dev.mem = s.dev.mem := by
  simp [State.loseBcast, State.acknowledge]

@[simp] theorem State.mem_failBcast (port : BitVec 4) (b : Bcast) : (s.failBcast port b).dev.mem = s.dev.mem := by
  unfold State.failBcast
  split
  · split <;> simp
  · rfl

/-! ## The engines (R89, R124, R388, R401) -/

@[simp] theorem State.mem_modDma (tag : BitVec 6) (f : DmaJob → DmaJob) : (s.modDma tag f).dev.mem = s.dev.mem := rfl
@[simp] theorem State.mem_startDma (j : DmaJob) : (s.startDma j).dev.mem = s.dev.mem := rfl
@[simp] theorem State.mem_dmaAdvance (tag : BitVec 6) (st sub : Nat) : (s.dmaAdvance tag st sub).dev.mem = s.dev.mem := rfl
@[simp] theorem State.mem_tagDone (core t : Nat) (err : Bool) : (s.tagDone core t err).dev.mem = s.dev.mem := by simp [State.tagDone]

@[simp] theorem State.mem_endDma (j : DmaJob) (st sub : Nat) : (s.endDma j st sub).dev.mem = s.dev.mem := by
  unfold State.endDma
  dsimp only
  split <;> simp

@[simp] theorem State.mem_modEddy (j : EddyJob) (f : EddyJob → EddyJob) : (s.modEddy j f).dev.mem = s.dev.mem := rfl
@[simp] theorem State.mem_startEddy (j : EddyJob) : (s.startEddy j).dev.mem = s.dev.mem := rfl
@[simp] theorem State.mem_giveSlots (core : Nat) : (s.giveSlots core).dev.mem = s.dev.mem := by simp [State.giveSlots]
@[simp] theorem State.mem_modSlice (n : Nat) (j : MtxJob) (f : MtxJob → MtxJob) : (s.modSlice n j f).dev.mem = s.dev.mem := by simp [State.modSlice]

@[simp] theorem State.mem_endFlight (core tag : Nat) : (s.endFlight core tag).dev.mem = s.dev.mem := by
  unfold State.endFlight
  split <;> simp

@[simp] theorem State.mem_completeSlice (core : Nat) (j : MtxJob) (st sub : Nat) : (s.completeSlice core j st sub).dev.mem = s.dev.mem := by
  unfold State.completeSlice
  split <;> simp

@[simp] theorem State.mem_stopSlices (core : Nat) (j : MtxJob) : (s.stopSlices core j).dev.mem = s.dev.mem :=
  State.mem_foldl (fun s x => by simp) _ _


@[simp] theorem State.mem_saveMatrix : s.saveMatrix.dev.mem = s.dev.mem := State.mem_foldl (fun s j => by simp) _ s

@[simp] theorem State.mem_reenterMatrix (level : Level) : (s.reenterMatrix level).dev.mem = s.dev.mem := rfl

/-! ## Contexts and launches (R207 to R226, R247) -/

@[simp] theorem State.mem_meetImage (core : Nat) (wp : BitVec 19) (c : Ctx) : (s.meetImage core wp c).dev.mem = s.dev.mem := rfl

@[simp] theorem State.mem_discardActive : s.discardActive.dev.mem = s.dev.mem := by
  unfold State.discardActive
  dsimp only
  split <;> simp

@[simp] theorem State.mem_sendCompletion (l : Launch) (record : List Byte) : (s.sendCompletion l record).dev.mem = s.dev.mem := by
  unfold State.sendCompletion
  dsimp only
  split
  · rfl
  · split <;> rfl

@[simp] theorem State.mem_acknowledge (n : Nat) : (s.acknowledge n).dev.mem = s.dev.mem := by simp [State.acknowledge]

@[simp] theorem State.mem_dropMessages (lnum : BitVec 12) : (s.dropMessages lnum).dev.mem = s.dev.mem := State.mem_foldl (fun s p => by simp) _ s

@[simp] theorem State.mem_bookUnit (l : Launch) (core wuid : Nat) : (s.bookUnit l core wuid).dev.mem = s.dev.mem := rfl
@[simp] theorem State.mem_linkGroup (l : Launch) (cores : List Nat) : (s.linkGroup l cores).dev.mem = s.dev.mem := State.mem_addGang _ _ _ _ _ _

@[simp] theorem State.mem_failPlaced (l : Launch) (fails : List PlaceFail) : (s.failPlaced l fails).dev.mem = s.dev.mem :=
  State.mem_foldl (fun s f => by simp) _ s

@[simp] theorem State.mem_raisePreempt (n : Nat) : (s.raisePreempt n).dev.mem = s.dev.mem := by
  unfold State.raisePreempt
  dsimp only
  split
  · simp
  · split
    · simp
    · split <;> simp

@[simp] theorem State.mem_quiesce (l : Launch) : (s.quiesce l).dev.mem = s.dev.mem := State.mem_foldl (fun s u => by simp) _ s

/-! ## The host interface, boot and the environment (R80, R250, R461 to R471) -/

@[simp] theorem State.mem_writePwrcap (v : Word) : (s.writePwrcap v).dev.mem = s.dev.mem := by
  unfold State.writePwrcap
  dsimp only
  split <;> rfl

@[simp] theorem State.mem_writeBootstat (v : Word) : (s.writeBootstat v).dev.mem = s.dev.mem := by
  unfold State.writeBootstat
  dsimp only
  split <;> split <;> rfl

@[simp] theorem State.mem_freeBytes (n : Nat) : (s.freeBytes n).2.dev.mem = s.dev.mem := by
  induction n with
  | zero => rfl
  | succ n ih => exact ih

@[simp] theorem State.mem_hostReads (key n : Nat) : (s.hostReads key n).dev.mem = s.dev.mem := by
  unfold State.hostReads
  split
  · rfl
  · exact (State.mem_freeBytes _ _).trans (State.mem_meetError _ _)

@[simp] theorem State.mem_enroll (p : PartConfig) (c : Nat × Nat × Nat × Nat) : (s.enroll p c).dev.mem = s.dev.mem := by
  unfold State.enroll
  dsimp only
  split <;> simp

@[simp] theorem State.mem_correctedError (core : Nat) (test : SelfTest) : (s.correctedError core test).dev.mem = s.dev.mem :=
  State.mem_faultEvent _ _ _ _ _

@[simp] theorem State.mem_fatalError (unit : BitVec 6) (place : BitVec 52) : (s.fatalError unit place).dev.mem = s.dev.mem := by
  unfold State.fatalError
  rw [State.mem_foldl fun s l => State.mem_endLaunch _ _ _, State.mem_log]

@[simp] theorem State.mem_registerError (core : Nat) (r : Reg) : (s.registerError core r).dev.mem = s.dev.mem := by
  unfold State.registerError
  split
  · rfl
  · simp

@[simp] theorem State.mem_mirrorError (core : Nat) (part : MirrorPart) : (s.mirrorError core part).dev.mem = s.dev.mem := by
  unfold State.mirrorError
  split
  · rfl
  · rw [State.mem_startTest, State.modCtxId_dev, State.takeFresh_dev]

end

end Sys2Proof.Machine
end

section
/-!
PROOFS. What writes bytes of memory as part of a larger update keeps the canonical form: message buffers, engine records, images of contexts, what the
host and the firmware do (R64, R92, R153, R462, R467).
-/

namespace Sys2Proof.Machine

/-! ## Folds over writes -/

/-- A fold that carries a state along with something else keeps memory canonical if each of its steps does. -/
theorem State.memOk_foldl_fst {α β : Type} {f : State × β → α → State × β} (hf : ∀ x a, x.1.memOk → (f x a).1.memOk) (l : List α) {x : State × β}
    (h : x.1.memOk) : (l.foldl f x).1.memOk :=
  List.foldlRecOn (motive := fun y : State × β => y.1.memOk) l f h fun y hy a _ => hf y a hy

/-- A state that is reached on a condition. -/
theorem memOk_of_ite {u t : State} {c : Prop} [Decidable c] (hu : u.memOk) (e : (if c then some u else none) = some t) : t.memOk := by
  split at e
  · cases e
    exact hu
  · cases e

section
variable {s : State}

/-! ## Message buffers (R152, R153) -/

theorem State.memOk_bufferPut (h : s.memOk) (base i : Nat) (m : Msg) : (s.bufferPut base i m).memOk :=
  State.memOk_poke (State.memOk_poke h _ _) _ _

theorem State.memOk_bufferStore (h : s.memOk) (base : Nat) (ms : List Msg) : (s.bufferStore base ms).memOk := by
  refine State.memOk_poke (State.memOk_foldl ?_ _ s h) _ _
  exact fun _ _ hs => State.memOk_bufferPut hs _ _ _

theorem State.memOk_deliver {t : State} (h : s.memOk) {sender target : Nat} {m : Msg} (d : s.deliver sender target m = some t) : t.memOk := by
  have rbuf : (s.modCtxId target fun x => { x with rbuf := x.rbuf ++ [m] }).memOk := by simpa using h
  have buffer (b n v : Nat) : ((s.bufferPut b n m).poke (b + 0x1600) (leBytes 8 v)).memOk := State.memOk_poke (State.memOk_bufferPut h _ _ _) _ _
  unfold State.deliver at d
  split at d
  · cases d
  · dsimp only at d
    split at d
    · cases d
    · split at d
      · split at d
        · exact memOk_of_ite rbuf d
        · split at d
          · cases d
            exact rbuf
          · exact memOk_of_ite (buffer _ _ _) d
      · split at d
        · exact memOk_of_ite (buffer _ _ _) d
        · split at d
          · cases d
          · split at d
            · cases d
              exact rbuf
            · cases d
              exact h

theorem State.memOk_replayBuffer (h : s.memOk) : s.replayBuffer.memOk := by
  unfold State.replayBuffer
  split
  · exact h
  · dsimp only
    split
    · exact State.memOk_of_mem (by simp) h
    · refine State.memOk_bufferStore ?_ _ _
      exact State.memOk_of_mem (by simp) h

/-! ## Engine records (R91, R92, R241) -/

theorem State.memOk_pokePieces (h : s.memOk) (ps : List (Nat × Nat)) (bytes : List Byte) : (s.pokePieces ps bytes).memOk :=
  State.memOk_foldl_fst (fun _ _ hx => State.memOk_foldl (fun _ _ hs => State.memOk_poke hs _ _) _ _ hx) ps h

theorem State.memOk_writeRecord (h : s.memOk) (core off : Nat) (bytes : List Byte) (faulted : Bool) (engine : BitVec 2) (slot : BitVec 6) :
    (s.writeRecord core off bytes faulted engine slot).memOk := by
  unfold State.writeRecord
  split
  · exact h
  · split
    · dsimp only
      split
      · simpa using State.memOk_poke h _ _
      · exact State.memOk_poke h _ _
    · simpa using h

theorem State.memOk_stopDma (h : s.memOk) (j : DmaJob) (state sub : Nat) (faddr : Word) : (s.stopDma j state sub faddr).memOk :=
  State.memOk_writeRecord h _ _ _ _ _ _

theorem State.memOk_stopEddy (h : s.memOk) (j : EddyJob) (state sub : Nat) (faddr : Word) : (s.stopEddy j state sub faddr).memOk := by
  have record := State.memOk_writeRecord h j.core (0x1000 + 64 * j.tag)
  unfold State.stopEddy
  dsimp only
  split
  · exact record _ _ _ _
  · rw [State.memOk_modCoreId]
    exact record _ _ _ _

theorem State.memOk_faultSlice (h : s.memOk) (core : Nat) (j : MtxJob) (sub : Nat) (faddr : Word) : (s.faultSlice core j sub faddr).memOk := by
  unfold State.faultSlice
  split
  · exact h
  · split
    · exact h
    · rw [State.memOk, State.mem_giveSlots, State.mem_endFlight, State.mem_modSlice]
      exact State.memOk_writeRecord h _ _ _ _ _ _

/-! ## Accesses that return, and what an instruction that is withdrawn leaves (R26, R235) -/

theorem State.memOk_arrive (h : s.memOk) (o : Outstanding) : (s.arrive o).memOk := by
  have drained := State.memOk_drainLines h s.core.id o.home o.width s.dev.seq
  unfold State.arrive
  by_cases failed : o.failed = true
  · rw [if_pos failed]
    exact h
  · rw [if_neg failed]
    dsimp only
    split
    · exact State.memOk_meetError drained _
    · exact drained

theorem State.memOk_abandon (h : s.memOk) : s.abandon.memOk := by
  unfold State.abandon
  have left : ((s.withdraw s.core.id).discardRow).memOk := State.memOk_of_mem (by simp) h
  have unparked (u : State) (hu : u.memOk) : (match u.core.link with
      | none => u
      | some l => if u.core.ctx.gangMode = 3 then
          u.modGang l.gang fun g => g.modMember l.pos fun m => { m with parked := none, atBar := m.atBar && decide (u.core.hold ≠ Hold.gbar) }
        else u).memOk := by
    split
    · exact hu
    · split <;> exact hu
  dsimp only
  rw [State.memOk_modCore]
  split
  · exact State.memOk_pokeOwn (unparked _ left) _ _
  · exact unparked _ left

/-! ## Images and queues of contexts (R64, R76, R123, R247) -/

theorem State.memOk_writeSaveArea (h : s.memOk) (core : Nat) (c : Ctx) : (s.writeSaveArea core c).memOk := by
  unfold State.writeSaveArea
  split
  · exact h
  · exact State.memOk_poke (State.memOk_poke (State.memOk_poke h _ _) _ _) _ _

theorem State.memOk_writeBack (h : s.memOk) (core : Nat) (wp : BitVec 19) (c : Ctx) (status : Word) : (s.writeBack core wp c status).memOk :=
  State.memOk_writeSaveArea (State.memOk_poke (State.memOk_poke h _ _) _ _) core c

theorem State.memOk_spillMessages (h : s.memOk) (base : Nat) : (s.spillMessages base).memOk := by
  unfold State.spillMessages
  dsimp only
  rw [State.memOk_modCtx]
  split
  · exact h
  · refine State.memOk_bufferStore ?_ _ _
    exact State.memOk_of_mem (by simp) h

theorem State.memOk_spillQueues (h : s.memOk) (base : Nat) : (s.spillQueues base).memOk := by
  unfold State.spillQueues
  dsimp only
  rw [State.memOk_modCtx]
  split
  · exact State.memOk_poke (State.memOk_poke (State.memOk_poke (State.memOk_poke (State.memOk_poke h _ _) _ _) _ _) _ _) _ _
  · exact h

theorem State.memOk_refillQueues (h : s.memOk) : s.refillQueues.memOk := by
  unfold State.refillQueues
  split
  · exact h
  · refine State.memOk_poke ?_ _ _
    exact State.memOk_of_mem (by simp) h

theorem State.memOk_suspendIdle (h : s.memOk) : s.suspendIdle.memOk := by
  unfold State.suspendIdle
  refine State.memOk_foldl (fun u j hu => ?_) _ _ (State.memOk_foldl (fun u j hu => ?_) _ _ h)
  · split
    · exact State.memOk_stopEddy hu _ _ _ _
    · exact hu
  · split
    · exact State.memOk_stopDma hu _ _ _ _
    · exact hu

theorem State.memOk_leaveContext (h : s.memOk) (self drop : Bool) : (s.leaveContext self drop).memOk := by
  have left (f : Ctx → Ctx) : (s.modCtx f).memOk := h
  unfold State.leaveContext
  refine State.memOk_of_mem (State.mem_saveMatrix _) ?_
  split
  · exact left _
  · split
    · exact left _
    · split
      · exact State.memOk_spillMessages (left _) _
      · exact State.memOk_spillQueues (State.memOk_spillMessages (left _) _) _

theorem State.memOk_park (h : s.memOk) (shadow idle : Bool) : (s.park shadow idle).memOk := by
  unfold State.park
  dsimp only
  rw [State.memOk_modCore]
  split
  · exact h
  · exact State.memOk_writeBack h _ _ _ _

theorem State.memOk_evictSlot (h : s.memOk) : s.evictSlot.memOk := by
  unfold State.evictSlot
  split
  · exact h
  · exact State.memOk_writeBack h _ _ _ _

theorem State.memOk_leaveDisplaced (h : s.memOk) : s.leaveDisplaced.memOk := by
  have left := State.memOk_abandon h
  unfold State.leaveDisplaced
  dsimp only
  split
  · exact left
  · rw [State.memOk_modCore]
    refine State.memOk_writeBack ?_ _ _ _ _
    split
    · exact left
    · exact State.memOk_spillQueues (State.memOk_spillMessages left _) _

/-- What is done at another core keeps memory canonical if it does so there. -/
theorem State.memOk_atCore (h : s.memOk) (n : Nat) {f : State → State} (hf : ∀ u : State, u.memOk → (f u).memOk) : (s.atCore n f).memOk := by
  unfold State.atCore
  split
  · exact h
  · next t found =>
    have there := hf t (State.memOk_focus found h)
    cases back : (f t).focus s.core.id with
    | none => exact there
    | some u => exact State.memOk_focus back there

theorem State.memOk_displace (h : s.memOk) (core : Nat) : (s.displace core).memOk := by
  unfold State.displace
  split
  · exact h
  · split
    · exact State.memOk_atCore h _ fun _ => State.memOk_leaveDisplaced
    · exact h

theorem State.memOk_startUnit (h : s.memOk) (core : Nat) (ctx : Ctx) (wp : BitVec 19) (kptb : Word) : (s.startUnit core ctx wp kptb).memOk :=
  State.memOk_atCore (by simpa using h) _ fun _ => State.memOk_replayBuffer

theorem State.memOk_discardLaunch (h : s.memOk) (lnum : BitVec 12) : (s.discardLaunch lnum).memOk := by
  have dropped : (s.dropMessages lnum).memOk := State.memOk_of_mem (by simp) h
  unfold State.discardLaunch
  dsimp only
  split
  · exact dropped
  · refine State.memOk_foldl (fun u c hu => ?_) _ _ dropped
    split
    · exact hu
    · exact State.memOk_poke (State.memOk_poke hu _ _) _ _

/-! ## The host and the firmware (R461 to R467) -/

theorem State.memOk_hostAtomic (h : s.memOk) (key : Nat) (op : FlightOp) : (s.hostAtomic key op).memOk := by
  unfold State.hostAtomic
  split
  · exact h
  · exact State.memOk_performOp h _ _

theorem State.memOk_doorbell (h : s.memOk) (slot : Nat) : (s.doorbell slot).memOk := by
  unfold State.doorbell
  dsimp only
  rw [State.memOk_raise, State.memOk_modCoreId]
  split
  · exact State.memOk_performOp h _ _
  · exact h

theorem State.memOk_failFlight (h : s.memOk) (port : BitVec 4) (f : Flight) : (s.failFlight port f).memOk := by
  unfold State.failFlight
  split
  · exact State.memOk_loseFlight h _ _
  · exact State.memOk_of_mem (by simp) h

theorem State.memOk_attest (h : s.memOk) (slot : Nat) : (s.attest slot).2.memOk := by
  unfold State.attest
  dsimp only
  split
  · exact h
  · split
    · exact h
    · refine State.memOk_poke ?_ _ _
      exact State.memOk_of_mem (by simp) h

theorem State.memOk_serveFcall (h : s.memOk) : s.serveFcall.memOk := by
  unfold State.serveFcall
  split
  · dsimp only
    split
    · split
      · exact State.memOk_of_mem (by simp) h
      · split
        · have served := State.memOk_attest h (s.ctx.getX 10).toNat
          exact State.memOk_of_mem (State.mem_tret _) (by rwa [State.memOk_setX])
        · exact h
    · exact h
  · exact h

theorem State.memOk_firmware (h : s.memOk) (a : FirmwareAct) : (s.firmware a).memOk := by
  unfold State.firmware
  cases a with
  | serve n =>
    dsimp only
    cases found : s.focus n with
    | none => exact h
    | some t => exact State.memOk_serveFcall (State.memOk_focus found h)
  | target _ | measure _ | signal _ => exact State.memOk_modDev rfl h

theorem State.memOk_clearPools (h : s.memOk) (cores : List Nat) : (s.modDev fun d => d.clearPools cores).memOk := Memory.wf_filter h _

/-! ## The environment (R80, R250) -/

theorem State.memOk_outsideWrites (h : s.memOk) (cells : List Host.Cell) : (s.outsideWrites cells).memOk :=
  State.memOk_foldl (fun _ _ hs => State.memOk_poke hs _ _) _ _ h

theorem State.memOk_corruptWord (h : s.memOk) (word : Nat) : (s.corruptWord word).memOk := by
  unfold State.corruptWord
  split
  · exact Memory.wf_writeBytes h _
  · exact h

theorem State.memOk_environment (h : s.memOk) (t : Turn) : (s.environment t).memOk := by
  unfold State.environment
  cases t with
  | core _ | event _ _ | tick _ _ | dropClusterTlb _ _ | dropFetched _ | dropWalk _ => exact h
  | dropTlb _ _ | dropPiece _ _ => simpa using h
  | outside cells => exact State.memOk_outsideWrites h cells
  | corrupt word => exact State.memOk_corruptWord h word
  | registerError _ _ | mirrorError _ _ | corrected _ _ _ _ | fatal _ _ | replayed _ => exact State.memOk_of_mem (by simp) h
  | firmware act => exact State.memOk_firmware h act

end

end Sys2Proof.Machine
end

section
/-!
PROOFS. How parts of an instruction are put together from parts that keep memory canonical, beside the ways of Laws/Trap and Laws/Access.
-/

namespace Sys2Proof.Machine

section
variable {ε α β : Type}

/-- What comes after a part that stops is never made. -/
theorem keeps_stop {e : ε} {f : α → EStateM ε State β} : KeepsMem ((throw e : EStateM ε State α) >>= f) := fun _ h => h

/-- A check that stops, before the rest of a part. -/
theorem keeps_guard {c : Prop} [Decidable c] {e : ε} {f : α → EStateM ε State β} {rest : EStateM ε State β} (hr : KeepsMem rest) :
    KeepsMem (if c then (throw e : EStateM ε State α) >>= f else rest) := keeps_ite keeps_stop hr

/-- Something that is done on a condition, before the rest of a part. -/
theorem keeps_when {c : Prop} [Decidable c] {m : EStateM ε State PUnit} {rest : PUnit → EStateM ε State α} (hm : KeepsMem m)
    (hr : ∀ a, KeepsMem (rest a)) : KeepsMem (if c then m >>= rest else rest ⟨⟩) := keeps_ite (keeps_bind hm hr) (hr ⟨⟩)

/-- Something that is done on a condition, for its checks alone. -/
theorem keeps_tried {c : Prop} [Decidable c] {m : EStateM ε State α} {rest : EStateM ε State β} (hm : KeepsMem m) (hr : KeepsMem rest) :
    KeepsMem (if c then m >>= fun _ => rest else rest) := keeps_ite (keeps_bind hm fun _ => hr) hr

/-- One of two parts, and the same rest after either. -/
theorem keeps_either {c : Prop} [Decidable c] {m n : EStateM ε State α} {rest : α → EStateM ε State β} (hm : KeepsMem m) (hn : KeepsMem n)
    (hr : ∀ a, KeepsMem (rest a)) : KeepsMem (if c then m >>= rest else n >>= rest) := keeps_ite (keeps_bind hm hr) (keeps_bind hn hr)

theorem keeps_modifyGet {f : State → α × State} (hf : ∀ s, s.memOk → (f s).2.memOk) : KeepsMem (modifyGet f : EStateM ε State α) := hf

/-- An update that leaves the bytes of memory alone. -/
theorem keeps_update {f : State → State} (hf : ∀ s, (f s).dev.mem = s.dev.mem) : KeepsMem (modify f : EStateM ε State PUnit) :=
  fun s h => State.memOk_of_mem (hf s) h

theorem keeps_modCtxId {ε : Type} (n : Nat) (f : Ctx → Ctx) : KeepsMem (modify fun s => s.modCtxId n f : EStateM ε State PUnit) :=
  fun s h => (s.memOk_modCtxId n f).mpr h

theorem keeps_takeSeq {ε : Type} : KeepsMem (modifyGet State.takeSeq : EStateM ε State Nat) := fun _ h => h

theorem keeps_modDev {f : Dev → Dev} (hf : ∀ d, (f d).mem = d.mem) : KeepsMem (modDev f) := fun s h => State.memOk_modDev (hf s.dev) h

theorem keeps_getCtx : KeepsMem getCtx := fun _ h => h

/-- A loop keeps memory canonical if each of its turns does. -/
theorem keeps_forIn {f : α → β → EStateM ε State (ForInStep β)} (hf : ∀ a b, KeepsMem (f a b)) : ∀ (l : List α) (b : β), KeepsMem (forIn l b f)
  | [], _ => keeps_pure _
  | a :: l, b => by
    rw [List.forIn_cons]
    refine keeps_bind (hf a b) fun r => ?_
    cases r with
    | done b => exact keeps_pure _
    | yield b => exact keeps_forIn hf l b

/-- What a state holds after a part that has come out, or has not. -/
theorem KeepsMem.ok {m : EStateM ε State α} (hm : KeepsMem m) {s t : State} {a : α} (h : s.memOk) (e : m s = .ok a t) : t.memOk := by
  have kept := hm s h
  rwa [e] at kept

theorem KeepsMem.error {m : EStateM ε State α} (hm : KeepsMem m) {s t : State} {x : ε} (h : s.memOk) (e : m s = .error x t) : t.memOk := by
  have kept := hm s h
  rwa [e] at kept

theorem KeepsMem.checked {c : Chk α} (hc : KeepsMem c) {s t : State} {r : Except (Nat × Word) α} (h : s.memOk)
    (e : runChk c s = (r, t)) : t.memOk := by
  have kept := memOk_runChk hc h
  rwa [e] at kept

theorem keeps_guardCtx {body : Act α} (hb : KeepsMem body) : KeepsMem (guardCtx body) := by
  intro s h
  have kept := hb s h
  unfold guardCtx
  cases e : body s <;> rw [e] at kept <;> exact kept

end

end Sys2Proof.Machine
end

section
/-!
PROOFS. A speculative walk, and the switch of a worker's context, keep memory canonical (R172, R196, R199).
-/

namespace Sys2Proof.Machine

variable {s : State}

theorem State.memOk_endSpecWalk (h : s.memOk) : s.endSpecWalk.memOk := by
  unfold State.endSpecWalk
  split
  · exact h
  · next kptb p _ =>
    have walked := keeps_pageWalk { s.who with kptb := kptb } .rmw (tagOf p) (bits p 0 48)
    dsimp only
    split
    · next e => exact walked.checked (s := s.modCore fun c => { c with specWalk := none }) h e
    · next e =>
      have there := walked.checked (s := s.modCore fun c => { c with specWalk := none }) h e
      split
      · exact there
      · exact there

theorem State.memOk_rebindGrammar (h : s.memOk) : s.rebindGrammar.memOk := by
  unfold State.rebindGrammar
  dsimp only
  split
  · exact h
  · split
    · next e =>
      have read := (keeps_fetchBytes s.ctx.gptr 64 64).ok h e
      split <;> exact read
    · next e =>
      have read := (keeps_fetchBytes s.ctx.gptr 64 64).error h e
      exact read

theorem State.memOk_activate (h : s.memOk) (c : Ctx) (status : Word) (wp : BitVec 19) (self : Bool) : (s.activate c status wp self).memOk := by
  unfold State.activate
  refine State.memOk_of_mem (s := State.rebindGrammar _) ((State.mem_restartMatrix _).trans (State.mem_returnToStream _)) ?_
  refine State.memOk_rebindGrammar (State.memOk_of_mem (State.mem_reenterMatrix _ _) ?_)
  dsimp only
  split
  · exact State.memOk_replayBuffer h
  · exact State.memOk_replayBuffer (State.memOk_refillQueues h)

/-- How a context's place is given up, before another is taken up. -/
theorem State.memOk_giveUp (h : s.memOk) (fromSlot shadow drop idle : Bool) :
    State.memOk (let t := if fromSlot then s.modCore fun q => { q with shadow := none } else if shadow then s.evictSlot else s
      if drop then t.discardActive else t.park shadow idle) := by
  have placed : (if fromSlot then s.modCore fun q => { q with shadow := none } else if shadow then s.evictSlot else s).memOk := by
    split
    · exact h
    · split
      · exact State.memOk_evictSlot h
      · exact h
  dsimp only
  split
  · exact State.memOk_of_mem (State.mem_discardActive _) placed
  · exact State.memOk_park placed _ _

theorem State.memOk_meetOrNot (h : s.memOk) (b : Bool) (core : Nat) (wp : BitVec 19) (c : Ctx) :
    (if b then s.meetImage core wp c else s).memOk := by
  split
  · exact State.memOk_of_mem (State.mem_meetImage _ _ _ _) h
  · exact h

theorem State.memOk_switchContext (h : s.memOk) (word : IWord) : (s.switchContext word).memOk := by
  have left : (((s.setPc s.core.kretpc).bookSlot s.core word).leaveContext s.selfSwitch (kscrDrop s.core.kscr)).memOk := by
    refine State.memOk_leaveContext (State.memOk_of_mem (State.mem_bookSlot _ _ _) ?_) _ _
    rwa [State.memOk_setPc]
  unfold State.switchContext
  dsimp only
  generalize ((s.setPc s.core.kretpc).bookSlot s.core word).leaveContext s.selfSwitch (kscrDrop s.core.kscr) = u at left ⊢
  split
  · exact State.memOk_activate (State.memOk_writeBack left _ _ _ _) _ _ _ _
  · have given := State.memOk_giveUp left u.fromSlot (kscrShadow s.core.kscr) (kscrDrop s.core.kscr)
      ((s.setPc s.core.kretpc).bookSlot s.core word).idleToPark
    dsimp only at given
    generalize (if kscrDrop s.core.kscr then _ else _ : State) = v at given ⊢
    refine State.memOk_activate ?_ _ _ _ _
    rw [State.memOk_takeFresh]
    exact State.memOk_meetOrNot given _ _ _ _

end Sys2Proof.Machine
end

section
/-!
PROOFS. Every part of an instruction, and every step of an engine, keeps memory canonical (R159): each is put together from parts that do.
-/

namespace Sys2Proof.Machine

/-! ## Checks and registers -/

theorem keeps_needK {i : Instr} : KeepsMem (needK i) := keeps_seen fun _ _ => keeps_ite (keeps_throw _) (keeps_pure _)

theorem keeps_needReg {i : Instr} {ok : Bool} : KeepsMem (needReg i ok) := keeps_ite (keeps_throw _) (keeps_pure _)

theorem keeps_ptrResult {sub : Bool} {a b : Word} : KeepsMem (ptrResult sub a b) := keeps_ite (keeps_throw _) (keeps_pure _)

theorem keeps_coordCore {w : Who} {v : Word} : KeepsMem (coordCore w v) := by
  unfold coordCore
  refine keeps_ite ?_ (keeps_ite (keeps_throw _) (keeps_seen fun _ _ => ?_))
  · split
    · exact keeps_pure _
    · exact keeps_throw _
  · split
    · exact keeps_throw _
    · exact keeps_pure _

theorem keeps_storesInTurn : ∀ l : List (Nat × List Byte), KeepsMem (storesInTurn l)
  | [] => keeps_pure _
  | _ :: ps => keeps_seen fun _ _ => keeps_ite (keeps_bind (keeps_modCore _) fun _ => keeps_stop)
      (keeps_bind (keeps_storePiece _ _) fun _ => keeps_storesInTurn ps)

theorem keeps_alu3 {rd rs1 rs2 : Reg} {f : Word → Word → Word} : KeepsMem (alu3 rd rs1 rs2 f) :=
  keeps_bind (keeps_getX _) fun _ => keeps_bind (keeps_getX _) fun _ => keeps_setX _ _

theorem keeps_alu1 {rd rs1 : Reg} {f : Word → Word} : KeepsMem (alu1 rd rs1 f) := keeps_bind (keeps_getX _) fun _ => keeps_setX _ _

theorem keeps_bodyAdd {rd rs1 rs2 : Reg} : KeepsMem (bodyAdd rd rs1 rs2) :=
  keeps_bind (keeps_getX _) fun _ => keeps_bind (keeps_getX _) fun _ => keeps_bind keeps_ptrResult fun _ => keeps_setX _ _

theorem keeps_bodySub {rd rs1 rs2 : Reg} : KeepsMem (bodySub rd rs1 rs2) :=
  keeps_bind (keeps_getX _) fun _ => keeps_bind (keeps_getX _) fun _ => keeps_bind keeps_ptrResult fun _ => keeps_setX _ _

theorem keeps_bodyCsel {rd rs1 rs2 : Reg} : KeepsMem (bodyCsel rd rs1 rs2) :=
  keeps_bind (keeps_getX _) fun _ => keeps_ite (keeps_bind (keeps_getX _) fun _ => keeps_setX _ _) (keeps_pure _)

theorem keeps_bodyAddi {rd rs1 : Reg} {imm : BitVec 16} : KeepsMem (bodyAddi rd rs1 imm) :=
  keeps_bind (keeps_getX _) fun _ => keeps_bind keeps_ptrResult fun _ => keeps_setX _ _

/-! ## Scalar accesses, branches and CSRs (R308 to R316) -/

theorem keeps_scalarLoad {i : Instr} {rd rs1 : Reg} {imm : BitVec 16} {n : Nat} {signed : Bool} : KeepsMem (scalarLoad i rd rs1 imm n signed) :=
  keeps_bind (keeps_getX _) fun _ => keeps_bind keeps_ptrResult fun _ => keeps_bind (keeps_scalarKey _ _ _) fun _ => keeps_ite
    (keeps_leaveFor _ _ _) (keeps_bind (keeps_homeRead _ _) fun _ => keeps_bind (keeps_setX _ _) fun _ => keeps_pure _)

theorem keeps_scalarStore {rs2 rs1 : Reg} {imm : BitVec 16} {n : Nat} : KeepsMem (scalarStore rs2 rs1 imm n) :=
  keeps_bind (keeps_getX _) fun _ => keeps_bind keeps_ptrResult fun _ => keeps_bind (keeps_scalarKey _ _ _) fun _ => keeps_bind
    (keeps_getX _) fun _ => keeps_coreWrite _ _

theorem keeps_branch {rs1 rs2 : Reg} {off : BitVec 16} {cond : Word → Word → Bool} : KeepsMem (branch rs1 rs2 off cond) :=
  keeps_bind keeps_getCtx fun _ => keeps_pure _

theorem keeps_csrCheck {i : Instr} {csr : BitVec 12} : KeepsMem (csrCheck i csr) := by
  unfold csrCheck
  refine keeps_seen fun _ _ => keeps_guard ?_
  split
  · exact keeps_throw _
  · exact keeps_pure _

theorem keeps_csrWrite {i : Instr} {op : CsrOp} {csr : BitVec 12} {rs1 : Reg} : KeepsMem (csrWrite i op csr rs1) :=
  keeps_bind keeps_csrCheck fun _ => keeps_bind (keeps_getX _) fun _ => keeps_bind keeps_getCtx fun _ => keeps_guard (keeps_guard (keeps_guard
    (keeps_update fun _ => State.mem_csrPut _ _ _)))

/-! ## The fetch of a word (R82, R279) -/

theorem keeps_fetchWord {pc : Word} : KeepsMem (fetchWord pc) := by
  unfold fetchWord
  refine keeps_seen fun _ _ => keeps_guard (keeps_guard (keeps_bind (keeps_resolve _ _ _ _ _) fun _ => keeps_seen fun s hs => ?_))
  split
  · exact keeps_bind (keeps_meetError _) fun _ => keeps_throw _
  · dsimp only
    split
    · exact keeps_pure _
    · exact keeps_when (keeps_set (State.memOk_of_mem (State.mem_modCluster _ _ _) hs)) fun _ => keeps_pure _

theorem keeps_waitInterrupt : KeepsMem waitInterrupt := keeps_seen fun _ _ => keeps_ite (keeps_throw _) (keeps_pure _)

/-! ## Vector groups and streams (R39 to R48, R369, R371) -/

theorem keeps_countReads {ops : List (List (Nat × Nat))} : KeepsMem (countReads ops) := keeps_modCore _

theorem keeps_streamRead {s : BitVec 2} {p : Word} {n a : Nat} : KeepsMem (streamRead s p n a) := by
  unfold streamRead
  refine keeps_bind keeps_getCtx fun _ => ?_
  split
  · exact keeps_pure _
  · exact keeps_loadBytes _ _ _

theorem keeps_lineEntries {s : BitVec 2} {d : StreamDesc} {m : Nat} : KeepsMem (lineEntries s d m) := by
  unfold lineEntries
  refine keeps_bind keeps_streamRead fun _ => ?_
  split
  · exact keeps_throw _
  · exact keeps_pure _

theorem keeps_lineSkip {s : BitVec 2} {d : StreamDesc} : ∀ left m skip, KeepsMem (lineSkip s d left m skip)
  | 0, _, _ => keeps_pure _
  | left + 1, _, _ => keeps_ite (keeps_pure _) (keeps_bind keeps_lineEntries fun _ =>
      keeps_ite (keeps_lineSkip left _ _) (keeps_pure _))

theorem keeps_lineFrom {s : BitVec 2} {d : StreamDesc} : ∀ left m skip want, KeepsMem (lineFrom s d left m skip want)
  | 0, _, _, _ => keeps_pure _
  | left + 1, _, _, _ => keeps_ite (keeps_pure _) (keeps_bind keeps_lineEntries fun _ =>
      keeps_ite (keeps_pure _) (keeps_bind (keeps_lineFrom left _ _ _) fun _ => keeps_pure _))

theorem keeps_lineNext {s : BitVec 2} {d : StreamDesc} {want : Nat} : KeepsMem (lineNext s d want) := by
  unfold lineNext
  split
  · exact keeps_bind (keeps_pure _) fun (_, _) => keeps_lineFrom _ _ _ _
  · exact keeps_bind (keeps_lineSkip _ _ _) fun (_, _) => keeps_lineFrom _ _ _ _

theorem keeps_listEntry {s : BitVec 2} {d : StreamDesc} {n : Nat} : KeepsMem (listEntry s d n) :=
  keeps_bind keeps_streamRead fun _ => keeps_bind keeps_streamRead fun _ => keeps_pure _

theorem keeps_fibreEntries {s : BitVec 2} {d : StreamDesc} {pos want : Nat} : KeepsMem (fibreEntries s d pos want) := by
  unfold fibreEntries
  split
  · exact keeps_bind keeps_lineNext fun _ => keeps_pure _
  · exact keeps_mapM (fun _ => keeps_listEntry) _

theorem keeps_moveTo {s : BitVec 2} {d : StreamDesc} {pos : Nat} : KeepsMem (moveTo s d pos) := by
  unfold moveTo
  split
  · exact keeps_bind keeps_lineNext fun _ => keeps_ite (keeps_bind keeps_streamRead fun _ => keeps_bind (keeps_modCtx _) fun _ => keeps_bind
      (keeps_pure _) fun _ => keeps_modCtx _) (keeps_bind (keeps_pure _) fun _ => keeps_modCtx _)
  · exact keeps_bind (keeps_pure _) fun _ => keeps_modCtx _

theorem keeps_popStream {s : BitVec 2} : KeepsMem (popStream s) := by
  unfold popStream
  refine keeps_bind keeps_getCtx fun _ => ?_
  dsimp only
  split
  · exact keeps_pure _
  · exact keeps_ite (keeps_modCtx _) (keeps_bind keeps_streamRead fun _ => keeps_bind (keeps_modCtx _) fun _ => keeps_moveTo)
  · exact keeps_ite (keeps_pure _) (keeps_bind keeps_fibreEntries fun _ => keeps_bind (keeps_modCtx _) fun _ => keeps_moveTo)

theorem keeps_popOperands {rs : List Nat} : KeepsMem (popOperands rs) :=
  keeps_forM (fun _ => keeps_bind keeps_getCtx fun _ => keeps_ite keeps_popStream (keeps_pure _)) _

theorem keeps_appendKeys {rs : List Nat} : KeepsMem (appendKeys rs) :=
  keeps_bind keeps_getCtx fun _ => keeps_mapM (fun _ => keeps_ite (keeps_seen fun _ _ => keeps_stop) (keeps_bind (keeps_spanKeys _ _ _ _) fun _ =>
    keeps_pure _)) _

theorem keeps_appendResults {rs : List Nat} : KeepsMem (appendResults rs) :=
  keeps_bind keeps_appendKeys fun _ => keeps_bind keeps_getCtx fun _ => keeps_bind (keeps_forM (fun _ => keeps_modCtx _) _) fun _ =>
    keeps_coreWriteLines _ _

theorem keeps_readGroups {gs : List (Reg × Nat)} : KeepsMem (readGroups gs) :=
  keeps_bind keeps_popOperands fun _ => keeps_bind keeps_countReads fun _ => keeps_bind keeps_getCtx fun _ => keeps_pure _

theorem keeps_writeGroup {r : Reg} {n : Nat} {v : Nat} : KeepsMem (writeGroup r n v) := keeps_bind (keeps_modCtx _) fun _ => keeps_appendResults

theorem keeps_performAppends : KeepsMem performAppends :=
  keeps_seen fun _ _ => keeps_guard (keeps_modify fun _ h => State.memOk_foldl (fun _ _ hu => State.memOk_drainLines hu _ _ _ _) _ _ h)

theorem keeps_closeStream {s : BitVec 2} : KeepsMem (closeStream s) := keeps_bind keeps_performAppends fun _ => keeps_modCtx _

theorem keeps_closeOwn {s : BitVec 2} {d : StreamDesc} : KeepsMem (closeOwn s d) := keeps_ite keeps_closeStream (keeps_pure _)

theorem keeps_namedStream {i : Instr} {s : BitVec 2} : KeepsMem (namedStream i s) :=
  keeps_bind keeps_getCtx fun _ => keeps_bind keeps_needReg fun _ => keeps_pure _

theorem keeps_streamEnd {s : BitVec 2} {d : StreamDesc} : KeepsMem (streamEnd s d) := by
  unfold streamEnd
  split
  · exact keeps_bind keeps_lineNext fun _ => keeps_pure _
  · exact keeps_pure _

theorem keeps_advanced {s : BitVec 2} {d : StreamDesc} {n : Nat} : KeepsMem (advanced s d n) := by
  unfold advanced
  split
  · exact keeps_bind keeps_lineNext fun _ => keeps_pure _
  · exact keeps_pure _

theorem keeps_headAt {s : BitVec 2} {d : StreamDesc} {pos : Nat} : KeepsMem (headAt s d pos) := keeps_bind keeps_fibreEntries fun _ => keeps_pure _

theorem keeps_mergeFrom {uni : Bool} {d0 d1 : StreamDesc} : ∀ fuel h0 h1 out p0 p1 taken, KeepsMem (mergeFrom uni d0 d1 fuel h0 h1 out p0 p1 taken)
  | 0, _, _, _, _, _, _ => keeps_pure _
  | fuel + 1, _, _, _, _, _, _ => keeps_ite (keeps_pure _) (keeps_ite (keeps_pure _)
      (keeps_either keeps_headAt (keeps_pure _) fun _ => keeps_either keeps_headAt (keeps_pure _) fun _ =>
        keeps_ite (keeps_pure _) (keeps_ite (keeps_pure _) (keeps_mergeFrom fuel _ _ _ _ _ _))))

/-! ## Messages (R340, R341) -/

theorem keeps_takePayload {rd : Reg} {vec : Bool} {m : Msg} : KeepsMem (takePayload rd vec m) := keeps_ite keeps_writeGroup (keeps_setX _ _)

theorem keeps_receive {i : Instr} {rd : Reg} {ch : BitVec 4} {vec : Bool} {empty : Act Unit} (he : KeepsMem empty) :
    KeepsMem (receive i rd ch vec empty) := by
  unfold receive
  refine keeps_guardCtx (keeps_bind keeps_getCtx fun _ => keeps_bind keeps_needReg fun _ => keeps_bind keeps_getCtx fun _ => ?_)
  split
  · exact he
  · split
    · exact he
    · exact keeps_guard (keeps_bind (keeps_modCtx _) fun _ => keeps_takePayload)

theorem keeps_sendPayload {data : Reg} {vec : Bool} : KeepsMem (sendPayload data vec) :=
  keeps_ite (keeps_bind keeps_readGroups fun _ => keeps_pure _) (keeps_bind (keeps_getX _) fun _ => keeps_pure _)

theorem keeps_interfaceRoom : KeepsMem interfaceRoom := keeps_seen fun _ _ => keeps_guard (keeps_roomFor _)

/-! ## Atomics and cells (R171 to R175, R344 to R351) -/

theorem keeps_performNow {key : Nat} {op : FlightOp} : KeepsMem (performNow key op) :=
  keeps_bind (keeps_homeRead _ _) fun _ => keeps_modifyGet fun _ h => State.memOk_performOp h _ _

theorem keeps_acquireWith {i : Instr} {key : Nat} {v : Word} : KeepsMem (acquireWith i key v) :=
  keeps_seen fun _ _ => keeps_ite (keeps_bind (keeps_modCore _) fun _ => keeps_stop) (keeps_modCtx _)

theorem keeps_holdingAtomic {i : Instr} {ord : AtomOrder} {key : Nat} {op : FlightOp} {rd : Reg} : KeepsMem (holdingAtomic i ord key op rd) := by
  unfold holdingAtomic
  dsimp only
  split
  · exact keeps_bind (keeps_releaseFence _) fun _ => keeps_ite (keeps_leaveFor _ _ _) (keeps_bind keeps_performNow fun _ =>
      keeps_when keeps_acquireWith fun _ => keeps_bind (keeps_setX _ _) fun _ => keeps_pure _)
  · exact keeps_ite (keeps_leaveFor _ _ _) (keeps_bind keeps_performNow fun _ => keeps_when keeps_acquireWith fun _ => keeps_bind
      (keeps_setX _ _) fun _ => keeps_pure _)

theorem keeps_specChecks {p : Word} : KeepsMem (specChecks p) :=
  keeps_bind (keeps_checkScalar _) fun _ => keeps_guard (keeps_ite (keeps_throw _) (keeps_pure _))

theorem keeps_specMiss {p : Word} {rd : Reg} : KeepsMem (specMiss p rd) := by
  unfold specMiss
  refine keeps_seen fun _ _ => keeps_seen fun _ _ => ?_
  split
  · exact keeps_bind (keeps_modCore _) fun _ => keeps_stop
  · exact keeps_bind (keeps_modify fun _ => State.memOk_endSpecWalk) fun _ => keeps_bind (keeps_modCore _) fun _ => keeps_bind
      (keeps_setX _ _) fun _ => keeps_pure _

theorem keeps_specAtomic {i : Instr} {p : Word} {op : FlightOp} {rd : Reg} : KeepsMem (specAtomic i p op rd) :=
  keeps_bind (keeps_liftChk keeps_specChecks) fun _ => keeps_seen fun _ _ => keeps_ite keeps_specMiss (keeps_bind (keeps_scalarKey _ _ _) fun _ =>
    keeps_guard (keeps_bind (keeps_modifyGet fun _ h => h) fun _ => keeps_seen fun _ _ => keeps_ite (keeps_bind (keeps_setX _ _) fun _ =>
    keeps_pure _) (keeps_ite (keeps_leaveFor _ _ _) (keeps_bind keeps_performNow fun _ => keeps_bind (keeps_setX _ _) fun _ => keeps_pure _))))

theorem keeps_soundFor {key : Nat} {op : FlightOp} : KeepsMem (soundFor key op) := by
  unfold soundFor
  refine keeps_seen fun _ _ => keeps_seen fun _ _ => keeps_ite (keeps_bind (keeps_modify fun _ h => State.memOk_drainLines h _ _ _ _) fun _ =>
    keeps_seen fun _ _ => ?_) (keeps_pure _)
  split
  · exact keeps_bind (keeps_meetError _) fun _ => keeps_throw _
  · exact keeps_pure _

theorem keeps_atomic {i : Instr} {ord : AtomOrder} {p : Word} {op : FlightOp} {rd : Reg} : KeepsMem (atomic i ord p op rd) := by
  unfold atomic
  refine keeps_ite keeps_specAtomic (keeps_bind (keeps_scalarKey _ _ _) fun _ => keeps_guard ?_)
  split
  · exact keeps_bind keeps_soundFor fun _ => keeps_bind (keeps_roomFor _) fun _ => keeps_bind (keeps_update fun _ => rfl) fun _ => keeps_pure _
  · exact keeps_bind keeps_soundFor fun _ => keeps_bind (keeps_roomFor _) fun _ => keeps_bind (keeps_update fun _ => rfl) fun _ => keeps_pure _
  · exact keeps_bind keeps_soundFor fun _ => keeps_bind keeps_interfaceRoom fun _ => keeps_bind (keeps_update fun _ =>
      State.mem_broadcast _ _ _) fun _ => keeps_pure _
  · exact keeps_holdingAtomic

theorem keeps_cellKey {p : Word} : KeepsMem (cellKey p) := by
  unfold cellKey
  refine keeps_bind (keeps_liftChk (keeps_checkScalar _)) fun _ => keeps_guard (keeps_guard (keeps_seen fun _ _ => ?_))
  split
  · exact keeps_throw _
  · exact keeps_pure _

theorem keeps_cellWrite {key : Nat} {op : FlightOp} : KeepsMem (cellWrite key op) :=
  keeps_seen fun _ _ => keeps_guard (keeps_bind keeps_soundFor fun _ => keeps_seen fun _ _ => keeps_ite (keeps_bind (keeps_roomFor _) fun _ =>
    keeps_update fun _ => rfl) (keeps_modify fun _ h => State.memOk_performOp (State.memOk_drainLines h _ _ _ _) _ _))

theorem keeps_dropCell : KeepsMem dropCell := keeps_update fun _ => rfl

theorem keeps_cellAt {w : CellWait} : KeepsMem (cellAt w) := by
  unfold cellAt
  refine keeps_seen fun _ _ => keeps_guard (keeps_bind (keeps_modify fun _ h => State.memOk_drainLines h _ _ _ _) fun _ => keeps_seen fun _ h => ?_)
  split
  · split
    · exact keeps_pure _
    · exact keeps_throw _
  · split
    · next e => exact keeps_bind (keeps_set (State.memOk_settleCells _ (State.memOk_cellPerform h e))) fun _ => keeps_pure _
    · exact keeps_bind (keeps_modDev fun _ => rfl) fun _ => keeps_throw _

/-! ## Loads that return, and gangs (R188 to R195) -/

theorem keeps_returned {i : Instr} {o : Outstanding} : KeepsMem (returned i o) := by
  unfold returned
  refine keeps_bind (keeps_modCore _) fun _ => keeps_guard ?_
  split
  · exact keeps_bind (keeps_homeRead _ _) fun _ => keeps_bind (keeps_setX _ _) fun _ => keeps_pure _
  · refine keeps_bind keeps_getCtx fun _ => ?_
    dsimp only
    split
    · split
      · exact keeps_bind (keeps_pure _) fun _ => keeps_when keeps_acquireWith fun _ => keeps_bind (keeps_setX _ _) fun _ => keeps_pure _
      · exact keeps_bind keeps_performNow fun _ => keeps_when keeps_acquireWith fun _ => keeps_bind (keeps_setX _ _) fun _ => keeps_pure _
    · split
      · split
        · exact keeps_bind (keeps_pure _) fun _ => keeps_bind keeps_acquireWith fun _ => keeps_bind (keeps_setX _ _) fun _ => keeps_pure _
        · exact keeps_bind (keeps_homeRead _ _) fun _ => keeps_bind (keeps_pure _) fun _ => keeps_bind keeps_acquireWith fun _ => keeps_bind
            (keeps_setX _ _) fun _ => keeps_pure _
      · exact keeps_pure _

theorem keeps_notHeld {word : Word} : KeepsMem (notHeld word) := keeps_seen fun _ _ => keeps_ite (keeps_throw _) (keeps_pure _)

theorem keeps_poisonCheck {l : GangLink} : KeepsMem (poisonCheck l) := by
  unfold poisonCheck
  refine keeps_seen fun _ _ => ?_
  split
  · exact keeps_pure _
  · exact keeps_bind (keeps_update fun _ => rfl) fun _ => keeps_throw _

theorem keeps_shift {i : Instr} {wd : Wd} {vd vs : Reg} {west wrap : Bool} : KeepsMem (shift i wd vd vs west wrap) := by
  unfold shift
  refine keeps_guardCtx (keeps_bind keeps_getCtx fun _ => keeps_bind keeps_needReg fun _ => keeps_bind keeps_notHeld fun _ => keeps_seen fun _ _ =>
    ?_)
  split
  · exact keeps_throw _
  · refine keeps_guard (keeps_bind keeps_readGroups fun _ => keeps_seen fun _ _ => ?_)
    dsimp only
    split
    · exact keeps_pure _
    · split
      · exact keeps_bind keeps_writeGroup fun _ => keeps_bind (keeps_pure _) fun _ => keeps_update fun _ => rfl
      · split
        · exact keeps_bind keeps_writeGroup fun _ => keeps_bind (keeps_pure _) fun _ => keeps_update fun _ => rfl
        · exact keeps_bind (keeps_pure _) fun _ => keeps_update fun _ => rfl

/-! ## The engines' reads and writes (R98, R104) -/

theorem keeps_engKeys {p : Party} {acc : Acc} {ptr : Word} {n : Nat} : KeepsMem (engKeys p acc ptr n) := by
  unfold engKeys
  refine keeps_mapM (fun _ => keeps_seen fun _ h => ?_) _
  split
  · next e => exact keeps_bind (keeps_set ((keeps_resolve _ _ _ _ _).checked h e)) fun _ => keeps_guard (keeps_pure _)
  · next e => exact keeps_bind (keeps_set ((keeps_resolve _ _ _ _ _).checked h e)) fun _ => keeps_throw _

theorem keeps_engPeek {p : Party} {key n : Nat} : KeepsMem (engPeek p key n) := by
  unfold engPeek
  refine keeps_seen fun _ _ => keeps_guard (keeps_bind (keeps_modify fun _ h => State.memOk_drainLines h _ _ _ _) fun _ => keeps_seen fun _ _ => ?_)
  split
  · exact keeps_bind (keeps_modify fun _ h => State.memOk_meetError h _) fun _ => keeps_throw _
  · exact keeps_seen fun _ _ => keeps_pure _

theorem keeps_engRead {p : Party} {ptr : Word} {n : Nat} : KeepsMem (engRead p ptr n) :=
  keeps_bind keeps_engKeys fun _ => keeps_bind (keeps_mapM (fun _ => keeps_engPeek) _) fun _ => keeps_pure _

theorem keeps_engWrite {p : Party} {ptr : Word} {bytes : List Byte} : KeepsMem (engWrite p ptr bytes) :=
  keeps_bind keeps_engKeys fun _ => keeps_modify fun _ h => State.memOk_pokePieces h _ _

theorem keeps_readRecord {p : Word} {n : Nat} : KeepsMem (readRecord p n) :=
  keeps_seen fun _ _ => keeps_ite (keeps_pure _) (keeps_seen fun _ _ =>
    keeps_bind (keeps_liftChk (keeps_asLeft (keeps_bind (keeps_checkScalar _) fun _ => keeps_bind (keeps_resolve _ _ _ _ _) fun _ => keeps_pure _)))
      fun _ => keeps_bind (keeps_coreReadSpan _) fun _ => keeps_bind (keeps_modCore _) fun _ => keeps_pure _)

/-! ## Vector loads and stores (R361 to R364) -/

theorem keeps_ptrPlus {p : Word} {d : Int} : KeepsMem (ptrPlus p d) := keeps_ptrResult

theorem keeps_checkAll {acc : Acc} {ps : List Word} {n e : Nat} : KeepsMem (checkAll acc ps n e) := keeps_mapM (fun _ => keeps_spanKeys _ _ _ _) _

theorem keeps_copyAddresses {p : Word} {off : BitVec 5} {w : Nat} : KeepsMem (copyAddresses p off w) :=
  keeps_bind keeps_ptrPlus fun _ => keeps_pure _

theorem keeps_strideAddresses {p x : Word} {w : Nat} : KeepsMem (strideAddresses p x w) := keeps_mapM (fun _ => keeps_ptrPlus) _

theorem keeps_checkAppends {vd : Reg} {n : Nat} : KeepsMem (checkAppends vd n) := keeps_bind keeps_appendKeys fun _ => keeps_pure _

theorem keeps_copyIn {vd : Reg} {keys : List (List (Nat × Nat))} : KeepsMem (copyIn vd keys) :=
  keeps_bind keeps_checkAppends fun _ => keeps_bind (keeps_mapM (fun _ => keeps_coreReadSpan _) _) fun _ => keeps_writeGroup

theorem keeps_storeAll {keys : List (List (Nat × Nat))} {runs : List (List Byte)} : KeepsMem (storeAll keys runs) := keeps_coreWriteLines _ _

theorem keeps_copyOut {v : Nat} {keys : List (List (Nat × Nat))} : KeepsMem (copyOut v keys) := keeps_storeAll

theorem keeps_needCopyFormat {p : Word} : KeepsMem (needCopyFormat p) := keeps_ite (keeps_throw _) (keeps_pure _)

theorem keeps_blockPointers {p : Word} {planes b : Nat} {j : Int} {n : Nat} : KeepsMem (blockPointers p planes b j n) :=
  keeps_mapM (fun _ => keeps_ptrPlus) _

theorem keeps_fetchBlock {keys : List (Nat × Nat)} {planes b k : Nat} {narm : Bool} : KeepsMem (fetchBlock keys planes b k narm) :=
  keeps_bind (keeps_coreReadSpan _) fun _ => keeps_ite (keeps_bind (keeps_coreReadSpan _) fun _ => keeps_pure _) (keeps_pure _)

theorem keeps_loadPlanes {vd : Reg} {w : Nat} {p : Word} {off : BitVec 5} {k : Nat} : KeepsMem (loadPlanes vd w p off k) :=
  keeps_bind keeps_blockPointers fun _ => keeps_bind keeps_checkAll fun _ => keeps_bind keeps_checkAppends fun _ =>
    keeps_bind keeps_getCtx fun _ => keeps_bind (keeps_mapM (fun _ => keeps_fetchBlock) _) fun _ => keeps_bind keeps_writeGroup fun _ =>
    keeps_modCtx _

theorem keeps_storePlanes {vd : Reg} {w : Nat} {p : Word} {off : BitVec 5} {k : Nat} : KeepsMem (storePlanes vd w p off k) :=
  keeps_guard (keeps_guard (keeps_bind keeps_blockPointers fun _ => keeps_bind keeps_checkAll fun _ => keeps_bind keeps_readGroups fun _ =>
    keeps_bind keeps_getCtx fun _ => keeps_storeAll))

theorem keeps_indexAddresses {p : Word} {vi : Nat} {w e : Nat} : KeepsMem (indexAddresses p vi w e) := keeps_mapM (fun _ => keeps_ptrPlus) _

theorem keeps_listStores {p : Word} {size : Nat} {list : List Nat} : KeepsMem (listStores p size list) :=
  keeps_bind (keeps_spanKeys _ _ _ _) fun _ => keeps_ite (keeps_pure _) (keeps_bind (keeps_spanKeys _ _ _ _) fun _ => keeps_bind
    (keeps_spanKeys _ _ _ _) fun _ => keeps_pure _)

theorem keeps_listLanes {i : Instr} {ty : Ty} {wd : Wd} {vs1 : Reg} {p : Word} : KeepsMem (listLanes i ty wd vs1 p) :=
  keeps_guardCtx (keeps_bind keeps_getCtx fun _ => keeps_bind keeps_needReg fun _ => keeps_guard (keeps_bind keeps_readGroups fun _ =>
    keeps_listStores))

/-! ## DMA and EDDY commands (R96, R113, R125) -/

theorem keeps_dealChecks {c : DmaCmd} : KeepsMem (dealChecks c) := by
  unfold dealChecks
  refine keeps_seen fun _ _ => ?_
  split
  · exact keeps_throw _
  · split
    · exact keeps_throw _
    · exact keeps_guard (keeps_guard (keeps_guard (keeps_guard (keeps_pure _))))

theorem keeps_firstByte {acc : Acc} {p : Word} {a : Nat} : KeepsMem (firstByte acc p a) :=
  keeps_seen fun _ _ => keeps_liftChk (keeps_bind (keeps_checkFormat _) fun _ => keeps_bind (keeps_resolve _ _ _ _ _) fun _ => keeps_pure _)

theorem keeps_pushDma {c : DmaCmd} {next : Nat} {plain : Bool} : KeepsMem (pushDma c next plain) := by
  unfold pushDma
  refine keeps_seen fun _ _ => keeps_guard (keeps_guard (keeps_guard ?_))
  split
  · exact keeps_throw _
  · refine keeps_when keeps_firstByte fun _ => keeps_bind keeps_firstByte fun _ => keeps_when keeps_firstByte fun _ =>
      keeps_tried (keeps_scalarKey _ _ _) (keeps_guard (keeps_either keeps_dealChecks (keeps_pure _) fun _ => keeps_seen fun _ _ => ?_))
    exact keeps_ite (keeps_pure _) (keeps_guard (keeps_bind keeps_takeSeq fun _ => keeps_seen fun _ _ => keeps_update fun _ => rfl))

theorem keeps_waitDone {mask : Word} : KeepsMem (waitDone mask) := keeps_bind keeps_getCtx fun _ => keeps_ite (keeps_throw _) (keeps_pure _)

theorem keeps_readEntropy {p : Party} {src tab : Word} {len m : Nat} {accepts : Nat → Bool} : KeepsMem (readEntropy p src tab len m accepts) := by
  unfold readEntropy
  refine keeps_bind keeps_engRead fun _ => ?_
  split
  · exact keeps_pure _
  · exact keeps_bind keeps_engRead fun _ => keeps_ite (keeps_bind (keeps_pure _) fun _ => keeps_pure _) (keeps_bind keeps_engRead fun _ =>
      keeps_pure _)

theorem keeps_readChunk {p : Party} {j : DmaJob} : KeepsMem (readChunk p j) := by
  unfold readChunk
  dsimp only
  split
  · exact keeps_bind keeps_engRead fun _ => keeps_pure _
  · exact keeps_bind keeps_engRead fun _ => keeps_bind keeps_engRead fun _ => keeps_pure _
  · exact keeps_readEntropy
  · exact keeps_bind keeps_engRead fun _ => keeps_pure _

theorem keeps_dmaArrival {p : Party} {j : DmaJob} : KeepsMem (dmaArrival p j) := by
  unfold dmaArrival
  refine keeps_ite (keeps_seen fun s h => ?_) (keeps_pure _)
  have found : KeepsMem (do checkScalar j.cmd.arrive; resolve (s.partyWho p) .rmw j.cmd.arrive 8 8 : Chk Nat) :=
    keeps_bind (keeps_checkScalar _) fun _ => keeps_resolve _ _ _ _ _
  split
  · next e => exact keeps_bind (keeps_set (found.checked h e)) fun _ => keeps_throw _
  · next e =>
    exact keeps_bind (keeps_set (found.checked h e)) fun _ => keeps_guard (keeps_bind keeps_engPeek fun _ =>
      keeps_modify fun _ h => State.memOk_performOp h _ _)

theorem keeps_eddyChecks {idx base w10 w18 : Word} {scatter : Bool} : KeepsMem (eddyChecks idx base w10 w18 scatter) :=
  keeps_guard (keeps_guard (keeps_guard (keeps_guard (keeps_bind keeps_firstByte fun _ => keeps_bind keeps_firstByte fun _ => keeps_guard
    (keeps_guard (keeps_ite (keeps_throw _) (keeps_pure _)))))))

theorem keeps_pushEddy {bytes : List Byte} {scatter : Bool} {next : Nat} {resumed : Bool} : KeepsMem (pushEddy bytes scatter next resumed) :=
  keeps_seen fun _ _ => keeps_guard (keeps_bind keeps_eddyChecks fun _ => keeps_seen fun _ _ => keeps_guard (keeps_bind (keeps_takeSeq) fun _ =>
    keeps_seen fun _ _ => keeps_bind (keeps_modDev fun _ => rfl) fun _ => keeps_modCore _))

theorem keeps_rowPointer {base : Word} {i len : Nat} : KeepsMem (rowPointer base i len) := keeps_guard (keeps_pure _)

theorem keeps_namingRow {α : Type} {row : Word} {act : Eng α} (ha : KeepsMem act) : KeepsMem (namingRow row act) := by
  intro s h
  have kept := ha s h
  unfold namingRow
  cases e : act s with
  | ok _ _ => rwa [e] at kept
  | error x _ =>
    rw [e] at kept
    cases x <;> exact kept

theorem keeps_eddyRow {j : EddyJob} : KeepsMem (eddyRow j) :=
  keeps_bind keeps_engRead fun _ => keeps_ite (keeps_pure _) (keeps_bind keeps_rowPointer fun _ => keeps_ite
    (keeps_bind keeps_engPeek fun _ => keeps_bind (keeps_namingRow keeps_engWrite) fun _ => keeps_pure _)
    (keeps_bind (keeps_namingRow keeps_engRead) fun _ => keeps_bind (keeps_modify fun _ h => State.memOk_pokePieces h _ _) fun _ => keeps_pure _))

/-! ## The matrix engine (R100 to R124) -/

theorem keeps_mmasChecks {w : IWord} {base d : Word} : KeepsMem (mmasChecks w base d) :=
  keeps_guard (keeps_guard (keeps_guard (keeps_guard (keeps_bind keeps_firstByte fun _ => keeps_ite (keeps_throw _) (keeps_pure _)))))

theorem keeps_laidOutFor {p : Party} {src : Word} {n : Nat} : KeepsMem (laidOutFor p src n) := keeps_bind keeps_engRead fun _ => keeps_pure _

theorem keeps_tilePlanes {p : Party} {src : Word} : ∀ ns, KeepsMem (tilePlanes p src ns)
  | [] => keeps_pure _
  | _ :: rest => keeps_bind keeps_laidOutFor fun _ => keeps_ite (keeps_pure _) (keeps_tilePlanes rest)

theorem keeps_tilePlanesNow {p : Party} {src : Word} : ∀ ns, KeepsMem (tilePlanesNow p src ns)
  | [] => keeps_pure _
  | n :: rest => by
    intro s h
    have kept := keeps_laidOutFor (p := p) (src := src) (n := n) s h
    unfold tilePlanesNow
    cases e : laidOutFor p src n s with
    | ok found t =>
      rw [e] at kept
      cases found with
      | true => exact kept
      | false => exact keeps_tilePlanesNow rest t kept
    | error _ _ => rwa [e] at kept

theorem keeps_mldwChecks {src : Word} : KeepsMem (mldwChecks src) :=
  keeps_ite (keeps_bind keeps_firstByte fun _ => keeps_seen fun _ _ => keeps_bind (keeps_tilePlanesNow _) fun _ => keeps_firstByte)
    (keeps_guard keeps_firstByte)

theorem keeps_mtxOperands {w : IWord} {bval cval : Word} : KeepsMem (mtxOperands w bval cval) := by
  unfold mtxOperands
  split
  · exact keeps_mldwChecks
  · exact keeps_mmasChecks
  · exact keeps_guard keeps_firstByte
  · exact keeps_guard (keeps_bind keeps_appendKeys fun _ => keeps_pure _)
  · exact keeps_pure _

theorem keeps_pushMatrix {i : Instr} {w : IWord} {bval cval : Word} : KeepsMem (pushMatrix i w bval cval) := by
  unfold pushMatrix
  refine keeps_seen fun _ _ => keeps_bind keeps_needReg fun _ => keeps_bind keeps_notHeld fun _ => keeps_guard (keeps_guard
    (keeps_when keeps_mtxOperands fun _ => keeps_seen fun _ _ => keeps_guard ?_))
  split
  · exact keeps_throw _
  · refine keeps_bind keeps_popOperands fun _ => keeps_bind (keeps_takeSeq) fun _ => keeps_seen fun _ _ => keeps_bind (keeps_update fun _ =>
      rfl) fun _ => ?_
    split
    · exact keeps_ite (keeps_update fun _ => rfl) (keeps_modCore _)
    · exact keeps_modCore _

theorem keeps_jointRead {p : Party} {others : List Party} {ptr : Word} {n : Nat} : KeepsMem (jointRead p others ptr n) :=
  keeps_bind keeps_engKeys fun _ => keeps_bind (keeps_mapM (fun _ => keeps_bind (keeps_forIn (fun _ _ => keeps_seen fun _ _ => keeps_guard
    (keeps_bind (keeps_modify fun _ h => State.memOk_drainLines h _ _ _ _) fun _ => keeps_pure _)) _ _) fun _ => keeps_engPeek) _) fun _ =>
    keeps_pure _

theorem keeps_mmasRow {p : Party} {others : List Party} {j : MtxJob} {t r : Nat} : KeepsMem (mmasRow p others j t r) :=
  keeps_bind keeps_jointRead fun _ => keeps_bind keeps_jointRead fun _ => keeps_pure _

theorem keeps_tileRows {p : Party} {others : List Party} {j : MtxJob} {t : Nat} : KeepsMem (tileRows p others j t) :=
  keeps_ite (keeps_pure _) (keeps_mapM (fun _ => keeps_mmasRow) _)

theorem keeps_tileFetch {p : Party} {src : Word} : KeepsMem (tileFetch p src) := by
  unfold tileFetch
  refine keeps_ite (keeps_bind (keeps_tilePlanes _) fun _ => ?_) (keeps_bind keeps_engRead fun _ => keeps_pure _)
  split
  · exact keeps_pure _
  · refine keeps_bind (keeps_forIn (fun _ _ => keeps_bind keeps_readEntropy fun _ => keeps_ite (keeps_pure _) (keeps_pure _)) _ _) fun _ => ?_
    dsimp only
    split
    · exact keeps_pure _
    · exact keeps_pure _

theorem keeps_writeAscending {p : Party} {dest : Word} {bytes : List Byte} : KeepsMem (writeAscending p dest bytes) :=
  keeps_bind (keeps_forIn (fun _ _ => keeps_bind keeps_engWrite fun _ => keeps_pure _) _ _) fun _ => keeps_pure _

theorem keeps_writeQuad {p : Party} {first row : Nat} : KeepsMem (writeQuad p first row) :=
  keeps_seen fun _ _ =>
    keeps_bind (keeps_forIn (fun _ _ => keeps_guard (keeps_bind keeps_engKeys fun _ => keeps_pure _)) _ _) fun _ =>
    keeps_bind (keeps_modCtxId _ _) fun _ =>
    keeps_bind (keeps_forIn (fun _ _ => keeps_bind keeps_engWrite fun _ => keeps_bind (keeps_modCtxId _ _) fun _ => keeps_pure _) _ _) fun _ =>
    keeps_pure _

theorem keeps_sliceWork {core : Nat} {j : MtxJob} : KeepsMem (sliceWork core j) := by
  unfold sliceWork
  refine keeps_seen fun _ _ => ?_
  extract_lets ctx
  split
  · refine keeps_bind (fun s h => ?_) fun _ => ?_
    · have kept := keeps_tileFetch (p := j.party core) (src := j.bval) s h
      cases e : tileFetch (j.party core) j.bval s with
      | ok _ _ => rwa [e] at kept
      | error x _ =>
        rw [e] at kept
        cases x <;> exact kept
    · split
      · exact keeps_bind (keeps_modCtxId _ _) fun _ => keeps_pure _
      · exact keeps_bind (keeps_modCtxId _ _) fun _ => keeps_pure _
  · exact keeps_bind (keeps_modCtxId _ _) fun _ => keeps_pure _
  · exact keeps_bind keeps_writeAscending fun _ => keeps_pure _
  · exact keeps_bind keeps_writeQuad fun _ => keeps_pure _
  · exact keeps_pure _

/-! ## Rule instructions (R420 to R429) -/

theorem keeps_ownKey {acc : Acc} {p : Word} {n a : Nat} : KeepsMem (ownKey acc p n a) :=
  keeps_guard (keeps_seen fun _ _ => keeps_guard (keeps_guard (keeps_liftChk (keeps_resolve _ _ _ _ _))))

theorem keeps_readRes {p : Word} : KeepsMem (readRes p) := keeps_bind keeps_ownKey fun _ => keeps_bind (keeps_coreRead _ _) fun _ => keeps_pure _

theorem keeps_writeRes {p : Word} {r : RuleRes} : KeepsMem (writeRes p r) := keeps_bind keeps_ownKey fun _ => keeps_coreWrite _ _

theorem keeps_combine {info : Word} {a b : RuleRes} : KeepsMem (combine info a b) := keeps_bind keeps_getCtx fun _ => keeps_guard (keeps_pure _)

theorem keeps_foldRes {info : Word} {acc : Option RuleRes} {x : RuleRes} : KeepsMem (foldRes info acc x) := by
  unfold foldRes
  split
  · exact keeps_pure _
  · exact keeps_combine

theorem keeps_readX {d : Word} {c : Nat} : KeepsMem (readX d c) := keeps_bind keeps_ownKey fun _ => keeps_coreReadNat _ _

theorem keeps_leafSlot {d : Word} {kind op sym : Nat} : KeepsMem (leafSlot d kind op sym) := by
  unfold leafSlot
  extract_lets p
  split
  · exact keeps_pure _
  · exact keeps_pure _
  · exact keeps_pure _
  · exact keeps_bind keeps_readX fun _ => keeps_pure _
  · exact keeps_pure _

theorem keeps_leafRes {info : Word} {sym : Nat} : KeepsMem (leafRes info sym) :=
  keeps_bind keeps_getCtx fun _ => keeps_guard (keeps_bind keeps_leafSlot fun _ => keeps_bind keeps_leafSlot fun _ =>
    keeps_bind keeps_leafSlot fun _ => keeps_pure _)

theorem keeps_valueOf {info : Word} {sym : Nat} : KeepsMem (valueOf info sym) :=
  keeps_ite (keeps_bind keeps_getCtx fun _ => keeps_guard keeps_readRes) keeps_leafRes

theorem keeps_objWord {off : Nat} : KeepsMem (objWord off) :=
  keeps_bind keeps_getCtx fun _ => keeps_bind (keeps_loadBytes _ _ _) fun _ => keeps_pure _

theorem keeps_spineAt {j : Nat} : KeepsMem (spineAt j) := keeps_bind keeps_getCtx fun _ => keeps_objWord

theorem keeps_ruleAt {i : Nat} : KeepsMem (ruleAt i) :=
  keeps_bind keeps_getCtx fun _ => keeps_bind keeps_objWord fun _ => keeps_bind keeps_objWord fun _ => keeps_pure _

theorem keeps_childOk {i sym : Nat} : KeepsMem (childOk i sym) := keeps_ite (keeps_throw _) (keeps_pure _)

theorem keeps_ruleReady : KeepsMem ruleReady := keeps_bind keeps_getCtx fun _ => keeps_guard (keeps_ite (keeps_throw _) (keeps_pure _))

theorem keeps_unitsDone {fn count : Nat} : KeepsMem (unitsDone fn count) := keeps_bind keeps_getCtx fun _ => keeps_guard (keeps_pure _)

theorem keeps_inUnit {α : Type} {fn done : Nat} {onTrap : State → State} {body : Act α} (ht : ∀ s, s.memOk → (onTrap s).memOk)
    (hb : KeepsMem body) : KeepsMem (inUnit fn done onTrap body) := by
  intro s h
  have kept := hb s h
  unfold inUnit
  cases e : body s with
  | ok _ _ => rwa [e] at kept
  | error x t =>
    rw [e] at kept
    cases x with
    | trap n info r =>
      show (State.modCore _ _).memOk
      rw [State.memOk_modCore]
      exact ht t kept
    | hold _ => exact kept

theorem keeps_unitEnd {fn done count : Nat} : KeepsMem (unitEnd fn done count) :=
  keeps_ite (keeps_bind (keeps_modCore _) fun _ => keeps_throw _) (keeps_modCore _)

theorem keeps_revalUnit {i : Nat} : KeepsMem (revalUnit i) :=
  keeps_bind keeps_ruleAt fun _ => keeps_bind keeps_childOk fun _ => keeps_bind keeps_childOk fun _ => keeps_bind keeps_valueOf fun _ =>
    keeps_bind keeps_valueOf fun _ => keeps_bind keeps_getCtx fun _ => keeps_bind keeps_combine fun _ => keeps_writeRes

theorem keeps_spineRange {xs xe : Reg} : KeepsMem (spineRange xs xe) :=
  keeps_bind (keeps_getX _) fun _ => keeps_bind (keeps_getX _) fun _ => keeps_bind keeps_getCtx fun _ => keeps_guard (keeps_pure _)

theorem keeps_runGoing {fn : Nat} : KeepsMem (runGoing fn) := keeps_seen fun _ _ => keeps_pure _

theorem keeps_keepRun {r : RuleRun} : KeepsMem (keepRun r) := keeps_modCore _

theorem keeps_expandSym : ∀ fuel sym, KeepsMem (expandSym fuel sym)
  | 0, _ => keeps_pure _
  | fuel + 1, _ => keeps_ite
      (keeps_bind keeps_ruleAt fun _ => keeps_bind keeps_childOk fun _ => keeps_bind (keeps_expandSym fuel _) fun _ =>
        keeps_bind keeps_childOk fun _ => keeps_bind (keeps_expandSym fuel _) fun _ => keeps_pure _)
      (keeps_pure _)

theorem keeps_interior {j : Nat} {out : Word} {before : Option RuleRes} :
    ∀ fuel ends info sym here, KeepsMem (interior j out before fuel ends info sym here)
  | 0, _, _, _, _ => keeps_pure _
  | fuel + 1, _, _, _, _ => keeps_ite
      (keeps_bind keeps_ruleAt fun _ => keeps_bind keeps_childOk fun _ => keeps_bind (keeps_interior fuel _ _ _ _) fun _ =>
        keeps_bind keeps_childOk fun _ => keeps_interior fuel _ _ _ _)
      (keeps_ite (keeps_pure _) (keeps_bind keeps_leafRes fun _ => keeps_bind keeps_foldRes fun _ => keeps_bind keeps_foldRes fun _ =>
        keeps_bind keeps_writeRes fun _ => keeps_pure _))

theorem keeps_terminalsOf {sym : Nat} : KeepsMem (terminalsOf sym) := keeps_expandSym _ _

theorem keeps_positionsOf {a n : Nat} : KeepsMem (positionsOf a n) :=
  keeps_bind (keeps_mapM (fun _ => keeps_bind keeps_spineAt fun _ => keeps_bind keeps_terminalsOf fun _ => keeps_pure _) _) fun _ => keeps_pure _

theorem keeps_rscanUnit {all : Bool} {out : Word} {j pos : Nat} {acc : Option RuleRes} : KeepsMem (rscanUnit all out j pos acc) :=
  keeps_bind keeps_spineAt fun _ => keeps_bind keeps_valueOf fun _ => keeps_bind keeps_foldRes fun _ => keeps_ite
    (keeps_bind (keeps_interior _ _ _ _ _) fun _ => keeps_bind keeps_writeRes fun _ => keeps_pure _) (keeps_bind (keeps_pure _) fun _ =>
    keeps_bind keeps_writeRes fun _ => keeps_pure _)

theorem keeps_seekSpine {i : Word} {total : Nat} : ∀ fuel j o pre, KeepsMem (seekSpine i total fuel j o pre)
  | 0, _, _, _ => keeps_throw _
  | fuel + 1, _, _, _ => keeps_guard (keeps_bind keeps_spineAt fun _ => keeps_bind keeps_valueOf fun _ =>
      keeps_ite (keeps_pure _) (keeps_bind keeps_foldRes fun _ => keeps_seekSpine fuel _ _ _))

theorem keeps_seekDown {i : Word} : ∀ fuel info o sym pre, KeepsMem (seekDown i fuel info o sym pre)
  | 0, _, _, _, _ => keeps_pure _
  | fuel + 1, _, _, _, _ => keeps_ite
      (keeps_bind keeps_ruleAt fun _ => keeps_bind keeps_childOk fun _ => keeps_bind keeps_valueOf fun _ =>
        keeps_ite (keeps_seekDown fuel _ _ _ _) (keeps_bind keeps_foldRes fun _ => keeps_bind keeps_childOk fun _ => keeps_seekDown fuel _ _ _ _))
      (keeps_guard (keeps_pure _))

theorem keeps_foldSpine : ∀ n j acc, KeepsMem (foldSpine n j acc)
  | 0, _, _ => keeps_pure _
  | n + 1, _, _ => keeps_bind keeps_spineAt fun _ => keeps_bind keeps_valueOf fun _ => keeps_bind keeps_foldRes fun _ => keeps_foldSpine n _ _

theorem keeps_rmvUnit {y : Word} {j first : Nat} : KeepsMem (rmvUnit y j first) :=
  keeps_bind keeps_getCtx fun _ => keeps_bind keeps_objWord fun _ => keeps_bind keeps_objWord fun _ => keeps_bind (keeps_foldSpine _ _ _) fun _ =>
    keeps_bind keeps_ownKey fun _ => keeps_coreWrite _ _

/-! ## Bit-stream and vector instructions, and those a capture buffer can hold (R365 to R379, R430 to R435) -/

theorem keeps_bodyBgen {bd : BitVec 4} {vp : Reg} {g : BitVec 3} {len : BitVec 2} : KeepsMem (bodyBgen bd vp g len) :=
  keeps_guardCtx (keeps_bind keeps_getCtx fun _ => keeps_bind keeps_needReg fun _ => keeps_guard (keeps_bind keeps_readGroups fun _ =>
    keeps_modCtx _))

theorem keeps_combine2 {i : Instr} {bd bs1 bs2 : BitVec 4} {cor : Bool} {f : Nat → Nat → Nat → Nat} : KeepsMem (combine2 i bd bs1 bs2 cor f) :=
  keeps_bind keeps_getCtx fun _ => keeps_bind keeps_needReg fun _ => keeps_guard (keeps_guard (keeps_bind keeps_countReads fun _ => keeps_modCtx _))

theorem keeps_bodyBmux {bd bs1 bs2 bsel : BitVec 4} {cor : Bool} : KeepsMem (bodyBmux bd bs1 bs2 bsel cor) :=
  keeps_bind keeps_getCtx fun _ => keeps_bind keeps_needReg fun _ => keeps_guard (keeps_guard (keeps_bind keeps_countReads fun _ => keeps_modCtx _))

theorem keeps_bodyBnot {bd bs : BitVec 4} : KeepsMem (bodyBnot bd bs) :=
  keeps_bind keeps_getCtx fun _ => keeps_bind keeps_needReg fun _ => keeps_modCtx _

theorem keeps_bodyBcnt {xd : Reg} {bs : BitVec 4} : KeepsMem (bodyBcnt xd bs) :=
  keeps_bind keeps_getCtx fun _ => keeps_bind keeps_needReg fun _ => keeps_setX _ _

theorem keeps_bodyBregen {bd bs : BitVec 4} {g : BitVec 3} : KeepsMem (bodyBregen bd bs g) :=
  keeps_bind keeps_getCtx fun _ => keeps_bind keeps_needReg fun _ => keeps_guard (keeps_modCtx _)

theorem keeps_bodyBcls {xd : Reg} {bs : BitVec 4} : KeepsMem (bodyBcls xd bs) :=
  keeps_bind keeps_getCtx fun _ => keeps_bind keeps_needReg fun _ => keeps_setX _ _

theorem keeps_bodyBmov {bd bs : BitVec 4} : KeepsMem (bodyBmov bd bs) :=
  keeps_bind keeps_getCtx fun _ => keeps_bind keeps_needReg fun _ => keeps_modCtx _

theorem keeps_lanes3 {i : Instr} {ty : Ty} {wd : Wd} {vd vs1 vs2 : Reg} {readsVd : Bool} {f : Nat → Nat → Nat → Nat} : KeepsMem
    (lanes3 i ty wd vd vs1 vs2 readsVd f) :=
  keeps_guardCtx (keeps_bind keeps_getCtx fun _ => keeps_bind keeps_needReg fun _ => keeps_bind keeps_readGroups fun _ => keeps_writeGroup)

theorem keeps_intLanes {i : Instr} {ty : Ty} {wd : Wd} {vd vs1 vs2 : Reg} {f : Int → Int → Nat} : KeepsMem (intLanes i ty wd vd vs1 vs2 f) :=
  keeps_lanes3

theorem keeps_floatLanes {i : Instr} {ty : Ty} {wd : Wd} {vd vs1 : Reg} {more : List Reg} {f : Rm → Nat → Nat → Nat → Nat × Flg} : KeepsMem
    (floatLanes i ty wd vd vs1 more f) :=
  keeps_guardCtx (keeps_bind keeps_getCtx fun _ => keeps_bind keeps_needReg fun _ => keeps_bind keeps_readGroups fun _ =>
    keeps_bind keeps_writeGroup fun _ => keeps_modCtx _)

theorem keeps_bodyVabs {ty : Ty} {wd : Wd} {vd vs1 : Reg} : KeepsMem (bodyVabs ty wd vd vs1) :=
  keeps_guardCtx (keeps_bind keeps_getCtx fun _ => keeps_bind keeps_needReg fun _ => keeps_bind keeps_readGroups fun _ => keeps_writeGroup)

theorem keeps_bodyVmovx {ty : Ty} {xd vs1 xi : Reg} : KeepsMem (bodyVmovx ty xd vs1 xi) :=
  keeps_guardCtx (keeps_bind keeps_getCtx fun _ => keeps_bind keeps_needReg fun _ => keeps_bind keeps_readGroups fun _ => keeps_bind
    (keeps_getX _) fun _ => keeps_setX _ _)

theorem keeps_bodyVsplat {ty : Ty} {wd : Wd} {vd xv : Reg} : KeepsMem (bodyVsplat ty wd vd xv) :=
  keeps_guardCtx (keeps_bind keeps_getCtx fun _ => keeps_bind keeps_needReg fun _ => keeps_bind (keeps_getX _) fun _ => keeps_writeGroup)

theorem keeps_bodyVins {ty : Ty} {vd xv xi : Reg} : KeepsMem (bodyVins ty vd xv xi) :=
  keeps_guardCtx (keeps_bind keeps_getCtx fun _ => keeps_bind keeps_needReg fun _ => keeps_ite keeps_writeGroup (keeps_pure _))

theorem keeps_bodyVperm {ty : Ty} {wd : Wd} {vd vs1 vs2 : Reg} : KeepsMem (bodyVperm ty wd vd vs1 vs2) :=
  keeps_guardCtx (keeps_bind keeps_getCtx fun _ => keeps_bind keeps_needReg fun _ => keeps_bind keeps_readGroups fun _ => keeps_writeGroup)

theorem keeps_bodyVslide {ty : Ty} {wd : Wd} {vd vs1 xa : Reg} : KeepsMem (bodyVslide ty wd vd vs1 xa) :=
  keeps_guardCtx (keeps_bind keeps_getCtx fun _ => keeps_bind keeps_needReg fun _ => keeps_bind keeps_readGroups fun _ => keeps_bind
    (keeps_getX _) fun _ => keeps_writeGroup)

theorem keeps_bodyVcompr {ty : Ty} {wd : Wd} {vd vs1 vs2 : Reg} : KeepsMem (bodyVcompr ty wd vd vs1 vs2) :=
  keeps_guardCtx (keeps_bind keeps_getCtx fun _ => keeps_bind keeps_needReg fun _ => keeps_bind keeps_readGroups fun _ => keeps_writeGroup)

theorem keeps_bodyVpopc {ty : Ty} {wd : Wd} {xd vs1 : Reg} : KeepsMem (bodyVpopc ty wd xd vs1) :=
  keeps_guardCtx (keeps_bind keeps_getCtx fun _ => keeps_bind keeps_needReg fun _ => keeps_bind keeps_readGroups fun _ => keeps_setX _ _)

theorem keeps_bodyVred {ty : Ty} {wd : Wd} {vd vs1 : Reg} : KeepsMem (bodyVred ty wd vd vs1) :=
  keeps_guardCtx (keeps_bind keeps_getCtx fun _ => keeps_bind keeps_needReg fun _ => keeps_bind keeps_readGroups fun _ =>
    keeps_bind keeps_writeGroup fun _ => keeps_modCtx _)

theorem keeps_bodyVscan {ty : Ty} {wd : Wd} {vd vs1 : Reg} : KeepsMem (bodyVscan ty wd vd vs1) :=
  keeps_guardCtx (keeps_bind keeps_getCtx fun _ => keeps_bind keeps_needReg fun _ => keeps_bind keeps_readGroups fun _ =>
    keeps_bind keeps_writeGroup fun _ => keeps_modCtx _)

theorem keeps_bodyVcvt {ty : Ty} {wd : Wd} {vd vs1 : Reg} {td : Ty} : KeepsMem (bodyVcvt ty wd vd vs1 td) :=
  keeps_guardCtx (keeps_bind keeps_getCtx fun _ => keeps_bind keeps_needReg fun _ => keeps_bind keeps_readGroups fun _ =>
    keeps_bind keeps_writeGroup fun _ => keeps_modCtx _)

theorem keeps_bodyVqnt {ty : Ty} {wd : Wd} {vd vs1 vs2 : Reg} : KeepsMem (bodyVqnt ty wd vd vs1 vs2) :=
  keeps_guardCtx (keeps_bind keeps_getCtx fun _ => keeps_bind keeps_needReg fun _ => keeps_bind keeps_readGroups fun _ =>
    keeps_bind keeps_writeGroup fun _ => keeps_modCtx _)

theorem keeps_capturedBody {i : Instr} {b : Act Unit} (h : capturedBody i = some b) : KeepsMem b := by
  cases i
  case add => cases h; exact keeps_bodyAdd
  case sub => cases h; exact keeps_bodySub
  case and => cases h; exact keeps_alu3
  case or => cases h; exact keeps_alu3
  case xor => cases h; exact keeps_alu3
  case andn => cases h; exact keeps_alu3
  case orn => cases h; exact keeps_alu3
  case sll => cases h; exact keeps_alu3
  case srl => cases h; exact keeps_alu3
  case sra => cases h; exact keeps_alu3
  case slli => cases h; exact keeps_alu1
  case srli => cases h; exact keeps_alu1
  case srai => cases h; exact keeps_alu1
  case slt => cases h; exact keeps_alu3
  case sltu => cases h; exact keeps_alu3
  case min => cases h; exact keeps_alu3
  case max => cases h; exact keeps_alu3
  case minu => cases h; exact keeps_alu3
  case maxu => cases h; exact keeps_alu3
  case mul => cases h; exact keeps_alu3
  case mulh => cases h; exact keeps_alu3
  case mulhu => cases h; exact keeps_alu3
  case div => cases h; exact keeps_alu3
  case divu => cases h; exact keeps_alu3
  case rem => cases h; exact keeps_alu3
  case remu => cases h; exact keeps_alu3
  case clz => cases h; exact keeps_alu1
  case ctz => cases h; exact keeps_alu1
  case popc => cases h; exact keeps_alu1
  case sextb => cases h; exact keeps_alu1
  case sexth => cases h; exact keeps_alu1
  case sextw => cases h; exact keeps_alu1
  case zextw => cases h; exact keeps_alu1
  case csel => cases h; exact keeps_bodyCsel
  case ptag => cases h; exact keeps_alu3
  case pfmt => cases h; exact keeps_alu1
  case pblk => cases h; exact keeps_alu1
  case pmesh => cases h; exact keeps_alu3
  case addi => cases h; exact keeps_bodyAddi
  case andi => cases h; exact keeps_alu1
  case ori => cases h; exact keeps_alu1
  case xori => cases h; exact keeps_alu1
  case slti => cases h; exact keeps_alu1
  case sltiu => cases h; exact keeps_alu1
  case lui => cases h; exact keeps_setX _ _
  case shori => cases h; exact keeps_alu1
  case vadd => cases h; unfold bodyVadd; exact keeps_intLanes
  case vsub => cases h; unfold bodyVsub; exact keeps_intLanes
  case vmul => cases h; unfold bodyVmul; exact keeps_intLanes
  case vmulh => cases h; unfold bodyVmulh; exact keeps_intLanes
  case vmin => cases h; unfold bodyVmin; exact keeps_intLanes
  case vmax => cases h; unfold bodyVmax; exact keeps_intLanes
  case vand => cases h; unfold bodyVand; exact keeps_lanes3
  case vor => cases h; unfold bodyVor; exact keeps_lanes3
  case vxor => cases h; unfold bodyVxor; exact keeps_lanes3
  case vshl => cases h; unfold bodyVshl; exact keeps_lanes3
  case vshr => cases h; unfold bodyVshr; exact keeps_lanes3
  case vsra => cases h; unfold bodyVsra; exact keeps_lanes3
  case vabs => cases h; exact keeps_bodyVabs
  case vadds => cases h; unfold bodyVadds; exact keeps_intLanes
  case vsubs => cases h; unfold bodyVsubs; exact keeps_intLanes
  case vcmpeq => cases h; unfold bodyVcmpeq; exact keeps_intLanes
  case vcmplt => cases h; unfold bodyVcmplt; exact keeps_intLanes
  case vcmple => cases h; unfold bodyVcmple; exact keeps_intLanes
  case vsel => cases h; unfold bodyVsel; exact keeps_lanes3
  case vfadd => cases h; unfold bodyVfadd; exact keeps_floatLanes
  case vfsub => cases h; unfold bodyVfsub; exact keeps_floatLanes
  case vfmul => cases h; unfold bodyVfmul; exact keeps_floatLanes
  case vfma => cases h; unfold bodyVfma; exact keeps_floatLanes
  case vfnma => cases h; unfold bodyVfnma; exact keeps_floatLanes
  case vfmin => cases h; unfold bodyVfmin; exact keeps_floatLanes
  case vfmax => cases h; unfold bodyVfmax; exact keeps_floatLanes
  case vfdiv => cases h; unfold bodyVfdiv; exact keeps_floatLanes
  case vfrsq => cases h; unfold bodyVfrsq; exact keeps_floatLanes
  case vfexp2 => cases h; unfold bodyVfexp2; exact keeps_floatLanes
  case vfcmpeq => cases h; unfold bodyVfcmpeq; exact keeps_floatLanes
  case vfcmplt => cases h; unfold bodyVfcmplt; exact keeps_floatLanes
  case vfcmple => cases h; unfold bodyVfcmple; exact keeps_floatLanes
  case vmovx => cases h; exact keeps_bodyVmovx
  case vsplat => cases h; exact keeps_bodyVsplat
  case vins => cases h; exact keeps_bodyVins
  case vperm => cases h; exact keeps_bodyVperm
  case vslide => cases h; exact keeps_bodyVslide
  case vred => cases h; exact keeps_bodyVred
  case vscan => cases h; exact keeps_bodyVscan
  case vcvt => cases h; exact keeps_bodyVcvt
  case vqnt => cases h; exact keeps_bodyVqnt
  case vcompr => cases h; exact keeps_bodyVcompr
  case vpopc => cases h; exact keeps_bodyVpopc
  case bgen => cases h; exact keeps_bodyBgen
  case band => cases h; unfold bodyBand; exact keeps_combine2
  case bxnor => cases h; unfold bodyBxnor; exact keeps_combine2
  case bmux => cases h; exact keeps_bodyBmux
  case bnot => cases h; exact keeps_bodyBnot
  case bcnt => cases h; exact keeps_bodyBcnt
  case bregen => cases h; exact keeps_bodyBregen
  case bcls => cases h; exact keeps_bodyBcls
  case bmov => cases h; exact keeps_bodyBmov
  all_goals cases h

/-! ## Frames (R380) -/

theorem keeps_captureWords {len : Nat} : KeepsMem (captureWords len) := by
  unfold captureWords
  refine keeps_seen fun _ _ => ?_
  extract_lets attached rest
  have after : ∀ a, KeepsMem (rest a) := fun _ => keeps_seen fun _ _ => keeps_pure _
  cases attached with
  | some e => exact keeps_bind (keeps_modCore _) after
  | none =>
    exact keeps_bind (keeps_modCore _) fun _ =>
      keeps_bind (keeps_forM (fun _ => keeps_bind (keeps_liftChk keeps_fetchWord) fun _ => keeps_modCore _) _) after

theorem keeps_frameSlot {after : Word} {at' : FrameAt} {word : Option IWord} : KeepsMem (frameSlot after at' word) := by
  intro s h
  unfold frameSlot
  cases word.bind decode with
  | none => exact h
  | some i =>
    cases found : capturedBody i with
    | none =>
      dsimp only
      rw [found]
      exact h
    | some body =>
      have kept := keeps_capturedBody found s h
      dsimp only
      rw [found]
      by_cases locked : s.interlocked i = true
      · dsimp only
        rw [if_pos locked]
        exact h
      · dsimp only
        rw [if_neg locked]
        cases e : body s with
        | ok _ _ => rwa [e] at kept
        | error x _ =>
          rw [e] at kept
          cases x <;> exact kept

theorem keeps_issueFrame {i : Instr} {last : Word} : KeepsMem (issueFrame i last) := by
  unfold issueFrame
  refine keeps_seen fun _ _ => ?_
  split
  · exact keeps_pure _
  · exact keeps_ite (keeps_update fun _ => rfl) (keeps_pure _)

theorem keeps_frameCycle {at' : FrameAt} : KeepsMem (frameCycle at') := by
  unfold frameCycle
  refine keeps_seen fun _ _ => ?_
  split
  · exact keeps_pure _
  · exact keeps_ite (keeps_bind (keeps_modCore _) fun _ => keeps_bind (keeps_update fun _ => State.mem_gangTick _ _) fun _ => keeps_throw _)
      (keeps_pure _)

theorem keeps_frameFrom {words : List IWord} {mask : BitVec 3} {stride : Int} {after : Word} {count : Nat} :
    ∀ fuel r slot, KeepsMem (frameFrom words mask stride after count fuel r slot)
  | 0, _, _ => keeps_pure _
  | fuel + 1, r, slot => by
    unfold frameFrom
    refine keeps_ite ?_ (keeps_pure _)
    split
    · exact keeps_frameFrom fuel _ _
    · exact keeps_bind keeps_frameSlot fun _ =>
        keeps_ite (keeps_bind keeps_frameCycle fun _ => keeps_frameFrom fuel _ _) (keeps_when keeps_frameCycle fun _ => keeps_frameFrom fuel _ _)

theorem keeps_endsFrame {body : Act Unit} (hb : KeepsMem body) : KeepsMem (endsFrame body) := by
  intro s h
  have kept := hb s h
  unfold endsFrame
  cases e : body s with
  | ok _ _ => rwa [e] at kept
  | error x _ =>
    rw [e] at kept
    cases x <;> exact kept

/-! ## Context switches and the reads of the distributor (R195 to R199, R211) -/

theorem keeps_entriesCheck : KeepsMem entriesCheck := keeps_seen fun _ _ => keeps_ite (keeps_throw _) (keeps_pure _)

theorem keeps_wswapChecks : KeepsMem wswapChecks := by
  unfold wswapChecks
  refine keeps_seen fun _ _ => ?_
  split
  · exact keeps_throw _
  · exact keeps_bind keeps_entriesCheck fun _ => keeps_guard (keeps_ite (keeps_throw _) (keeps_pure _))

theorem keeps_bodyWswap : KeepsMem bodyWswap :=
  keeps_bind keeps_needK fun _ => keeps_seen fun _ _ => keeps_when keeps_wswapChecks fun _ => keeps_bind (keeps_modify fun _ =>
    State.memOk_suspendIdle) fun _ => keeps_seen fun _ _ => keeps_guard (keeps_bind keeps_entriesCheck fun _ => keeps_modify fun _ h =>
    State.memOk_switchContext h _)

theorem keeps_distRead {w : Who} {p : Word} {n a : Nat} : KeepsMem (distRead w p n a) := by
  unfold distRead
  refine keeps_bind (keeps_checkScalar _) fun _ => keeps_bind (keeps_resolveSpan _ _ _ _ _) fun _ => keeps_bind (keeps_mapM (fun _ =>
    keeps_seen fun _ _ => ?_) _) fun _ => keeps_pure _
  split
  · exact keeps_bind (keeps_meetError _) fun _ => keeps_throw _
  · exact keeps_seen fun _ _ => keeps_pure _

theorem keeps_distKey {w : Who} {acc : Acc} {p : Word} {n : Nat} : KeepsMem (distKey w acc p n) :=
  keeps_bind (keeps_checkScalar _) fun _ => keeps_resolve _ _ _ _ _

end Sys2Proof.Machine
end

section
/-!
PROOFS. What the engines, gangs and launches do outside a core's instructions keeps memory canonical (R98, R130, R188, R206 to R226).
-/

namespace Sys2Proof.Machine

/-! ## Commands of the engines -/

section
variable {s : State}

theorem State.memOk_returnedToNone (h : s.memOk) (i : Instr) (o : Outstanding) : (returnedToNone i o s).memOk := by
  unfold returnedToNone
  dsimp only
  rw [State.memOk_modCore]
  split
  · next e => exact keeps_returned.ok h e
  · next e => exact keeps_returned.error h e

theorem State.memOk_dmaRead (h : s.memOk) (op : DmaOp) (tag : BitVec 6) : (s.dmaRead op tag).memOk := by
  unfold State.dmaRead
  split
  · exact h
  · next j _ =>
    have begun : (s.startDma j).memOk := State.memOk_of_mem (State.mem_startDma _ _) h
    split
    · split
      · next e => exact State.memOk_of_mem (State.mem_modDma _ _ _) (keeps_readChunk.ok begun e)
      · exact h
      · next e => exact State.memOk_of_mem (State.mem_modDma _ _ _) (keeps_readChunk.error begun e)
      · next e => exact State.memOk_stopDma (keeps_readChunk.error begun e) _ _ _ _
    · exact h

theorem State.memOk_eddyStep (h : s.memOk) (k : Nat) (scatter : Bool) : (s.eddyStep k scatter).memOk := by
  unfold State.eddyStep
  split
  · exact h
  · next j _ =>
    have begun : (s.startEddy j).memOk := State.memOk_of_mem (State.mem_startEddy _ _) h
    split
    · split
      · next e => exact State.memOk_of_mem (State.mem_modEddy _ _ _) (keeps_eddyRow.ok begun e)
      · next e => exact State.memOk_of_mem (State.mem_modEddy _ _ _) (keeps_eddyRow.ok begun e)
      · exact h
      · next e => exact State.memOk_of_mem (State.mem_modEddy _ _ _) (keeps_eddyRow.error begun e)
      · next e => exact State.memOk_stopEddy (keeps_eddyRow.error begun e) _ _ _ _
    · exact h

theorem State.memOk_workSlices : ∀ (l : List (Nat × MtxJob)) {s : State}, s.memOk → (s.workSlices l).1.memOk
  | [], _, h => h
  | (n, j) :: rest, s, h => by
    unfold State.workSlices
    refine State.memOk_workSlices rest ?_
    split
    · next e => exact keeps_sliceWork.ok h e
    · next e => exact keeps_sliceWork.error h e
    · next e => exact keeps_sliceWork.error h e
    · next e => exact keeps_sliceWork.error h e

/-! ## A neighbour's registers arriving (R188) -/

/-- The state an arrival leaves, where it leaves one. -/
def Arrival.memOk : Arrival → Prop
  | .written t => t.memOk
  | .traps t => t.memOk
  | .waits => True
  | .later => True

theorem State.memOk_arriveShift (h : s.memOk) (d : ShiftDue) (v : BitVec 4096) : (s.arriveShift d v).memOk := by
  have write : KeepsMem (guardCtx (writeGroup d.vd d.wd.count v.toNat)) := keeps_guardCtx keeps_writeGroup
  unfold State.arriveShift
  split
  · next e => exact write.ok h e
  · trivial
  · next e =>
    have left := write.error h e
    split
    · trivial
    · refine State.memOk_of_mem (State.mem_raiseTrap _ _ _ _ _) (State.memOk_abandon ?_)
      exact State.memOk_of_mem (State.mem_atSlot _) left

theorem State.memOk_back {t : State} (h : t.memOk) (n : Nat) : ((t.focus n).getD t).memOk := by
  cases e : t.focus n with
  | none => exact h
  | some u => exact State.memOk_focus e h

theorem State.memOk_arrivalAt (h : s.memOk) (g : Gang) (d : ShiftDue) : (s.arrivalAt g d).memOk := by
  unfold State.arrivalAt
  split
  · split
    · exact h
    · split
      · exact h
      · next found =>
        have there := fun v => State.memOk_arriveShift (State.memOk_focus found h) d v
        split
        · next e => exact State.memOk_back (e ▸ there _ : Arrival.memOk (.written _)) _
        · next e => exact State.memOk_back (e ▸ there _ : Arrival.memOk (.traps _)) _
        · trivial
        · trivial
  · exact h

/-! ## The records and wait counters of launches (R211, R225, R226) -/

theorem keeps_signalKey (l : Launch) (acc : Acc) (p : Word) (n : Nat) : KeepsMem (l.signalKey acc p n) := keeps_guard keeps_distKey

theorem State.memOk_readWait (h : s.memOk) (l : Launch) (k : Nat) (already : Bool) : (s.readWait l k already).2.memOk := by
  unfold State.readWait
  split
  · exact h
  · split
    · next e => exact keeps_distRead.checked h e
    · next e => exact keeps_distRead.checked h e

theorem State.memOk_readWaits (h : s.memOk) (l : Launch) : (s.readWaits l).2.memOk := by
  have both : ((s.readWait l 0 l.ev0).2.readWait l 1 l.ev1).2.memOk := State.memOk_readWait (State.memOk_readWait h _ _ _) _ _ _
  unfold State.readWaits
  dsimp only
  split
  · exact both
  · split
    · exact both
    · exact both

/-- The record of a launch at its place, or a loss that is logged. -/
theorem State.memOk_signal (h : s.memOk) (l : Launch) : (s.signal l).memOk := by
  have recorded (u : State) (hu : u.memOk) (bytes : List Byte) : (match runChk (l.signalKey .store l.recordPtr 64) u with
      | (.ok k, t) => t.poke k bytes
      | (.error _, t) => t.logLost).memOk := by
    split
    · next e => exact State.memOk_poke ((keeps_signalKey l _ _ _).checked hu e) _ _
    · next e => exact State.memOk_of_mem (State.mem_logLost _) ((keeps_signalKey l _ _ _).checked hu e)
  have counted (u : State) (hu : u.memOk) : (match runChk (l.signalKey .rmw l.counter 8) u with
      | (.ok k, t) => match t.dev.opBad k (.amo .add 1) with
        | none => (t.performOp k (.amo .add 1)).2
        | some w => (t.meetError w).2.logLost
      | (.error _, t) => t.logLost).memOk := by
    split
    · next e =>
      have found := (keeps_signalKey l _ _ _).checked hu e
      split
      · exact State.memOk_performOp found _ _
      · exact State.memOk_of_mem (State.mem_logLost _) (State.memOk_meetError found _)
    · next e => exact State.memOk_of_mem (State.mem_logLost _) ((keeps_signalKey l _ _ _).checked hu e)
  unfold State.signal
  dsimp only
  refine State.memOk_of_mem (State.mem_sendCompletion _ _ _) ?_
  split
  · split
    · exact h
    · exact recorded s h _
  · refine counted _ ?_
    split
    · exact h
    · exact recorded s h _

theorem State.memOk_firstChecks (h : s.memOk) (l : Launch) : (s.firstChecks l).2.memOk := by
  unfold State.firstChecks
  split
  · exact h
  · split
    · next e => exact (keeps_signalKey l _ _ _).checked h e
    · next e => exact (keeps_signalKey l _ _ _).checked h e

theorem State.memOk_accept (h : s.memOk) (b : Submission) : (s.accept b).2.memOk := by
  unfold State.accept
  dsimp only
  split
  · next e =>
    have checked := congrArg Prod.snd e ▸ State.memOk_firstChecks h _
    split
    · exact checked
    · exact State.memOk_signal checked _
  · next e =>
    have checked := congrArg Prod.snd e ▸ State.memOk_firstChecks h _
    dsimp only at checked
    split
    · exact checked
    · split
      · next e =>
        have read := keeps_distRead.checked checked e
        exact read
      · next e =>
        have read := keeps_distRead.checked checked e
        split
        · exact read
        · exact State.memOk_readWaits read _

/-! ## Units on their cores (R199, R212, R218, R245) -/

theorem keeps_copyCluster (l : Launch) (core : Nat) : KeepsMem (l.copyCluster core) :=
  keeps_seen fun _ _ => keeps_ite
    (keeps_bind keeps_distRead fun _ => keeps_modify fun _ h => State.memOk_of_mem (State.mem_modLaunch _ _ _) (State.memOk_poke h _ _))
    (keeps_pure _)

theorem keeps_copyPool (l : Launch) (core : Nat) (ppw : Word) : KeepsMem (l.copyPool core ppw) :=
  keeps_ite (keeps_bind keeps_distRead fun _ => keeps_modify fun _ h => State.memOk_poke h _ _) (keeps_pure _)

theorem keeps_readArgs (l : Launch) (core : Nat) : KeepsMem (l.readArgs core) :=
  keeps_ite (keeps_pure _) (keeps_bind keeps_distRead fun _ => keeps_pure _)

theorem keeps_loadUnit (l : Launch) (core : Nat) (ppw : Word) (warm : Bool) : KeepsMem (l.loadUnit core ppw warm) :=
  keeps_ite (keeps_bind (keeps_copyCluster l core) fun _ => keeps_bind (keeps_copyPool l core ppw) fun _ => keeps_readArgs l core)
    (keeps_readArgs l core)

/-- How a unit is put on its core, once its images are there. -/
theorem State.memOk_putHow (h : s.memOk) (how : PlaceHow) (core : Nat) (wp : BitVec 19) (ctx : Ctx) (kptb : Word) (f : Core → Core) :
    State.memOk (match how with
      | .warm => s.startUnit core ctx wp kptb
      | .start => (s.writeBack core wp ctx 0).startUnit core ctx wp kptb
      | .beside => (s.writeBack core wp ctx 0).modCoreId core f) := by
  cases how with
  | warm => exact State.memOk_startUnit h _ _ _ _
  | start => exact State.memOk_startUnit (State.memOk_writeBack h _ _ _ _) _ _ _ _
  | beside => exact (State.memOk_modCoreId _ _ _).mpr (State.memOk_writeBack h _ _ _ _)

theorem memOk_pokeOrNot (h : s.memOk) {c : Prop} [Decidable c] (key : Nat) (bytes : List Byte) : (if c then s.poke key bytes else s).memOk := by
  split
  · exact State.memOk_poke h _ _
  · exact h

theorem State.memOk_placeUnit (h : s.memOk) (l : Launch) (how : PlaceHow) (core wuid pos width : Nat) :
    (s.placeUnit l how core wuid pos width).1.memOk := by
  have cleared : (if how = .start then s.displace core else s).memOk := by
    split
    · exact State.memOk_displace h _
    · exact h
  unfold State.placeUnit
  split
  · exact h
  · have booked : ((if how = .start then s.displace core else s).bookUnit l core wuid).memOk :=
      State.memOk_of_mem (State.mem_bookUnit _ _ _ _) cleared
    dsimp only
    generalize (if how = .start then s.displace core else s).bookUnit l core wuid = u at booked ⊢
    generalize read : runChk (l.loadUnit core _ _) u = x
    obtain ⟨r, t⟩ := x
    have loaded := (keeps_loadUnit l core _ _).checked booked read
    dsimp only
    have put := State.memOk_putHow loaded how core
    have noted (v : State) (hv : v.memOk) (f : Core → Core) : (if how = .beside then v.modCoreId core f else v).memOk := by
      split
      · rwa [State.memOk_modCoreId]
      · exact hv
    split
    · refine noted _ ?_ _
      exact put _ _ _ _
    · refine memOk_pokeOrNot ?_ _ _
      refine noted _ ?_ _
      exact put _ _ _ _

theorem State.memOk_putUnits (h : s.memOk) (l : Launch) (how : PlaceHow) (cores ids : List Nat) : (s.putUnits l how cores ids).1.memOk := by
  unfold State.putUnits
  refine State.memOk_foldl_fst (fun x a hx => ?_) _ ?_
  · exact State.memOk_placeUnit hx _ _ _ _ _ _
  · dsimp only
    split
    · exact State.memOk_of_mem (State.mem_linkGroup _ _ _) h
    · exact h

theorem State.memOk_placeUnits (h : s.memOk) (l : Launch) (how : PlaceHow) (cores ids : List Nat) : (s.placeUnits l how cores ids).memOk :=
  State.memOk_of_mem (State.mem_failPlaced _ _ _) (State.memOk_putUnits h _ _ _ _)

theorem State.memOk_placeGroup (h : s.memOk) (l : Launch) (how : PlaceHow) (cores ids : List Nat) : (s.placeGroup l how cores ids).memOk :=
  State.memOk_placeUnits (State.memOk_of_mem (State.mem_modLaunch _ _ _) h) _ _ _ _

theorem State.memOk_tryPreempt {t : State} (h : s.memOk) {l : Launch} {runs : List (List Nat)} {ids : List Nat}
    (e : s.tryPreempt l runs ids = some t) : t.memOk := by
  unfold State.tryPreempt at e
  dsimp only at e
  split at e
  · cases e
  · obtain rfl := Option.some.inj e
    refine State.memOk_of_mem ((State.mem_failPlaced _ _ _).trans (State.mem_foldl State.mem_raisePreempt _ _)) (State.memOk_putUnits ?_ _ _ _ _)
    exact State.memOk_of_mem (State.mem_modLaunch _ _ _) h

theorem State.memOk_tryPlace {t : State} (h : s.memOk) {l : Launch} {p : PartConfig} (e : s.tryPlace l p = some t) : t.memOk := by
  unfold State.tryPlace at e
  split at e
  · cases e
  · dsimp only at e
    split at e
    · exact memOk_of_ite (State.memOk_placeGroup h _ _ _ _) e
    · split at e
      · obtain rfl := Option.some.inj e
        exact State.memOk_placeGroup h _ _ _ _
      · exact State.memOk_tryPreempt h e

theorem State.memOk_placeFirst {t : State} (h : s.memOk) {p : PartConfig} : ∀ {ls : List Launch}, s.placeFirst p ls = some t → t.memOk
  | [], e => by cases e
  | l :: ls, e => by
    unfold State.placeFirst at e
    split at e
    · next placed =>
      obtain rfl := Option.some.inj e
      exact State.memOk_tryPlace h placed
    · exact State.memOk_placeFirst h e

theorem State.memOk_startPlaced (h : s.memOk) (n : Nat) (r : Resident) : (s.startPlaced n r).memOk := by
  unfold State.startPlaced
  dsimp only
  split
  · refine State.memOk_atCore (State.memOk_startUnit ?_ _ _ _ _) _ fun _ => State.memOk_rebindGrammar
    rw [State.memOk_modCoreId]
    exact State.memOk_of_mem (State.mem_meetImage _ _ _ _) (State.memOk_displace h _)
  · exact State.memOk_of_mem (State.mem_unitFault _ _ _ _ _ _ _) h

theorem State.memOk_settlePreempt (h : s.memOk) (p : Preempting) : (s.settlePreempt p).memOk := by
  unfold State.settlePreempt
  dsimp only
  split
  · refine State.memOk_foldl (fun u n hu => ?_) _ _ ?_
    · split
      · exact hu
      · split
        · exact hu
        · exact State.memOk_startPlaced hu _ _
    · exact State.memOk_of_mem (State.mem_modLaunch _ _ _) h
  · exact h

theorem State.memOk_resumeParked (h : s.memOk) (r : Resident) : (s.resumeParked r).memOk := by
  unfold State.resumeParked
  split
  · rw [State.memOk_raise]
    exact h
  · have cleared : (if r.shadow then (s.modCore Core.discardEnded).modCore fun c => { c with shadow := none }
        else s.modCore Core.discardEnded).memOk := by
      split <;> exact h
    dsimp only
    generalize (if r.shadow then State.modCore _ _ else _ : State) = u at cleared ⊢
    generalize (if r.shadow then State.slotContext _ else none : Option (Ctx × Word × BitVec 19)) = slot
    split
    · exact State.memOk_of_mem (State.mem_unitFault _ _ _ _ _ _ _) cleared
    · split
      · rw [State.memOk_modCore]
        exact State.memOk_activate (State.memOk_meetOrNot cleared _ _ _ _) _ _ _ _
      · exact State.memOk_of_mem (State.mem_unitFault _ _ _ _ _ _ _) cleared

theorem State.memOk_warmHandoff (h : s.memOk) (l : Launch) : (s.warmHandoff l).memOk := by
  unfold State.warmHandoff
  dsimp only
  split
  · exact h
  · split
    · refine State.memOk_placeUnits (State.memOk_of_mem (State.mem_modLaunch _ _ _) ?_) _ _ _ _
      refine State.memOk_foldl (fun u n hu => ?_) _ _ h
      rwa [State.memOk_modCoreId]
    · exact h

end

end Sys2Proof.Machine
end

section
/-!
PROOFS. Every instruction and every event keeps memory canonical (R159).
-/

namespace Sys2Proof.Machine

/-- An outcome that goes on does so from a memory in canonical form. -/
def CanonicalOut (r : Host.Outcome State Fault Refusal) : Prop := ∀ t, r = .next t → t.memOk

theorem canonical_next {t : State} (h : t.memOk) : CanonicalOut (.next t) := by
  rintro _ ⟨⟩
  exact h

theorem canonical_ite {c : Prop} [Decidable c] {a b : Host.Outcome State Fault Refusal} (ha : CanonicalOut a) (hb : CanonicalOut b) :
    CanonicalOut (if c then a else b) := by
  split
  · exact ha
  · exact hb

theorem canonical_runFlow {i : Instr} {body : Act Flow} {s : State} (hb : KeepsMem body) (h : s.memOk) : CanonicalOut (runFlow i body s) :=
  fun _ e => runFlow_memOk hb h e

theorem canonical_runSeq {i : Instr} {body : Act Unit} {s : State} (hb : KeepsMem body) (h : s.memOk) : CanonicalOut (runSeq i body s) :=
  fun _ e => runSeq_memOk hb h e

section
variable {s : State} {rd rs rs1 rs2 xa xb xc xd xe xf xg xi xl xn xo xp xr xs xv xw xx xy vd vi vn vq vs vs1 vs2 vp bd bs cnt data dest src len : Reg}
  (h : s.memOk)
include h

theorem canonical_execAuipc {imm : BitVec 16} : CanonicalOut (execAuipc rd imm s) :=
  canonical_runSeq (keeps_bind keeps_getCtx fun _ => keeps_setX _ _) h

theorem canonical_execLb {imm : BitVec 16} : CanonicalOut (execLb rd rs1 imm s) := canonical_runFlow keeps_scalarLoad h

theorem canonical_execLbu {imm : BitVec 16} : CanonicalOut (execLbu rd rs1 imm s) := canonical_runFlow keeps_scalarLoad h

theorem canonical_execLh {imm : BitVec 16} : CanonicalOut (execLh rd rs1 imm s) := canonical_runFlow keeps_scalarLoad h

theorem canonical_execLhu {imm : BitVec 16} : CanonicalOut (execLhu rd rs1 imm s) := canonical_runFlow keeps_scalarLoad h

theorem canonical_execLw {imm : BitVec 16} : CanonicalOut (execLw rd rs1 imm s) := canonical_runFlow keeps_scalarLoad h

theorem canonical_execLwu {imm : BitVec 16} : CanonicalOut (execLwu rd rs1 imm s) := canonical_runFlow keeps_scalarLoad h

theorem canonical_execLd {imm : BitVec 16} : CanonicalOut (execLd rd rs1 imm s) := canonical_runFlow keeps_scalarLoad h

theorem canonical_execSb {imm : BitVec 16} : CanonicalOut (execSb rs2 rs1 imm s) := canonical_runSeq keeps_scalarStore h

theorem canonical_execSh {imm : BitVec 16} : CanonicalOut (execSh rs2 rs1 imm s) := canonical_runSeq keeps_scalarStore h

theorem canonical_execSw {imm : BitVec 16} : CanonicalOut (execSw rs2 rs1 imm s) := canonical_runSeq keeps_scalarStore h

theorem canonical_execSd {imm : BitVec 16} : CanonicalOut (execSd rs2 rs1 imm s) := canonical_runSeq keeps_scalarStore h

theorem canonical_execBeq {off : BitVec 16} : CanonicalOut (execBeq rs1 rs2 off s) := canonical_runFlow keeps_branch h

theorem canonical_execBne {off : BitVec 16} : CanonicalOut (execBne rs1 rs2 off s) := canonical_runFlow keeps_branch h

theorem canonical_execBlt {off : BitVec 16} : CanonicalOut (execBlt rs1 rs2 off s) := canonical_runFlow keeps_branch h

theorem canonical_execBge {off : BitVec 16} : CanonicalOut (execBge rs1 rs2 off s) := canonical_runFlow keeps_branch h

theorem canonical_execBltu {off : BitVec 16} : CanonicalOut (execBltu rs1 rs2 off s) := canonical_runFlow keeps_branch h

theorem canonical_execBgeu {off : BitVec 16} : CanonicalOut (execBgeu rs1 rs2 off s) := canonical_runFlow keeps_branch h

theorem canonical_execJal {off : BitVec 21} : CanonicalOut (execJal rd off s) :=
  canonical_runFlow (keeps_bind keeps_getCtx fun _ => keeps_bind (keeps_setX _ _) fun _ => keeps_pure _) h

theorem canonical_execJalr {imm : BitVec 16} : CanonicalOut (execJalr rd rs1 imm s) :=
  canonical_runFlow (keeps_bind keeps_getCtx fun _ => keeps_bind (keeps_setX _ _) fun _ => keeps_pure _) h

theorem canonical_execLoop {lvl : BitVec 1} {off : BitVec 20} : CanonicalOut (execLoop lvl rs1 off s) :=
  canonical_runFlow (keeps_bind keeps_getCtx fun _ => keeps_bind (keeps_modCtx _) fun _ => keeps_pure _) h

theorem canonical_execCsrr {csr : BitVec 12} : CanonicalOut (execCsrr rd csr s) :=
  canonical_runSeq (keeps_bind keeps_csrCheck fun _ => keeps_setX _ _) h

theorem canonical_execCsrw {csr : BitVec 12} : CanonicalOut (execCsrw csr rs1 s) := canonical_runSeq keeps_csrWrite h

theorem canonical_execCsrs {csr : BitVec 12} : CanonicalOut (execCsrs csr rs1 s) := canonical_runSeq keeps_csrWrite h

theorem canonical_execCsrc {csr : BitVec 12} : CanonicalOut (execCsrc csr rs1 s) := canonical_runSeq keeps_csrWrite h

theorem canonical_execFetchFailure : CanonicalOut (execFetchFailure s) := by
  unfold execFetchFailure
  split
  · exact canonical_next h
  · next e => exact canonical_next (State.memOk_of_mem (State.mem_trapNow _ _ _ _) (keeps_fetchWord.checked h e))

theorem canonical_execIllegalEncoding {word : IWord} : CanonicalOut (execIllegalEncoding word s) :=
  canonical_next (State.memOk_of_mem (State.mem_trapNow _ _ _ _) h)

theorem canonical_execKcall {code : BitVec 12} : CanonicalOut (execKcall code s) := canonical_runFlow (keeps_throw _) h

theorem canonical_execFcall {code : BitVec 12} : CanonicalOut (execFcall code s) := canonical_runFlow (keeps_throw _) h

theorem canonical_execBrk {code : BitVec 12} : CanonicalOut (execBrk code s) := canonical_runFlow (keeps_throw _) h

theorem canonical_execTret : CanonicalOut (execTret s) :=
  canonical_runFlow (keeps_bind keeps_needK fun _ => keeps_seen fun _ _ => keeps_guard (keeps_bind (keeps_update State.mem_tret) fun _ =>
    keeps_pure _)) h

theorem canonical_execWfi : CanonicalOut (execWfi s) := canonical_runSeq (keeps_bind keeps_needK fun _ => keeps_waitInterrupt) h

theorem canonical_execTakeInterrupt : CanonicalOut (execTakeInterrupt s) := by
  have left : s.atSlot.abandon.memOk := State.memOk_abandon (State.memOk_of_mem (State.mem_atSlot _) h)
  unfold execTakeInterrupt
  split
  · exact canonical_next h
  · refine canonical_ite (canonical_next h) (canonical_next (State.memOk_of_mem (State.mem_takeTrap _ _ _ _ _ _) ?_))
    split
    · exact left
    · exact left

theorem canonical_execCellAbandon : CanonicalOut (execCellAbandon s) := by
  unfold execCellAbandon
  split
  · exact canonical_next h
  · split
    · exact canonical_next h
    · exact canonical_next (State.memOk_abandon h)

theorem canonical_execTimerExpire : CanonicalOut (execTimerExpire s) := canonical_next (State.memOk_modDev rfl h)

theorem canonical_execSoftwareInterrupt {target : Nat} : CanonicalOut (execSoftwareInterrupt target s) := canonical_next ((s.memOk_raise _ _).mpr h)

theorem canonical_execTlbinv {mode : TlbMode} : CanonicalOut (execTlbinv rs1 mode s) :=
  canonical_runSeq (keeps_bind keeps_needK fun _ => keeps_seen fun _ _ => keeps_guard (keeps_bind (keeps_getX _) fun _ => keeps_update fun _ =>
    State.mem_tlbDiscard _ _)) h

theorem canonical_execIflush : CanonicalOut (execIflush s) :=
  canonical_runSeq (keeps_bind keeps_needK fun _ => keeps_bind (keeps_releaseFence _) fun _ => keeps_modDev fun _ => rfl) h

theorem canonical_execHalt : CanonicalOut (execHalt s) := by
  unfold execHalt
  refine canonical_runFlow (keeps_seen fun _ _ => keeps_ite (keeps_bind keeps_waitInterrupt fun _ => keeps_pure _) ?_) h
  split
  · exact keeps_bind (keeps_update fun _ => State.mem_faultEvent _ _ _ _ _) fun _ => keeps_pure _
  · exact keeps_bind (keeps_update fun _ => State.mem_faultEvent _ _ _ _ _) fun _ => keeps_pure _
  · exact keeps_ite (keeps_bind (keeps_update fun _ => (State.mem_bookSlot _ _ _).trans (State.mem_splitGang _)) fun _ => keeps_throw _)
      (keeps_guard (keeps_bind (keeps_update fun _ => State.mem_leaveGang _ _) fun _ => keeps_pure _))

theorem canonical_execSopen {sd : BitVec 2} {kind : StreamKind} : CanonicalOut (execSopen sd xv xl kind xc s) :=
  canonical_runSeq (keeps_guardCtx (keeps_bind keeps_getCtx fun _ => keeps_bind keeps_needReg fun _ => keeps_bind keeps_needReg fun _ =>
    keeps_guard (keeps_guard (keeps_bind (keeps_spanKeys _ _ _ _) fun _ => keeps_ite (keeps_bind (keeps_spanKeys _ _ _ _) fun _ => keeps_guard
    (keeps_guard (keeps_bind keeps_closeOwn fun _ => keeps_modCtx _))) (keeps_guard (keeps_guard (keeps_bind keeps_closeOwn fun _ =>
    keeps_modCtx _))))))) h

theorem canonical_execSadv {sd : BitVec 2} : CanonicalOut (execSadv sd xn s) :=
  canonical_runSeq (keeps_bind keeps_namedStream fun _ => keeps_bind (keeps_getX _) fun _ => keeps_bind keeps_advanced fun _ => keeps_moveTo) h

theorem canonical_execStend {sd : BitVec 2} {off : BitVec 13} : CanonicalOut (execStend sd off s) :=
  canonical_runFlow (keeps_bind keeps_namedStream fun _ => keeps_bind keeps_streamEnd fun _ => keeps_ite (keeps_bind keeps_getCtx fun _ =>
    keeps_pure _) (keeps_pure _)) h

theorem canonical_execSclose {sd : BitVec 2} : CanonicalOut (execSclose sd s) :=
  canonical_runSeq (keeps_bind keeps_getCtx fun _ => keeps_closeOwn) h

theorem canonical_execSpos {sd : BitVec 2} : CanonicalOut (execSpos xd sd s) :=
  canonical_runSeq (keeps_bind keeps_namedStream fun _ => keeps_setX _ _) h

theorem canonical_execSmerge {uni : Bool} : CanonicalOut (execSmerge vn uni s) := by
  unfold execSmerge
  refine canonical_runSeq (keeps_bind keeps_getCtx fun _ => keeps_bind keeps_needReg fun _ => keeps_bind keeps_needReg fun _ =>
    keeps_bind keeps_headAt fun _ => keeps_bind keeps_headAt fun _ => keeps_bind (keeps_mergeFrom _ _ _ _ _ _ _) fun _ => keeps_bind
    (keeps_modCtx _) fun _ => keeps_bind keeps_moveTo fun _ => keeps_bind keeps_moveTo fun _ => ?_) h
  split
  · exact keeps_pure _
  · exact keeps_throw _

theorem canonical_execStreamPrefetch {sd : BitVec 2} : CanonicalOut (execStreamPrefetch sd s) := by
  unfold execStreamPrefetch
  refine canonical_ite (canonical_next h) ?_
  dsimp only
  split
  · exact canonical_next h
  · split
    · next e =>
      have read := (keeps_fetchBytes _ _ _).ok h e
      exact canonical_next read
    · exact canonical_next h

theorem canonical_execFence {kind : FenceKind} {scope : Scope} : CanonicalOut (execFence kind scope s) := by
  unfold execFence
  refine canonical_runSeq ?_ h
  split
  · exact keeps_acquireFence
  · exact keeps_releaseFence _
  · exact keeps_bind (keeps_releaseFence _) fun _ => keeps_acquireFence

theorem canonical_execRfence : CanonicalOut (execRfence s) := canonical_runSeq (keeps_seen fun _ _ => keeps_ite (keeps_throw _) (keeps_pure _)) h

theorem canonical_execMon : CanonicalOut (execMon rs1 s) :=
  canonical_runSeq (keeps_bind (keeps_getX _) fun _ => keeps_bind (keeps_scalarKey _ _ _) fun _ => keeps_guard (keeps_bind
    (keeps_coreRead _ _) fun _ => keeps_modCtx _)) h

theorem canonical_execMwait : CanonicalOut (execMwait s) := canonical_runSeq (keeps_seen fun _ _ => keeps_guard (keeps_modCtx _)) h

theorem canonical_execMwaitSpuriousReturn : CanonicalOut (execMwaitSpuriousReturn s) :=
  canonical_ite (canonical_runSeq (keeps_modCtx _) h) (canonical_next h)

theorem canonical_execEvsig {ev : BitVec 3} : CanonicalOut (execEvsig rs1 ev s) :=
  canonical_runSeq (keeps_seen fun _ _ => keeps_bind (keeps_getX _) fun _ => keeps_bind (keeps_liftChk keeps_coordCore) fun _ => keeps_bind
    (keeps_roomFor _) fun _ => keeps_update fun _ => rfl) h

theorem canonical_execEventSignalLand {k : Nat} : CanonicalOut (execEventSignalLand k s) := by
  unfold execEventSignalLand
  split
  · exact canonical_next h
  · exact canonical_ite (canonical_next h) (canonical_next ((State.memOk_acknowledge _ _).mpr ((State.memOk_modCtxId _ _ _).mpr h)))

theorem canonical_execEvwait {ev : BitVec 3} : CanonicalOut (execEvwait ev s) :=
  canonical_runSeq (keeps_bind keeps_getCtx fun _ => keeps_guard (keeps_modCtx _)) h

theorem canonical_execSend {ch : BitVec 4} {vec : Bool} : CanonicalOut (execSend data rs1 ch vec s) :=
  canonical_runSeq (keeps_bind keeps_getCtx fun _ => keeps_bind keeps_needReg fun _ => keeps_seen fun _ _ => keeps_guard (keeps_bind
    (keeps_getX _) fun _ => keeps_bind (keeps_liftChk keeps_coordCore) fun _ => keeps_bind (keeps_roomFor _) fun _ => keeps_bind
    (keeps_modDev fun _ => rfl) fun _ => keeps_throw _)) h

theorem canonical_execRecv {ch : BitVec 4} {vec : Bool} : CanonicalOut (execRecv rd ch vec s) := canonical_runSeq (keeps_receive (keeps_throw _)) h

theorem canonical_execRecvnb {ch : BitVec 4} {vec : Bool} : CanonicalOut (execRecvnb rd ch vec s) :=
  canonical_runSeq (keeps_receive keeps_takePayload) h

theorem canonical_execReservationRequest {k : Nat} : CanonicalOut (execReservationRequest k s) := by
  unfold execReservationRequest
  split
  · exact canonical_next h
  · next r _ =>
    refine canonical_ite (canonical_next h) ?_
    have reached : (if r.reached then s else s.modDev fun d => { d with resvs := d.resvs.eraseIdx k ++ [{ r with reached := true }] }).memOk := by
      split <;> exact h
    dsimp only
    generalize (if r.reached then s else State.modDev _ _ : State) = u at reached ⊢
    have met : (u.meetCount r.target (hdrLnum r.hdr)).memOk := State.memOk_of_mem (State.mem_meetCount _ _ _) reached
    split
    · exact canonical_next met
    · exact canonical_ite (canonical_next (State.memOk_modDev rfl met)) (canonical_next met)

theorem canonical_execReservationGrant {k : Nat} : CanonicalOut (execReservationGrant k s) := by
  unfold execReservationGrant
  split
  · exact canonical_next h
  · refine canonical_ite (canonical_next h) ?_
    split
    · exact canonical_runSeq (keeps_guardCtx (keeps_bind (keeps_modDev fun _ => rfl) fun _ => keeps_bind keeps_sendPayload fun _ => keeps_bind
        (keeps_modDev fun _ => rfl) fun _ => keeps_modCore _)) h
    · exact canonical_next h

theorem canonical_execMessageArrival {k : Nat} : CanonicalOut (execMessageArrival k s) := by
  unfold execMessageArrival
  split
  · exact canonical_next h
  · next p _ =>
    have met : (s.meetCount p.target (hdrLnum p.msg.hdr)).memOk := State.memOk_of_mem (State.mem_meetCount _ _ _) h
    refine canonical_ite (canonical_next met) ?_
    split
    · exact canonical_next met
    · next e =>
      refine canonical_next ((State.memOk_acknowledge _ _).mpr ((State.memOk_modCoreId _ _ _).mpr ?_))
      exact State.memOk_modDev rfl (State.memOk_deliver met e)

theorem canonical_execContextBufferDrain : CanonicalOut (execContextBufferDrain s) :=
  canonical_ite (canonical_next (State.memOk_replayBuffer h)) (canonical_next h)

theorem canonical_execMcast : CanonicalOut (execMcast data rs1 rs2 s) := by
  unfold execMcast
  refine canonical_runSeq (keeps_bind (keeps_getX _) fun _ => keeps_bind (keeps_getX _) fun _ => keeps_guard (keeps_guard (keeps_guard
    (keeps_guard (keeps_seen fun _ _ => ?_))))) h
  split
  · exact keeps_throw _
  · exact keeps_bind keeps_interfaceRoom fun _ => keeps_bind (keeps_getX _) fun _ => keeps_update fun _ => State.mem_broadcast _ _ _

theorem canonical_execWeirWindowClose : CanonicalOut (execWeirWindowClose s) :=
  canonical_ite (canonical_next (State.memOk_of_mem (State.mem_closeWindow _) h)) (canonical_next h)

theorem canonical_execBroadcastApply {k : Nat} : CanonicalOut (execBroadcastApply k s) := by
  unfold execBroadcastApply
  split
  · exact canonical_next h
  · refine canonical_ite (canonical_next h) ?_
    split
    · next b t _ _ off datum _ _ =>
      have written : (if b.lnum = 0 ∨ s.holdsScratch t b.lnum off then s.poke (poolKey t off) (leBytes 8 datum.toNat) else s).memOk :=
        memOk_pokeOrNot h _ _
      dsimp only
      generalize (if b.lnum = 0 ∨ s.holdsScratch t b.lnum off then State.poke _ _ _ else s : State) = u at written ⊢
      split
      · exact canonical_next ((State.memOk_acknowledge _ _).mpr (State.memOk_modDev rfl written))
      · exact canonical_next (State.memOk_modDev rfl written)
    · next b t _ _ home op _ _ =>
      have drained : (s.drainLines b.core home 8 b.id).memOk := State.memOk_drainLines h _ _ _ _
      dsimp only
      split
      · exact canonical_next (State.memOk_of_mem (State.mem_loseBcast _ _ _) (State.memOk_meetError drained _))
      · exact canonical_next ((State.memOk_acknowledge _ _).mpr (State.memOk_modDev rfl (State.memOk_performOp drained _ _)))

theorem canonical_execPageWalk : CanonicalOut (execPageWalk s) := canonical_next (State.memOk_endSpecWalk h)

theorem canonical_execAmo {op : AmoOp} {ord : AtomOrder} : CanonicalOut (execAmo op ord rd rs1 rs2 s) :=
  canonical_runFlow (keeps_bind (keeps_getX _) fun _ => keeps_bind (keeps_getX _) fun _ => keeps_atomic) h

theorem canonical_execCas {ord : AtomOrder} : CanonicalOut (execCas ord rd rs1 rs2 s) :=
  canonical_runFlow (keeps_bind (keeps_getX _) fun _ => keeps_bind (keeps_getX _) fun _ => keeps_bind (keeps_getX _) fun _ => keeps_atomic) h

theorem canonical_execLda {scope : Scope} : CanonicalOut (execLda scope rd rs1 s) :=
  canonical_runFlow (keeps_bind (keeps_getX _) fun _ => keeps_bind (keeps_scalarKey _ _ _) fun _ => keeps_ite (keeps_leaveFor _ _ _) (keeps_bind
    (keeps_homeRead _ _) fun _ => keeps_bind keeps_acquireWith fun _ => keeps_bind (keeps_setX _ _) fun _ => keeps_pure _)) h

theorem canonical_execStr {scope : Scope} : CanonicalOut (execStr scope rs1 rs2 s) :=
  canonical_runSeq (keeps_bind (keeps_releaseFence _) fun _ => keeps_bind (keeps_getX _) fun _ => keeps_bind (keeps_scalarKey _ _ _) fun _ =>
    keeps_bind (keeps_getX _) fun _ => keeps_coreWrite _ _) h

theorem canonical_execCinit : CanonicalOut (execCinit rs1 rs2 s) :=
  canonical_runSeq (keeps_bind (keeps_getX _) fun _ => keeps_bind keeps_cellKey fun _ => keeps_bind (keeps_releaseFence _) fun _ => keeps_bind
    (keeps_getX _) fun _ => keeps_cellWrite) h

theorem canonical_execCrcl : CanonicalOut (execCrcl rs1 rs2 s) :=
  canonical_runSeq (keeps_bind (keeps_getX _) fun _ => keeps_bind keeps_cellKey fun _ => keeps_bind (keeps_getX _) fun _ => keeps_cellWrite) h

theorem canonical_execCver : CanonicalOut (execCver rd rs1 s) :=
  canonical_runSeq (keeps_bind (keeps_getX _) fun _ => keeps_bind keeps_cellKey fun _ => keeps_bind (keeps_coreReadNat _ _) fun _ =>
    keeps_setX _ _) h

theorem canonical_execCst : CanonicalOut (execCst rs1 rs2 s) := by
  unfold execCst
  refine canonical_runSeq (keeps_seen fun _ _ => ?_) h
  split
  · refine keeps_bind (keeps_pure _) fun _ => keeps_bind keeps_cellAt fun _ => keeps_bind keeps_dropCell fun _ => ?_
    split
    · exact keeps_throw _
    · exact keeps_pure _
  · refine keeps_bind (keeps_getX _) fun _ => keeps_bind keeps_cellKey fun _ => keeps_bind (keeps_releaseFence _) fun _ => keeps_bind
      (keeps_getX _) fun _ => keeps_bind (keeps_pure _) fun _ => keeps_bind keeps_cellAt fun _ => keeps_bind keeps_dropCell fun _ => ?_
    split
    · exact keeps_throw _
    · exact keeps_pure _

theorem canonical_execCld : CanonicalOut (execCld rd rs1 rs2 s) := by
  unfold execCld
  refine canonical_runSeq (keeps_seen fun _ _ => ?_) h
  split
  · refine keeps_bind (keeps_pure _) fun _ => keeps_bind keeps_cellAt fun _ => ?_
    split
    · exact keeps_bind keeps_dropCell fun _ => keeps_throw _
    · exact keeps_bind keeps_dropCell fun _ => keeps_throw _
    · exact keeps_seen fun _ _ => keeps_ite (keeps_bind (keeps_modDev fun _ => rfl) fun _ => keeps_stop) (keeps_bind keeps_dropCell fun _ =>
        keeps_bind (keeps_modCtx _) fun _ => keeps_setX _ _)
  · refine keeps_bind (keeps_getX _) fun _ => keeps_bind keeps_cellKey fun _ => keeps_bind (keeps_getX _) fun _ => keeps_bind
      (keeps_pure _) fun _ => keeps_bind keeps_cellAt fun _ => ?_
    split
    · exact keeps_bind keeps_dropCell fun _ => keeps_throw _
    · exact keeps_bind keeps_dropCell fun _ => keeps_throw _
    · exact keeps_seen fun _ _ => keeps_ite (keeps_bind (keeps_modDev fun _ => rfl) fun _ => keeps_stop) (keeps_bind keeps_dropCell fun _ =>
        keeps_bind (keeps_modCtx _) fun _ => keeps_setX _ _)

theorem canonical_execHomePerformAccess {k : Nat} : CanonicalOut (execHomePerformAccess k s) := by
  unfold execHomePerformAccess
  split
  · exact canonical_next h
  · exact canonical_ite (canonical_next h) (canonical_next (State.memOk_performFlight h _))

theorem canonical_execStoreAck {k : Nat} : CanonicalOut (execStoreAck k s) := by
  unfold execStoreAck
  split
  · exact canonical_next h
  · exact canonical_ite (canonical_next ((State.memOk_acknowledge _ _).mpr h)) (canonical_ite (canonical_next
      ((State.memOk_acknowledge _ _).mpr h)) (canonical_next h))

theorem canonical_execAtomicResultReturn {k : Nat} : CanonicalOut (execAtomicResultReturn k s) := by
  unfold execAtomicResultReturn
  split
  · exact canonical_next h
  · split
    · exact canonical_next h
    · exact canonical_ite (canonical_next ((State.memOk_modCoreId _ _ _).mpr h)) (canonical_next h)

theorem canonical_execCommutativeMerge {j k : Nat} : CanonicalOut (execCommutativeMerge j k s) := by
  unfold execCommutativeMerge
  split
  · split
    · exact canonical_next h
    · exact canonical_ite (canonical_next (State.memOk_modDev rfl h)) (canonical_next h)
  · exact canonical_next h

theorem canonical_execLoadReturn : CanonicalOut (execLoadReturn s) := by
  unfold execLoadReturn
  split
  · exact canonical_next h
  · refine canonical_ite (canonical_next h) ?_
    split
    · exact canonical_next (State.memOk_arrive h _)
    · split
      · exact canonical_next h
      · exact canonical_ite (canonical_runFlow keeps_returned h) (canonical_next (State.memOk_returnedToNone h _ _))

theorem canonical_execLinkCrcError {link : Nat} : CanonicalOut (execLinkCrcError link s) :=
  canonical_ite (canonical_next (State.memOk_of_mem (State.mem_startTest _ _ _) h)) (canonical_next (State.memOk_modDev rfl h))

theorem canonical_execSelfTestComplete {pass : Bool} : CanonicalOut (execSelfTestComplete pass s) := by
  unfold execSelfTestComplete
  dsimp only
  generalize List.find? _ s.dev.tests = found
  cases found with
  | none => exact canonical_next h
  | some t =>
    have logged : ((s.modDev fun d => { d with tests := d.tests.erase t }).log (if pass then 0 else 1) t.unit t.place).memOk :=
      State.memOk_of_mem (State.mem_log _ _ _ _) h
    exact canonical_ite (canonical_next logged)
      (canonical_ite (canonical_next (State.memOk_of_mem (State.mem_fenceCore _ _ _) logged))
        (canonical_ite (canonical_next (State.memOk_of_mem (State.mem_fenceCluster _ _ _) logged)) (canonical_next logged)))

theorem canonical_execGform : CanonicalOut (execGform rs s) := by
  unfold execGform
  refine canonical_runSeq (keeps_bind (keeps_getX _) fun _ => keeps_bind keeps_notHeld fun _ => keeps_seen fun _ _ => keeps_guard
    (keeps_guard ?_)) h
  split
  · exact keeps_throw _
  · exact keeps_guard (keeps_guard (keeps_update fun _ => State.mem_formGang _ _ _ _ _ _ _))

theorem canonical_execGjoin : CanonicalOut (execGjoin rs s) :=
  canonical_runSeq (keeps_bind (keeps_getX _) fun _ => keeps_bind keeps_notHeld fun _ => keeps_seen fun _ _ => keeps_guard (keeps_guard
    (keeps_throw _))) h

theorem canonical_execGleave : CanonicalOut (execGleave rs s) :=
  canonical_runSeq (keeps_bind keeps_notHeld fun _ => keeps_bind (keeps_getX _) fun _ => keeps_seen fun _ _ => keeps_guard (keeps_ite
    (keeps_update fun _ => State.mem_leaveGang _ _) (keeps_pure _))) h

theorem canonical_execGsplit : CanonicalOut (execGsplit s) :=
  canonical_runSeq (keeps_bind keeps_notHeld fun _ => keeps_seen fun _ _ => keeps_ite (keeps_update State.mem_splitGang) (keeps_pure _)) h

theorem canonical_execGdet : CanonicalOut (execGdet rs s) := by
  unfold execGdet
  refine canonical_runSeq (keeps_bind keeps_notHeld fun _ => keeps_bind (keeps_getX _) fun _ => keeps_seen fun _ _ => ?_) h
  split
  · exact keeps_ite (keeps_update fun _ => State.mem_detach _ _) (keeps_pure _)
  · exact keeps_pure _

theorem canonical_execGatt {id : BitVec 8} : CanonicalOut (execGatt id s) := by
  unfold execGatt
  refine canonical_runFlow (keeps_bind keeps_notHeld fun _ => keeps_seen fun _ _ => ?_) h
  split
  · exact keeps_throw _
  · exact keeps_ite (keeps_pure _) (keeps_bind keeps_poisonCheck fun _ => keeps_bind (keeps_update fun _ => State.mem_gangTick _ _) fun _ =>
      keeps_bind keeps_getCtx fun _ => keeps_guard (keeps_pure _))

theorem canonical_execRjp {id : BitVec 8} : CanonicalOut (execRjp id s) := by
  unfold execRjp
  refine canonical_runSeq (keeps_bind keeps_notHeld fun _ => keeps_seen fun _ _ => ?_) h
  split
  · exact keeps_pure _
  · exact keeps_ite (keeps_bind keeps_poisonCheck fun _ => keeps_update fun _ => rfl) (keeps_pure _)

theorem canonical_execGbar : CanonicalOut (execGbar s) := by
  unfold execGbar
  refine canonical_runFlow (keeps_bind keeps_notHeld fun _ => keeps_seen fun _ _ => ?_) h
  split
  · exact keeps_bind (keeps_releaseFence _) fun _ => keeps_bind keeps_acquireFence fun _ => keeps_pure _
  · exact keeps_bind keeps_poisonCheck fun _ => keeps_guard (keeps_bind (keeps_releaseFence _) fun _ => keeps_bind keeps_acquireFence fun _ =>
      keeps_bind (keeps_update fun _ => State.mem_arriveBar _ _) fun _ => keeps_ite (keeps_seen fun _ _ => keeps_guard (keeps_bind
      (keeps_update fun _ => State.mem_gangTick _ _) fun _ => keeps_pure _)) (keeps_bind (keeps_update fun _ => State.mem_gangTick _ _) fun _ =>
      keeps_pure _))

theorem canonical_execXsh {wd : Wd} {west : Bool} : CanonicalOut (execXsh wd vd vs west s) := canonical_runSeq keeps_shift h

theorem canonical_execXwrap {wd : Wd} {west : Bool} : CanonicalOut (execXwrap wd vd vs west s) := canonical_runSeq keeps_shift h

theorem canonical_execXshArrival {k : Nat} : CanonicalOut (execXshArrival k s) := by
  unfold execXshArrival
  split
  · exact canonical_next h
  · split
    · exact canonical_next h
    · split
      · exact canonical_next h
      · refine canonical_ite (canonical_next h) ?_
        have arrived := fun g d => State.memOk_arrivalAt h g d
        split
        · next e =>
          have written : Arrival.memOk (.written _) := e ▸ arrived _ _
          exact canonical_next written
        · next e => exact canonical_next (e ▸ arrived _ _ : Arrival.memOk (.traps _))
        · exact canonical_next h
        · exact canonical_next h

theorem canonical_execVld {wd : Wd} {off : BitVec 5} {pc : PlaneSel} : CanonicalOut (execVld wd vd xb off pc s) :=
  canonical_runSeq (keeps_guardCtx (keeps_bind keeps_getCtx fun _ => keeps_bind keeps_needReg fun _ => keeps_bind (keeps_getX _) fun _ =>
    keeps_ite keeps_loadPlanes (keeps_bind keeps_needCopyFormat fun _ => keeps_guard (keeps_bind keeps_copyAddresses fun _ =>
    keeps_bind keeps_checkAll fun _ => keeps_copyIn)))) h

theorem canonical_execVst {wd : Wd} {off : BitVec 5} {pc : PlaneSel} : CanonicalOut (execVst wd vd xb off pc s) :=
  canonical_runSeq (keeps_guardCtx (keeps_bind keeps_getCtx fun _ => keeps_bind keeps_needReg fun _ => keeps_bind (keeps_getX _) fun _ =>
    keeps_ite keeps_storePlanes (keeps_bind keeps_needCopyFormat fun _ => keeps_guard (keeps_bind keeps_copyAddresses fun _ =>
    keeps_bind keeps_checkAll fun _ => keeps_bind keeps_readGroups fun _ => keeps_copyOut)))) h

theorem canonical_execVlds {wd : Wd} : CanonicalOut (execVlds wd vd xb xs s) :=
  canonical_runSeq (keeps_guardCtx (keeps_bind keeps_getCtx fun _ => keeps_bind keeps_needReg fun _ => keeps_bind (keeps_getX _) fun _ =>
    keeps_bind keeps_needCopyFormat fun _ => keeps_bind (keeps_getX _) fun _ => keeps_bind keeps_strideAddresses fun _ =>
    keeps_bind keeps_checkAll fun _ => keeps_copyIn)) h

theorem canonical_execVsts {wd : Wd} : CanonicalOut (execVsts wd vd xb xs s) :=
  canonical_runSeq (keeps_guardCtx (keeps_bind keeps_getCtx fun _ => keeps_bind keeps_needReg fun _ => keeps_bind (keeps_getX _) fun _ =>
    keeps_bind keeps_needCopyFormat fun _ => keeps_bind (keeps_getX _) fun _ => keeps_bind keeps_strideAddresses fun _ =>
    keeps_bind keeps_checkAll fun _ => keeps_bind keeps_readGroups fun _ => keeps_copyOut)) h

theorem canonical_execVldx {wd : Wd} : CanonicalOut (execVldx wd vd xb vi s) :=
  canonical_runSeq (keeps_guardCtx (keeps_bind keeps_getCtx fun _ => keeps_bind keeps_needReg fun _ => keeps_bind (keeps_getX _) fun _ =>
    keeps_bind keeps_needCopyFormat fun _ => keeps_bind keeps_readGroups fun _ => keeps_bind keeps_indexAddresses fun _ =>
    keeps_bind keeps_checkAll fun _ => keeps_bind keeps_checkAppends fun _ => keeps_bind (keeps_mapM (fun _ => keeps_coreReadSpan _) _) fun _ =>
    keeps_writeGroup)) h

theorem canonical_execVstx {wd : Wd} : CanonicalOut (execVstx wd vd xb vi s) :=
  canonical_runSeq (keeps_guardCtx (keeps_bind keeps_getCtx fun _ => keeps_bind keeps_needReg fun _ => keeps_bind (keeps_getX _) fun _ =>
    keeps_bind keeps_needCopyFormat fun _ => keeps_bind keeps_popOperands fun _ => keeps_bind keeps_getCtx fun _ =>
    keeps_bind keeps_indexAddresses fun _ => keeps_bind keeps_checkAll fun _ => keeps_bind keeps_popOperands fun _ =>
    keeps_bind keeps_countReads fun _ => keeps_bind keeps_getCtx fun _ => keeps_storeAll)) h

theorem canonical_execVnz {ty : Ty} {wd : Wd} : CanonicalOut (execVnz ty wd xd vs1 xp s) := by
  unfold execVnz
  refine canonical_runSeq ?_ h
  split
  · exact keeps_bind (keeps_pure _) fun _ => keeps_bind (keeps_storesInTurn _) fun _ => keeps_bind keeps_getCtx fun _ => keeps_bind
      (keeps_setX _ _) fun _ => keeps_modCtx _
  · exact keeps_bind (keeps_getX _) fun _ => keeps_bind keeps_listLanes fun _ => keeps_bind (keeps_storesInTurn _) fun _ =>
      keeps_bind keeps_getCtx fun _ => keeps_bind (keeps_setX _ _) fun _ => keeps_modCtx _

theorem canonical_execDma {tag : BitVec 6} : CanonicalOut (execDma dest src len tag s) :=
  canonical_runSeq (keeps_bind (keeps_getX _) fun _ => keeps_bind (keeps_getX _) fun _ => keeps_bind (keeps_getX _) fun _ => keeps_pushDma) h

theorem canonical_execDmad {tag : BitVec 6} : CanonicalOut (execDmad dest src len tag s) :=
  canonical_runSeq (keeps_bind (keeps_getX _) fun _ => keeps_bind (keeps_getX _) fun _ => keeps_bind (keeps_getX _) fun _ =>
    keeps_bind keeps_getCtx fun _ => keeps_pushDma) h

theorem canonical_execDmares : CanonicalOut (execDmares rs s) :=
  canonical_runSeq (keeps_bind (keeps_getX _) fun _ => keeps_bind keeps_readRecord fun _ => keeps_guard keeps_pushDma) h

theorem canonical_execWaitany : CanonicalOut (execWaitany rs s) :=
  canonical_runSeq (keeps_bind (keeps_getX _) fun _ => keeps_bind keeps_getCtx fun _ => keeps_guard keeps_waitDone) h

theorem canonical_execWaitall : CanonicalOut (execWaitall rs s) :=
  canonical_runSeq (keeps_bind (keeps_getX _) fun _ => keeps_bind keeps_getCtx fun _ => keeps_guard keeps_waitDone) h

theorem canonical_execFfrdy : CanonicalOut (execFfrdy rd s) := canonical_runSeq (keeps_bind keeps_getCtx fun _ => keeps_setX _ _) h

theorem canonical_execTagclr : CanonicalOut (execTagclr rs s) :=
  canonical_runSeq (keeps_bind (keeps_getX _) fun _ => keeps_bind (keeps_modCtx _) fun _ => keeps_update fun _ => rfl) h

theorem canonical_execDmaByteCopy {tag : BitVec 6} : CanonicalOut (execDmaByteCopy tag s) := canonical_next (State.memOk_dmaRead h _ _)

theorem canonical_execCodebookExpansion {tag : BitVec 6} : CanonicalOut (execCodebookExpansion tag s) := canonical_next (State.memOk_dmaRead h _ _)

theorem canonical_execEntropyExpansion {tag : BitVec 6} : CanonicalOut (execEntropyExpansion tag s) := canonical_next (State.memOk_dmaRead h _ _)

theorem canonical_execBitPlaneEncoding {tag : BitVec 6} : CanonicalOut (execBitPlaneEncoding tag s) := canonical_next (State.memOk_dmaRead h _ _)

theorem canonical_execBlockCyclicDeal {tag : BitVec 6} : CanonicalOut (execBlockCyclicDeal tag s) := by
  unfold execBlockCyclicDeal
  split
  · exact canonical_next h
  · split
    · refine canonical_ite ?_ (canonical_next h)
      dsimp only
      split
      · exact canonical_next (State.memOk_stopDma h _ _ _ _)
      · exact canonical_next (State.memOk_of_mem (State.mem_modDma _ _ _) h)
    · exact canonical_next h

theorem canonical_execDmaChunkComplete {tag : BitVec 6} : CanonicalOut (execDmaChunkComplete tag s) := by
  unfold execDmaChunkComplete
  split
  · exact canonical_next h
  · split
    · refine canonical_ite (canonical_next h) ?_
      split
      · next e => exact canonical_next (State.memOk_of_mem (State.mem_dmaAdvance _ _ _ _) (keeps_engWrite.ok h e))
      · next e => exact canonical_next (State.memOk_stopDma (keeps_engWrite.error h e) _ _ _ _)
      · exact canonical_next h
    · refine canonical_next (State.memOk_of_mem (State.mem_dmaAdvance _ _ _ _) ?_)
      exact State.memOk_foldl (fun _ _ hu => State.memOk_pokePieces hu _ _) _ _ h
    · exact canonical_next h

theorem canonical_execDmaCommandComplete {tag : BitVec 6} : CanonicalOut (execDmaCommandComplete tag s) := by
  unfold execDmaCommandComplete
  split
  · exact canonical_next h
  · next j _ =>
    have begun : (s.startDma j).memOk := State.memOk_of_mem (State.mem_startDma _ _) h
    refine canonical_ite ?_ (canonical_next h)
    split
    · exact canonical_next h
    · next e => exact canonical_next (State.memOk_stopDma (keeps_dmaArrival.error begun e) _ _ _ _)
    · next e => exact canonical_next (State.memOk_of_mem (State.mem_endDma _ _ _ _) (keeps_dmaArrival.error begun e))
    · next e => exact canonical_next (State.memOk_of_mem (State.mem_endDma _ _ _ _) (keeps_dmaArrival.ok begun e))

theorem canonical_execIceg : CanonicalOut (execIceg rs s) :=
  canonical_runSeq (keeps_bind (keeps_getX _) fun _ => keeps_bind keeps_readRecord fun _ => keeps_pushEddy) h

theorem canonical_execIces : CanonicalOut (execIces rs s) :=
  canonical_runSeq (keeps_bind (keeps_getX _) fun _ => keeps_bind keeps_readRecord fun _ => keeps_pushEddy) h

theorem canonical_execIceres : CanonicalOut (execIceres rs s) :=
  canonical_runSeq (keeps_bind (keeps_getX _) fun _ => keeps_bind keeps_readRecord fun _ => keeps_guard keeps_pushEddy) h

theorem canonical_execEddyGather {k : Nat} : CanonicalOut (execEddyGather k s) := canonical_next (State.memOk_eddyStep h _ _)

theorem canonical_execEddyScatter {k : Nat} : CanonicalOut (execEddyScatter k s) := canonical_next (State.memOk_eddyStep h _ _)

theorem canonical_execEddyComplete {k : Nat} : CanonicalOut (execEddyComplete k s) := by
  unfold execEddyComplete
  split
  · exact canonical_next h
  · next j _ =>
    have begun : (s.startEddy j).memOk := State.memOk_of_mem (State.mem_startEddy _ _) h
    exact canonical_ite (canonical_next ((State.memOk_modCoreId _ _ _).mpr begun)) (canonical_next h)

theorem canonical_execMldw {wt : BitVec 2} {pri : BitVec 2} {tag : BitVec 3} : CanonicalOut (execMldw wt xs pri tag s) :=
  canonical_runSeq (keeps_bind (keeps_getX _) fun _ => keeps_pushMatrix) h

theorem canonical_execMzero {ac : BitVec 3} {pri : BitVec 2} {tag : BitVec 3} : CanonicalOut (execMzero ac pri tag s) :=
  canonical_runSeq keeps_pushMatrix h

theorem canonical_execMma {ac : BitVec 3} {wt oct : BitVec 2} {rows : BitVec 3} {planes : BitVec 3} {pri : BitVec 2} {tag : BitVec 3} :
    CanonicalOut (execMma ac wt oct rows vs planes pri tag s) :=
  canonical_runSeq (keeps_guardCtx keeps_pushMatrix) h

theorem canonical_execMmas {ac : BitVec 3} {ks : BitVec 2} {rows : BitVec 3} {planes : BitVec 3} {pri : BitVec 2} {tag : BitVec 3} : CanonicalOut
    (execMmas ac ks xb rows planes pri tag s) :=
  canonical_runSeq (keeps_bind (keeps_getX _) fun _ => keeps_bind (keeps_getX _) fun _ => keeps_pushMatrix) h

theorem canonical_execMsta {ac : BitVec 3} {rows : BitVec 3} {pri : BitVec 2} {tag : BitVec 3} : CanonicalOut (execMsta ac xd rows pri tag s) :=
  canonical_runSeq (keeps_bind (keeps_getX _) fun _ => keeps_pushMatrix) h

theorem canonical_execMstv {ac : BitVec 3} {pri : BitVec 2} {tag : BitVec 3} : CanonicalOut (execMstv ac vq xr pri tag s) :=
  canonical_runSeq (keeps_bind (keeps_getX _) fun _ => keeps_pushMatrix) h

theorem canonical_execMatrixCommandStart : CanonicalOut (execMatrixCommandStart s) := by
  unfold execMatrixCommandStart
  split
  · exact canonical_next h
  · exact canonical_ite (canonical_next (State.memOk_of_mem (State.mem_foldl (fun _ _ => congrArg Dev.mem (State.modCoreId_dev _ _ _)) _ _) h))
      (canonical_next h)

theorem canonical_execMicroTileComplete : CanonicalOut (execMicroTileComplete s) := by
  unfold execMicroTileComplete
  split
  · exact canonical_next h
  · dsimp only
    split
    · exact canonical_next h
    · refine canonical_ite ?_ (canonical_next h)
      split
      · next e =>
        exact canonical_next (State.memOk_of_mem (State.mem_foldl (fun _ _ => congrArg Dev.mem (State.modCoreId_dev _ _ _)) _ _)
          (keeps_tileRows.ok h e))
      · exact canonical_next h
      · next e =>
        exact canonical_next (State.memOk_of_mem (State.mem_foldl (fun _ _ => State.mem_modSlice _ _ _ _) _ _) (keeps_tileRows.error h e))
      · next e =>
        refine canonical_next (State.memOk_faultSlice ?_ _ _ _ _)
        exact State.memOk_of_mem (State.mem_foldl (fun _ _ => State.mem_modSlice _ _ _ _) _ _) (keeps_tileRows.error h e)

theorem canonical_execMatrixCommandComplete : CanonicalOut (execMatrixCommandComplete s) := by
  have completed : ∀ (l : List (Nat × MtxJob)) (j : MtxJob) (st sub : Nat), CanonicalOut (.next (l.foldl (fun s x =>
  s.completeSlice x.1 j st sub) s)) :=
    fun l j st sub => canonical_next (State.memOk_of_mem (State.mem_foldl (fun _ _ => State.mem_completeSlice _ _ _ _ _) _ _) h)
  unfold execMatrixCommandComplete
  split
  · exact canonical_next h
  · have worked := State.memOk_workSlices (s.slices s.core.id ‹MtxJob›) h
    refine canonical_ite (canonical_next h) (canonical_ite ?_ (canonical_ite (canonical_next h) (canonical_ite (canonical_next h)
      (canonical_ite (canonical_next (State.memOk_foldl (fun u e hu => ?_) _ _ worked)) (canonical_next (State.memOk_foldl (fun u e hu =>
      ?_) _ _ worked))))))
    · dsimp only
      split
      · exact completed _ _ _ _
      · exact canonical_ite (canonical_next h) (completed _ _ _ _)
    · split
      · exact State.memOk_faultSlice hu _ _ _ _
      · exact State.memOk_of_mem (State.mem_modSlice _ _ _ _) hu
    · split
      · exact State.memOk_of_mem (State.mem_completeSlice _ _ _ _ _) hu
      · exact hu

theorem canonical_execQpush {q : BitVec 3} : CanonicalOut (execQpush q rs s) := by
  unfold execQpush
  refine canonical_runSeq (keeps_guardCtx (keeps_bind keeps_needReg fun _ => keeps_bind (keeps_getX _) fun _ => ?_)) h
  split
  · exact keeps_bind keeps_readRecord fun _ => keeps_pushDma
  · refine keeps_bind keeps_readRecord fun _ => ?_
    split
    · exact keeps_throw _
    · exact keeps_pushMatrix
  · exact keeps_bind keeps_readRecord fun _ => keeps_pushEddy

theorem canonical_execQpop {q : BitVec 3} : CanonicalOut (execQpop rd q s) := by
  unfold execQpop
  refine canonical_runSeq (keeps_bind keeps_getCtx fun _ => ?_) h
  split
  · exact keeps_throw _
  · exact keeps_throw _
  · exact keeps_bind (keeps_modCtx _) fun _ => keeps_setX _ _

theorem canonical_execQtry {q : BitVec 3} : CanonicalOut (execQtry rd q s) := by
  unfold execQtry
  refine canonical_runSeq (keeps_bind keeps_getCtx fun _ => ?_) h
  split
  · exact keeps_throw _
  · exact keeps_setX _ _
  · exact keeps_bind (keeps_modCtx _) fun _ => keeps_setX _ _

theorem canonical_execQcnt {q : BitVec 3} : CanonicalOut (execQcnt rd q s) :=
  canonical_runSeq (keeps_seen fun _ _ => keeps_bind keeps_needReg fun _ => keeps_setX _ _) h

theorem canonical_execRgopen : CanonicalOut (execRgopen xg xr s) :=
  canonical_runSeq (keeps_bind (keeps_getX _) fun _ => keeps_bind (keeps_getX _) fun _ => keeps_guard (keeps_bind (keeps_loadBytes _ _ _) fun _ =>
    keeps_guard (keeps_bind (keeps_loadBytes _ _ _) fun _ => keeps_guard (keeps_bind keeps_ownKey fun _ => keeps_seen fun _ _ => keeps_guard
    (keeps_modCtx _))))) h

theorem canonical_execRlift : CanonicalOut (execRlift xd s) :=
  canonical_runSeq (keeps_bind (keeps_getX _) fun _ => keeps_guard (keeps_guard (keeps_guard (keeps_modCtx _)))) h

theorem canonical_execReval : CanonicalOut (execReval xf xn s) :=
  canonical_runSeq (keeps_bind keeps_ruleReady fun _ => keeps_bind (keeps_getX _) fun _ => keeps_bind (keeps_getX _) fun _ =>
    keeps_bind keeps_getCtx fun _ => keeps_guard (keeps_bind keeps_unitsDone fun _ =>
      keeps_when (keeps_inUnit (fun _ h => h) keeps_revalUnit) fun _ => keeps_unitEnd)) h

theorem canonical_execRspine : CanonicalOut (execRspine xo xs xe s) := by
  refine canonical_runSeq (keeps_bind keeps_ruleReady fun _ => keeps_bind keeps_spineRange fun (_, _) => keeps_bind (keeps_getX _) fun _ =>
    keeps_bind keeps_runGoing fun going => ?_) h
  extract_lets withKey
  have keyed : ∀ key, KeepsMem (withKey key) := by
    refine fun key => keeps_bind keeps_unitsDone fun done => ?_
    extract_lets j last withAcc
    have ended : ∀ acc, KeepsMem (withAcc acc) := fun _ => keeps_bind keeps_getCtx fun _ =>
      keeps_ite
        (keeps_bind (keeps_inUnit (fun _ h => State.memOk_pokeOwn h _ _)
            (keeps_bind keeps_spineAt fun _ => keeps_bind keeps_valueOf fun _ => keeps_foldRes)) fun _ =>
          keeps_ite (keeps_bind keeps_keepRun fun _ => keeps_unitEnd) (keeps_bind keeps_writeRes fun _ => keeps_unitEnd))
        (keeps_bind keeps_writeRes fun _ => keeps_unitEnd)
    cases going with
    | some r => exact keeps_bind (keeps_pure _) ended
    | none => exact keeps_ite (keeps_bind (keeps_pure _) ended) (keeps_bind keeps_readRes fun _ => keeps_bind (keeps_pure _) ended)
  split
  · exact keeps_bind (keeps_pure _) keyed
  · exact keeps_bind keeps_ownKey keyed

theorem canonical_execRscan {all : Bool} : CanonicalOut (execRscan xo xs xe all s) := by
  refine canonical_runSeq (keeps_bind keeps_ruleReady fun _ => keeps_bind keeps_spineRange fun (_, _) => keeps_bind (keeps_getX _) fun _ =>
    keeps_bind keeps_runGoing fun going => keeps_tried keeps_ownKey (keeps_bind keeps_unitsDone fun done => ?_)) h
  extract_lets last withRun
  have ended : ∀ run, KeepsMem (withRun run) := fun _ =>
    keeps_ite (keeps_bind (keeps_inUnit (fun _ h => h) keeps_rscanUnit) fun _ => keeps_when keeps_keepRun fun _ => keeps_unitEnd) keeps_unitEnd
  cases going with
  | some r => exact keeps_bind (keeps_pure _) ended
  | none =>
    exact keeps_ite (keeps_bind (keeps_pure _) ended)
      (keeps_either keeps_positionsOf (keeps_pure _) fun _ => keeps_bind keeps_readRes fun _ => keeps_bind (keeps_pure _) ended)

theorem canonical_execRseek : CanonicalOut (execRseek xn xi s) :=
  canonical_runSeq (keeps_bind keeps_ruleReady fun _ => keeps_bind (keeps_getX _) fun _ => keeps_bind keeps_getCtx fun _ => keeps_guard
    (keeps_bind (keeps_seekSpine _ _ _ _) fun _ => keeps_bind (keeps_seekDown _ _ _ _ _) fun _ => keeps_bind keeps_leafRes fun _ =>
    keeps_bind keeps_foldRes fun _ => keeps_bind (keeps_setX _ _) fun _ => keeps_setX _ _)) h

theorem canonical_execRmv : CanonicalOut (execRmv xy xx xw s) :=
  canonical_runSeq (keeps_bind keeps_ruleReady fun _ => keeps_bind keeps_getCtx fun _ => keeps_guard (keeps_bind (keeps_getX _) fun _ =>
    keeps_bind (keeps_getX _) fun _ => keeps_bind (keeps_getX _) fun _ => keeps_bind keeps_ownKey fun _ => keeps_bind keeps_ownKey fun _ =>
      keeps_guard (keeps_guard (keeps_bind keeps_unitsDone fun _ =>
        keeps_when (keeps_inUnit (fun _ h => h) keeps_rmvUnit) fun _ => keeps_unitEnd)))) h

theorem canonical_execRget {sel : BitVec 2} : CanonicalOut (execRget xd xi sel s) :=
  canonical_runSeq (keeps_bind (keeps_getX _) fun _ => keeps_bind keeps_getCtx fun _ => keeps_guard (keeps_bind keeps_ownKey fun _ => keeps_bind
    (keeps_coreReadNat _ _) fun _ => keeps_setX _ _)) h

theorem canonical_execBsrc {g : BitVec 3} : CanonicalOut (execBsrc g xs s) :=
  canonical_runSeq (keeps_bind (keeps_getX _) fun _ => keeps_guard (keeps_modCtx _)) h

theorem canonical_execRepf {len : BitVec 4} {ci : Bool} {cnt : BitVec 5} {stride : BitVec 4} {mask : BitVec 3} :
    CanonicalOut (execRepf len ci cnt stride mask s) := by
  refine canonical_runSeq (keeps_endsFrame (keeps_seen fun u _ => ?_)) h
  extract_lets last frame
  have framed : ∀ go, KeepsMem (frame go) := fun _ => keeps_seen fun _ _ => keeps_bind (keeps_frameFrom _ _ _) fun _ => keeps_modCtx _
  split
  · exact keeps_bind (keeps_pure _) framed
  · refine keeps_bind keeps_captureWords fun _ => ?_
    split
    · exact keeps_bind (keeps_throw _) framed
    · exact keeps_bind (keeps_getX _) fun _ => keeps_when keeps_issueFrame fun _ => keeps_bind (keeps_pure _) framed

theorem canonical_execWswap : CanonicalOut (execWswap s) := by
  unfold execWswap
  split
  · next e => exact canonical_next (keeps_bodyWswap.ok h e)
  · next e =>
    have stopped := keeps_bodyWswap.error h e
    cases ‹Stop› with
    | trap n info r => exact canonical_next (State.memOk_of_mem (State.mem_raiseTrap _ _ _ _ _) stopped)
    | hold w => exact canonical_next (State.memOk_of_mem (State.mem_holdAt _ _ _) stopped)

theorem canonical_execWaitEventRead {lnum : BitVec 12} : CanonicalOut (execWaitEventRead lnum s) := by
  unfold execWaitEventRead
  split
  · exact canonical_next h
  · exact canonical_ite (canonical_next h) (canonical_next (State.memOk_of_mem (State.mem_modLaunch _ _ _) (State.memOk_readWaits h _)))

theorem canonical_execLaunchCompletion {lnum : BitVec 12} : CanonicalOut (execLaunchCompletion lnum s) := by
  unfold execLaunchCompletion
  split
  · exact canonical_next h
  · exact canonical_ite (canonical_next h) (canonical_ite (canonical_next (State.memOk_of_mem (State.mem_dropMessages _ _) h)) (canonical_next
      (State.memOk_modDev rfl (State.memOk_signal (State.memOk_discardLaunch h _) _))))

theorem canonical_execLaunch : CanonicalOut (execLaunch rd rs1 s) :=
  canonical_runSeq (keeps_bind keeps_needK fun _ => keeps_seen fun _ _ => keeps_guard (keeps_bind (keeps_releaseFence _) fun _ => keeps_bind
    (keeps_getX _) fun _ => keeps_bind keeps_readRecord fun _ => keeps_bind (keeps_modDev fun _ => rfl) fun _ => keeps_throw _)) h

theorem canonical_execLaunchAcceptance : CanonicalOut (execLaunchAcceptance s) := by
  unfold execLaunchAcceptance
  split
  · exact canonical_next h
  · next b _ =>
    have accepted : ((s.modDev fun d => { d with submits := d.submits.filter fun x => x.core != b.core }).accept b).2.memOk := by
      refine State.memOk_accept ?_ b
      exact h
    dsimp only
    split
    · exact canonical_runSeq (keeps_setX _ _) accepted
    · exact canonical_next accepted

theorem canonical_execPlacementStep {part : BitVec 6} : CanonicalOut (execPlacementStep part s) := by
  have settled : (s.dev.preempts.foldl State.settlePreempt s).memOk := State.memOk_foldl (fun _ _ hu => State.memOk_settlePreempt hu _) _ _ h
  unfold execPlacementStep
  split
  · exact canonical_next h
  · next p _ =>
    dsimp only
    generalize s.dev.preempts.foldl State.settlePreempt s = u at settled ⊢
    refine canonical_ite (canonical_next settled) ?_
    split
    · exact canonical_next settled
    · next l ls _ =>
      have marked : (u.modDev fun d => { d with launches := d.launches.map fun k =>
        if k.partNo = part.toNat ∧ k.lnum ≠ l.lnum ∧ u.preempting k.lnum = false then { k with noFit := none, starved := false } else k }).memOk :=
        settled
      generalize State.modDev u _ = v at marked ⊢
      refine canonical_ite (canonical_next marked) ?_
      split
      · next placed => exact canonical_next (State.memOk_tryPlace marked placed)
      · have waits : (v.modLaunch l.lnum fun k => { k with noFit := some (k.noFit.getD v.dev.cycles) }).memOk :=
          State.memOk_of_mem (State.mem_modLaunch _ _ _) marked
        refine canonical_ite (canonical_next waits) (canonical_next ?_)
        cases placed : State.placeFirst _ p _ with
        | none => exact waits
        | some t => exact State.memOk_placeFirst waits placed

theorem canonical_execStarvationBound {part : BitVec 6} : CanonicalOut (execStarvationBound part s) := by
  unfold execStarvationBound
  split
  · exact canonical_next h
  · exact canonical_ite (canonical_next (State.memOk_of_mem (State.mem_modLaunch _ _ _) h)) (canonical_next h)

theorem canonical_execCoreHandoff : CanonicalOut (execCoreHandoff s) := by
  have dropped : (if s.core.run = .dropped then s.modCore fun c => { c with mtx := c.mtx.filter fun j => j.state != .faulted } else s).memOk := by
    split <;> exact h
  unfold execCoreHandoff
  dsimp only
  generalize (if s.core.run = .dropped then State.modCore _ _ else s : State) = t at dropped ⊢
  have counted : (if t.core.run = .ended then t.countDone t.core else t).memOk := by
    split
    · exact State.memOk_of_mem (State.mem_countDone _ _) dropped
    · exact dropped
  generalize (if t.core.run = .ended then State.countDone _ _ else t : State) = u at counted ⊢
  have idle : CanonicalOut (.next (u.modCore Core.discardEnded)) := canonical_next counted
  refine canonical_ite (canonical_next h) (canonical_ite (canonical_next dropped) (canonical_ite idle ?_))
  split
  · exact canonical_ite (canonical_next (State.memOk_resumeParked counted _)) (canonical_ite (canonical_next
      (State.memOk_warmHandoff counted _)) idle)
  · exact canonical_next (State.memOk_resumeParked counted _)
  · exact canonical_ite (canonical_next (State.memOk_warmHandoff counted _)) idle
  · exact idle

theorem canonical_execQuiescenceSweep {lnum : BitVec 12} : CanonicalOut (execQuiescenceSweep lnum s) := by
  unfold execQuiescenceSweep
  split
  · exact canonical_next h
  · refine canonical_ite (canonical_next h) ?_
    split
    · exact canonical_ite (canonical_next h) (canonical_next (State.memOk_of_mem (State.mem_modLaunch _ _ _) h))
    · split
      · exact canonical_next (State.memOk_of_mem ((State.mem_modLaunch _ _ _).trans (State.mem_meetCount _ _ _)) h)
      · exact canonical_ite (canonical_next (State.memOk_of_mem ((State.mem_quiesce _ _).trans (State.mem_modLaunch _ _ _)) h)) (canonical_next
          (State.memOk_of_mem (State.mem_modLaunch _ _ _) h))

theorem canonical_execHostBar2Access {off : BitVec 39} {acc : Bar2Access} : CanonicalOut (execHostBar2Access off acc s) := by
  unfold execHostBar2Access
  refine canonical_ite (canonical_next h) ?_
  split
  · exact canonical_next (State.memOk_poke h _ _)
  · exact canonical_next (State.memOk_of_mem (State.mem_hostReads _ _ _) h)
  · exact canonical_next (State.memOk_hostAtomic h _ _)
  · exact canonical_next (State.memOk_hostAtomic h _ _)
  · exact canonical_next (State.memOk_hostAtomic h _ _)

theorem canonical_execMbdoor {slot : BitVec 6} : CanonicalOut (execMbdoor slot s) := canonical_next (State.memOk_doorbell h _)

theorem canonical_execPwrcap {watts : BitVec 64} : CanonicalOut (execPwrcap watts s) :=
  canonical_next (State.memOk_of_mem (State.mem_writePwrcap _ _) h)

theorem canonical_execClockThrottle {hz : Nat} : CanonicalOut (execClockThrottle hz s) :=
  canonical_ite (canonical_next h) (canonical_next (State.memOk_modDev rfl h))

theorem canonical_execLogclr : CanonicalOut (execLogclr s) := canonical_next (State.memOk_of_mem (State.mem_clearLog _) h)

theorem canonical_execOvfClear : CanonicalOut (execOvfClear s) := canonical_next (State.memOk_modDev rfl h)

theorem canonical_execGo : CanonicalOut (execGo s) := canonical_next (State.memOk_modDev rfl h)

theorem canonical_execMgmtRegisterWrite {off : BitVec 16} {value : Word} : CanonicalOut (execMgmtRegisterWrite off value s) := by
  unfold execMgmtRegisterWrite
  split
  · exact canonical_next (State.memOk_of_mem (State.mem_writeBootstat _ _) h)
  · exact canonical_next (State.memOk_modDev (by split <;> rfl) h)
  · exact canonical_next (State.memOk_modDev rfl h)
  · exact canonical_next (State.memOk_doorbell h _)
  · exact canonical_next (State.memOk_of_mem (State.mem_writePwrcap _ _) h)
  · exact canonical_next (State.memOk_modDev rfl h)
  · exact canonical_next (State.memOk_modDev rfl h)
  · exact canonical_next (State.memOk_modDev rfl h)
  · exact canonical_next (State.memOk_modDev rfl h)
  · exact canonical_next (State.memOk_modDev rfl h)
  · exact canonical_next h

theorem canonical_execPortFailure {port : BitVec 4} : CanonicalOut (execPortFailure port s) := canonical_next (State.memOk_modDev rfl h)

theorem canonical_execPortFailTimeout {port : BitVec 4} : CanonicalOut (execPortFailTimeout port s) := by
  refine canonical_ite (canonical_next h) (canonical_next (State.memOk_of_mem (State.mem_foldl (fun _ _ => State.mem_failBcast _ _ _) _ _) ?_))
  exact State.memOk_foldl (fun _ _ hu => State.memOk_failFlight hu _ _) _ _ h

theorem canonical_execPowerOn {boot : BootImage} : CanonicalOut (execPowerOn boot s) := by
  have rom : Memory.wf (s.dev.mem.filter fun c => decide (romKeys ≤ c.1)) = true := Memory.wf_filter h _
  unfold execPowerOn
  dsimp only
  cases boot.host with
  | none => exact canonical_ite (canonical_next rom) (canonical_next rom)
  | some image =>
    refine canonical_ite (canonical_next (State.memOk_poke ?_ _ _)) (canonical_next (State.memOk_poke ?_ _ _))
    · exact rom
    · exact rom

theorem canonical_execPartitionBuild {cfg : PartConfig} : CanonicalOut (execPartitionBuild cfg s) := by
  refine canonical_ite (canonical_next (State.memOk_of_mem (State.mem_foldl (fun _ _ => State.mem_enroll _ _ _) _ _) ?_)) (canonical_next h)
  exact State.memOk_clearPools h _

omit h in
/-- An instruction that a capture buffer can hold is its body, run (R416). -/
theorem exec_captured {i : Instr} {b : Act Unit} (e : capturedBody i = some b) : exec i s = runSeq i b s := by
  cases i
  all_goals cases e
  all_goals rfl

theorem canonical_exec (i : Instr) : CanonicalOut (exec i s) := by
  cases e : capturedBody i with
  | some b =>
    rw [exec_captured e]
    exact canonical_runSeq (keeps_capturedBody e) h
  | none =>
    cases i
    case auipc => exact canonical_execAuipc h
    case lb => exact canonical_execLb h
    case lbu => exact canonical_execLbu h
    case lh => exact canonical_execLh h
    case lhu => exact canonical_execLhu h
    case lw => exact canonical_execLw h
    case lwu => exact canonical_execLwu h
    case ld => exact canonical_execLd h
    case sb => exact canonical_execSb h
    case sh => exact canonical_execSh h
    case sw => exact canonical_execSw h
    case sd => exact canonical_execSd h
    case beq => exact canonical_execBeq h
    case bne => exact canonical_execBne h
    case blt => exact canonical_execBlt h
    case bge => exact canonical_execBge h
    case bltu => exact canonical_execBltu h
    case bgeu => exact canonical_execBgeu h
    case jal => exact canonical_execJal h
    case jalr => exact canonical_execJalr h
    case loop => exact canonical_execLoop h
    case csrr => exact canonical_execCsrr h
    case csrw => exact canonical_execCsrw h
    case csrs => exact canonical_execCsrs h
    case csrc => exact canonical_execCsrc h
    case kcall => exact canonical_execKcall h
    case fcall => exact canonical_execFcall h
    case brk => exact canonical_execBrk h
    case tlbinv => exact canonical_execTlbinv h
    case launch => exact canonical_execLaunch h
    case fence => exact canonical_execFence h
    case mon => exact canonical_execMon h
    case evsig => exact canonical_execEvsig h
    case evwait => exact canonical_execEvwait h
    case send => exact canonical_execSend h
    case recv => exact canonical_execRecv h
    case recvnb => exact canonical_execRecvnb h
    case mcast => exact canonical_execMcast h
    case amo => exact canonical_execAmo h
    case cas => exact canonical_execCas h
    case lda => exact canonical_execLda h
    case str => exact canonical_execStr h
    case cinit => exact canonical_execCinit h
    case cst => exact canonical_execCst h
    case cld => exact canonical_execCld h
    case crcl => exact canonical_execCrcl h
    case cver => exact canonical_execCver h
    case dma => exact canonical_execDma h
    case dmad => exact canonical_execDmad h
    case dmares => exact canonical_execDmares h
    case waitany => exact canonical_execWaitany h
    case waitall => exact canonical_execWaitall h
    case ffrdy => exact canonical_execFfrdy h
    case tagclr => exact canonical_execTagclr h
    case qpush => exact canonical_execQpush h
    case qpop => exact canonical_execQpop h
    case qtry => exact canonical_execQtry h
    case qcnt => exact canonical_execQcnt h
    case iceg => exact canonical_execIceg h
    case ices => exact canonical_execIces h
    case iceres => exact canonical_execIceres h
    case vld => exact canonical_execVld h
    case vlds => exact canonical_execVlds h
    case vldx => exact canonical_execVldx h
    case vst => exact canonical_execVst h
    case vsts => exact canonical_execVsts h
    case vstx => exact canonical_execVstx h
    case vnz => exact canonical_execVnz h
    case sopen => exact canonical_execSopen h
    case sadv => exact canonical_execSadv h
    case stend => exact canonical_execStend h
    case sclose => exact canonical_execSclose h
    case smerge => exact canonical_execSmerge h
    case spos => exact canonical_execSpos h
    case streamPrefetch => exact canonical_execStreamPrefetch h
    case repf => exact canonical_execRepf h
    case gform => exact canonical_execGform h
    case gjoin => exact canonical_execGjoin h
    case gleave => exact canonical_execGleave h
    case gdet => exact canonical_execGdet h
    case gatt => exact canonical_execGatt h
    case rjp => exact canonical_execRjp h
    case xsh => exact canonical_execXsh h
    case xwrap => exact canonical_execXwrap h
    case xshArrival => exact canonical_execXshArrival h
    case mldw => exact canonical_execMldw h
    case mzero => exact canonical_execMzero h
    case mma => exact canonical_execMma h
    case mmas => exact canonical_execMmas h
    case msta => exact canonical_execMsta h
    case mstv => exact canonical_execMstv h
    case rgopen => exact canonical_execRgopen h
    case rlift => exact canonical_execRlift h
    case reval => exact canonical_execReval h
    case rspine => exact canonical_execRspine h
    case rscan => exact canonical_execRscan h
    case rseek => exact canonical_execRseek h
    case rmv => exact canonical_execRmv h
    case rget => exact canonical_execRget h
    case bsrc => exact canonical_execBsrc h
    case homePerformAccess => exact canonical_execHomePerformAccess h
    case storeAck => exact canonical_execStoreAck h
    case atomicResultReturn => exact canonical_execAtomicResultReturn h
    case commutativeMerge => exact canonical_execCommutativeMerge h
    case linkCrcError => exact canonical_execLinkCrcError h
    case selfTestComplete => exact canonical_execSelfTestComplete h
    case reservationRequest => exact canonical_execReservationRequest h
    case reservationGrant => exact canonical_execReservationGrant h
    case messageArrival => exact canonical_execMessageArrival h
    case eventSignalLand => exact canonical_execEventSignalLand h
    case broadcastApply => exact canonical_execBroadcastApply h
    case dmaByteCopy => exact canonical_execDmaByteCopy h
    case codebookExpansion => exact canonical_execCodebookExpansion h
    case entropyExpansion => exact canonical_execEntropyExpansion h
    case bitPlaneEncoding => exact canonical_execBitPlaneEncoding h
    case blockCyclicDeal => exact canonical_execBlockCyclicDeal h
    case dmaChunkComplete => exact canonical_execDmaChunkComplete h
    case dmaCommandComplete => exact canonical_execDmaCommandComplete h
    case eddyGather => exact canonical_execEddyGather h
    case eddyScatter => exact canonical_execEddyScatter h
    case eddyComplete => exact canonical_execEddyComplete h
    case waitEventRead => exact canonical_execWaitEventRead h
    case placementStep => exact canonical_execPlacementStep h
    case starvationBound => exact canonical_execStarvationBound h
    case quiescenceSweep => exact canonical_execQuiescenceSweep h
    case launchCompletion => exact canonical_execLaunchCompletion h
    case hostBar2Access => exact canonical_execHostBar2Access h
    case mbdoor => exact canonical_execMbdoor h
    case pwrcap => exact canonical_execPwrcap h
    case mgmtRegisterWrite => exact canonical_execMgmtRegisterWrite h
    case clockThrottle => exact canonical_execClockThrottle h
    case portFailure => exact canonical_execPortFailure h
    case portFailTimeout => exact canonical_execPortFailTimeout h
    case powerOn => exact canonical_execPowerOn h
    case illegalEncoding => exact canonical_execIllegalEncoding h
    case partitionBuild => exact canonical_execPartitionBuild h
    case softwareInterrupt => exact canonical_execSoftwareInterrupt h
    case tret => exact canonical_execTret h
    case wfi => exact canonical_execWfi h
    case wswap => exact canonical_execWswap h
    case iflush => exact canonical_execIflush h
    case halt => exact canonical_execHalt h
    case rfence => exact canonical_execRfence h
    case mwait => exact canonical_execMwait h
    case cellAbandon => exact canonical_execCellAbandon h
    case gsplit => exact canonical_execGsplit h
    case gbar => exact canonical_execGbar h
    case matrixCommandStart => exact canonical_execMatrixCommandStart h
    case microTileComplete => exact canonical_execMicroTileComplete h
    case matrixCommandComplete => exact canonical_execMatrixCommandComplete h
    case takeInterrupt => exact canonical_execTakeInterrupt h
    case timerExpire => exact canonical_execTimerExpire h
    case loadReturn => exact canonical_execLoadReturn h
    case pageWalk => exact canonical_execPageWalk h
    case contextBufferDrain => exact canonical_execContextBufferDrain h
    case weirWindowClose => exact canonical_execWeirWindowClose h
    case launchAcceptance => exact canonical_execLaunchAcceptance h
    case coreHandoff => exact canonical_execCoreHandoff h
    case logclr => exact canonical_execLogclr h
    case ovfClear => exact canonical_execOvfClear h
    case go => exact canonical_execGo h
    case fetchFailure => exact canonical_execFetchFailure h
    case mwaitSpuriousReturn => exact canonical_execMwaitSpuriousReturn h
    all_goals cases e

end

end Sys2Proof.Machine
end

section
/-!
PROOFS. Every step keeps memory in canonical form: from each turn's plan, and what it comes to (R159).
-/

namespace Sys2Proof.Machine

/-! ## The turns' plans -/

/-- The state a plan goes on from. -/
def Plan.state : Plan → State
  | .rest s => s
  | .run _ s => s

section
variable {s : State} (h : s.memOk)
include h

theorem State.memOk_planWord (w : IWord) : (s.planWord w).state.memOk := by
  unfold State.planWord
  split
  · exact h
  · split
    · exact State.memOk_of_mem (State.mem_holdAt _ _ _) h
    · exact h

theorem State.memOk_planFetch : s.planFetch.state.memOk := by
  unfold State.planFetch
  split
  · exact State.memOk_planWord h _
  · split
    · exact h
    · next e => exact State.memOk_planWord (keeps_fetchWord.checked h e) _

theorem State.memOk_planStream (l : GangLink) (g : Gang) : (s.planStream l g).state.memOk := by
  unfold State.planStream
  split
  · split
    · exact State.memOk_planFetch h
    · exact h
  · split
    · exact h
    · split
      · exact State.memOk_of_mem (State.mem_gangTick _ _) h
      · split
        · split
          · exact State.memOk_of_mem (State.mem_issueHold _ _) h
          · exact State.memOk_planFetch h
        · split
          · exact State.memOk_of_mem (State.mem_passSlot _ _) h
          · refine State.memOk_planWord ?_ _
            exact h

theorem State.memOk_dueTrap {t : State} (e : s.dueTrap = some t) : t.memOk := by
  unfold State.dueTrap at e
  split at e
  · split at e
    · cases e
    · dsimp only at e
      split at e
      · cases e
      · obtain rfl := Option.some.inj e
        refine State.memOk_of_mem (State.mem_takeTrap _ _ _ _ _ _) (State.memOk_abandon (State.memOk_of_mem (State.mem_atSlot _) ?_))
        exact h
  · split at e
    · obtain rfl := Option.some.inj e
      exact h
    · obtain rfl := Option.some.inj e
      exact State.memOk_of_mem (State.mem_takeTrap _ _ _ _ _ _) h

theorem State.memOk_planCore : s.planCore.state.memOk := by
  unfold State.planCore
  split
  · exact h
  · split
    · next e => exact State.memOk_dueTrap h e
    · split
      · exact h
      · split
        · exact h
        · split
          · exact State.memOk_planFetch h
          · exact State.memOk_planStream h _ _

theorem State.memOk_planTurn {t : Turn} {p : Plan} (e : s.planTurn t = some p) : p.state.memOk := by
  unfold State.planTurn at e
  split at e
  · obtain ⟨u, found, rfl⟩ := Option.map_eq_some_iff.mp e
    exact State.memOk_planCore (State.memOk_focus found h)
  · obtain ⟨u, found, rfl⟩ := Option.map_eq_some_iff.mp e
    have there := State.memOk_focus found h
    split
    · exact there
    · exact there
  · obtain rfl := Option.some.inj e
    exact State.memOk_environment h _

end

/-! ## The step -/

theorem canonical_go {p : Plan} (h : p.state.memOk) : CanonicalOut p.go := by
  cases p with
  | rest s => exact canonical_next (State.memOk_of_mem s.mem_elapse h)
  | run i s =>
    have out := canonical_exec h i
    dsimp only [Plan.go]
    cases e : exec i s with
    | next t => exact canonical_next (State.memOk_of_mem t.mem_elapse (out t e))
    | fault _ => rintro _ ⟨⟩
    | refused _ => rintro _ ⟨⟩

theorem State.memOk_nextTurn {s : State} (h : s.memOk) : s.nextTurn.2.memOk := by
  unfold State.nextTurn
  split <;> exact h

theorem canonical_step {s : State} (h : s.memOk) : CanonicalOut (step s) := by
  have turn := State.memOk_nextTurn h
  unfold step
  split
  · next e => exact canonical_go (State.memOk_planTurn turn e)
  · split
    · rintro _ ⟨⟩
    · rintro _ ⟨⟩
    · exact canonical_next turn

/-- Settles O7: each part of every instruction, every event and every turn of the environment keeps memory canonical, and so does the step that
they make. -/
theorem stepKeepsMemoryCanonical : Obligations.StepKeepsMemoryCanonical := fun _ _ h e => canonical_step h _ e

end Sys2Proof.Machine
end

section
/-!
PROOFS. Synchronisation within and between cores (R164, R165, R179, R333 to R338; log 18): the fences, MON and MWAIT, and the event lines.
-/

namespace Sys2Proof.Machine

/-! ## Fences (R164, R165, R333 to R335) -/

/-- A release holds its core until what it orders is performed. -/
theorem run_releaseFence_holds {s : State} {scope : Scope} (unmet : ¬(s.releaseMet scope = true ∧ s.commPending s.core.id = false)) :
    releaseFence scope s = .error (.hold .retry) s := by
  unfold releaseFence
  rw [run_bind_ok (run_get s), if_pos (by
    by_cases met : s.releaseMet scope = true
    · have performs : s.commPending s.core.id = true := Bool.eq_true_of_not_eq_false fun done => unmet ⟨met, done⟩
      simp [performs]
    · simp [met])]
  rfl

/-- An acquire holds its core until its earlier results are in. -/
theorem run_acquireFence_holds {s : State} (busy : s.resultsPending = true) : acquireFence s = .error (.hold .retry) s := by
  unfold acquireFence
  rw [run_bind_ok (run_get s), if_pos busy]
  rfl

/-- What a release of SYSTEM scope waits for is every acknowledgement. -/
theorem State.releaseMet_sys (s : State) : s.releaseMet .sys = true ↔ s.core.unack = 0 := beq_iff_eq

section
variable {s : State} (scope : Scope)

/-- The prefetched stream pieces are gone after an acquire. -/
def State.acquired (s : State) : State := s.modCtx fun c => { c with pieces := [] }

theorem completes_fence_acq (idle : s.resultsPending = false) : s.completes (.fence .acq scope) .seq s.acquired :=
  runSeq_ok (run_acquireFence idle)

theorem completes_fence_rel (met : s.releaseMet scope = true) (performed : s.commPending s.core.id = false) :
    s.completes (.fence .rel scope) .seq s :=
  runSeq_ok (run_releaseFence met performed)

theorem completes_fence_full (met : s.releaseMet scope = true) (performed : s.commPending s.core.id = false)
    (idle : s.resultsPending = false) : s.completes (.fence .full scope) .seq s.acquired :=
  runSeq_ok (by
    show (releaseFence scope >>= fun _ => acquireFence) s = _
    rw [run_bind_ok (run_releaseFence met performed)]
    exact run_acquireFence idle)

theorem waits_fence_acq (busy : s.resultsPending = true) : s.waits (.fence .acq scope) .retry s :=
  runSeq_hold (run_acquireFence_holds busy)

theorem waits_fence_rel (unmet : ¬(s.releaseMet scope = true ∧ s.commPending s.core.id = false)) : s.waits (.fence .rel scope) .retry s :=
  runSeq_hold (run_releaseFence_holds unmet)

theorem waits_fence_full (unmet : ¬(s.releaseMet scope = true ∧ s.commPending s.core.id = false)) :
    s.waits (.fence .full scope) .retry s :=
  runSeq_hold (by
    show (releaseFence scope >>= fun _ => acquireFence) s = _
    exact run_bind_error (run_releaseFence_holds unmet))

end

theorem completes_rfence {s : State} (none : s.core.unack = 0) : s.completes .rfence .seq s :=
  runSeq_ok (by
    rw [run_bind_ok (run_get s), if_neg (not_not.mpr none)]
    rfl)

theorem waits_rfence {s : State} (some : s.core.unack ≠ 0) : s.waits .rfence .retry s :=
  runSeq_hold (by
    rw [run_bind_ok (run_get s), if_pos some]
    rfl)

/-! ## The monitor (R179, R336, R337) -/

theorem run_scalarKey {s t : State} {acc : Acc} {p : Word} {n key : Nat} (h : s.admits acc p n key t) : scalarKey acc p n s = .ok key t := by
  unfold scalarKey
  rw [run_bind_ok (run_get s)]
  exact liftChk_ok h

theorem run_coreRead {s u : State} {key n : Nat} (h : s.reads key n u) : coreRead key n s = .ok (u.peek key n) u := by
  obtain ⟨near, -⟩ := id h
  unfold coreRead
  rw [if_neg (by simp [near])]
  exact run_homeRead h

section
variable {s t u : State} {rs1 : Reg} {key : Nat}

/-- MON arms the monitor with the line of what it reads. -/
theorem completes_mon (resolves : s.admits .load (s.ctx.getX rs1) 1 key t) (reads : t.reads key 1 u) :
    s.completes (.mon rs1) .seq (u.modCtx fun c =>
      { c with mon := (s.ctx.getX rs1 &&& 0x00FF_FFFF_FFFF_FF80) ||| 1, monLine := some (key / 128), monHit := false }) :=
  runSeq_ok (by
    obtain ⟨near, -⟩ := id reads
    rw [run_bind_ok (run_getX rs1 s), run_bind_ok (run_scalarKey resolves), if_neg (by simp [near])]
    exact run_bind_ok (run_coreRead reads))

/-- No line off the device can be monitored. -/
theorem traps_mon_far (resolves : s.admits .load (s.ctx.getX rs1) 1 key t) (far : (regionOf key).offDevice = true)
    (idle : t.resultsPending = false) : s.traps (.mon rs1) 8 (s.ctx.getX rs1) s.ctx.pc t :=
  runSeq_trap (r := .here) (by
    rw [run_bind_ok (run_getX rs1 s), run_bind_ok (run_scalarKey resolves)]
    exact run_stops far (run_trap _ _ t)) idle

/-- What ends a wait for the monitored line. -/
def State.waitEnds (s : State) : Prop :=
  s.ctx.mon.getLsbD 0 = false ∨ s.ctx.monHit = true ∨ s.ctx.evPend &&& s.ctx.evEn ≠ 0 ∨ s.kip &&& s.core.kieRead ≠ 0

theorem State.awake_iff (s : State) : s.awake = true ↔ s.waitEnds := by
  unfold State.awake State.interruptPending State.waitEnds bit
  simp only [Bool.or_eq_true, beq_iff_eq, bne_iff_ne, or_assoc]

theorem completes_mwait (reason : s.waitEnds) : s.completes .mwait .seq (s.modCtx Ctx.disarm) :=
  runSeq_ok (by
    rw [run_bind_ok (run_get s), if_neg (by simp [s.awake_iff.mpr reason])]
    rfl)

theorem waits_mwait (none : ¬s.waitEnds) : s.waits .mwait .mwait s :=
  runSeq_hold (by
    have asleep : s.awake = false := Bool.eq_false_iff.mpr fun wakes => none (s.awake_iff.mp wakes)
    rw [run_bind_ok (run_get s), if_pos (by simp [asleep])]
    rfl)

/-- A wait may end for no reason. -/
theorem exec_mwaitSpuriousReturn (waiting : s.core.hold = .mwait) :
    exec .mwaitSpuriousReturn s = .next (s.retired .mwait .seq (s.modCtx Ctx.disarm)) := by
  show execMwaitSpuriousReturn s = _
  unfold execMwaitSpuriousReturn
  rw [if_pos waiting]
  exact runSeq_ok (run_modCtx _ s)

end

/-! ## Event lines (R338) -/

theorem eventBit (ev : BitVec 3) : (1#8 <<< ev.toNat) = BitVec.ofNat 8 (2 ^ ev.toNat) := by
  apply BitVec.eq_of_toNat_eq
  rw [BitVec.toNat_shiftLeft, BitVec.toNat_ofNat, BitVec.toNat_ofNat, Nat.shiftLeft_eq]
  norm_num

section
variable {s : State} {ev : BitVec 3}

/-- EVSIG sends its event and awaits its acknowledgement. -/
theorem completes_evsig {rs1 : Reg} {target : Nat} (names : s.names (s.ctx.getX rs1) target) (room : s.core.unack < 256) :
    s.completes (.evsig rs1 ev) .seq
      ((s.modDev fun d => { d with signals := d.signals ++ [{ core := s.core.id, target := target, ev := ev }] }).modCore
        fun c => { c with unack := c.unack + 1 }) :=
  runSeq_ok (by
    rw [run_bind_ok (run_get s), run_bind_ok (run_getX rs1 s), run_bind_ok (liftChk_ok names), run_bind_ok (run_roomFor room)]
    rfl)

/-- An event that no earlier one of its pair is before lands. -/
theorem exec_eventSignalLand {k : Nat} {e : EvSignal} (sent : s.dev.signals[k]? = some e)
    (first : ∀ f ∈ s.dev.signals.take k, f.core ≠ e.core ∨ f.target ≠ e.target) :
    exec (.eventSignalLand k) s = .next
      (((s.modDev fun d => { d with signals := d.signals.eraseIdx k }).modCtxId e.target
        fun c => { c with evPend := c.evPend ||| BitVec.ofNat 8 (2 ^ e.ev.toNat) }).acknowledge e.core) := by
  have inOrder : ¬((s.dev.signals.take k).any fun f => f.core == e.core && f.target == e.target) = true := by
    rw [List.any_eq_true]
    rintro ⟨f, earlier, same⟩
    rw [Bool.and_eq_true, beq_iff_eq, beq_iff_eq] at same
    exact (first f earlier).elim (absurd same.1) (absurd same.2)
  show execEventSignalLand k s = _
  unfold execEventSignalLand
  rw [sent]
  dsimp only
  rw [if_neg inOrder, eventBit]

theorem completes_evwait (pending : s.ctx.evPend.getLsbD ev.toNat = true) :
    s.completes (.evwait ev) .seq (s.modCtx fun c => { c with evPend := c.evPend &&& ~~~(BitVec.ofNat 8 (2 ^ ev.toNat)) }) :=
  runSeq_ok (by
    rw [run_bind_ok (run_getCtx s), if_neg (by simp [pending]), eventBit]
    rfl)

theorem waits_evwait (none : s.ctx.evPend.getLsbD ev.toNat = false) : s.waits (.evwait ev) .retry s :=
  runSeq_hold (by
    rw [run_bind_ok (run_getCtx s), if_pos none]
    rfl)

end

/-- Settles O30: the fences by what they order, MON by where its line is, MWAIT by its reason to return, and the events by their pending bit. -/
theorem synchronisationResults : Obligations.SynchronisationResults := by
  unfold Obligations.SynchronisationResults
  refine ⟨fun s scope => ?_, fun s t u rs1 key => ?_, fun s rs1 ev target k e => ?_⟩
  case refine_1 =>
    exact ⟨completes_fence_acq scope, fun h => completes_fence_rel scope h.1 h.2, fun ⟨h, idle⟩ => completes_fence_full scope h.1 h.2 idle,
      fun busy => waits_fence_acq scope (Bool.eq_true_of_not_eq_false busy), fun unmet => ⟨waits_fence_rel scope unmet, waits_fence_full scope unmet⟩,
      fun sys => sys ▸ s.releaseMet_sys, completes_rfence, waits_rfence⟩
  case refine_2 =>
    exact ⟨fun ⟨resolves, reads⟩ => completes_mon resolves reads, fun ⟨resolves, far, idle⟩ => traps_mon_far resolves far idle,
      completes_mwait, waits_mwait, exec_mwaitSpuriousReturn⟩
  case refine_3 =>
    exact ⟨fun ⟨names, room⟩ => completes_evsig names room, fun ⟨sent, first⟩ => exec_eventSignalLand sent first,
      completes_evwait, waits_evwait⟩

end Sys2Proof.Machine
end

section
/-!
PROOFS. AMO and CAS (R171 to R175, R345, R346; logs 31, 40): what their operations compute, and what each ordering and use does on the device.
-/

namespace Sys2Proof.Machine

/-! ## The operations (R345) -/

/-- Where the signed comparison of the model is strict, that of the specification turned round is not. -/
theorem slt_iff (x v : Word) : x.slt v = true ↔ ¬v.toInt ≤ x.toInt := by
  rw [BitVec.slt_iff_toInt_lt, Int.not_le]

theorem ult_iff (x v : Word) : x.ult v = true ↔ ¬v.toNat ≤ x.toNat := by
  rw [BitVec.ult_iff_lt, BitVec.lt_def, Nat.not_le]

theorem amoApply_add (x v : Word) : amoApply .add x v = BitVec.ofNat 64 (x.toNat + v.toNat) := by
  apply BitVec.eq_of_toNat_eq
  rw [BitVec.toNat_ofNat]
  exact BitVec.toNat_add x v

/-- The lesser of two equal words is either. -/
theorem amoApply_min (x v : Word) : amoApply .min x v = if x.toInt ≤ v.toInt then x else v := by
  show (if x.slt v = true then x else v) = _
  rcases lt_trichotomy x.toInt v.toInt with less | same | more
  · rw [if_pos ((slt_iff x v).mpr (Int.not_le.mpr less)), if_pos less.le]
  · rw [BitVec.eq_of_toInt_eq same, ite_self, ite_self]
  · rw [if_neg (fun h => (slt_iff x v).mp h more.le), if_neg (Int.not_le.mpr more)]

theorem amoApply_max (x v : Word) : amoApply .max x v = if v.toInt ≤ x.toInt then x else v := by
  show (if x.slt v = true then v else x) = _
  by_cases least : v.toInt ≤ x.toInt
  · rw [if_neg (fun h => (slt_iff x v).mp h least), if_pos least]
  · rw [if_pos ((slt_iff x v).mpr least), if_neg least]

theorem amoApply_minu (x v : Word) : amoApply .minu x v = if x.toNat ≤ v.toNat then x else v := by
  show (if x.ult v = true then x else v) = _
  rcases lt_trichotomy x.toNat v.toNat with less | same | more
  · rw [if_pos ((ult_iff x v).mpr (Nat.not_le.mpr less)), if_pos less.le]
  · rw [BitVec.eq_of_toNat_eq same, ite_self, ite_self]
  · rw [if_neg (fun h => (ult_iff x v).mp h more.le), if_neg (Nat.not_le.mpr more)]

theorem amoApply_maxu (x v : Word) : amoApply .maxu x v = if v.toNat ≤ x.toNat then x else v := by
  show (if x.ult v = true then v else x) = _
  by_cases least : v.toNat ≤ x.toNat
  · rw [if_neg (fun h => (ult_iff x v).mp h least), if_pos least]
  · rw [if_pos ((ult_iff x v).mpr least), if_neg least]

/-! ## An operation that is performed (R159, R345) -/

section
variable {s u : State} {key : Nat}

theorem State.performOp_amo (sound : u.dev.badWord key 8 = none) (op : AmoOp) (v : Word) :
    u.performOp key (.amo op v) =
      (BitVec.ofNat 64 (u.value key 8), u.poke key (leBytes 8 (amoApply op (BitVec.ofNat 64 (u.value key 8)) v).toNat)) := by
  unfold State.performOp Dev.opBad
  dsimp only
  rw [sound]
  rfl

theorem State.performOp_cas (sound : u.dev.badWord key 8 = none) (c v : Word) :
    u.performOp key (.cas c v) =
      (BitVec.ofNat 64 (u.value key 8), if BitVec.ofNat 64 (u.value key 8) = c then u.poke key (leBytes 8 v.toNat) else u) := by
  unfold State.performOp Dev.opBad
  dsimp only
  rw [sound]
  rfl

theorem run_performNow (reads : s.reads key 8 u) (op : FlightOp) :
    performNow key op s = .ok (u.performOp key op).1 (u.performOp key op).2 := by
  unfold performNow
  rw [run_bind_ok (run_homeRead reads)]
  rfl

theorem run_performNow_amo (reads : s.reads key 8 u) (op : AmoOp) (v : Word) :
    performNow key (.amo op v) s =
      .ok (BitVec.ofNat 64 (u.value key 8)) (u.poke key (leBytes 8 (amoApply op (BitVec.ofNat 64 (u.value key 8)) v).toNat)) := by
  obtain ⟨-, -, -, sound⟩ := id reads
  rw [run_performNow reads, State.performOp_amo sound]

theorem run_performNow_cas (reads : s.reads key 8 u) (c v : Word) :
    performNow key (.cas c v) s =
      .ok (BitVec.ofNat 64 (u.value key 8)) (if BitVec.ofNat 64 (u.value key 8) = c then u.poke key (leBytes 8 v.toNat) else u) := by
  obtain ⟨-, -, -, sound⟩ := id reads
  rw [run_performNow reads, State.performOp_cas sound]

end

/-! ## From an instruction to its operation -/

/-- The step of an atomic is its body, with the pointer and the operation that its registers name. -/
def State.issues (s : State) (i : Instr) (ord : AtomOrder) (p : Word) (op : FlightOp) (rd : Reg) : Prop :=
  exec i s = runFlow i (atomic i ord p op rd) s

theorem issues_amo (s : State) (op : AmoOp) (ord : AtomOrder) (rd rs1 rs2 : Reg) :
    s.issues (.amo op ord rd rs1 rs2) ord (s.ctx.getX rs1) (.amo op (s.ctx.getX rs2)) rd := by
  show execAmo op ord rd rs1 rs2 s = _
  unfold execAmo
  exact runFlow_congr (by rw [run_bind_ok (run_getX rs1 s), run_bind_ok (run_getX rs2 s)])

theorem issues_cas (s : State) (ord : AtomOrder) (rd rs1 rs2 : Reg) :
    s.issues (.cas ord rd rs1 rs2) ord (s.ctx.getX rs1) (.cas (s.ctx.getX rd) (s.ctx.getX rs2)) rd := by
  show execCas ord rd rs1 rs2 s = _
  unfold execCas
  exact runFlow_congr (by rw [run_bind_ok (run_getX rs1 s), run_bind_ok (run_getX rd s), run_bind_ok (run_getX rs2 s)])

section
variable {s t : State} {i : Instr} {ord : AtomOrder} {p : Word} {op : FlightOp} {rd : Reg}

theorem State.issues.completes (issued : s.issues i ord p op rd) (h : atomic i ord p op rd s = .ok .seq t) : s.completes i .seq t :=
  issued.trans (runFlow_ok h)

theorem State.issues.waits {w : Hold} (issued : s.issues i ord p op rd) (h : atomic i ord p op rd s = .error (.hold w) t) : s.waits i w t :=
  issued.trans (runFlow_hold h)

theorem State.issues.traps {n : Nat} {info : Word} (issued : s.issues i ord p op rd)
    (h : atomic i ord p op rd s = .error (.trap n info .here) t) (idle : t.resultsPending = false) : s.traps i n info s.ctx.pc t :=
  issued.trans (runFlow_trap h idle)

end

theorem regionOf_ne_host {key : Nat} (near : (regionOf key).offDevice = false) : (regionOf key == .hostMem) = false := by
  rw [beq_eq_false_iff_ne]
  intro host
  rw [host] at near
  cases near

/-- What an atomic that is not speculative does once its pointer has passed its checks. -/
def carryOut (i : Instr) (ord : AtomOrder) (key : Nat) (op : FlightOp) (rd : Reg) : Act Flow :=
  match ord with
  | .relaxed .unp => do
    soundFor key op
    roomFor 1
    modify fun s => s.launchFlight key op false false (some rd)
    return .seq
  | .relaxed .comm => do
    soundFor key op
    roomFor 1
    modify fun s => s.launchFlight key op true false none
    return .seq
  | .relaxed .quant => do
    soundFor key op
    interfaceRoom
    modify fun s => s.broadcast (.quantum key op rd) [0]
    return .seq
  | _ => holdingAtomic i ord key op rd

theorem run_atomic {s t : State} {i : Instr} {ord : AtomOrder} {p : Word} {op : FlightOp} {rd : Reg} {key : Nat}
    (plain : ord ≠ .relaxed .spec) (resolves : s.admits .rmw p 8 key t) (near : (regionOf key).offDevice = false) :
    atomic i ord p op rd s = carryOut i ord key op rd t := by
  unfold atomic
  rw [if_neg plain, run_bind_ok (run_scalarKey resolves), run_unless (by simp [regionOf_ne_host near])]
  rfl

/-! ## Those that hold the core (R165, R171, R172) -/

section
variable {s t x : State} {i : Instr} {ord : AtomOrder} {p old : Word} {op : FlightOp} {rd : Reg} {key : Nat}

/-- The ordered atomics and the non-ordering ones hold their core until the old value returns. -/
def holdsCore (ord : AtomOrder) : Prop := ∀ use, ord = .relaxed use → use = .nord

theorem run_atomic_holding (holding : holdsCore ord) (resolves : s.admits .rmw p 8 key t) (near : (regionOf key).offDevice = false) :
    atomic i ord p op rd s = holdingAtomic i ord key op rd t := by
  rw [run_atomic (fun spec => nomatch holding .spec spec) resolves near]
  cases ord with
  | relaxed use =>
    obtain rfl := holding use rfl
    rfl
  | acq scope => rfl
  | rel scope => rfl
  | acqrel scope => rfl

/-- What the release part of an atomic orders is performed. -/
def State.releaseDone (t : State) (ord : AtomOrder) : Prop :=
  ∀ scope, orderReleases ord = some scope → t.releaseMet scope = true ∧ t.commPending t.core.id = false

/-- Once its release is met, an atomic on the device performs its operation; an acquire then waits for earlier results. -/
theorem run_holdingAtomic (near : (regionOf key).offDevice = false) (released : t.releaseDone ord) (performed : performNow key op t = .ok old x) :
    holdingAtomic i ord key op rd t =
      (do
        if orderAcquires ord then acquireWith i key old
        setX rd old
        return .seq : Act Flow) x := by
  unfold holdingAtomic
  have notFar : ¬(regionOf key).offDevice = true := by simp [near]
  cases release : orderReleases ord with
  | none =>
    dsimp only
    rw [if_neg notFar, run_bind_ok performed]
  | some scope =>
    obtain ⟨met, done⟩ := released scope release
    dsimp only
    rw [run_bind_ok (run_releaseFence met done), if_neg notFar, run_bind_ok performed]

theorem run_acquireWith (idle : x.resultsPending = false) : acquireWith i key old x = .ok () x.acquired := by
  unfold acquireWith
  rw [run_bind_ok (run_get x), if_neg (Bool.eq_false_iff.mp idle)]
  rfl

/-- The value of an acquire that has to wait for earlier results stays with its core. -/
def State.keepsValue (x : State) (i : Instr) (key : Nat) (old : Word) : State :=
  x.modCore fun c => { c with out := some { word := some (wordOf i), home := key, width := 8, value := some old, failed := false } }

theorem run_acquireWith_waits (busy : x.resultsPending = true) : acquireWith i key old x = .error (.hold .load) (x.keepsValue i key old) := by
  unfold acquireWith
  rw [run_bind_ok (run_get x), if_pos busy]
  rfl

section
variable (issued : s.issues i ord p op rd) (holding : holdsCore ord) (resolves : s.admits .rmw p 8 key t)
  (near : (regionOf key).offDevice = false)
include issued holding resolves near

theorem State.issues.completes_plain (plain : orderAcquires ord = false) (released : t.releaseDone ord)
    (performed : performNow key op t = .ok old x) : s.completes i .seq (x.setX rd old) :=
  issued.completes (by
    rw [run_atomic_holding holding resolves near, run_holdingAtomic near released performed, if_neg (Bool.eq_false_iff.mp plain)]
    rfl)

theorem State.issues.completes_acquired (acquires : orderAcquires ord = true) (released : t.releaseDone ord)
    (performed : performNow key op t = .ok old x) (idle : x.resultsPending = false) : s.completes i .seq (x.acquired.setX rd old) :=
  issued.completes (by
    rw [run_atomic_holding holding resolves near, run_holdingAtomic near released performed, if_pos acquires,
      run_bind_ok (run_acquireWith idle)]
    rfl)

theorem State.issues.waits_results (acquires : orderAcquires ord = true) (released : t.releaseDone ord)
    (performed : performNow key op t = .ok old x) (busy : x.resultsPending = true) : s.waits i .load (x.keepsValue i key old) :=
  issued.waits (by
    rw [run_atomic_holding holding resolves near, run_holdingAtomic near released performed]
    exact run_stops acquires (run_acquireWith_waits busy))

theorem State.issues.waits_release {scope : Scope} (releases : orderReleases ord = some scope)
    (unmet : t.releaseMet scope = false ∨ t.commPending t.core.id = true) : s.waits i .retry t :=
  issued.waits (by
    have unreleased : ¬(t.releaseMet scope = true ∧ t.commPending t.core.id = false) := by
      rcases unmet with h | h <;> simp [h]
    rw [run_atomic_holding holding resolves near]
    unfold holdingAtomic
    rw [releases]
    exact run_bind_error (run_releaseFence_holds unreleased))

end

theorem holdsCore_nord : holdsCore (AtomOrder.relaxed .nord) := fun _ h => (AtomOrder.relaxed.inj h).symm
theorem holdsCore_acq (scope : Scope) : holdsCore (AtomOrder.acq scope) := fun _ => nofun
theorem holdsCore_rel (scope : Scope) : holdsCore (AtomOrder.rel scope) := fun _ => nofun
theorem holdsCore_acqrel (scope : Scope) : holdsCore (AtomOrder.acqrel scope) := fun _ => nofun

/-- An order without a release part has nothing to wait for. -/
theorem State.releaseDone_none (none : orderReleases ord = none) : t.releaseDone ord := fun _ some => nomatch none.symm.trans some

theorem State.releaseDone_some {scope : Scope} (releases : orderReleases ord = some scope)
    (released : t.releaseMet scope = true ∧ t.commPending t.core.id = false) : t.releaseDone ord :=
  fun _ other => Option.some.inj (releases.symm.trans other) ▸ released

end

/-! ## Speculative ones whose translation hits (R174) -/

section
variable {s t x : State} {i : Instr} {p old : Word} {op : FlightOp} {rd : Reg} {key : Nat}

/-- The state after a speculative atomic has drawn whether it is declined. -/
def State.drawn (t : State) : State := { t with fresh := t.fresh + 1 }

theorem run_specChecks (scalar : p.toNat / 2 ^ 59 < 10) (canon : isMesh p = true ∨ bits p 48 7 = 0) (aligned : alignedTo p 8 = true) :
    specChecks p s = .ok () s := by
  unfold specChecks checkScalar
  rw [if_neg (show ¬10 ≤ fmtOf p from Nat.not_le.mpr scalar), run_bind_ok (run_pure () s),
    if_neg (by rcases canon with h | h <;> simp [h]), if_neg (by simp [aligned])]
  rfl

/-- What resolves has passed the checks that come before its translation. -/
theorem run_specChecks_of_admits (resolves : s.admits .rmw p 8 key t) : specChecks p s = .ok () s := by
  have run : scalarChecks s.who .rmw p 8 s = .ok key t := run_of_runChk_ok resolves
  have scalar : p.toNat / 2 ^ 59 < 10 := by
    by_contra reserved
    exact nomatch run.symm.trans (run_scalarChecks_format (Nat.not_lt.mp reserved))
  rw [run_scalarChecks scalar] at run
  have canon : isMesh p = true ∨ bits p 48 7 = 0 := by
    by_contra high
    rw [not_or] at high
    exact nomatch run.symm.trans (run_resolve_noncanon (Bool.eq_false_iff.mpr high.1) high.2)
  have aligned : alignedTo p 8 = true := by
    by_contra misaligned
    exact nomatch run.symm.trans (run_resolve_misaligned canon (Bool.eq_false_iff.mpr misaligned))
  exact run_specChecks scalar canon aligned

/-- After a hit, a speculative atomic on the device fails or performs its operation. -/
theorem run_atomic_spec (resolves : s.admits .rmw p 8 key t) (near : (regionOf key).offDevice = false) (hit : s.missesTlb p = false) :
    atomic i (.relaxed .spec) p op rd s =
      (if t.quantumOn key 8 || Config.specDeclined t.fresh then do
        setX rd 0
        return .seq
      else do
        setX rd (specResult op (← performNow key op))
        return .seq : Act Flow) t.drawn := by
  unfold atomic specAtomic
  rw [if_pos rfl, run_bind_ok (liftChk_ok (runChk_ok (run_specChecks_of_admits resolves))), run_bind_ok (run_get s),
    if_neg (by simp [hit]), run_bind_ok (run_scalarKey resolves), run_unless (by simp [regionOf_ne_host near])]
  dsimp only
  rw [run_bind_ok (run_modifyGet State.takeFresh t), run_bind_ok (run_get _)]
  show (if (t.quantumOn key 8 || Config.specDeclined t.fresh) = true then _ else _ : Act Flow) t.drawn = _
  by_cases fails : (t.quantumOn key 8 || Config.specDeclined t.fresh) = true
  · rw [if_pos fails, if_pos fails]
  · rw [if_neg fails, if_neg fails, if_neg (by simp [near])]

theorem State.issues.completes_declined (issued : s.issues i (.relaxed .spec) p op rd) (resolves : s.admits .rmw p 8 key t)
    (near : (regionOf key).offDevice = false) (hit : s.missesTlb p = false)
    (fails : t.quantumOn key 8 = true ∨ Config.specDeclined t.fresh = true) : s.completes i .seq (t.drawn.setX rd 0) :=
  issued.completes (by
    rw [run_atomic_spec resolves near hit, if_pos ((Bool.or_eq_true _ _).mpr fails)]
    rfl)

theorem specResult_cas (c v : Word) : specResult (.cas c v) old = if old = c then 1 else 0 := rfl

theorem State.issues.completes_spec {result : Word} (issued : s.issues i (.relaxed .spec) p op rd) (resolves : s.admits .rmw p 8 key t)
    (near : (regionOf key).offDevice = false) (hit : s.missesTlb p = false) (taken : Config.specDeclined t.fresh = false)
    (free : t.drawn.quantumOn key 8 = false) (performed : performNow key op t.drawn = .ok old x)
    (shows : specResult op old = result) : s.completes i .seq (x.setX rd result) :=
  issued.completes (by
    have same : t.quantumOn key 8 = false := free
    rw [run_atomic_spec resolves near hit, if_neg (by simp [same, taken]), run_bind_ok performed, shows]
    rfl)

end

/-! ## Those that leave the core (R31, R163, R173) -/

section
variable {s t u : State} {i : Instr} {use : AtomUse} {p : Word} {op : FlightOp} {rd : Reg} {key : Nat}

/-- What an operation reads at its home: the word that an AMO or CAS changes. -/
def FlightOp.isRmw (op : FlightOp) : Prop := ∀ d : Dev, ∀ key, d.opBad key op = d.badWord key 8

theorem isRmw_amo (op : AmoOp) (v : Word) : (FlightOp.amo op v).isRmw := fun _ _ => rfl
theorem isRmw_cas (c v : Word) : (FlightOp.cas c v).isRmw := fun _ _ => rfl

/-- A bad word that the core would read behind its own accesses traps as the atomic is issued (R80, log 31). -/
theorem run_soundFor_traps {w : Nat} (rmw : op.isRmw) (free : t.quantumOn key 8 = false) (bad : (t.dev.badWord key 8).isSome = true)
    (drained : u = t.drainLines t.core.id key 8 t.dev.seq) (still : u.dev.badWord key 8 = some w) :
    soundFor key op t = .error (.trap 24 (u.meetError w).1 .here) (u.meetError w).2 := by
  unfold soundFor
  rw [run_bind_ok (run_get t), run_bind_ok (run_get t), rmw, if_pos (by simp [free, bad]), run_bind_ok (run_modify _ t), ← drained,
    run_bind_ok (run_get u), rmw, still]
  exact run_bind_ok (run_modifyGet _ u)

theorem State.issues.traps_bad (issued : s.issues i (.relaxed use) p op rd) (resolves : s.admits .rmw p 8 key t)
    (near : (regionOf key).offDevice = false) {w : Nat} (leaves : use = .unp ∨ use = .comm ∨ use = .quant) (rmw : op.isRmw) (free : t.quantumOn key 8 = false)
    (bad : (t.dev.badWord key 8).isSome = true) (drained : u = t.drainLines t.core.id key 8 t.dev.seq) (still : u.dev.badWord key 8 = some w)
    (idle : (u.meetError w).2.resultsPending = false) : s.traps i 24 (u.meetError w).1 s.ctx.pc (u.meetError w).2 :=
  issued.traps (by
    have unsound := run_soundFor_traps rmw free bad drained still
    rw [run_atomic (by rcases leaves with rfl | rfl | rfl <;> decide) resolves near]
    rcases leaves with rfl | rfl | rfl
    · exact run_bind_error unsound
    · exact run_bind_error unsound
    · exact run_bind_error unsound) idle

section
variable (resolves : s.admits .rmw p 8 key t) (near : (regionOf key).offDevice = false)
  (sound : t.dev.opBad key op = none ∨ t.quantumOn key 8 = true) (room : t.core.unack < 256)
include resolves near sound room

theorem State.issues.completes_unp (issued : s.issues i (.relaxed .unp) p op rd) :
    s.completes i .seq (t.launchFlight key op false false (some rd)) :=
  issued.completes (by
    rw [run_atomic (by decide) resolves near]
    exact (run_bind_ok (run_soundFor sound)).trans (run_bind_ok (run_roomFor room)))

theorem State.issues.completes_comm (issued : s.issues i (.relaxed .comm) p op rd) :
    s.completes i .seq (t.launchFlight key op true false none) :=
  issued.completes (by
    rw [run_atomic (by decide) resolves near]
    exact (run_bind_ok (run_soundFor sound)).trans (run_bind_ok (run_roomFor room)))

theorem State.issues.completes_quant (queue : t.core.bq.length < 16) (issued : s.issues i (.relaxed .quant) p op rd) :
    s.completes i .seq (t.broadcast (.quantum key op rd) [0]) :=
  issued.completes (by
    rw [run_atomic (by decide) resolves near]
    exact (run_bind_ok (run_soundFor sound)).trans (run_bind_ok (run_interfaceRoom queue room)))

end

end

/-! ## Speculative ones whose translation misses (R174, R346) -/

section
variable {s : State} {i : Instr} {p : Word} {op : FlightOp} {rd : Reg}

/-- Whether a kept page fault is that of the page that a pointer names in the address space of the core. -/
def State.faultsHere (s : State) (p : Word) (g : SpecFault) : Bool := g.kptb == s.core.kptb && g.page == p.toNat / 2 ^ 12 % 2 ^ 36

theorem run_atomic_miss (scalar : p.toNat / 2 ^ 59 < 10) (canon : p.extractLsb' 48 7 = 0)
    (aligned : p.toNat % 8 = 0) (miss : s.missesTlb p = true) : atomic i (.relaxed .spec) p op rd s = specMiss p rd s := by
  have high : bits p 48 7 = 0 := by
    have zero := congrArg BitVec.toNat canon
    rwa [BitVec.extractLsb'_toNat, Nat.shiftRight_eq_div_pow] at zero
  have passes : specChecks p s = .ok () s := run_specChecks scalar (.inr high) ((alignedTo_iff (by decide)).mpr aligned)
  unfold atomic specAtomic
  rw [if_pos rfl, run_bind_ok (liftChk_ok (runChk_ok passes)), run_bind_ok (run_get s), if_pos miss]

/-- The first miss to a page fails and starts a walk. -/
theorem run_specMiss_walks (unfaulted : ∀ g ∈ s.core.specFault, s.faultsHere p g = false) :
    specMiss p rd s = .ok .seq ((s.endSpecWalk.modCore fun c => { c with specWalk := some (s.core.kptb, p) }).setX rd 0) := by
  have unfound : (s.core.specFault.find? fun f => f.isAt s.core.kptb p) = none :=
    List.find?_eq_none.mpr fun g mem => Bool.eq_false_iff.mp (unfaulted g mem)
  unfold specMiss
  rw [run_bind_ok (run_get s), run_bind_ok (run_get s), unfound]
  rfl

/-- The next miss to a page whose walk ended in a page fault takes it. -/
theorem run_specMiss_traps {g : SpecFault} (found : s.core.specFault.find? (s.faultsHere p) = some g) :
    specMiss p rd s = .error (.trap g.cause g.info .here)
      (s.modCore fun c => { c with specFault := c.specFault.filter fun x => !(s.faultsHere p x) }) := by
  have same : (s.core.specFault.find? fun f => f.isAt s.core.kptb p) = some g := found
  unfold specMiss
  rw [run_bind_ok (run_get s), run_bind_ok (run_get s), same]
  rfl

end

/-! ## AMO and CAS, each by its ordering and use -/

/-- Every order but the speculative one, for an instruction whose operation gives `old` and the state `x`: what it ends in. -/
structure HoldingOutcomes (s t x : State) (mk : AtomOrder → Instr) (key : Nat) (old : Word) (rd : Reg) : Prop where
  nord : s.completes (mk (.relaxed .nord)) .seq (x.setX rd old)
  rel (scope : Scope) (released : t.releaseMet scope = true ∧ t.commPending t.core.id = false) : s.completes (mk (.rel scope)) .seq (x.setX rd old)
  acq (scope : Scope) (idle : x.resultsPending = false) : s.completes (mk (.acq scope)) .seq (x.acquired.setX rd old)
  acqrel (scope : Scope) (idle : x.resultsPending = false) (released : t.releaseMet scope = true ∧ t.commPending t.core.id = false) :
    s.completes (mk (.acqrel scope)) .seq (x.acquired.setX rd old)
  waits (scope : Scope) (busy : x.resultsPending = true) : s.waits (mk (.acq scope)) .load (x.keepsValue (mk (.acq scope)) key old)
  unreleased (scope : Scope) (unmet : t.releaseMet scope = false ∨ t.commPending t.core.id = true) :
    s.waits (mk (.rel scope)) .retry t ∧ s.waits (mk (.acqrel scope)) .retry t

theorem holdingOutcomes {s t x : State} {mk : AtomOrder → Instr} {p old : Word} {op : FlightOp} {rd : Reg} {key : Nat}
    (issued : ∀ ord, s.issues (mk ord) ord p op rd) (resolves : s.admits .rmw p 8 key t) (near : (regionOf key).offDevice = false)
    (performed : performNow key op t = .ok old x) : HoldingOutcomes s t x mk key old rd where
  nord := (issued _).completes_plain holdsCore_nord resolves near rfl (State.releaseDone_none rfl) performed
  rel scope released :=
    (issued _).completes_plain (holdsCore_rel scope) resolves near rfl (State.releaseDone_some rfl released) performed
  acq scope idle := (issued _).completes_acquired (holdsCore_acq scope) resolves near rfl (State.releaseDone_none rfl) performed idle
  acqrel scope idle released :=
    (issued _).completes_acquired (holdsCore_acqrel scope) resolves near rfl (State.releaseDone_some rfl released) performed idle
  waits scope busy := (issued _).waits_results (holdsCore_acq scope) resolves near rfl (State.releaseDone_none rfl) performed busy
  unreleased scope unmet := ⟨(issued _).waits_release (holdsCore_rel scope) resolves near rfl unmet,
    (issued _).waits_release (holdsCore_acqrel scope) resolves near rfl unmet⟩

/-- Settles O34: each clause from the body of the atomic by its order, AMO and CAS alike. -/
theorem atomicResults : Obligations.AtomicResults := by
  unfold Obligations.AtomicResults
  intro s t u rd rs1 rs2 key op
  dsimp only
  have amo (ord : AtomOrder) := issues_amo s op ord rd rs1 rs2
  have cas (ord : AtomOrder) := issues_cas s ord rd rs1 rs2
  refine ⟨fun x v => ?operations, fun resolves near => ⟨fun reads => ?holding, fun hit => ?spec, fun ⟨sound, room⟩ => ?leaving,
    fun w ⟨free, bad, drained, still, idle⟩ i which => ?bad, fun ⟨sound, queue, room⟩ => ?quantum⟩, fun i which found => ?miss⟩
  case operations =>
    exact ⟨amoApply_add x v, rfl, rfl, rfl, rfl, amoApply_min x v, amoApply_max x v, amoApply_minu x v, amoApply_maxu x v⟩
  case holding =>
    have amoEnds := holdingOutcomes amo resolves near (run_performNow_amo reads op _)
    have casEnds := holdingOutcomes cas resolves near (run_performNow_cas reads _ _)
    exact ⟨amoEnds.nord, casEnds.nord, fun scope => ⟨fun released => ⟨amoEnds.rel scope released, casEnds.rel scope released⟩,
      fun idle => ⟨amoEnds.acq scope idle, amoEnds.acqrel scope idle⟩, fun idle => ⟨casEnds.acq scope idle, casEnds.acqrel scope idle⟩,
      amoEnds.waits scope, fun unmet => by
        obtain ⟨amoRel, amoBoth⟩ := amoEnds.unreleased scope unmet
        obtain ⟨casRel, casBoth⟩ := casEnds.unreleased scope unmet
        exact ⟨amoRel, amoBoth, casRel, casBoth⟩⟩⟩
  case spec =>
    refine ⟨fun fails => ⟨(amo _).completes_declined resolves near hit fails, (cas _).completes_declined resolves near hit fails⟩,
      fun taken reads => ?_⟩
    obtain ⟨-, free, -⟩ := id reads
    exact ⟨(amo _).completes_spec resolves near hit taken free (run_performNow_amo reads op _) rfl,
      (cas _).completes_spec resolves near hit taken free (run_performNow_cas reads _ _) (specResult_cas _ _)⟩
  case leaving =>
    exact ⟨(amo _).completes_unp resolves near sound room, (cas _).completes_unp resolves near sound room,
      (amo _).completes_comm resolves near sound room⟩
  case bad =>
    rcases which with rfl | rfl | rfl | rfl | rfl
    · exact (amo _).traps_bad resolves near (.inl rfl) (isRmw_amo op _) free bad drained still idle
    · exact (cas _).traps_bad resolves near (.inl rfl) (isRmw_cas _ _) free bad drained still idle
    · exact (amo _).traps_bad resolves near (.inr (.inl rfl)) (isRmw_amo op _) free bad drained still idle
    · exact (amo _).traps_bad resolves near (.inr (.inr rfl)) (isRmw_amo op _) free bad drained still idle
    · exact (cas _).traps_bad resolves near (.inr (.inr rfl)) (isRmw_cas _ _) free bad drained still idle
  case quantum =>
    exact ⟨(amo _).completes_quant resolves near sound room queue, (cas _).completes_quant resolves near sound room queue⟩
  case miss =>
    obtain ⟨scalar, -, canon, aligned, miss⟩ := found
    obtain ⟨fop, issued⟩ : ∃ fop, s.issues i (.relaxed .spec) (s.ctx.getX rs1) fop rd := by
      rcases which with rfl | rfl
      · exact ⟨_, amo _⟩
      · exact ⟨_, cas _⟩
    have body := run_atomic_miss (i := i) (op := fop) (rd := rd) scalar canon aligned miss
    exact ⟨fun none => issued.completes (body.trans (run_specMiss_walks none)),
      fun g kept idle => issued.traps (body.trans (run_specMiss_traps kept)) idle⟩

end Sys2Proof.Machine
end
